-- ==== Sys2Proof/Word.lean ====
section
/-! DEFINITION. The word types of the module and their plainest arithmetic. -/

namespace Sys2Proof

/-- A byte. -/
abbrev Byte := BitVec 8

/-- A 32-bit register value. -/
abbrev Word := BitVec 32

/-- A 64-bit register value. -/
abbrev Dword := BitVec 64

/-- A vector register: 128 bytes, byte 0 in bits [7:0] (R81). -/
abbrev VReg := BitVec 1024

/-- A host byte that a command carries: an address and the byte there. -/
abbrev HostCell := Nat × Byte

end Sys2Proof
end

