-- ==== Sys2Proof/Records.lean ====
section
/-! DEFINITION. The records that leave a module whole: a task, and the parts of a snapshot (R81, R516). A `Tbl` is a finite
table with a default, so that ten thousand tiles are plain data. -/

namespace Sys2Proof.Machine

/-- A finite table from Nat keys; a key not listed holds the table's default. -/
abbrev Tbl (α : Type) := List (Nat × α)

/-- Byte memory: address and byte, addresses strictly rising, no byte equal to the one an unlisted address
reads as, which is zero (log entry 1). -/
abbrev Mem := List Host.Cell

/-- The byte an unlisted address reads as. -/
def Mem.blank : Byte := 0

/-- TASKn_CTRL.STATE: idle, running, at the Curfew, halted by fault, halted by program end. -/
inductive TaskState where
  | idle | running | atCurfew | faulted | ended
deriving DecidableEq, Repr

/-- Why a task could not issue at its last offer (R82, R123, R421). -/
inductive Hold where
  | none | interlock | token | sends | drains | checker | region | resource
deriving DecidableEq, Repr

/-- A tensor slot (R131). -/
structure Slot where
  filled : Bool
  tensor : BitVec 16
  format : BitVec 2
  ovf : Bool
  exp : BitVec 8
  amax : Word
  sat : Word
deriving DecidableEq, Repr

/-- A slot nothing has filled. -/
def Slot.empty : Slot := ⟨false, 0, 0, false, 0, 0, 0⟩

/-- The array configuration that ACFG sets (R135). -/
structure ArrayCfg where
  slotA : BitVec 4
  slotB : BitVec 4
  fmtA : BitVec 3
  fmtB : BitVec 3
deriving DecidableEq, Repr

/-- A core load whose data has not returned (R88, R109). -/
structure Load where
  vector : Bool
  pc : BitVec 16
  dest : BitVec 5
  data : VReg
  poison : Bool
deriving DecidableEq, Repr

/-- An open accumulate region: its token and the completions left until it closes (R107). -/
structure Region where
  token : BitVec 4
  left : BitVec 16
deriving DecidableEq, Repr

/-- A task's architectural state (R81), its hidden poison bits (R216), its control-space registers
(TASKn_SP, _IS, _ACC, _OVF, _CTRL), its slot list (R465) and what it waits for. -/
structure Task where
  s : Tbl Word
  a : Tbl Word
  p : BitVec 8
  v : Tbl VReg
  pc : BitVec 16
  tokens : Tbl (BitVec 16)
  cfg : Option ArrayCfg
  slots : Tbl Slot
  poisonS : BitVec 32
  poisonA : BitVec 16
  poisonV : BitVec 16
  sp : Word
  is : Word
  acc : Word
  ovf : Word
  ctrl : Word
  state : TaskState
  slotMask : BitVec 16
  slotTensors : Tbl (BitVec 16)
  loads : List Load
  region : Option Region
  opening : Option Region
  ordinal : Word
  hold : Hold
  roomUsed : Nat
deriving DecidableEq, Repr

/-- A task after a scrub. -/
def Task.reset : Task :=
  { s := [], a := [], p := 1, v := [], pc := 0, tokens := [], cfg := none, slots := [], poisonS := 0, poisonA := 0,
    poisonV := 0, sp := 0, is := 0, acc := 0, ovf := 0, ctrl := 0, state := .idle, slotMask := 0, slotTensors := [],
    loads := [], region := none, opening := none, ordinal := 0, hold := .none, roomUsed := 0 }

/-- A receive ring's state, which belongs to its inbound channel (R178). -/
structure RingPos where
  head : Nat
  tail : Nat
  used : Nat
deriving DecidableEq, Repr

/-- A queued message of SEND (R142). -/
structure Queued where
  task : Fin 4
  pc : BitVec 16
  ch : BitVec 4
  hid : BitVec 6
  addr : Word
  lines : Nat
  waited : Bool
deriving DecidableEq, Repr

/-- A pipeline queue of the job: credits of the sender, entries sent, landed, read and released (R415, R416), and of entries that
have landed in part the byte ranges and the ends known (slot and byte). -/
structure PipeQueue where
  tag : BitVec 16
  dir : Bool
  sender : Bool
  base : Nat
  elem : Nat
  entryLines : Nat
  depth : Nat
  stream : BitVec 4
  credits : Nat
  sent : Nat
  landed : Nat
  read : Nat
  released : Nat
  partial_ : List (Nat × Nat)
  ends : List (Nat × Nat)
deriving DecidableEq, Repr

/-- A tile record of a snapshot (R516). -/
structure TileRec where
  tile : Nat
  task : Fin 4
  regs : Task
  pad : Mem
  padPoison : List Nat
  seqs : Tbl (BitVec 16)
  rings : Tbl RingPos
  queued : List Queued
deriving DecidableEq, Repr

/-- The Step Engine record of a snapshot (R516). -/
structure EngineRec where
  superstep : Nat
  queues : Tbl PipeQueue
  tally : Tbl Dword
  rules : Tbl Word
deriving DecidableEq, Repr

end Sys2Proof.Machine
end

