-- ==== Sys2Proof/Syntax.lean ====
section
/-! DEFINITION. The commands of the module: one constructor of `Instr` per row of spec/opcode_table.json,
with the operands the rules give the step. What comes from outside the module (host memory, a partner's
flits, analogue readings, cryptographic verdicts) is an operand. -/

namespace Sys2Proof

/-- Where a tile instruction issues: a logical tile and one of its four tasks (R81). -/
structure Site where
  tile : Nat
  task : Fin 4
deriving DecidableEq, Repr

/-- The guard fields of every first word: PG in bits [25:23], PN in bit [22] (R119). -/
structure Guard where
  pg : BitVec 3
  pn : BitVec 1
deriving DecidableEq, Repr

/-- Format F-R (R120). -/
structure FR where
  g : Guard
  d : BitVec 5
  a : BitVec 5
  b : BitVec 5
  fn : BitVec 7
deriving DecidableEq, Repr

/-- Format F-I (R120). -/
structure FI where
  g : Guard
  d : BitVec 5
  a : BitVec 5
  imm : BitVec 12
deriving DecidableEq, Repr

/-- Format F-J (R120). -/
structure FJ where
  g : Guard
  d : BitVec 5
  imm : BitVec 17
deriving DecidableEq, Repr

/-- Format F-C (R120). -/
structure FC where
  g : Guard
  pd : BitVec 3
  cond : BitVec 3
  a : BitVec 5
  imm : BitVec 11
deriving DecidableEq, Repr

/-- Format F-M (R120): AB is four bits. -/
structure FM where
  g : Guard
  d : BitVec 5
  ab : BitVec 4
  sz : BitVec 2
  off : BitVec 11
deriving DecidableEq, Repr

/-- Format F-B (R120); for JR the low 14 bits hold T in [13:9] and RSV in [8:0]. -/
structure FB where
  g : Guard
  s : BitVec 5
  l : BitVec 1
  rsv : BitVec 2
  off : BitVec 14
deriving DecidableEq, Repr

/-- Format F-V (R120). -/
structure FV where
  g : Guard
  vd : BitVec 4
  va : BitVec 4
  vb : BitVec 4
  vc : BitVec 4
  fn : BitVec 6
deriving DecidableEq, Repr

/-- Format F-A (R120). -/
structure FA where
  g : Guard
  x : BitVec 4
  y : BitVec 4
  s : BitVec 5
  md : BitVec 9
deriving DecidableEq, Repr

/-- Format F-X (R120). -/
structure FX where
  g : Guard
  ch : BitVec 4
  hid : BitVec 6
  as : BitVec 4
  sl : BitVec 5
  rsv : BitVec 3
deriving DecidableEq, Repr

/-- Format F-T (R120). -/
structure FT where
  g : Guard
  tn : BitVec 4
  s : BitVec 5
  rsv : BitVec 6
  n : BitVec 7
deriving DecidableEq, Repr

/-- Format F-L (R120): two words, the second the immediate. -/
structure FL where
  g : Guard
  d : BitVec 5
  k : BitVec 1
  rsv : BitVec 16
  imm : BitVec 32
deriving DecidableEq, Repr

/-- What the host returns to the device's reads: the bytes at the addresses it reads (an address not
listed returns zero), the 64-byte lines returned with EP set, and the lines whose read fails
(R447, R452). Host memory is outside the module. -/
structure HostView where
  cells : List HostCell
  ep : List Nat
  fail : List Nat
deriving DecidableEq, Repr

/-- Who hands an Ostler descriptor or a Courier command over: a ring, or the Step Engine on a
context's behalf (R242, R394). -/
inductive Source where
  | ring (r : Fin 64)
  | engine (ctx : Fin 8)
deriving DecidableEq, Repr

/-- What another module of the job contributes to the pass-one all-reduce: its flattened index, its
three flags and the non-zero values of its norm vector (R297, R304, R323, R411). -/
structure Contribution where
  index : Nat
  nonfinite : Bool
  poison : Bool
  defer : Bool
  norm : List (Nat × Word)
deriving DecidableEq, Repr

/-- A received slot of a frame (R355): whether every codeword that it touches was decoded (R354), and its 256 bytes. -/
structure Machine.RxSlot where
  decoded : Bool
  bytes : List Byte
deriving DecidableEq, Repr

/-- What a marker closes: the 256 slots of its frame, and the FEC symbols corrected and the codewords not decodable since the marker
before (R352, R355). -/
structure RxFrame where
  slots : List Machine.RxSlot
  corrected : Nat
  undecodable : Nat
deriving DecidableEq, Repr

/-- What a CTRL GRANT tells: the owner, the contributor and the bytes up to which that may send (R401). -/
structure GrantTo where
  owner : Nat
  target : Nat
  upTo : Nat
deriving DecidableEq, Repr

/-- What a CTRL DONE tells: the round and the participant whose bytes of it have landed (R413). -/
structure DoneOf where
  round : Nat
  sender : Nat
deriving DecidableEq, Repr

/-- What makes no progress: the command of a TAG, or the probe of a tensor (R50, R420). -/
inductive Stalled where
  | command (tag : BitVec 16)
  | probe (tensor : BitVec 16)
deriving DecidableEq, Repr

/-- The security block's verdict on a CERTS message: whether its chain is good, and the port that the link certificate names (R372). -/
structure ChainVerdict where
  ok : Bool
  port : BitVec 3
deriving DecidableEq, Repr

/-- A KEY_SHARE's point, and whether it is on the curve (R372). -/
structure PeerShare where
  point : BitVec 776
  ok : Bool
deriving DecidableEq, Repr

/-- A FINISHED's signature, and whether it is good (R372). -/
structure PeerSign where
  signature : BitVec 768
  ok : Bool
deriving DecidableEq, Repr

/-- A received flit of a frame: TYPE, SEQ, ACK, NAK, CREDIT1, CREDIT0, POISON, NONFINITE, GRANULES and
the COURIER field of its header (R357), and its payload bytes. -/
structure Flit where
  type : BitVec 4
  seq : BitVec 16
  ack : BitVec 16
  nak : Bool
  credit1 : BitVec 8
  credit0 : BitVec 3
  poison : BitVec 15
  nonfinite : Bool
  granules : BitVec 4
  courier : BitVec 28
  payload : List Byte
deriving DecidableEq, Repr

/-- The HELLO message of R372 as received. -/
structure Hello where
  version : Byte
  nonce : BitVec 256
  serial : BitVec 128
  port : BitVec 3
  coord : BitVec 20
deriving DecidableEq, Repr

/-- Which part of a snapshot a mirror message carries (R519). -/
inductive PartKind where
  | header (valid : Bool)
  | engine (r : Machine.EngineRec)
  | scale
  | block
  | tile (r : Machine.TileRec)
deriving DecidableEq, Repr

/-- One part of a snapshot as it travels to a mirror holder (R516, R519): of which slot, and of which step. -/
structure Part where
  kind : PartKind
  slot : Bool
  step : Word
  curfew : Word
  tag : BitVec 16
  coord : BitVec 20
  va : BitVec 48
  data : List HostCell
  poison : List Nat
  crcOk : Bool
deriving DecidableEq, Repr

/-- An image as the boot ROM or an update presents it: the manifest's SEQUENCE and SVN and the verdicts of the
other checks of R550 (`reason` is the first failing one of R567, 0 when they all pass). -/
structure Image where
  blank : Bool
  sequence : Word
  svn : Word
  reason : Byte
  digestMgmt : BitVec 384
  digestCourier : BitVec 384
  digestUpdate : BitVec 384
  digestManifest : BitVec 384
deriving DecidableEq, Repr

/-- A settings package (R564): `sigOk` its signature verdict. -/
structure Package where
  sigOk : Bool
  serial : BitVec 128
  block : Fin 6
  expected : Byte
  payload : List Byte
deriving DecidableEq, Repr

/-- How far a settings write got before power was lost (R563): 4 is complete. -/
abbrev WriteProgress := Fin 5

/-- The strap pins at the rising edge of the internal power-on reset (R558). -/
structure Straps where
  boot : BitVec 2
  linkgen : BitVec 2
  ports : BitVec 1
  partition : BitVec 1
  debug : BitVec 1
deriving DecidableEq, Repr

/-- A unit that fails a field test (R512): the test bit, the record KIND and UNIT of R505, the count, and, for
the retirement it may bring, nothing more. -/
structure TestFailure where
  test : Fin 5
  kind : Byte
  unit : BitVec 24
  count : Word
deriving DecidableEq, Repr

/-- The commands: one constructor per row of spec/opcode_table.json. -/
inductive Instr where
  -- tile instructions (R118 to R154)
  | nop (w : Site) (f : FR)
  | alu (w : Site) (f : FR)
  | addi (w : Site) (f : FI)
  | andi (w : Site) (f : FI)
  | ori (w : Site) (f : FI)
  | xori (w : Site) (f : FI)
  | shi (w : Site) (f : FI)
  | li (w : Site) (f : FJ)
  | lil (w : Site) (f : FL)
  | cmp (w : Site) (f : FR)
  | cmpi (w : Site) (f : FC)
  | plog (w : Site) (f : FR)
  | pmov (w : Site) (f : FR)
  | aop (w : Site) (f : FR)
  | aaddi (w : Site) (f : FI)
  | ld (w : Site) (f : FM)
  | st (w : Site) (f : FM)
  | vld (w : Site) (f : FM)
  | vst (w : Site) (f : FM)
  | br (w : Site) (f : FB)
  | jr (w : Site) (f : FB)
  | loop (w : Site) (f : FB)
  | vop (w : Site) (f : FV)
  | vcvt (w : Site) (f : FV)
  | vred (w : Site) (f : FV)
  | vxfer (w : Site) (f : FR)
  | acfg (w : Site) (f : FA)
  | arun (w : Site) (f : FA)
  | adrn (w : Site) (f : FA)
  | achk (w : Site) (f : FA)
  | accopen (w : Site) (f : FT)
  | send (w : Site) (f : FX)
  | swait (w : Site) (f : FT)
  | curf (w : Site) (f : FT)
  | hend (w : Site) (f : FT)
  | twait (w : Site) (f : FT)
  | tend (w : Site) (f : FT)
  | fence (w : Site) (f : FT)
  | tflag (w : Site) (f : FT)
  -- tile events
  | scratchpadLoadReturn (w : Site) (n : Nat)
  | arrayRunStart (tile : Nat)
  | arrayBlockComplete (tile : Nat) (flips : List (Nat × Word))
  | repeatRunComplete (tile : Nat) (flips : List (Nat × Word))
  | spareRunComplete (tile : Nat) (flips : List (Nat × Word))
  | arrayDrainLineWrite (tile : Nat)
  | accRegionOpen (w : Site)
  -- Curfew and Caravan (R155 to R207)
  | localArrivalComplete (ctx : Fin 8)
  | curfewToken (port : Fin 8) (tag : Word) (number : Word)
  | curfewRelease (ctx : Fin 8)
  | curfewTimeout (ctx : Fin 8) (port : Fin 8)
  | requestDepart (tile : Nat) (ch : Fin 16)
  | requestArrive (ctx : Fin 8) (msg : Nat) (dest : Nat)
  | grantArrive (ctx : Fin 8) (msg : Nat) (dest : Nat)
  | payloadLineArrive (ctx : Fin 8) (msg : Nat) (dest : Nat)
  | deliveryAckArrive (ctx : Fin 8) (msg : Nat) (dest : Nat)
  | overflowRoomEscape (ctx : Fin 8) (msg : Nat) (dest : Nat)
  | freezeDecision (ctx : Fin 8) (retry : Bool) (refresh : Bool)
  | caravanEnd (ctx : Fin 8)
  -- Ostlers
  | ostlerDescriptorFetch (src : Source)
  | ostlerChunkSplit (ostler : Fin 40)
  | ostlerChunkRun (ostler : Fin 40)
  | chunkSteal (ostler : Fin 40)
  | ostlerDescriptorComplete (desc : Nat)
  | probeRequest (ctx : Fin 8) (tensor : BitVec 16)
  | probeCombineComplete (ctx : Fin 8) (tensor : BitVec 16) (others : Word)
  -- Courier
  | allGather (src : Source)
  | reduceScatter (src : Source)
  | allReduce (src : Source)
  | allToAll (src : Source)
  | permute (src : Source)
  | broadcast (src : Source)
  | queueOpen (src : Source)
  | queueClose (src : Source)
  | ctrlOpen (port : Fin 8) (stream : BitVec 6) (tag : BitVec 16) (origin final : Nat) (offset count : Nat)
  | ctrlCheck (port : Fin 8) (tag : BitVec 16) (crc : Word)
  | ctrlGrant (port : Fin 8) (tag : BitVec 16) (grant : GrantTo)
  | ctrlCredit (port : Fin 8) (tag : BitVec 16) (credits : Nat)
  | ctrlDone (port : Fin 8) (tag : BitVec 16) (done : DoneOf)
  | ctrlAbort (port : Fin 8) (tag : BitVec 16)
  | dataFlit (port : Fin 8) (stream : BitVec 6) (index : BitVec 22) (payload : List Byte) (poison : BitVec 15)
      (nonfinite : Bool)
  | courierCommandComplete (ctx : Fin 8) (tag : BitVec 16)
  | courierStalled (ctx : Fin 8) (what : Stalled) (port : Fin 8)
  -- Step Engine commands
  | jobLoad (ring : Fin 64) (view : HostView)
  | input (ring : Fin 64) (view : HostView)
  | step (ring : Fin 64)
  | jobEnd (ring : Fin 64)
  | kill (ring : Fin 64)
  | scrubComplete (ctx : Fin 8)
  -- backward pass and Update Engine
  | handoffIssue (ctx : Fin 8) (action : Nat)
  | passOneEntry (engine : Fin 16)
  | updateEntrySteal (engine : Fin 16)
  | stepDecision (ctx : Fin 8) (others : List Contribution)
  | amaxCombineComplete (ctx : Fin 8) (tensor : BitVec 16) (others : Word)
  | passTwoEntry (engine : Fin 16)
  | ruleLoad (ring : Fin 64) (view : HostView)
  | writeBack (ring : Fin 64) (view : HostView)
  -- Porter
  | snapshot (ring : Fin 64)
  | ship (ring : Fin 64)
  | layerRead (ring : Fin 64)
  | restore (ring : Fin 64) (view : HostView) (remote : List Part)
  | snapshotCapture (ctx : Fin 8)
  | snapshotFrameCopy (ctx : Fin 8)
  | snapshotCommit (ctx : Fin 8)
  | mirrorPartReceive (port : Fin 8) (ctx : Fin 8) (part : Part)
  | mirrorAck (ctx : Fin 8) (port : Fin 8)
  | mirrorServe (port : Fin 8) (ctx : Fin 8) (step : Word)
  -- Health Engine and Logbook
  | fieldTest (ring : Fin 64)
  | logbookRead (ring : Fin 64)
  | logbookAppend
  -- memory
  | memoryRead (pa : BitVec 40) (upset : List (Nat × Byte))
  | memoryWrite (pa : BitVec 40) (data : List Byte) (poison : Bool)
  | patrolScrub (pa : BitVec 40) (upset : List (Nat × Byte))
  | refresh (stack : Fin 8) (bank : Nat)
  | frameAssign (ring : Fin 64)
  | frameRelease (ring : Fin 64)
  | frameZero (frame : Nat)
  -- host interface
  | doorbell (ring : Fin 64) (value : Word)
  | eventRingDoorbell (ring : Fin 64) (value : Word)
  | ringEnable (ring : Fin 64) (value : Word)
  | ringDisable (ring : Fin 64) (value : Word)
  | ringFetch (ring : Fin 64) (entry : BitVec 512) (ep : Bool)
  | hostReadFailed (ring : Fin 64) (addr : Dword) (entryFetch : Bool)
  | msixMessage (vector : Fin 64)
  | functionLevelReset
  | d3hotEntry
  | perstNAssert
  | perstNDeassert
  | busMasterEnable (on : Bool)
  | configRequestRetry
  | registerWrite (off : Nat) (width : Nat) (value : Dword)
  | registerAccessInvalid (off : Nat) (width : Nat) (write : Bool)
  | counterLowRead (off : Nat)
  | memInjectArm (value : Dword)
  | portEnable (port : Fin 8) (value : Word)
  | portDisable (port : Fin 8) (value : Word)
  | reauth (port : Fin 8) (value : Word)
  | go (image : Image)
  -- optical ports
  | laserSourceInsert (port : Fin 8)
  | laserSourceAbsent (port : Fin 8)
  | detectRetry (port : Fin 8)
  | lightDetected (port : Fin 8) (lanes : BitVec 34)
  | trainingComplete (port : Fin 8) (good : BitVec 34)
  | laneLossOfLock (port : Fin 8) (lane : Fin 34)
  | laneBerWindow (port : Fin 8) (lane : Fin 34) (bad : Bool)
  | noFrameTimeout (port : Fin 8)
  | flitSlotSend (port : Fin 8)
  | markerReceive (port : Fin 8) (marker : Machine.RxSlot) (frame : RxFrame)
  | idleFlit (port : Fin 8) (ack : BitVec 16) (nak : Bool) (credit1 : BitVec 8) (credit0 : BitVec 3)
  | mapRequest (port : Fin 8) (version : BitVec 4) (mask : BitVec 34)
  | retrainRequest (port : Fin 8)
  | faultyNotice (port : Fin 8)
  | hello (port : Fin 8) (h : Hello)
  | certs (port : Fin 8) (content : List Byte) (verdict : ChainVerdict)
  | keyShare (port : Fin 8) (share : PeerShare)
  | finished (port : Fin 8) (sign : PeerSign)
  | authStepTimeout (port : Fin 8)
  | retryWindowEnd (port : Fin 8)
  | holdoffExpiry (port : Fin 8)
  | linkCreditStarved (port : Fin 8) (ctx : Fin 8)
  | curfewTagUnknown (entry : Nat)
  -- boot, power, thermal
  | powerOnReset (straps : Straps) (slotA slotB recovery : Image)
  | startupComplete
  | startupWatchdog
  | bootDone (trained : BitVec 8)
  | vinGood
  | railUp (rail : Nat)
  | railFault (rail : Nat)
  | vinOutOfRange (mV : BitVec 16)
  | rootPllUnlock
  | sensorRead (readings : List (Nat × BitVec 16))
  | criticalKill
  | thermtrip (sensor : Nat)
  | powerWindow (watts : BitVec 16)
  | pwrAlertNAssert
  | pwrAlertHoldExpiry
  | voltageAdjust (die : Fin 4) (up : Bool)
  | throttleStepApply
  | mctpControl (request : List Byte)
  | pldmBaseDiscovery (request : List Byte)
  | pldmSensorRead (sensor : Nat)
  | powerLimitEffecter (watts : BitVec 16)
  | pldmFirmwareUpdate (image : Option Image) (package : Option Package) (progress : WriteProgress)
  | getVersion
  | getCapabilities
  | negotiateAlgorithms
  | getDigests
  | getCertificate (offset length : Nat)
  | challenge (nonce : BitVec 256)
  | getMeasurements (index : Byte) (signed : Bool)
  | bypass
  | idcode
  | samplePreload (pins : BitVec 64)
  | extest
  | managementDebug (opcode : Word)
  | fieldTestComplete (failures : List TestFailure)
  | rootPllLock (ok : Bool)
  | pcieLinkTrained (rate : BitVec 4) (width : BitVec 6)
  | msixVectorUnmask (vector : Fin 64)
  | entdaa (address : BitVec 7)
  | pwrAlertNDeassert
  | standbyPowerLoss
deriving DecidableEq, Repr

end Sys2Proof
end

