-- ==== Sys2Proof/WellFormed.lean ====
section
/-! DEFINITION. Which commands are well formed: the ranges the manual gives their operands. -/

namespace Sys2Proof

/-- A logical tile of the 100 × 100 grid (R9). -/
def tileOk (t : Nat) : Bool := decide (t < 10000)

/-- A task of a logical tile. -/
def siteOk (w : Site) : Bool := tileOk w.tile

/-- Storage upsets name symbols 0 to 71 of a line's two codewords, or 72 for its poison byte (R209, R211). -/
def upsetOk (u : List (Nat × Byte)) : Bool := u.all (fun e => decide (e.1 < 73))

/-- A write that lies in one 64-byte line, the access unit (R208). -/
def lineSpanOk (pa : BitVec 40) (data : List Byte) : Bool :=
  decide (0 < data.length) && decide (pa.toNat % 64 + data.length ≤ 64)

/-- A register access of valid width and alignment: in BAR0, in the MSI-X table of BAR4 from 0x0400_0000 on, or of a doorbell page
of BAR2 from 0x0404_0000 on (R6, R431, R438; log entry 30). -/
def accessFits (off width : Nat) : Bool :=
  if 0x4040000 ≤ off then width == 4 && decide ((off - 0x4040000) % 4096 = 0) && decide (off < 0x4080000)
  else (width == 4 || width == 8) && decide (off % width = 0)

/-- A well-formed command. -/
def Instr.wellFormed : Instr → Bool
  | .nop w _ => siteOk w
  | .alu w _ => siteOk w
  | .addi w _ => siteOk w
  | .andi w _ => siteOk w
  | .ori w _ => siteOk w
  | .xori w _ => siteOk w
  | .shi w _ => siteOk w
  | .li w _ => siteOk w
  | .lil w _ => siteOk w
  | .cmp w _ => siteOk w
  | .cmpi w _ => siteOk w
  | .plog w _ => siteOk w
  | .pmov w _ => siteOk w
  | .aop w _ => siteOk w
  | .aaddi w _ => siteOk w
  | .ld w _ => siteOk w
  | .st w _ => siteOk w
  | .vld w _ => siteOk w
  | .vst w _ => siteOk w
  | .br w _ => siteOk w
  | .jr w _ => siteOk w
  | .loop w _ => siteOk w
  | .vop w _ => siteOk w
  | .vcvt w _ => siteOk w
  | .vred w _ => siteOk w
  | .vxfer w _ => siteOk w
  | .acfg w _ => siteOk w
  | .arun w _ => siteOk w
  | .adrn w _ => siteOk w
  | .achk w _ => siteOk w
  | .accopen w _ => siteOk w
  | .send w _ => siteOk w
  | .swait w _ => siteOk w
  | .curf w _ => siteOk w
  | .hend w _ => siteOk w
  | .twait w _ => siteOk w
  | .tend w _ => siteOk w
  | .fence w _ => siteOk w
  | .tflag w _ => siteOk w
  | .scratchpadLoadReturn w _ => siteOk w
  | .arrayRunStart tile => tileOk tile
  | .arrayBlockComplete tile _ => tileOk tile
  | .repeatRunComplete tile _ => tileOk tile
  | .spareRunComplete tile _ => tileOk tile
  | .arrayDrainLineWrite tile => tileOk tile
  | .accRegionOpen w => siteOk w
  | .localArrivalComplete _ => true
  | .curfewToken _ _ _ => true
  | .curfewRelease _ => true
  | .curfewTimeout _ _ => true
  | .requestDepart tile _ => tileOk tile
  | .requestArrive _ _ dest => tileOk dest
  | .grantArrive _ _ dest => tileOk dest
  | .payloadLineArrive _ _ dest => tileOk dest
  | .deliveryAckArrive _ _ dest => tileOk dest
  | .overflowRoomEscape _ _ dest => tileOk dest
  | .freezeDecision _ _ _ => true
  | .caravanEnd _ => true
  | .ostlerDescriptorFetch _ => true
  | .ostlerChunkSplit _ => true
  | .ostlerChunkRun _ => true
  | .chunkSteal _ => true
  | .ostlerDescriptorComplete _ => true
  | .probeRequest _ _ => true
  | .probeCombineComplete _ _ _ => true
  | .allGather _ => true
  | .reduceScatter _ => true
  | .allReduce _ => true
  | .allToAll _ => true
  | .permute _ => true
  | .broadcast _ => true
  | .queueOpen _ => true
  | .queueClose _ => true
  | .ctrlOpen _ _ _ _ _ _ _ => true
  | .ctrlCheck _ _ _ => true
  | .ctrlGrant _ _ _ => true
  | .ctrlCredit _ _ _ => true
  | .ctrlDone _ _ _ => true
  | .ctrlAbort _ _ => true
  | .dataFlit _ _ _ payload _ _ => decide (payload.length ≤ 240)
  | .courierCommandComplete _ _ => true
  | .courierStalled _ _ _ => true
  | .jobLoad _ _ => true
  | .input _ _ => true
  | .step _ => true
  | .jobEnd _ => true
  | .kill _ => true
  | .scrubComplete _ => true
  | .handoffIssue _ _ => true
  | .passOneEntry _ => true
  | .updateEntrySteal _ => true
  | .stepDecision _ _ => true
  | .amaxCombineComplete _ _ _ => true
  | .passTwoEntry _ => true
  | .ruleLoad _ _ => true
  | .writeBack _ _ => true
  | .snapshot _ => true
  | .ship _ => true
  | .layerRead _ => true
  | .restore _ _ _ => true
  | .snapshotCapture _ => true
  | .snapshotFrameCopy _ => true
  | .snapshotCommit _ => true
  | .mirrorPartReceive _ _ _ => true
  | .mirrorAck _ _ => true
  | .mirrorServe _ _ _ => true
  | .fieldTest _ => true
  | .logbookRead _ => true
  | .logbookAppend => true
  | .memoryRead _ upset => upsetOk upset
  | .memoryWrite pa data _ => lineSpanOk pa data
  | .patrolScrub _ upset => upsetOk upset
  | .refresh _ bank => decide (bank < 4096)
  | .frameAssign _ => true
  | .frameRelease _ => true
  | .frameZero frame => decide (frame < 2 ^ 24)
  | .doorbell _ _ => true
  | .eventRingDoorbell _ _ => true
  | .ringEnable _ _ => true
  | .ringDisable _ _ => true
  | .ringFetch _ _ _ => true
  | .hostReadFailed _ _ _ => true
  | .msixMessage _ => true
  | .functionLevelReset => true
  | .d3hotEntry => true
  | .perstNAssert => true
  | .perstNDeassert => true
  | .busMasterEnable _ => true
  | .configRequestRetry => true
  | .registerWrite off width _ => accessFits off width
  | .registerAccessInvalid off width _ => !accessFits off width && decide (off < 0x4080000)
  | .counterLowRead off => accessFits off 4 && decide (off < 0x4000000)
  | .memInjectArm _ => true
  | .portEnable _ _ => true
  | .portDisable _ _ => true
  | .reauth _ _ => true
  | .go _ => true
  | .laserSourceInsert _ => true
  | .laserSourceAbsent _ => true
  | .detectRetry _ => true
  | .lightDetected _ _ => true
  | .trainingComplete _ _ => true
  | .laneLossOfLock _ _ => true
  | .laneBerWindow _ _ _ => true
  | .noFrameTimeout _ => true
  | .flitSlotSend _ => true
  | .markerReceive _ marker frame => marker.bytes.length == 256 && frame.slots.length == 256 && frame.slots.all fun x => x.bytes.length == 256
  | .idleFlit _ _ _ _ _ => true
  | .mapRequest _ _ _ => true
  | .retrainRequest _ => true
  | .faultyNotice _ => true
  | .hello _ _ => true
  | .certs _ _ _ => true
  | .keyShare _ _ => true
  | .finished _ _ => true
  | .authStepTimeout _ => true
  | .retryWindowEnd _ => true
  | .holdoffExpiry _ => true
  | .linkCreditStarved _ _ => true
  | .curfewTagUnknown _ => true
  | .powerOnReset _ _ _ _ => true
  | .startupComplete => true
  | .startupWatchdog => true
  | .bootDone _ => true
  | .vinGood => true
  | .railUp rail => decide (rail < 11)
  | .railFault rail => decide (rail < 11)
  | .vinOutOfRange _ => true
  | .rootPllUnlock => true
  | .sensorRead readings => readings.all (fun r => decide (r.1 < 120))
  | .criticalKill => true
  | .thermtrip sensor => decide (sensor < 80)
  | .powerWindow _ => true
  | .pwrAlertNAssert => true
  | .pwrAlertHoldExpiry => true
  | .voltageAdjust _ _ => true
  | .throttleStepApply => true
  | .mctpControl _ => true
  | .pldmBaseDiscovery _ => true
  | .pldmSensorRead sensor => decide (sensor < 256)
  | .powerLimitEffecter _ => true
  | .pldmFirmwareUpdate _ _ _ => true
  | .getVersion => true
  | .getCapabilities => true
  | .negotiateAlgorithms => true
  | .getDigests => true
  | .getCertificate _ _ => true
  | .challenge _ => true
  | .getMeasurements _ _ => true
  | .bypass => true
  | .idcode => true
  | .samplePreload _ => true
  | .extest => true
  | .managementDebug _ => true
  | .fieldTestComplete _ => true
  | .rootPllLock _ => true
  | .pcieLinkTrained _ _ => true
  | .msixVectorUnmask _ => true
  | .entdaa _ => true
  | .pwrAlertNDeassert => true
  | .standbyPowerLoss => true

end Sys2Proof
end

