-- ==== Sys2Proof/Decode.lean ====
section
/-! DEFINITION. Tile instruction words (R118 to R124): the word of each tile command and the command of each word,
and the host's `decodeTableWord`. -/

namespace Sys2Proof

/-- The first word: OP in [31:26], PG in [25:23], PN in [22], the format's fields in [21:0] (R119). -/
def firstWord (op : BitVec 6) (g : Guard) (rest : BitVec 22) : Word := op ++ g.pg ++ g.pn ++ rest

/-- The opcode of a first word (R119). -/
def opOf (w : Word) : BitVec 6 := w.extractLsb' 26 6

/-- The guard of a first word (R119). -/
def guardOf (w : Word) : Guard := ⟨w.extractLsb' 23 3, w.extractLsb' 22 1⟩

/-- Bits [21:0] of format F-R (R120). -/
def FR.bits (f : FR) : BitVec 22 := f.d ++ f.a ++ f.b ++ f.fn

/-- Format F-R of a word. -/
def FR.ofWord (w : Word) : FR := ⟨guardOf w, w.extractLsb' 17 5, w.extractLsb' 12 5, w.extractLsb' 7 5, w.extractLsb' 0 7⟩

/-- Bits [21:0] of format F-I (R120). -/
def FI.bits (f : FI) : BitVec 22 := f.d ++ f.a ++ f.imm

/-- Format F-I of a word. -/
def FI.ofWord (w : Word) : FI := ⟨guardOf w, w.extractLsb' 17 5, w.extractLsb' 12 5, w.extractLsb' 0 12⟩

/-- Bits [21:0] of format F-J (R120). -/
def FJ.bits (f : FJ) : BitVec 22 := f.d ++ f.imm

/-- Format F-J of a word. -/
def FJ.ofWord (w : Word) : FJ := ⟨guardOf w, w.extractLsb' 17 5, w.extractLsb' 0 17⟩

/-- Bits [21:0] of format F-C (R120). -/
def FC.bits (f : FC) : BitVec 22 := f.pd ++ f.cond ++ f.a ++ f.imm

/-- Format F-C of a word. -/
def FC.ofWord (w : Word) : FC := ⟨guardOf w, w.extractLsb' 19 3, w.extractLsb' 16 3, w.extractLsb' 11 5, w.extractLsb' 0 11⟩

/-- Bits [21:0] of format F-M (R120). -/
def FM.bits (f : FM) : BitVec 22 := f.d ++ f.ab ++ f.sz ++ f.off

/-- Format F-M of a word. -/
def FM.ofWord (w : Word) : FM := ⟨guardOf w, w.extractLsb' 17 5, w.extractLsb' 13 4, w.extractLsb' 11 2, w.extractLsb' 0 11⟩

/-- Bits [21:0] of format F-B (R120). -/
def FB.bits (f : FB) : BitVec 22 := f.s ++ f.l ++ f.rsv ++ f.off

/-- Format F-B of a word. -/
def FB.ofWord (w : Word) : FB := ⟨guardOf w, w.extractLsb' 17 5, w.extractLsb' 16 1, w.extractLsb' 14 2, w.extractLsb' 0 14⟩

/-- Bits [21:0] of format F-V (R120). -/
def FV.bits (f : FV) : BitVec 22 := f.vd ++ f.va ++ f.vb ++ f.vc ++ f.fn

/-- Format F-V of a word. -/
def FV.ofWord (w : Word) : FV := ⟨guardOf w, w.extractLsb' 18 4, w.extractLsb' 14 4, w.extractLsb' 10 4, w.extractLsb' 6 4, w.extractLsb' 0 6⟩

/-- Bits [21:0] of format F-A (R120). -/
def FA.bits (f : FA) : BitVec 22 := f.x ++ f.y ++ f.s ++ f.md

/-- Format F-A of a word. -/
def FA.ofWord (w : Word) : FA := ⟨guardOf w, w.extractLsb' 18 4, w.extractLsb' 14 4, w.extractLsb' 9 5, w.extractLsb' 0 9⟩

/-- Bits [21:0] of format F-X (R120). -/
def FX.bits (f : FX) : BitVec 22 := f.ch ++ f.hid ++ f.as ++ f.sl ++ f.rsv

/-- Format F-X of a word. -/
def FX.ofWord (w : Word) : FX := ⟨guardOf w, w.extractLsb' 18 4, w.extractLsb' 12 6, w.extractLsb' 8 4, w.extractLsb' 3 5, w.extractLsb' 0 3⟩

/-- Bits [21:0] of format F-T (R120). -/
def FT.bits (f : FT) : BitVec 22 := f.tn ++ f.s ++ f.rsv ++ f.n

/-- Format F-T of a word. -/
def FT.ofWord (w : Word) : FT := ⟨guardOf w, w.extractLsb' 18 4, w.extractLsb' 13 5, w.extractLsb' 7 6, w.extractLsb' 0 7⟩

/-- Bits [21:0] of format F-L (R120). -/
def FL.bits (f : FL) : BitVec 22 := f.d ++ f.k ++ f.rsv

/-- Format F-L of a first word and the second word. -/
def FL.ofWord (w imm : Word) : FL := ⟨guardOf w, w.extractLsb' 17 5, w.extractLsb' 16 1, w.extractLsb' 0 16, imm⟩

/-- The first word of a tile command (R124); none for a command that is not a tile instruction. -/
def tileWord : Instr → Option Word
  | .nop _ f => some (firstWord 0x01 f.g f.bits)
  | .alu _ f => some (firstWord 0x02 f.g f.bits)
  | .addi _ f => some (firstWord 0x03 f.g f.bits)
  | .andi _ f => some (firstWord 0x04 f.g f.bits)
  | .ori _ f => some (firstWord 0x05 f.g f.bits)
  | .xori _ f => some (firstWord 0x06 f.g f.bits)
  | .shi _ f => some (firstWord 0x07 f.g f.bits)
  | .li _ f => some (firstWord 0x08 f.g f.bits)
  | .lil _ f => some (firstWord 0x09 f.g f.bits)
  | .cmp _ f => some (firstWord 0x0A f.g f.bits)
  | .cmpi _ f => some (firstWord 0x0B f.g f.bits)
  | .plog _ f => some (firstWord 0x0C f.g f.bits)
  | .pmov _ f => some (firstWord 0x0D f.g f.bits)
  | .aop _ f => some (firstWord 0x0E f.g f.bits)
  | .aaddi _ f => some (firstWord 0x0F f.g f.bits)
  | .ld _ f => some (firstWord 0x10 f.g f.bits)
  | .st _ f => some (firstWord 0x11 f.g f.bits)
  | .vld _ f => some (firstWord 0x12 f.g f.bits)
  | .vst _ f => some (firstWord 0x13 f.g f.bits)
  | .br _ f => some (firstWord 0x14 f.g f.bits)
  | .jr _ f => some (firstWord 0x15 f.g f.bits)
  | .loop _ f => some (firstWord 0x16 f.g f.bits)
  | .vop _ f => some (firstWord 0x18 f.g f.bits)
  | .vcvt _ f => some (firstWord 0x19 f.g f.bits)
  | .vred _ f => some (firstWord 0x1A f.g f.bits)
  | .vxfer _ f => some (firstWord 0x1B f.g f.bits)
  | .acfg _ f => some (firstWord 0x20 f.g f.bits)
  | .arun _ f => some (firstWord 0x21 f.g f.bits)
  | .adrn _ f => some (firstWord 0x22 f.g f.bits)
  | .achk _ f => some (firstWord 0x23 f.g f.bits)
  | .accopen _ f => some (firstWord 0x24 f.g f.bits)
  | .send _ f => some (firstWord 0x28 f.g f.bits)
  | .swait _ f => some (firstWord 0x29 f.g f.bits)
  | .curf _ f => some (firstWord 0x2A f.g f.bits)
  | .hend _ f => some (firstWord 0x2B f.g f.bits)
  | .twait _ f => some (firstWord 0x2C f.g f.bits)
  | .tend _ f => some (firstWord 0x30 f.g f.bits)
  | .fence _ f => some (firstWord 0x31 f.g f.bits)
  | .tflag _ f => some (firstWord 0x32 f.g f.bits)
  | .scratchpadLoadReturn _ _ => none
  | .arrayRunStart _ => none
  | .arrayBlockComplete _ _ => none
  | .repeatRunComplete _ _ => none
  | .spareRunComplete _ _ => none
  | .arrayDrainLineWrite _ => none
  | .accRegionOpen _ => none
  | .localArrivalComplete _ => none
  | .curfewToken _ _ _ => none
  | .curfewRelease _ => none
  | .curfewTimeout _ _ => none
  | .requestDepart _ _ => none
  | .requestArrive _ _ _ => none
  | .grantArrive _ _ _ => none
  | .payloadLineArrive _ _ _ => none
  | .deliveryAckArrive _ _ _ => none
  | .overflowRoomEscape _ _ _ => none
  | .freezeDecision _ _ _ => none
  | .caravanEnd _ => none
  | .ostlerDescriptorFetch _ => none
  | .ostlerChunkSplit _ => none
  | .ostlerChunkRun _ => none
  | .chunkSteal _ => none
  | .ostlerDescriptorComplete _ => none
  | .probeRequest _ _ => none
  | .probeCombineComplete _ _ _ => none
  | .allGather _ => none
  | .reduceScatter _ => none
  | .allReduce _ => none
  | .allToAll _ => none
  | .permute _ => none
  | .broadcast _ => none
  | .queueOpen _ => none
  | .queueClose _ => none
  | .ctrlOpen _ _ _ _ _ _ _ => none
  | .ctrlCheck _ _ _ => none
  | .ctrlGrant _ _ _ => none
  | .ctrlCredit _ _ _ => none
  | .ctrlDone _ _ _ => none
  | .ctrlAbort _ _ => none
  | .dataFlit _ _ _ _ _ _ => none
  | .courierCommandComplete _ _ => none
  | .courierStalled _ _ _ => none
  | .jobLoad _ _ => none
  | .input _ _ => none
  | .step _ => none
  | .jobEnd _ => none
  | .kill _ => none
  | .scrubComplete _ => none
  | .handoffIssue _ _ => none
  | .passOneEntry _ => none
  | .updateEntrySteal _ => none
  | .stepDecision _ _ => none
  | .amaxCombineComplete _ _ _ => none
  | .passTwoEntry _ => none
  | .ruleLoad _ _ => none
  | .writeBack _ _ => none
  | .snapshot _ => none
  | .ship _ => none
  | .layerRead _ => none
  | .restore _ _ _ => none
  | .snapshotCapture _ => none
  | .snapshotFrameCopy _ => none
  | .snapshotCommit _ => none
  | .mirrorPartReceive _ _ _ => none
  | .mirrorAck _ _ => none
  | .mirrorServe _ _ _ => none
  | .fieldTest _ => none
  | .logbookRead _ => none
  | .logbookAppend => none
  | .memoryRead _ _ => none
  | .memoryWrite _ _ _ => none
  | .patrolScrub _ _ => none
  | .refresh _ _ => none
  | .frameAssign _ => none
  | .frameRelease _ => none
  | .frameZero _ => none
  | .doorbell _ _ => none
  | .eventRingDoorbell _ _ => none
  | .ringEnable _ _ => none
  | .ringDisable _ _ => none
  | .ringFetch _ _ _ => none
  | .hostReadFailed _ _ _ => none
  | .msixMessage _ => none
  | .functionLevelReset => none
  | .d3hotEntry => none
  | .perstNAssert => none
  | .perstNDeassert => none
  | .busMasterEnable _ => none
  | .configRequestRetry => none
  | .registerWrite _ _ _ => none
  | .registerAccessInvalid _ _ _ => none
  | .counterLowRead _ => none
  | .memInjectArm _ => none
  | .portEnable _ _ => none
  | .portDisable _ _ => none
  | .reauth _ _ => none
  | .go _ => none
  | .laserSourceInsert _ => none
  | .laserSourceAbsent _ => none
  | .detectRetry _ => none
  | .lightDetected _ _ => none
  | .trainingComplete _ _ => none
  | .laneLossOfLock _ _ => none
  | .laneBerWindow _ _ _ => none
  | .noFrameTimeout _ => none
  | .flitSlotSend _ => none
  | .markerReceive _ _ _ => none
  | .idleFlit _ _ _ _ _ => none
  | .mapRequest _ _ _ => none
  | .retrainRequest _ => none
  | .faultyNotice _ => none
  | .hello _ _ => none
  | .certs _ _ _ => none
  | .keyShare _ _ => none
  | .finished _ _ => none
  | .authStepTimeout _ => none
  | .retryWindowEnd _ => none
  | .holdoffExpiry _ => none
  | .linkCreditStarved _ _ => none
  | .curfewTagUnknown _ => none
  | .powerOnReset _ _ _ _ => none
  | .startupComplete => none
  | .startupWatchdog => none
  | .bootDone _ => none
  | .vinGood => none
  | .railUp _ => none
  | .railFault _ => none
  | .vinOutOfRange _ => none
  | .rootPllUnlock => none
  | .sensorRead _ => none
  | .criticalKill => none
  | .thermtrip _ => none
  | .powerWindow _ => none
  | .pwrAlertNAssert => none
  | .pwrAlertHoldExpiry => none
  | .voltageAdjust _ _ => none
  | .throttleStepApply => none
  | .mctpControl _ => none
  | .pldmBaseDiscovery _ => none
  | .pldmSensorRead _ => none
  | .powerLimitEffecter _ => none
  | .pldmFirmwareUpdate _ _ _ => none
  | .getVersion => none
  | .getCapabilities => none
  | .negotiateAlgorithms => none
  | .getDigests => none
  | .getCertificate _ _ => none
  | .challenge _ => none
  | .getMeasurements _ _ => none
  | .bypass => none
  | .idcode => none
  | .samplePreload _ => none
  | .extest => none
  | .managementDebug _ => none
  | .fieldTestComplete _ => none
  | .rootPllLock _ => none
  | .pcieLinkTrained _ _ => none
  | .msixVectorUnmask _ => none
  | .entdaa _ => none
  | .pwrAlertNDeassert => none
  | .standbyPowerLoss => none

/-- The second word of a 64-bit form (R118). -/
def tileSecond : Instr → Option Word
  | .lil _ f => some f.imm
  | _ => none

/-- The bytes of a tile command's words in the instruction store: 4, or 8 for a 64-bit form (R118). -/
def tileSize (i : Instr) : Nat := if (tileSecond i).isSome then 8 else 4

/-- The tile command at a site of a first word and the word after it; none where the opcode is not listed (R124, R121). -/
def decodeTile (site : Site) (w w1 : Word) : Option Instr :=
  match (opOf w).toNat with
  | 0x01 => some (.nop site (FR.ofWord w))
  | 0x02 => some (.alu site (FR.ofWord w))
  | 0x03 => some (.addi site (FI.ofWord w))
  | 0x04 => some (.andi site (FI.ofWord w))
  | 0x05 => some (.ori site (FI.ofWord w))
  | 0x06 => some (.xori site (FI.ofWord w))
  | 0x07 => some (.shi site (FI.ofWord w))
  | 0x08 => some (.li site (FJ.ofWord w))
  | 0x09 => some (.lil site (FL.ofWord w w1))
  | 0x0A => some (.cmp site (FR.ofWord w))
  | 0x0B => some (.cmpi site (FC.ofWord w))
  | 0x0C => some (.plog site (FR.ofWord w))
  | 0x0D => some (.pmov site (FR.ofWord w))
  | 0x0E => some (.aop site (FR.ofWord w))
  | 0x0F => some (.aaddi site (FI.ofWord w))
  | 0x10 => some (.ld site (FM.ofWord w))
  | 0x11 => some (.st site (FM.ofWord w))
  | 0x12 => some (.vld site (FM.ofWord w))
  | 0x13 => some (.vst site (FM.ofWord w))
  | 0x14 => some (.br site (FB.ofWord w))
  | 0x15 => some (.jr site (FB.ofWord w))
  | 0x16 => some (.loop site (FB.ofWord w))
  | 0x18 => some (.vop site (FV.ofWord w))
  | 0x19 => some (.vcvt site (FV.ofWord w))
  | 0x1A => some (.vred site (FV.ofWord w))
  | 0x1B => some (.vxfer site (FR.ofWord w))
  | 0x20 => some (.acfg site (FA.ofWord w))
  | 0x21 => some (.arun site (FA.ofWord w))
  | 0x22 => some (.adrn site (FA.ofWord w))
  | 0x23 => some (.achk site (FA.ofWord w))
  | 0x24 => some (.accopen site (FT.ofWord w))
  | 0x28 => some (.send site (FX.ofWord w))
  | 0x29 => some (.swait site (FT.ofWord w))
  | 0x2A => some (.curf site (FT.ofWord w))
  | 0x2B => some (.hend site (FT.ofWord w))
  | 0x2C => some (.twait site (FT.ofWord w))
  | 0x30 => some (.tend site (FT.ofWord w))
  | 0x31 => some (.fence site (FT.ofWord w))
  | 0x32 => some (.tflag site (FT.ofWord w))
  | _ => none

/-- The command that a word of the opcode table spells. No row of spec/opcode_table.json gives bits, so no
word spells one. -/
def decodeTableWord (_nbits _w : Nat) : Option Instr := none

end Sys2Proof
end

