-- ==== Sys2Proof/Config.lean ====
section
/-! DEFINITION. Free values: what the manual leaves open or takes from outside standards. None has a body,
so no proof can see what it is. -/

namespace Sys2Proof.Config

/-- Whether a tile read of a line that an Ostler descriptor has written but not yet completed returns the
new line (R97); applied to the counter `State.fresh`. -/
opaque readsNew : Nat → Bool

/-- ARG1 of POISON_CONSUMED where the poison has no address of its own: a register's tag, a program line of the host's at load
and a payload line of an Ostler point. The manual names a scratchpad or physical address (R220), and these have none; applied to
`State.fresh` (log entry 15). -/
opaque consumedAddress : Nat → BitVec 64

/-- What an event carries as "ring, index" for a descriptor or command that the Step Engine issued: the manual
numbers only entries of rings (R449); applied to `State.fresh` and the context. -/
opaque engineRef : Nat → Nat → BitVec 64

/-- HMAC-SHA-384 in the counter mode of SP 800-108 (R542): the standard's function of a key, a label and a
context, which the manual names and does not restate. -/
opaque kdf : BitVec 384 → List Byte → List Byte → BitVec 384

/-- SHA-384 of a byte string (R543, R547). -/
opaque sha384 : List Byte → BitVec 384

/-- The P-384 public key of a key pair generated from a seed (R542). -/
opaque publicKey : BitVec 384 → BitVec 776

/-- An ECDSA P-384 signature by the key of a seed over a message, r then s (R546). -/
opaque signature : BitVec 384 → List Byte → BitVec 768

/-- The DER encoding of a certificate from its issuer's seed, its subject's public key and the measured
values it carries (R543). -/
opaque certificate : BitVec 384 → BitVec 776 → List (BitVec 384) → List Byte

/-- The body of a sideband answer whose bytes the manual leaves to the MCTP, PLDM and SPDM standards
(R455, R546), from the request. -/
opaque standardAnswer : Nat → List Byte → List Byte

/-- The signature over a field-test pattern and other figures that only the firmware holds are not here:
their verdicts are operands. The Unique Device Secret drawn at manufacture (R541). -/
opaque manufacturedSecret : BitVec 384

/-- The nonce and the ephemeral private key that a port draws for its `n`-th authentication (R372); from the port and `n`. -/
opaque portNonce : Nat → Nat → BitVec 256
opaque portSecret : Nat → Nat → BitVec 384

/-- The x-coordinate of the point that ECDH P-384 makes of a private key and a public one (R373). -/
opaque sharedPoint : BitVec 384 → BitVec 776 → BitVec 384

/-- The first 64 bytes of the one-step key derivation of SP 800-56A with SHA-384 (R373): the standard's function of a secret, a label
and further inputs, which the manual names and does not restate. -/
opaque oneStepKdf : List Byte → List Byte → List Byte → BitVec 512

/-- AES-256-GCM under a key, as R374 names it and does not restate: the 240 keystream bytes of a slot of the batch whose nonce holds a
FRAME, and the tag of a batch from its additional data and its ciphertext. -/
opaque gcmStream : List Byte → BitVec 32 → Nat → List Byte
opaque gcmTag : List Byte → BitVec 32 → List Byte → List Byte → BitVec 128

/-- The bytes of an authentication message (R372 lists what each carries and lays out none): from its step and its listed
contents. -/
opaque authMessage : Nat → List Byte → List Byte

/-- The payload of a LINKCTL flit (R370), which the manual does not lay out: 1 a map request with its version and mask, 2 a
retrain request, 3 a faulty notice. -/
opaque linkControl : Nat → Nat → Nat → List Byte

/-- The lanes that a partner's receiver chooses at the end of a training (R369): the module learns them from the partner. -/
opaque partnerLanes : Nat → BitVec 34

/-- Where an owner's own contribution, which does not arrive, stands among those that do with deterministic mode off (R71,
R400): how many it comes after, the remainder by their number; from the command's TAG. -/
opaque ownPlace : BitVec 16 → Nat

/-- Whether a job evaluates a shipped snapshot (R306): the manual gives no field that tells it, so it is a free value of the
job context's 128 bytes. -/
opaque evaluationJob : List (BitVec 8) → Bool

/-- CRC-32C is defined by R356; the byte string that R418 takes it over is not laid out beyond its list of
fields, so the packing of those fields into bytes is free. -/
opaque commandBytes : BitVec 512 → List Byte → List Byte

/-- The payload of a CTRL flit of a KIND other than OPEN: the manual says what CHECK, GRANT, CREDIT, DONE and ABORT
tell (R401, R413, R416, R418) and lays out no bytes; from the KIND, the TAG and the number told. -/
opaque ctrlPayload : Nat → BitVec 16 → Nat → List Byte

/-- The status of a Courier command that consumed poison: R220 says "poison status", and R419 lists none for it;
applied to `State.fresh`. -/
opaque courierPoisonStatus : Nat → BitVec 8

/-- The residual that PRECOND_FALLBACK carries for a block whose norm is zero (R338): the stage forms none there. It is the
same in every run (R72), so it is applied to what every run shares: LAYER_ID and the block's number. -/
opaque stageResidual : Nat → Nat → BitVec 32

/-- What the array Q holds for a block that forms no output because its norm is zero (R329, R338): the same in every run
(R72), so it is applied to LAYER_ID and the element's row and column. -/
opaque stageOutput : Nat → Nat → Nat → BitVec 32

/-- The unit that RECOVERY_BEGUN carries for a deadline that is overrun (R522): the manual names a tile or a port, and
the cause has neither; applied to `State.fresh`. -/
opaque recoveryUnit : Nat → BitVec 64

/-- The KIND of a Logbook record of a power or thermal event (R580, R583): R505 lists no kind for it; from the code. -/
opaque recordKind : BitVec 16 → BitVec 8

/-- The UNIT of a Logbook record of a power event (R583), and the DETAIL of a record for which R505 lists none; from the code
and an argument of the event. -/
opaque powerUnit : Nat → BitVec 24
opaque recordDetail : BitVec 16 → Nat → BitVec 96

/-- A choice among several that the manual does not rank, such as two sensors that read the same (R584): applied to
`State.fresh`, the remainder by their number. -/
opaque tieBreak : Nat → Nat

/-- How a stack temperature with a fraction reads in whole degrees (R578): down or up is not given; from the reading. -/
opaque wholeDegrees : BitVec 16 → BitVec 8

/-- ARG0 of REGISTER_ACCESS_INVALID for an access to BAR2 or BAR4 (R438): R451 names the BAR0 offset, and it has none; from the
offset as the model numbers it. -/
opaque otherBar : Nat → Nat

/-- The CODE of the Logbook record of a stack that failed to train (R210): R451 lists no code for it. -/
opaque stackFailureCode : BitVec 16

/-- The reason that IMAGE_AUTH_FAILED carries for an update whose SEQUENCE is wrong (R555): R567 lists none for it; applied to
`State.fresh`. -/
opaque sequenceReason : Nat → Nat

/-- The bytes of a slot header in a shipment: R516 lists what it holds and lays out no bytes; from VALID's step, Curfew
number, TAG, coordinates, block count and tile-record count. -/
opaque slotHeader : BitVec 32 → BitVec 32 → BitVec 16 → BitVec 20 → Nat → Nat → List Byte

/-- The bytes of a Step Engine record in a shipment (R516), which the manual does not lay out; a shipment takes at most 64 KiB
of them (DESIGN CHOICE, log entry 24). -/
opaque engineRecord : Machine.EngineRec → List Byte

/-- The bytes of a tile record in a shipment that stand before its scratchpad contents (R516), which the manual does not lay out. -/
opaque tileRecord : Machine.TileRec → List Byte

/-- The context and the byte address in its memory that the TAG of a segment names when it carries a shipment of another module's
Porter (R305); the manual does not say how a shipment's segments tell them. -/
opaque shipment : BitVec 16 → Option (Nat × Nat)

end Sys2Proof.Config
end

