-- ==== Sys2Proof/Machine/State.lean ====
section
/-! DEFINITION. The state of the module: every register, store, queue, mode and pin the manual gives it. A `Tbl`
is a finite table with a default, so that ten thousand tiles are plain data. -/

namespace Sys2Proof.Machine

/-! ### The tile (R81 to R117) -/

/-- Where an array run stands: queued, streaming, complete and holding the array, or in the drain buffer (R103). -/
inductive RunStage where
  | queued | running | holding | buffered
deriving DecidableEq, Repr

/-- A checked run's arbitration: the results of the repeat and the spare, once finished (R499 to R502). -/
structure Arbitration where
  short : Bool
  column : Nat
  repeated : Option (List Word)
  spare : Option Nat
  spareTotals : Option (List Word)
  spareOk : Bool
deriving DecidableEq, Repr

/-- An array run and its block (R135 to R138, R494). `aVals` and `bVals` are the
elements the run fetched, without their scales; `ready` tells that its block may be drained. -/
structure Run where
  id : Nat
  task : Fin 4
  pc : BitVec 16
  panelA : Word
  panelB : Word
  k : Nat
  len : Nat
  cfg : ArrayCfg
  expA : Int
  expB : Int
  checked : Bool
  stage : RunStage
  fed : Nat
  aVals : List Word
  bVals : List Word
  aScale : List Byte
  bScale : List Byte
  totals : List Word
  arb : Option Arbitration
  ready : Bool
  settled : Bool
  dropped : Bool
deriving DecidableEq, Repr

/-- A scratchpad line that a drain has written: what stood there before, and what it wrote. -/
structure Overwritten where
  line : Nat
  old : List Byte
  oldPoison : Bool
  wrote : List Byte
deriving DecidableEq, Repr

/-- A drain bound to a run (R139, R140), with the lines that it has written, so that a drain that consumes poison takes no effect
(R220). -/
structure Drain where
  run : Nat
  task : Fin 4
  pc : BitVec 16
  addr : Word
  target : BitVec 2
  ovf : Bool
  slot : BitVec 4
  lines : Nat
  written : Nat
  undo : List Overwritten
deriving DecidableEq, Repr

/-- A SOURCE entry of a route image (R164). -/
structure SourceEntry where
  outCh : BitVec 4
  mode : BitVec 3
  destCh : BitVec 4
  pred : Bool
  final : Bool
  point : BitVec 2
  dest : BitVec 14
  dest2 : BitVec 14
  maxLines : BitVec 13
  start : Word
deriving DecidableEq, Repr

/-- A SINK entry of a route image (R165). -/
structure SinkEntry where
  inCh : BitVec 4
  task : BitVec 2
  offset : BitVec 13
  lines : BitVec 13
deriving DecidableEq, Repr

/-- A route table as a router holds it (R157, R163). -/
structure RouteTable where
  budget : Word
  sources : List SourceEntry
  sinks : List SinkEntry
deriving DecidableEq, Repr

/-- Empty images (R470). -/
def RouteTable.empty : RouteTable := ⟨0, [], []⟩

/-- An entry of the delivery index: one message delivered in the Caravan (R182, R187). -/
structure Delivered where
  channel : BitVec 4
  rank : BitVec 16
  source : BitVec 14
  seq : BitVec 16
  handler : BitVec 6
  task : BitVec 2
  line : Nat
  lines : Nat
  overflow : Bool
  waybillHi : Dword
deriving DecidableEq, Repr

/-- The handler that the tile runs (R145). -/
structure Handling where
  task : Fin 4
  was : TaskState
  resume : BitVec 16
  msg : Delivered
deriving DecidableEq, Repr

/-- A contract record (R94): the event code, its key and arguments, and the occurrences. -/
structure Contract where
  code : BitVec 16
  key : Dword
  arg1 : Dword
  count : Nat
deriving DecidableEq, Repr

/-- A line that an Ostler descriptor has written and not completed, with the bytes before it (R97). `now`: the write has not yet
had its bank, so that a read still finds the line as it was (R96). -/
structure InFlight where
  desc : Nat
  line : Nat
  old : List Byte
  oldPoison : Bool
  now : Bool
deriving DecidableEq, Repr

/-- A request for a bank: its priority (R91) and the task and address of its instruction, zero for the router. -/
structure BankUse where
  bank : Nat
  prio : Nat
  task : Fin 4
  pc : BitVec 16
deriving DecidableEq, Repr

/-- A logical tile (R81 to R117, R155 to R189). -/
structure Tile where
  nonfinite : Bool
  tasks : Tbl Task
  pad : Mem
  padPoison : List Nat
  store : Mem
  routeCfg : Word
  handlers : Tbl Word
  lastIssued : Option (Fin 4)
  runs : List Run
  drains : List Drain
  nextRun : Nat
  queued : List Queued
  seqs : Tbl (BitVec 16)
  current : RouteTable
  next : Option RouteTable
  rings : Tbl RingPos
  delivered : List Delivered
  handling : Option Handling
  records : List Contract
  recordsOver : Nat
  caravanRecords : List Contract
  caravanOver : Nat
  banks : List BankUse
  bankWaits : List BankUse
  bankNext : List BankUse
  inFlight : List InFlight
  recorded : Bool
deriving DecidableEq, Repr

/-- A tile after a scrub. -/
def Tile.reset : Tile :=
  { nonfinite := false, tasks := [], pad := [], padPoison := [], store := [], routeCfg := 0, handlers := [],
    lastIssued := none, runs := [], drains := [], nextRun := 0, queued := [], seqs := [],
    current := RouteTable.empty, next := none, rings := [], delivered := [], handling := none, records := [],
    recordsOver := 0, caravanRecords := [], caravanOver := 0, banks := [], bankWaits := [], bankNext := [], inFlight := [],
    recorded := false }

/-! ### The job, the Curfew and the Caravan (R155 to R207, R441, R479) -/

/-- The job context as JOB_LOAD read it (R441, R514). -/
structure JobCtx where
  ptRoot : BitVec 40
  scaleBase : BitVec 48
  scaleEntries : BitVec 16
  tag : BitVec 16
  det : Bool
  margin : BitVec 3
  curfewAxes : BitVec 4
  wrap : BitVec 4
  deadlinePolicy : BitVec 2
  scrubPeriod : BitVec 3
  deadlineMargin : Byte
  curfewTimeout : Word
  origin : BitVec 20
  extent : BitVec 24
  row0 : BitVec 7
  col0 : BitVec 7
  rows : BitVec 7
  cols : BitVec 7
  eventRing : BitVec 6
  snapInterval : BitVec 16
  mirrors : Byte
  spares : Byte
  cover : BitVec 16
  tileState : Bool
  shadowVA : Dword
  mirrorVA : Dword
  shadowSize : Word
  listVA : BitVec 48
deriving DecidableEq, Repr

/-- The context of no job. -/
def JobCtx.none : JobCtx :=
  { ptRoot := 0, scaleBase := 0, scaleEntries := 0, tag := 0, det := false, margin := 0, curfewAxes := 0, wrap := 0,
    deadlinePolicy := 0, scrubPeriod := 0, deadlineMargin := 0, curfewTimeout := 0, origin := 0, extent := 0,
    row0 := 0, col0 := 0, rows := 0, cols := 0, eventRing := 0, snapInterval := 0, mirrors := 0, spares := 0,
    cover := 0, tileState := false, shadowVA := 0, mirrorVA := 0, shadowSize := 0, listVA := 0 }

/-- A superstep record of the Step Engine's copy of the list (R479, R486). -/
structure SuperRec where
  image : BitVec 10
  count : BitVec 12
  first : BitVec 22
deriving DecidableEq, Repr

/-- The phase of the superstep a job is in (R155), and the two ends of a job (R603, R530). -/
inductive Phase where
  | empty | loaded | compute | curfew | caravan | stopped | scrubbing
deriving DecidableEq, Repr

/-- A STEP command in force or waiting (R440, R447). -/
structure StepCmd where
  ring : Fin 64
  index : BitVec 16
  number : Word
  eta : Word
  tableVA : Dword
  entries : Nat
  inputs : Nat
  normVA : Dword
deriving DecidableEq, Repr

/-- An action of the superstep list in progress (R481, R482): its job superstep, the Ostler descriptors not completed,
and whether its Courier command is still to be issued and to be completed. -/
structure Action where
  id : Nat
  raw : BitVec 256
  superstep : Nat
  descsLeft : Nat
  cmdDue : Bool
  cmdOpen : Bool
deriving DecidableEq, Repr

/-- Where a message's request stands at one destination (R168, R171): on its way, arrived at the next contributor of
a chain, refused, granted there, granted as the sender knows, delivered, acknowledged. -/
inductive MsgStage where
  | requested | arrived | refused | granted | sending | delivered | acked
deriving DecidableEq, Repr

/-- One destination of a message: its stage, the Caravan cycle from which it is refused, the task line its Waybill
takes, the lines written, whether it lies in the overflow room and the order of its arrival. -/
structure MsgDest where
  dest : Nat
  stage : MsgStage
  refusedAt : Nat
  line : Nat
  written : Nat
  overflow : Bool
  arrivedAt : Nat
deriving DecidableEq, Repr

/-- A message of a Caravan in the mesh (R168 to R177). A Waybill's fields that every destination shares are held
apart; `gate` is the TAG of the Courier command it delivers for, `pred` the message whose partial it combines. -/
structure Msg where
  id : Nat
  source : Nat
  last : Nat
  outCh : BitVec 4
  task : Fin 4
  pc : BitVec 16
  addr : Word
  lines : Nat
  handler : BitVec 6
  seq : BitVec 16
  nonfinite : Bool
  entry : SourceEntry
  gate : Option (BitVec 16)
  pred : Option Nat
  own : Bool
  dests : List MsgDest
  payload : List (List Byte × Bool)
  null : Bool
  complete : Bool
deriving DecidableEq, Repr

/-- A flit's use of a router's output link in the present Caravan cycle (R170): the tile, the output (0 north, 1 east, 2 south, 3 west,
5 an edge link) and the input (4 the tile's own), whether it is a control flit, its message and place in it, its message's outbound
channel, and whether it lost the link. -/
structure LinkUse where
  tile : Nat
  out : Nat
  inp : Nat
  control : Bool
  msg : Nat
  part : Nat
  ch : Nat
  lost : Bool
deriving DecidableEq, Repr

/-- A delivery that a gate has still to send (R407, R408). -/
structure GateOut where
  tag : BitVec 16
  tile : Nat
  dest : Nat
  channel : BitVec 4
  handler : BitVec 6
  lines : Nat
  va : Nat
  start : Nat
deriving DecidableEq, Repr

/-- A layer-table entry as the Update Engine read it at pass one (R322, R325), its passes, the rows it lists (R332) and
its sums. -/
structure Layer where
  index : Nat
  raw : BitVec 512
  onePassed : Bool
  twoPassed : Bool
  listed : Nat
  sumG : Word
  sumW : Word
  sumD : Word
  fellBack : Bool
deriving DecidableEq, Repr

/-- What a job is doing at its step's end (R296 to R301). -/
inductive Decision where
  | pending | applied | skipped
deriving DecidableEq, Repr

/-- A job context of the Step Engine: the job it holds and everything that belongs to it. `closing` are the entries of
the commands that end the job, with the status each completes with when the scrub completes (R457, R531), and `thawed` tells that
a frozen period has ended at this Caravan cycle (R192). `probeSince` holds the tick of each probe's last progress, and
`stalledProbes` the tensors whose probe has stalled (R50). `evaluation` tells a job that evaluates a shipped snapshot (R306). -/
structure Job where
  cfg : JobCtx
  phase : Phase
  curfew : Word
  superstep : Nat
  listS : Nat
  listA : Nat
  listActions : Dword
  records : List SuperRec
  stepsBegun : Nat
  step : Option StepCmd
  waitingSteps : List StepCmd
  inputs : Tbl Nat
  tokens : List (Fin 8 × Word)
  stop : Bool
  held : Bool
  restored : Bool
  evaluation : Bool
  nonfinite : Bool
  poisonFlag : Bool
  clock : Nat
  frozen : Nat
  throttleFreeze : Bool
  flits : List LinkUse
  thawed : Bool
  lastMet : Option Nat
  measured : Nat
  waited : Nat
  waitCycles : Nat
  tally : Tbl Dword
  msgs : List Msg
  nextMsg : Nat
  chainDone : List (Nat × Nat)
  gateSeqs : Tbl (BitVec 16)
  gateOut : List GateOut
  actions : List Action
  queues : Tbl PipeQueue
  layers : List Layer
  layerTable : Nat
  passOneBegun : Bool
  norm : Tbl Word
  g : Word
  kappa : Word
  local_ : Bool
  combinedPoison : Bool
  decision : Decision
  deferNow : Bool
  pushesLeft : List (BitVec 16)
  probing : Tbl Word
  probeSince : Tbl Nat
  stalledProbes : List Nat
  rules : Tbl Word
  pendingRules : Tbl Word
  frozenLayers : Nat
  fellBackLayers : Nat
  hostHold : List Nat
  closing : List (Fin 64 × BitVec 16 × Byte)
deriving DecidableEq, Repr

/-- A context that holds no job. -/
def Job.reset : Job :=
  { cfg := JobCtx.none, phase := .empty, curfew := 0, superstep := 0, listS := 0, listA := 0, listActions := 0,
    records := [], stepsBegun := 0, step := none, waitingSteps := [], inputs := [], tokens := [], stop := false,
    held := false, restored := false, evaluation := false, nonfinite := false, poisonFlag := false, clock := 0, frozen := 0,
    throttleFreeze := false, flits := [], thawed := false, lastMet := none,
    measured := 0, waited := 0, waitCycles := 0, tally := [], msgs := [], nextMsg := 0, chainDone := [],
    gateSeqs := [], gateOut := [], actions := [], queues := [], layers := [], layerTable := 0, passOneBegun := false, norm := [], g := 0,
    kappa := 0x3F800000, local_ := false, combinedPoison := false, decision := .pending, deferNow := false,
    pushesLeft := [], probing := [], probeSince := [], stalledProbes := [], rules := [], pendingRules := [], frozenLayers := 0,
    fellBackLayers := 0, hostHold := [], closing := [] }

/-! ### Memory (R208 to R239) -/

/-- A stack and its controller (R208 to R224). `bankTimes` maps a bank to the ticks of its
corrected symbols, and `banksOver` to the tick at which they last reached the threshold of R213. -/
structure Stack where
  trained : Bool
  hot : Bool
  temp : Byte
  ce : Dword
  ue : Dword
  bankTimes : Tbl (List Nat)
  banksOver : Tbl Nat
  refreshed : Tbl Nat
  response : Option (Nat × List Byte × Bool)
deriving DecidableEq, Repr

/-- A stack at power-on. -/
def Stack.reset : Stack := ⟨false, false, 0, 0, 0, [], [], [], none⟩

/-- A FRAME_RELEASE in progress (R227). -/
structure Release where
  ring : Fin 64
  index : BitVec 16
  ctx : Fin 8
  frames : List Nat
deriving DecidableEq, Repr

/-- Local memory and its protection. `errors` are the symbols that differ from the codewords of the data,
`symbol` 0 to 35 in codeword 0 and 36 to 71 in codeword 1. `owner` is the frame table of R226. -/
structure Memory where
  data : Mem
  poison : List Nat
  errors : Tbl (List (Nat × Byte))
  owner : Tbl Byte
  stackTbl : Tbl Stack
  scrubPeriod : BitVec 3
  inject : Dword
  releases : List Release
  dirty : List (Nat × Nat)
deriving DecidableEq, Repr

/-- Memory at power-on. -/
def Memory.reset : Memory :=
  { data := [], poison := [], errors := [], owner := [], stackTbl := [], scrubPeriod := 1, inject := 0, releases := [],
    dirty := [] }

/-! ### Ostlers (R240 to R282) -/

/-- A descriptor that an Ostler has received: the next packed position to split, the chunks not finished, the status
with which it ended early, its counts, and, for an Ostler point, the lines granted and the lines delivered. `ctrl` is
OST_GROUP_CTRL as its splitting found it (R275). -/
structure Desc where
  id : Nat
  src : Source
  index : BitVec 16
  ctx : Fin 8
  raw : BitVec 512
  action : Option Nat
  ostler : Nat
  bounced : Bool
  next : Nat
  chunksLeft : Nat
  ended : Option Byte
  poisonMoved : Bool
  fills : Nat
  dropped : Nat
  bits : Nat
  granted : Nat
  lines : List (List Byte × Bool)
  ctrl : Option Word
deriving DecidableEq, Repr

/-- A chunk: a run of packed positions of a descriptor (R267). -/
structure Chunk where
  desc : Nat
  lo : Nat
  count : Nat
deriving DecidableEq, Repr

/-- An Ostler: OST_STATUS, OST_BYTES, OST_STOLEN and its queue (R240, R274). -/
structure Ostler where
  queue : List Chunk
  current : Option Chunk
  bounce : Bool
  bytes : Dword
  stolen : Dword
deriving DecidableEq, Repr

/-- An idle Ostler at power-on. -/
def Ostler.reset : Ostler := ⟨[], none, false, 0, 0⟩

/-! ### Courier (R392 to R428) -/

/-- A byte of Courier data with its poison and NONFINITE marks (R360, R402). -/
structure MByte where
  val : Byte
  poison : Bool
  nonfinite : Bool
deriving DecidableEq, Repr

/-- A contribution that waits in the fold buffer (R401): its sender, its byte offset at the owner and its bytes. -/
structure Piece where
  sender : Nat
  offset : Nat
  data : List MByte
deriving DecidableEq, Repr

/-- A Courier command in progress (R394 to R420): the ports whose CHECK is awaited, whether its data flow, whether
its gate-stream source is filled, the bytes that each owner permits and that have gone to it, the contributions waiting in the fold
buffer with the bytes of its own run that it has permitted to each contributor and that it has folded, the bytes received, the
PERMUTE round, whether its own DONE is sent, and the rounds and participants whose DONE arrived; `segment` is the segment length of
its transfers, `dest` its destination (address, bytes), `landed` the ranges of it that have landed, `clean` those written without
poison, `nfLines` the source lines that a gate stream marked NONFINITE, `since` the tick of its last progress, and `failed` tells
that a failed access ended it. -/
structure CCmd where
  src : Source
  index : BitVec 16
  ctx : Fin 8
  raw : BitVec 512
  action : Option Nat
  tag : BitVec 16
  table : List Byte
  checks : List Nat
  started : Bool
  collected : Bool
  granted : Tbl Nat
  sentTo : Tbl Nat
  pieces : List Piece
  grantedTo : Nat
  foldedTo : Nat
  got : Nat
  round : Nat
  ownDone : Bool
  dones : List (Nat × Nat)
  fills : Nat
  txBytes : Nat
  poisonMoved : Bool
  nonfinite : Bool
  delivered : Bool
  status : Option Byte
  segment : Nat
  dest : List (Nat × Nat)
  landed : List (Nat × Nat)
  clean : List (Nat × Nat)
  nfLines : List Nat
  failed : Bool
  since : Nat
deriving DecidableEq, Repr

/-- A segment that an OPEN has bound on a port direction, and the streams it is relayed on (R404, R405). -/
structure Stream where
  tag : BitVec 16
  origin : Nat
  final : Nat
  offset : Nat
  count : Nat
  nextIndex : Nat
  relays : List (Nat × Nat)
deriving DecidableEq, Repr

/-- A segment that waits for a stream number of its port (R405). -/
structure HeldSegment where
  port : Nat
  tag : BitVec 16
  origin : Nat
  final : Nat
  offset : Nat
  elem : Nat
  data : List MByte
deriving DecidableEq, Repr

/-- The Courier: CRR_CTRL, its commands, those that have ended and may still have to relay, the open streams of each port
(64 × port + stream), the next stream that each port opens, the segments that wait for one, and its counters. -/
structure Courier where
  ctrl : Word
  cmds : List CCmd
  ended : List CCmd
  streams : Tbl Stream
  nextStream : Tbl Nat
  held : List HeldSegment
  tx : Tbl Dword
  rx : Tbl Dword
  through : Tbl Dword
deriving DecidableEq, Repr

/-- The Courier at power-on: SEGMENT 0b10. -/
def Courier.reset : Courier := ⟨2, [], [], [], [], [], [], [], []⟩

/-! ### Update Engine (R312 to R348) -/

/-- A micro-engine: UPD_ENGINE_STATUS and its queue of (context, table index) (R341). -/
structure MicroEngine where
  busy : Bool
  pass : BitVec 2
  queue : List (Nat × Nat)
deriving DecidableEq, Repr

/-- An idle micro-engine. -/
def MicroEngine.reset : MicroEngine := ⟨false, 0, []⟩

/-! ### Porter and Health (R494 to R540) -/

/-- A memory block of a snapshot (R516, R517). -/
structure Block where
  va : BitVec 48
  data : Mem
  poison : List Nat
  crcOk : Bool
deriving DecidableEq, Repr

/-- A snapshot slot, of the shadow region or of a mirror (R516, R519). -/
structure Snap where
  valid : Bool
  step : Word
  curfew : Word
  tag : BitVec 16
  coord : BitVec 20
  engine : EngineRec
  scale : List Byte
  scalePoison : List Nat
  blocks : List Block
  tiles : List TileRec
deriving DecidableEq, Repr

/-- A slot nothing was written to. -/
def Snap.empty : Snap := ⟨false, 0, 0, 0, 0, ⟨0, [], [], []⟩, [], [], [], []⟩

/-- What a Porter sends through a port section (R303, R519, R525): a part of a snapshot, the acknowledgement of a commit,
a request for a mirror's copy, a shipment into another module's memory. -/
inductive PorterMsg where
  | part (p : Part)
  | ack (step : Word)
  | request (step : Word)
  | ship (ctx : Byte) (va : Dword) (lines : List (List Byte × Bool))
deriving DecidableEq, Repr

/-- The Porter's state for a context: PRT_CTX_STATUS, PRT_RECOVERY_STEP, its slots, the mirrors it holds (two slots
for each of +D and −D) and what it has sent (R513 to R521). -/
structure Porter where
  capturing : Bool
  copying : Bool
  mirroring : Bool
  shipping : Bool
  deferred : Bool
  ready : Bool
  newestValid : Bool
  newestSlot : Bool
  recoveryStep : Word
  due : Bool
  dueStep : Word
  extra : List (Fin 64 × BitVec 16 × Word)
  slots : Tbl Snap
  mirrors : Tbl Snap
  slotFrames : Tbl (List Nat)
  mirrorFrames : Tbl (List Nat)
  framesLeft : List (Nat × Nat)
  acksLeft : List Nat
  out : List (Nat × PorterMsg)
deriving DecidableEq, Repr

/-- The Porter of a context that has held no job. -/
def Porter.reset : Porter :=
  { capturing := false, copying := false, mirroring := false, shipping := false, deferred := false, ready := false,
    newestValid := false, newestSlot := false, recoveryStep := 0xFFFFFFFF, due := false, dueStep := 0, extra := [],
    slots := [], mirrors := [], slotFrames := [], mirrorFrames := [], framesLeft := [], acksLeft := [], out := [] }

/-- A Logbook record (R505). -/
structure LogRec where
  kind : Byte
  code : BitVec 16
  unit : BitVec 24
  minutes : Word
  step : Word
  count : BitVec 16
  detail : BitVec 96
deriving DecidableEq, Repr

/-- A sector of the Logbook: erased sectors have sequence number none (R504). -/
structure Sector where
  seq : Option Nat
  records : List LogRec
deriving DecidableEq, Repr

/-- The Health Engine and the Logbook: the FIELD_TEST in progress with its ring and slot, the tests left, the records
waiting to be appended, the sectors, what the history of each unit has brought (R507), and the powered minutes of earlier
power-ons. -/
structure Health where
  running : Option (Fin 64 × BitVec 16)
  tests : BitVec 5
  body : BitVec 512
  pendingRecs : List LogRec
  sectors : Tbl Sector
  nextSeq : Nat
  confirm : List Nat
  bankDays : Tbl (List Nat)
  lanesFailed : List Nat
  suspects : Tbl Nat
  known : List Nat
  poweredBefore : Nat
deriving DecidableEq, Repr

/-- Health at power-on with an erased Logbook. -/
def Health.reset : Health :=
  { running := none, tests := 0, body := 0, pendingRecs := [], sectors := [], nextSeq := 0, confirm := [], bankDays := []
    lanesFailed := [], suspects := [], known := [], poweredBefore := 0 }

/-! ### Host interface (R429 to R460) -/

/-- A completion record's class-dependent part (R443). -/
structure Completion where
  status : Byte
  user : BitVec 16
  a : Dword
  b : Dword
  c : Dword
deriving DecidableEq, Repr

/-- An entry that the device has fetched and not yet recorded. -/
structure Entry where
  index : BitVec 16
  raw : BitVec 512
  ep : Bool
  started : Bool
  done : Option Completion
deriving DecidableEq, Repr

/-- A ring: HST_RING_BASE, _CBASE, _CFG, _STATUS, its doorbell INDEX, its phase and write position, and its
entries in flight; `lostHere` counts the records an Event ring dropped (R450). -/
structure Ring where
  base : Dword
  cbase : Dword
  cfg : Word
  active : Bool
  halted : Bool
  fetch : Nat
  bell : Nat
  phase : Bool
  write : Nat
  read : Nat
  entries : List Entry
  lostHere : Nat
deriving DecidableEq, Repr

/-- A ring at reset. -/
def Ring.reset : Ring := ⟨0, 0, 0, false, false, 0, 0, true, 0, 0, [], 0⟩

/-- A write that the device makes on the host bus, in order (R430). -/
inductive HostWrite where
  | data (addr : Dword) (bytes : List Byte) (ep : Bool)
  | msix (vector : Nat) (addr : Dword) (data : Word)
deriving DecidableEq, Repr

/-- An MSI-X table entry: address, data and the mask bit (R431, R453). -/
structure Msix where
  addr : Dword
  data : Word
  masked : Bool
deriving DecidableEq, Repr

/-- A masked vector, as PCIe resets the table. -/
def Msix.reset : Msix := ⟨0, 0, true⟩

/-- The host interface; `readData` is what the last read that a command stands for has returned (R6 to R8). -/
structure HostIf where
  rings : Tbl Ring
  deviceEvents : Word
  eventsLost : Dword
  rate : BitVec 4
  width : BitVec 6
  msix : Tbl Msix
  msixPending : Dword
  msixDue : Dword
  msixLast : Tbl Nat
  busMaster : Bool
  perst : Bool
  d3hot : Bool
  halves : Tbl Word
  latched : Tbl Word
  readData : Dword
  out : List HostWrite
  heldOut : List HostWrite
  served : Tbl Nat
  retries : Nat
deriving DecidableEq, Repr

/-- The host interface at power-on reset. -/
def HostIf.reset : HostIf :=
  { rings := [], deviceEvents := 0, eventsLost := 0, rate := 0, width := 0, msix := [], msixPending := 0, msixDue := 0,
    msixLast := [], busMaster := false, perst := true, d3hot := false, halves := [], latched := [], readData := 0, out := [],
    heldOut := [], served := [], retries := 0 }

/-! ### Optical ports (R349 to R391) -/

/-- Link states of R377, numbered as LNK_PORT_STATUS.LINK. -/
inductive Link where
  | off | detect | train | auth | run | holdoff | quarantine
deriving DecidableEq, Repr

/-- A flit in the sender: class, TYPE, the COURIER field, payload, marks (R357, R362). -/
structure TxFlit where
  type : BitVec 4
  courier : BitVec 28
  payload : List Byte
  poison : BitVec 15
  nonfinite : Bool
deriving DecidableEq, Repr

/-- What a slot carried: the flit, none for a marker, and the 256 bytes as transmitted (R355, R356, R359). -/
structure SlotTx where
  flit : Option Flit
  image : List Byte
deriving DecidableEq, Repr

/-- A port: its registers, lanes, lane maps, session and retry state.

- Training: `retrained` stands once a retrain's training is done and its first frame has not verified yet (R376).
- Lane maps: `mapAsked` are the maps that this receiver has asked for, newest first, `rxNext` is what the partner's last marker
  announces, and `txPending` what this transmitter announces, in a marker once `txAnnounced` (R370).
- Session: `session` is the key material, `lower` whether this side has the lower serial; `txKey` and `rxKey` are the keys of the
  frames sent and received, none before the first encrypted frame of the direction; `nextSession` is material that comes into force at
  the next FRAME wrap (R373, R375); `txOld` is the sequence that the partner expects until it has seen that frame (R361).
- Sending: `txSlot` counts the slots of the superframe, slot 0 of each frame being its marker; `txMark`, `txHeads` and `txCipher` are the
  batch in progress, `txTag` the tag of the last one (R374), and `sent` lists what has been sent.
- Receiving: `rxMark` is the marker's bytes 0 to 7 of the frame in progress; `rx` holds accepted flits, `authIn` the payloads of
  accepted AUTH flits, `myMsgs` and `peerMsgs` the messages of steps 1 to 3 (R372). -/
structure Port where
  enable : Bool
  expectEn : Bool
  link : Link
  laser : Bool
  activeRx : BitVec 34
  activeTx : BitVec 34
  goodRx : BitVec 34
  failedRx : BitVec 34
  retrained : Bool
  erased : Option Nat
  mapVersion : BitVec 4
  mapAsked : List (BitVec 4 × BitVec 34)
  rxNext : Option (BitVec 4 × BitVec 34)
  txVersion : BitVec 4
  txPending : Option (BitVec 4 × BitVec 34)
  holdoffs : Nat
  retryCfg : Word
  retryCfgNext : Word
  peerExpect : Word
  retries : Dword
  corrected : Dword
  uncorrectable : Dword
  naks : Nat
  nakOut : Bool
  session : Option (BitVec 512)
  nextSession : Option (BitVec 512)
  lower : Bool
  txKey : Option (List Byte)
  rxKey : Option (List Byte)
  txOld : Option (BitVec 16)
  txFresh : Bool
  rxFresh : Bool
  authStep : Nat
  mySteps : Nat
  reauth : Bool
  loopback : Bool
  nonce : BitVec 256
  secret : BitVec 384
  myMsgs : List (List Byte)
  partnerSerial : BitVec 128
  peerNonce : BitVec 256
  peerPoint : BitVec 776
  peerMsgs : List (List Byte)
  authIn : List (List Byte)
  txSeq : BitVec 16
  rxSeq : BitVec 16
  txFrame : Word
  txEpoch : BitVec 16
  rxFrame : Word
  rxEpoch : BitVec 16
  rxMark : Option (List Byte)
  dropNext : Bool
  txSlot : Nat
  txAnnounced : Bool
  txMark : List Byte
  txHeads : List Byte
  txCipher : List Byte
  txTag : BitVec 128
  class0 : List TxFlit
  class1 : List TxFlit
  retry : List (BitVec 16 × TxFlit)
  resend : List (BitVec 16 × TxFlit)
  credit1 : Nat
  credit0 : Nat
  owe1 : Nat
  owe0 : Nat
  rx : List Flit
  sent : List SlotTx
  starved : List Nat
  berCount : Tbl Nat
  runSince : Nat
  hot : Bool
deriving DecidableEq, Repr

/-- A port at power-on with its strap down: ENABLE 0, LIMIT 0x0100, HOLDOFF 0x0A, WINDOW 0x0A. -/
def Port.reset : Port :=
  { enable := false, expectEn := false, link := .off, laser := false, activeRx := 0, activeTx := 0, goodRx := 0,
    failedRx := 0, retrained := false, erased := none, mapVersion := 0, mapAsked := [], rxNext := none, txVersion := 0, txPending := none,
    holdoffs := 0, retryCfg := 0x01000A0A, retryCfgNext := 0x01000A0A, peerExpect := 0, retries := 0, corrected := 0,
    uncorrectable := 0, naks := 0, nakOut := false, session := none, nextSession := none, lower := false
    txKey := none, rxKey := none, txOld := none, txFresh := false, rxFresh := false, authStep := 0, mySteps := 0,
    reauth := false, loopback := false, nonce := 0, secret := 0, myMsgs := [], partnerSerial := 0, peerNonce := 0
    peerPoint := 0, peerMsgs := [], authIn := [], txSeq := 0, rxSeq := 0, txFrame := 0, txEpoch := 0,
    rxFrame := 0, rxEpoch := 0, rxMark := none, dropNext := false, txSlot := 0, txAnnounced := false, txMark := []
    txHeads := [], txCipher := [], txTag := 0, class0 := [], class1 := [], retry := [], resend := [],
    credit1 := 4096, credit0 := 8, owe1 := 0, owe0 := 0, rx := [], sent := [], starved := [], berCount := [],
    runSince := 0, hot := false }

/-! ### Identity, boot, straps, settings (R541 to R573) -/

/-- One generation of a settings block: how its write went (R562, R563). -/
structure Generation where
  nonblank : Bool
  committed : Bool
  valid : Bool
  payload : List Byte
deriving DecidableEq, Repr

/-- Where the boot stands (R553). -/
inductive BootPhase where
  | rom | romState | hostWait | firmware | rails | done
deriving DecidableEq, Repr

/-- What runs: SEC_BOOT_STATUS.RUN. -/
inductive Running where
  | slotA | slotB | recovery | hostload
deriving DecidableEq, Repr

/-- Identity, boot and persistent settings. `uds` is none while the secret area holds what manufacture programmed. `otp` maps
4 × block + generation to a generation as programmed now, `otpBoot` as the last power-on reset found it: new values take
effect at the next one (R564). -/
structure Boot where
  uds : Option (BitVec 384)
  serial : BitVec 128
  otp : Tbl Generation
  otpBoot : Tbl Generation
  straps : Straps
  strapsLatched : Bool
  phase : BootPhase
  running : Running
  slotA : Image
  slotB : Image
  recovery : Image
  hostload : Image
  aValid : Bool
  bValid : Bool
  aReason : Byte
  bReason : Byte
  aBad : Bool
  bBad : Bool
  fallback : Bool
  done : Bool
  debugOpen : Bool
  debugRefused : Bool
  identity : Bool
  certOk : Bool
  bootEvents : List (BitVec 16 × Dword × Dword)
  gateTile : Tbl Word
  usable : Tbl Word
  staging : Mem
  standby : Bool
  cdi1 : BitVec 384
  cdi2 : BitVec 384
deriving DecidableEq, Repr

/-- A slot whose first 4 KiB are all ones. -/
def blankImage : Image := ⟨true, 0, 0, 0xFF, 0, 0, 0, 0⟩

/-- The settings of a module as it ships, with a root-key hash and in lifecycle PRODUCTION (log entry 2). -/
def Boot.shipped : Tbl Generation :=
  [(12, ⟨true, true, true, List.replicate 48 0⟩), (16, ⟨true, true, true, [1, 0, 0, 0, 0, 0, 0, 0]⟩)]

/-- Boot state at the release of the internal power-on reset. -/
def Boot.reset : Boot :=
  { uds := none, serial := 0, otp := Boot.shipped, otpBoot := Boot.shipped, straps := ⟨0, 0, 1, 1, 0⟩, strapsLatched := false, phase := .rom,
    running := .slotA, slotA := blankImage, slotB := blankImage, recovery := blankImage, hostload := blankImage,
    aValid := false, bValid := false, aReason := 0, bReason := 0
    aBad := false, bBad := false, fallback := false, done := false, debugOpen := false, debugRefused := false,
    identity := false, certOk := true, bootEvents := [], gateTile := [], usable := [], staging := [],
    standby := true, cdi1 := 0, cdi2 := 0 }

/-! ### Clocks, power, thermal, test port (R574 to R594) -/

/-- Clocks, power and temperature. Steps are 0 for 1.6, 1 for 1.4, 2 for 1.2 and 3 for 0.8 GHz. `coolSince` maps a step to the tick
since which every sensor has been 5 °C below its threshold, `noLoads` is PWR_STATUS.LOCKOUT, and `railsUp`, `failedRail` and
`mainOff` tell the rails that are up, the one that failed to come up, and that they stay off until a power-on reset. -/
structure Power where
  rootLock : Bool
  lossHandling : Bool
  relockTries : Nat
  unlocks : Byte
  step : BitVec 2
  requested : BitVec 2
  source : BitVec 3
  thermalReq : BitVec 2
  powerReq : BitVec 2
  alertReq : Bool
  criticalReq : Bool
  mainGood : Bool
  railsUp : List Nat
  failedRail : Option Nat
  mainOff : Bool
  vinGood : Bool
  alertIn : Bool
  powerAvg : BitVec 16
  voltage : BitVec 16
  limit : BitVec 16
  rail : Tbl Word
  temp : Tbl Word
  coolSince : Tbl Nat
  noLoads : Bool
  overRun : Nat
  underRun : Nat
  slowRun : Nat
  reported4 : Bool
  critical : List Nat
  vcore : Tbl Nat
  thermtripN : Bool
  jtag : BitVec 3
  boundary : BitVec 64
  idcodeOut : Word
  sideAddr : BitVec 7
  i3cAddr : Option (BitVec 7)
  answers : List (Nat × List Byte)
deriving DecidableEq, Repr

/-- Power at the release of the internal power-on reset: PWR_LIMIT 0x0960, THERMTRIP_N deasserted. -/
def Power.reset : Power :=
  { rootLock := false, lossHandling := false, relockTries := 0, unlocks := 0, step := 0, requested := 0, source := 0,
    thermalReq := 0, powerReq := 0, alertReq := false, criticalReq := false, mainGood := false, railsUp := [], failedRail := none,
    mainOff := false, vinGood := false, alertIn := false, powerAvg := 0, voltage := 0,
    limit := 0x0960, rail := [], temp := [],
    coolSince := [], noLoads := false, overRun := 0, underRun := 0, slowRun := 0, reported4 := false, critical := [],
    vcore := [], thermtripN := true, jtag := 0, boundary := 0, idcodeOut := 0, sideAddr := 0x5A, i3cAddr := none,
    answers := [] }

/-- The two steppings (R3). -/
inductive Stepping where
  | a1 | b0
deriving DecidableEq, Repr

/-- The whole module. -/
structure State where
  pending : List Instr
  tick : Nat
  fresh : Nat
  stepping : Stepping
  tiles : Tbl Tile
  retired : List Nat
  applied : Tbl (List Nat)
  jobs : Tbl Job
  mem : Memory
  ostlers : Tbl Ostler
  groups : Tbl Word
  descs : List Desc
  nextDesc : Nat
  engineDescs : List (Fin 8 × Option Nat × BitVec 512)
  engineCmds : List (Fin 8 × Option Nat × BitVec 512)
  courier : Courier
  engines : Tbl MicroEngine
  updCtrl : Word
  frozenSkips : Tbl Dword
  fallbacks : Tbl Dword
  porters : Tbl Porter
  health : Health
  host : HostIf
  ports : Tbl Port
  selfCoord : Word
  pendingTokens : List (Fin 8 × Word × Word × Nat)
  boot : Boot
  power : Power
deriving DecidableEq, Repr

/-- The module at the release of its internal power-on reset, before boot: every register at its Reset column,
the persistent stores as a module ships (log entry 2), nothing pending. -/
def State.reset : State :=
  { pending := [], tick := 0, fresh := 0, stepping := .a1, tiles := [], retired := [], applied := [], jobs := [],
    mem := Memory.reset, ostlers := [], groups := [], descs := [], nextDesc := 0, engineDescs := [], engineCmds := [],
    courier := Courier.reset, engines := [], updCtrl := 0x80000000, frozenSkips := [], fallbacks := [], porters := [],
    health := Health.reset, host := HostIf.reset, ports := [], selfCoord := 0, pendingTokens := [],
    boot := Boot.reset, power := Power.reset }

/-- Why the model stops. -/
inductive Fault where
  /-- Raised by MEMORY_READ, MEMORY_WRITE and PATROL_SCRUB on a stack that did not train (R210). Safe: such a
  stack serves no access. -/
  | stackAbsent
deriving DecidableEq, Repr

/-- Why the model gives a command no meaning. -/
inductive Refusal where
  /-- Raised by an arm of `exec` for a command not reached yet. Safe. -/
  | notModelled (mnemonic : String)
  /-- Raised by MANAGEMENT_DEBUG while debug is open: the manual does not say what a management-core debug
  instruction does (R566, R590). Safe. -/
  | debugUnit
deriving DecidableEq, Repr

end Sys2Proof.Machine
end

