-- ==== Sys2Proof/Machine/Table.lean ====
section
/-! DEFINITION. Tables, byte memory and byte strings. -/

namespace Sys2Proof.Machine

/-- The entry of a key, or the default. -/
def Tbl.get {α : Type} (dflt : α) : Tbl α → Nat → α
  | [], _ => dflt
  | (j, v) :: t, k => if j = k then v else Tbl.get dflt t k

/-- The entry of a key, if the table lists it. -/
def Tbl.find {α : Type} : Tbl α → Nat → Option α
  | [], _ => none
  | (j, v) :: t, k => if j = k then some v else Tbl.find t k

/-- The table with a key's entry set. Keys stay rising. -/
def Tbl.set {α : Type} : Tbl α → Nat → α → Tbl α
  | [], k, v => [(k, v)]
  | (j, w) :: t, k, v =>
    if k < j then (k, v) :: (j, w) :: t else if k = j then (k, v) :: t else (j, w) :: Tbl.set t k v

/-- The table without a key. -/
def Tbl.drop {α : Type} : Tbl α → Nat → Tbl α
  | [], _ => []
  | (j, w) :: t, k => if j = k then t else (j, w) :: Tbl.drop t k

/-- Apply a function to a key's entry. -/
def Tbl.modify {α : Type} (dflt : α) (t : Tbl α) (k : Nat) (f : α → α) : Tbl α := t.set k (f (t.get dflt k))

/-- Apply a function to every listed entry. -/
def Tbl.mapAll {α β : Type} (f : α → β) (t : Tbl α) : Tbl β := t.map fun e => (e.1, f e.2)

/-- The byte at an address. -/
def Mem.get (m : Mem) (a : Nat) : Byte := Tbl.get Mem.blank m a

/-- The memory with one byte written: the form stays canonical. -/
def Mem.put (m : Mem) (a : Nat) (b : Byte) : Mem :=
  if b = Mem.blank then Tbl.drop m a else Tbl.set m a b

/-- `n` bytes from an address. -/
def Mem.read (m : Mem) (a : Nat) : Nat → List Byte
  | 0 => []
  | n + 1 => m.get a :: Mem.read m (a + 1) n

/-- Bytes written from an address upwards. -/
def Mem.write (m : Mem) (a : Nat) : List Byte → Mem
  | [] => m
  | b :: bs => Mem.write (m.put a b) (a + 1) bs

/-- Drop every byte of `[lo, lo + n)`, so that it reads as the blank byte. -/
def Mem.clear (m : Mem) (lo n : Nat) : Mem := m.filter (fun c => decide (c.1 < lo) || decide (lo + n ≤ c.1))

/-- Addresses rise strictly from `lo` and no listed byte is the blank one. -/
def Mem.wfFrom : Nat → Mem → Bool
  | _, [] => true
  | lo, (a, b) :: t => decide (lo ≤ a) && b != Mem.blank && Mem.wfFrom (a + 1) t

/-- The canonical form of byte memory. -/
def Memory.wf (m : Mem) : Bool := Mem.wfFrom 0 m

/-- Insert a number into a rising list without repeats. -/
def addTo (l : List Nat) (n : Nat) : List Nat := if n ∈ l then l else (l.filter (· < n)) ++ n :: (l.filter (n < ·))

/-- Take a number out of a list. -/
def dropFrom (l : List Nat) (n : Nat) : List Nat := l.filter (· ≠ n)

/-- Put numbers in or take them out. -/
def setMember (l : List Nat) (n : Nat) (b : Bool) : List Nat := if b then addTo l n else dropFrom l n

/-- The little-endian value of a byte string. -/
def ofBytes : List Byte → Nat
  | [] => 0
  | b :: bs => b.toNat + 256 * ofBytes bs

/-- `n` little-endian bytes of a number. -/
def toBytes : Nat → Nat → List Byte
  | 0, _ => []
  | n + 1, v => BitVec.ofNat 8 v :: toBytes n (v / 256)

/-- The bytes `[lo, lo + n)` of a byte string. -/
def bytesAt (l : List Byte) (lo n : Nat) : List Byte := (l.drop lo).take n

/-- The little-endian number in bytes `[lo, lo + n)`. -/
def numAt (l : List Byte) (lo n : Nat) : Nat := ofBytes (bytesAt l lo n)

/-- A list cut or padded with zero bytes to `n` bytes. -/
def fitBytes (n : Nat) (l : List Byte) : List Byte := (l ++ List.replicate n 0).take n

/-- The list cut into pieces of `n` bytes, `k` of them. -/
def cutBytes (n : Nat) : Nat → List Byte → List (List Byte)
  | 0, _ => []
  | k + 1, l => fitBytes n (l.take n) :: cutBytes n k (l.drop n)

/-- Bits `[hi:lo]` of a number. -/
def bitsOf (v hi lo : Nat) : Nat := (v / 2 ^ lo) % 2 ^ (hi + 1 - lo)

/-- One bit of a number. -/
def bitOf (v n : Nat) : Bool := (v / 2 ^ n) % 2 == 1

/-- A field of `w` bits read as two's complement. -/
def signedOf (w v : Nat) : Int := if v < 2 ^ (w - 1) then (v : Int) else (v : Int) - 2 ^ w

/-- Round a quotient up. -/
def ceilDiv (a b : Nat) : Nat := (a + b - 1) / b

/-- One byte of CRC-32C, bit by bit (R356: reflected polynomial of 0x1EDC_6F41). -/
def crcBits : Nat → Nat → Nat
  | 0, c => c
  | n + 1, c => crcBits n (if c % 2 = 1 then (c / 2) ^^^ 0x82F63B78 else c / 2)

/-- CRC-32C of a byte string (R356). -/
def crc32c (l : List Byte) : Word :=
  BitVec.ofNat 32 ((l.foldl (fun c b => crcBits 8 (c ^^^ b.toNat)) 0xFFFFFFFF) ^^^ 0xFFFFFFFF)

end Sys2Proof.Machine
end

