-- ==== Sys2Proof/Machine/Float.lean ====
section
/-! DEFINITION. Number formats, exact values, the one rounding of every operation, and the conversions of
"Formats, scaling and accumulation" (R29 to R80). -/

namespace Sys2Proof.Machine

/-- An exact value: NaN, a signed infinity, or ± m × 2^e (m = 0 is a signed zero). -/
inductive FVal where
  | nan
  | inf (neg : Bool)
  | fin (neg : Bool) (m : Nat) (e : Int)
deriving DecidableEq, Repr

/-- How a format spells infinities and NaNs (R31). -/
inductive Special where
  | ieee | nanOnly | never
deriving DecidableEq, Repr

/-- A floating format of R31. -/
structure Fmt where
  ebits : Nat
  mbits : Nat
  bias : Int
  special : Special
deriving DecidableEq, Repr

def fp32 : Fmt := ⟨8, 23, 127, .ieee⟩
def bf16 : Fmt := ⟨8, 7, 127, .ieee⟩
def fp16 : Fmt := ⟨5, 10, 15, .ieee⟩
def e4m3 : Fmt := ⟨4, 3, 7, .nanOnly⟩
def e5m2 : Fmt := ⟨5, 2, 15, .ieee⟩
def e3m2 : Fmt := ⟨3, 2, 3, .never⟩
def e2m1 : Fmt := ⟨2, 1, 1, .never⟩

/-- The exponent of a format's smallest subnormal. -/
def Fmt.emin (f : Fmt) : Int := 1 - f.bias - f.mbits

/-- Significant bits, the leading one counted. -/
def Fmt.prec (f : Fmt) : Nat := f.mbits + 1

/-- The largest exponent field of a finite value. -/
def Fmt.maxField (f : Fmt) : Nat :=
  match f.special with
  | .ieee => 2 ^ f.ebits - 2
  | _ => 2 ^ f.ebits - 1

/-- The largest finite magnitude's bits without the sign (R31). -/
def Fmt.maxBits (f : Fmt) : Nat :=
  match f.special with
  | .ieee => (2 ^ f.ebits - 2) * 2 ^ f.mbits + (2 ^ f.mbits - 1)
  | .nanOnly => 2 ^ (f.ebits + f.mbits) - 2
  | .never => 2 ^ (f.ebits + f.mbits) - 1

/-- The canonical NaN (R33). -/
def Fmt.nanBits (f : Fmt) : Nat :=
  match f.special with
  | .ieee => (2 ^ f.ebits - 1) * 2 ^ f.mbits + 2 ^ (f.mbits - 1)
  | .nanOnly => 2 ^ (f.ebits + f.mbits) - 1
  | .never => 0

/-- The sign bit's weight. -/
def Fmt.signBit (f : Fmt) : Nat := 2 ^ (f.ebits + f.mbits)

/-- The value of an encoding (R31); every NaN encoding is a NaN (R33). -/
def Fmt.value (f : Fmt) (bits : Nat) : FVal :=
  let neg := bitOf bits (f.ebits + f.mbits)
  let ef := (bits / 2 ^ f.mbits) % 2 ^ f.ebits
  let mf := bits % 2 ^ f.mbits
  let finite : FVal :=
    if ef = 0 then .fin neg mf f.emin else .fin neg (2 ^ f.mbits + mf) ((ef : Int) - 1 + f.emin)
  if ef = 2 ^ f.ebits - 1 then
    match f.special with
    | .ieee => if mf = 0 then .inf neg else .nan
    | .nanOnly => if mf = 2 ^ f.mbits - 1 then .nan else finite
    | .never => finite
  else finite

/-- Shift right by `n`, rounding to nearest with ties to even. -/
def shrNearest (m n : Nat) : Nat :=
  let q := m / 2 ^ n
  let r := m % 2 ^ n
  if n = 0 then m
  else if 2 * r > 2 ^ n then q + 1
  else if 2 * r = 2 ^ n then q + q % 2
  else q

/-- Shift right by `n`, rounding up. -/
def shrUp (m n : Nat) : Nat := (m + (2 ^ n - 1)) / 2 ^ n

/-- Round m × 2^e to `p` significant bits, no finer than 2^emin; the answer is (m', e'). -/
def roundWith (shr : Nat → Nat → Nat) (p : Nat) (emin : Int) (m : Nat) (e : Int) : Nat × Int :=
  if m = 0 then (0, emin)
  else
    let q : Int := max ((Nat.log2 m : Int) + e - ((p : Int) - 1)) emin
    if q ≤ e then (m * 2 ^ (e - q).toNat, q) else (shr m (q - e).toNat, q)

/-- Compare magnitudes m × 2^e and n × 2^d. -/
def magLt (m : Nat) (e : Int) (n : Nat) (d : Int) : Bool :=
  if e ≤ d then decide (m < n * 2 ^ (d - e).toNat) else decide (m * 2 ^ (e - d).toNat < n)

/-- Encode a magnitude already rounded to the format, not beyond its largest finite value. -/
def Fmt.pack (f : Fmt) (m : Nat) (e : Int) : Nat :=
  if m = 0 then 0
  else
    let top := Nat.log2 m
    if top < f.mbits then m * 2 ^ (e - f.emin).toNat
    else
      let field : Int := (top : Int) + e + f.bias
      field.toNat * 2 ^ f.mbits + (m * 2 ^ f.mbits / 2 ^ top - 2 ^ f.mbits)

/-- The result of a conversion: the bits, whether it saturated a finite input, and whether it read or made a
non-finite value. -/
structure Conv where
  bits : Nat
  sat : Bool
  nonfinite : Bool
deriving DecidableEq, Repr

/-- Whether a rounded magnitude lies beyond the largest finite value. -/
def Fmt.beyond (f : Fmt) (m : Nat) (e : Int) : Bool :=
  match f.value f.maxBits with
  | .fin _ mm me => magLt mm me m e
  | _ => false

/-- Convert an exact value (R35, R36). `ovf` is the overflow mode: false saturating. For formats without
infinities an infinity or a NaN gives zero: the block scale says NaN (R40). -/
def Fmt.convert (f : Fmt) (ovf : Bool) (v : FVal) : Conv :=
  let sgn (neg : Bool) : Nat := if neg then f.signBit else 0
  match v with
  | .nan => ⟨f.nanBits, false, true⟩
  | .inf neg =>
    match f.special with
    | .never => ⟨0, false, true⟩
    | .nanOnly => ⟨if ovf then f.nanBits else sgn neg + f.maxBits, false, true⟩
    | .ieee =>
      if ovf || decide (f.ebits = 8) || decide (f.mbits = 10) then
        ⟨sgn neg + (2 ^ f.ebits - 1) * 2 ^ f.mbits, false, true⟩
      else ⟨sgn neg + f.maxBits, false, true⟩
  | .fin neg m e =>
    let r := roundWith shrNearest f.prec f.emin m e
    if f.beyond r.1 r.2 then
      match f.special with
      | .never => ⟨sgn neg + f.maxBits, true, false⟩
      | .nanOnly => if ovf then ⟨f.nanBits, false, true⟩ else ⟨sgn neg + f.maxBits, true, false⟩
      | .ieee =>
        if ovf then ⟨sgn neg + (2 ^ f.ebits - 1) * 2 ^ f.mbits, false, true⟩
        else ⟨sgn neg + f.maxBits, true, false⟩
    else ⟨sgn neg + f.pack r.1 r.2, false, false⟩

/-- Round to FP32, overflowing to infinity. -/
def to32 (v : FVal) : Word := BitVec.ofNat 32 (fp32.convert true v).bits

/-- The value of FP32 bits. -/
def of32 (w : Word) : FVal := fp32.value w.toNat

/-- Whether FP32 bits are an infinity or a NaN. -/
def nonfinite32 (w : Word) : Bool := w.extractLsb' 23 8 == 0xFF

/-- The canonical FP32 NaN. -/
def nan32 : Word := 0x7FC00000

/-- A value as an integer count of 2^e, for e at most its exponent. -/
def scaled (neg : Bool) (m : Nat) (k : Nat) : Int := if neg then -((m * 2 ^ k : Nat) : Int) else ((m * 2 ^ k : Nat) : Int)

/-- The exact sum (R34: +0 from +0 and −0; R75: NaN from opposite infinities). -/
def FVal.add : FVal → FVal → FVal
  | .nan, _ => .nan
  | _, .nan => .nan
  | .inf a, .inf b => if a = b then .inf a else .nan
  | .inf a, .fin _ _ _ => .inf a
  | .fin _ _ _, .inf b => .inf b
  | .fin a m e, .fin b n d =>
    let q := min e d
    let s := scaled a m (e - q).toNat + scaled b n (d - q).toNat
    if s = 0 then .fin (a && b) 0 q else .fin (decide (s < 0)) s.natAbs q

/-- Change of sign. -/
def FVal.neg : FVal → FVal
  | .nan => .nan
  | .inf a => .inf (!a)
  | .fin a m e => .fin (!a) m e

/-- The exact product. -/
def FVal.mul : FVal → FVal → FVal
  | .nan, _ => .nan
  | _, .nan => .nan
  | .inf a, .inf b => .inf (a != b)
  | .inf a, .fin b n _ => if n = 0 then .nan else .inf (a != b)
  | .fin a m _, .inf b => if m = 0 then .nan else .inf (a != b)
  | .fin a m e, .fin b n d => .fin (a != b) (m * n) (e + d)

/-- Multiplication by a power of two, exact. -/
def FVal.scale (v : FVal) (k : Int) : FVal :=
  match v with
  | .fin a m e => .fin a m (e + k)
  | w => w

/-- The magnitude. -/
def FVal.abs : FVal → FVal
  | .nan => .nan
  | .inf _ => .inf false
  | .fin _ m e => .fin false m e

/-- Whether a value is an infinity or a NaN. -/
def FVal.isNonfinite : FVal → Bool
  | .fin _ _ _ => false
  | _ => true

/-- A quotient with a sticky bit below at least 60 significant bits, so that one rounding of it is one rounding
of the exact quotient. -/
def FVal.div : FVal → FVal → FVal
  | .nan, _ => .nan
  | _, .nan => .nan
  | .inf _, .inf _ => .nan
  | .inf a, .fin b _ _ => .inf (a != b)
  | .fin a _ _, .inf b => .fin (a != b) 0 0
  | .fin a m e, .fin b n d =>
    if n = 0 then (if m = 0 then .nan else .inf (a != b))
    else if m = 0 then .fin (a != b) 0 0
    else
      let k := 64 + Nat.log2 n
      let q := m * 2 ^ k / n
      .fin (a != b) (2 * q + (if m * 2 ^ k % n = 0 then 0 else 1)) (e - d - k - 1)

/-- The integer square root, one result bit at a time from bit `n` down. -/
def isqrt (m : Nat) : Nat → Nat → Nat
  | 0, r => r
  | n + 1, r =>
    let c := r + 2 ^ n
    isqrt m n (if c * c ≤ m then c else r)

/-- A square root with a sticky bit; a negative non-zero value gives NaN (R129). -/
def FVal.sqrt : FVal → FVal
  | .nan => .nan
  | .inf neg => if neg then .nan else .inf false
  | .fin neg m e =>
    if m = 0 then .fin neg 0 e
    else if neg then .nan
    else
      let odd := (e % 2 = 1 : Bool)
      let m1 := if odd then 2 * m else m
      let e1 := if odd then e - 1 else e
      let big := m1 * 2 ^ 60
      let r := isqrt big (Nat.log2 big / 2 + 1) 0
      .fin false (2 * r + (if r * r = big then 0 else 1)) (e1 / 2 - 30 - 1)

/-- FP32 operations, each rounded once (R63). -/
def fadd (a b : Word) : Word := to32 ((of32 a).add (of32 b))
def fsub (a b : Word) : Word := to32 ((of32 a).add (of32 b).neg)
def fmul (a b : Word) : Word := to32 ((of32 a).mul (of32 b))
def fdiv (a b : Word) : Word := to32 ((of32 a).div (of32 b))
def ffma (a b c : Word) : Word := to32 (((of32 a).mul (of32 b)).add (of32 c))
def fsqrt (a : Word) : Word := to32 (of32 a).sqrt

/-- Magnitude and negation; a NaN gives the canonical NaN (R129). -/
def fabs (a : Word) : Word := to32 (of32 a).abs
def fneg (a : Word) : Word := to32 (of32 a).neg

/-- The strict order of two finite or infinite values; −0 and +0 are equal. -/
def FVal.lt : FVal → FVal → Bool
  | .nan, _ => false
  | _, .nan => false
  | .inf a, .inf b => a && !b
  | .inf a, .fin _ _ _ => a
  | .fin _ _ _, .inf b => !b
  | .fin a m e, .fin b n d =>
    let q := min e d
    decide (scaled a m (e - q).toNat < scaled b n (d - q).toNat)

/-- Whether FP32 bits are −0. -/
def isNegZero (a : Word) : Bool := a == 0x80000000

/-- Maximum and minimum (R66): NaN if either is NaN; of zeros, +0 is the maximum and −0 the minimum. -/
def fmax (a b : Word) : Word :=
  if of32 a = .nan ∨ of32 b = .nan then nan32
  else if (of32 a).lt (of32 b) then b
  else if (of32 b).lt (of32 a) then a
  else if isNegZero a then b else a
def fmin (a b : Word) : Word :=
  if of32 a = .nan ∨ of32 b = .nan then nan32
  else if (of32 b).lt (of32 a) then b
  else if (of32 a).lt (of32 b) then a
  else if isNegZero b then b else a

/-- An unsigned count as FP32, rounded once (R67). -/
def ofCount (n : Nat) : Word := to32 (.fin false n 0)

/-- The floor of log2 of a finite non-zero magnitude. -/
def floorLog2 (m : Nat) (e : Int) : Int := (Nat.log2 m : Int) + e

/-- The larger of two magnitudes held as FP32, neither a NaN. -/
def magMax (a b : Word) : Word := if (of32 a).lt (of32 b) then b else a

/-- Format codes of R132, with 7 for FP32 (R243). -/
def fmtOf : Nat → Option Fmt
  | 0 => some bf16
  | 1 => some fp16
  | 2 => some e4m3
  | 3 => some e5m2
  | 4 => some e3m2
  | 5 => some e2m1
  | 7 => some fp32
  | _ => none

/-- INT8 conversion (R36): round to nearest even, clamp; NaN gives 0. -/
def toInt8 (v : FVal) : Conv :=
  match v with
  | .nan => ⟨0, false, true⟩
  | .inf neg => ⟨if neg then 0x80 else 0x7F, false, true⟩
  | .fin neg m e =>
    let r := if 0 ≤ e then m * 2 ^ e.toNat else shrNearest m (-e).toNat
    if neg then (if r > 128 then ⟨0x80, true, false⟩ else ⟨(256 - r) % 256, false, false⟩)
    else (if r > 127 then ⟨0x7F, true, false⟩ else ⟨r, false, false⟩)

/-- The value of an INT8. -/
def ofInt8 (b : Nat) : FVal := if b < 128 then .fin false b 0 else .fin true (256 - b) 0

/-- Convert to a format code. -/
def convertTo (code : Nat) (ovf : Bool) (v : FVal) : Conv :=
  match fmtOf code with
  | some f => f.convert ovf v
  | none => toInt8 v

/-- The value of an element of a format code. -/
def valueOf (code bits : Nat) : FVal :=
  match fmtOf code with
  | some f => f.value bits
  | none => ofInt8 bits

/-- Bits of one element of a format code. -/
def widthOf : Nat → Nat
  | 0 => 16
  | 1 => 16
  | 2 => 8
  | 3 => 8
  | 4 => 6
  | 5 => 4
  | 6 => 8
  | _ => 32

/-- A tensor-scaled read: q × 2^−exp rounded to FP32, exact or infinite (R43). -/
def fp8Read (v : FVal) (exp : Int) : Word := to32 (v.scale (-exp))

/-- The block scale of MX elements (R39, R40): the E8M0 byte of a block of FP32 values. -/
def mxScale (emax : Int) (vals : List Word) : Byte :=
  if vals.any nonfinite32 then 0xFF
  else
    match of32 (vals.foldl (fun acc w => magMax acc (fabs w)) 0) with
    | .fin _ m e => if m = 0 then 0 else BitVec.ofInt 8 (max (-127) (min 127 (floorLog2 m e - emax)) + 127)
    | _ => 0xFF

/-- emax of an MX format code (R39): 2 for FP4, 4 for FP6. -/
def mxEmax (code : Nat) : Int := if code = 5 then 2 else 4

/-- One element of an MX block under its scale byte. -/
def mxPack (code : Nat) (scale : Byte) (w : Word) : Nat :=
  if scale = 0xFF then 0
  else (convertTo code false ((of32 w).scale (127 - (scale.toNat : Int)))).bits

/-- One element of an MX block unpacked to FP32: 0xFF gives NaN (R40). -/
def mxUnpack (code bits : Nat) (scale : Byte) : Word :=
  if scale = 0xFF then nan32 else to32 ((valueOf code bits).scale ((scale.toNat : Int) - 127))

/-- The largest integer e with H × 2^e ≤ F, for finite non-zero H (R43). -/
def scaleExp (h : Word) (e5 : Bool) (margin : Nat) : Option Int :=
  match of32 h, (if e5 then e5m2.value e5m2.maxBits else e4m3.value e4m3.maxBits) with
  | .fin _ m e, .fin _ fm fe =>
    if m = 0 then none
    else
      let guess := floorLog2 fm fe - floorLog2 m e
      let e1 := if magLt fm fe m (e + guess) then guess - 1 else guess
      some (max (-127) (min 127 (e1 - margin)))
  | _, _ => none

/-- The tree of R64: `levels` levels of pairwise combination; the list halves at each. -/
def treeFold (f : α → α → α) : Nat → List α → List α
  | 0, l => l
  | n + 1, l => treeFold f n (pairUp l)
where
  /-- One level: neighbours combine. -/
  pairUp : List α → List α
    | a :: b :: t => f a b :: pairUp t
    | l => l

/-- The 20-bit run accumulator's rounding (R56): granularity 2^−145; beyond its range, infinity (R75). -/
def round20 (v : FVal) : FVal :=
  match v with
  | .fin neg m e =>
    let r := roundWith shrNearest 20 (-145) m e
    if magLt (2 ^ 20 - 1) 108 r.1 r.2 then .inf neg else .fin neg r.1 r.2
  | w => w

/-- Round a magnitude upward to FP32 (R495). -/
def up32 (v : FVal) : FVal :=
  match v with
  | .fin neg m e =>
    let r := roundWith shrUp 24 (-149) m e
    if fp32.beyond r.1 r.2 then .inf neg else .fin neg r.1 r.2
  | w => w

/-- One dot product: ascending k, products exact, run sums of `len` products promoted into the FP32 total
(R55 to R58). `left` counts the products to the next promotion. -/
def dotRun (len : Nat) : Nat → FVal → FVal → List FVal → FVal
  | _, acc, total, [] => of32 (to32 (total.add acc))
  | left, acc, total, x :: xs =>
    let acc' := round20 (acc.add x)
    match left with
    | 0 | 1 => match xs with
      | [] => of32 (to32 (total.add acc'))
      | _ => dotRun len len (.fin false 0 0) (of32 (to32 (total.add acc'))) xs
    | n + 2 => dotRun len (n + 1) acc' total xs

/-- The FP32 total of a list of exact products. -/
def dot (len : Nat) (products : List FVal) : Word := to32 (dotRun len len (.fin false 0 0) (.fin false 0 0) products)

end Sys2Proof.Machine
end

