-- ==== Sys2Proof/Machine/Ops.lean ====
section
/-! DEFINITION. The named operations over the state that the commands share: tables of units, events and
records (R449 to R453), stopping a job (R603), the Tally (R421). -/

namespace Sys2Proof.Machine

/-- The answer of a command. -/
abbrev Out := Host.Outcome State Fault Refusal

/-! ### Tables of units -/

def State.tile (s : State) (t : Nat) : Tile := s.tiles.get Tile.reset t
def State.setTile (s : State) (t : Nat) (x : Tile) : State := { s with tiles := s.tiles.set t x }
def State.job (s : State) (c : Nat) : Job := s.jobs.get Job.reset c
def State.setJob (s : State) (c : Nat) (j : Job) : State := { s with jobs := s.jobs.set c j }
def State.port (s : State) (p : Nat) : Port := s.ports.get Port.reset p
def State.setPort (s : State) (p : Nat) (x : Port) : State := { s with ports := s.ports.set p x }
def State.ring (s : State) (r : Nat) : Ring := s.host.rings.get Ring.reset r
def State.setRing (s : State) (r : Nat) (x : Ring) : State :=
  { s with host := { s.host with rings := s.host.rings.set r x } }
def State.porter (s : State) (c : Nat) : Porter := s.porters.get Porter.reset c
def State.setPorter (s : State) (c : Nat) (x : Porter) : State := { s with porters := s.porters.set c x }
def State.ostler (s : State) (o : Nat) : Ostler := s.ostlers.get Ostler.reset o
def State.setOstler (s : State) (o : Nat) (x : Ostler) : State := { s with ostlers := s.ostlers.set o x }
def State.engine (s : State) (e : Nat) : MicroEngine := s.engines.get MicroEngine.reset e
def State.setEngine (s : State) (e : Nat) (x : MicroEngine) : State := { s with engines := s.engines.set e x }
def State.stack (s : State) (m : Nat) : Stack := s.mem.stackTbl.get Stack.reset m
def State.setStack (s : State) (m : Nat) (x : Stack) : State :=
  { s with mem := { s.mem with stackTbl := s.mem.stackTbl.set m x } }
def Tile.task (x : Tile) (n : Nat) : Task := x.tasks.get Task.reset n
def Tile.setTask (x : Tile) (n : Nat) (t : Task) : Tile := { x with tasks := x.tasks.set n t }
def State.taskAt (s : State) (w : Site) : Task := (s.tile w.tile).task w.task.val
def State.setTaskAt (s : State) (w : Site) (t : Task) : State :=
  s.setTile w.tile ((s.tile w.tile).setTask w.task.val t)

/-- Whether a context holds a job that has neither stopped nor begun its scrub. -/
def Job.running (j : Job) : Bool :=
  match j.phase with
  | .loaded | .compute | .curfew | .caravan => true
  | _ => false

/-- Whether a context holds a job: loaded, and not yet scrubbed (R442, R446). -/
def Job.present (j : Job) : Bool :=
  match j.phase with
  | .empty | .scrubbing => false
  | _ => true

/-- Whether a logical tile lies in a partition rectangle (R441). -/
def JobCtx.holds (c : JobCtx) (tile : Nat) : Bool :=
  let r := tile / 100
  let k := tile % 100
  decide (c.row0.toNat ≤ r) && decide (r < c.row0.toNat + c.rows.toNat) && decide (c.col0.toNat ≤ k) &&
    decide (k < c.col0.toNat + c.cols.toNat) && decide (tile < 10000)

/-- The tiles of a partition rectangle, in ascending logical index. -/
def JobCtx.tiles (c : JobCtx) : List Nat :=
  (List.range c.rows.toNat).flatMap fun r =>
    (List.range c.cols.toNat).map fun k => (c.row0.toNat + r) * 100 + (c.col0.toNat + k)

/-- The context whose job's partition holds a tile. -/
def State.ctxOf (s : State) (tile : Nat) : Option Nat :=
  (List.range 8).find? fun c => (s.job c).present && (s.job c).cfg.holds tile

/-- Whether any partition holds a job: until a scrub completes its partition still does (R20, R531). -/
def State.anyJob (s : State) : Bool := (List.range 8).any fun c => (s.job c).phase != .empty

/-! ### Host writes, events and records -/

/-- A write on the host bus: in order, and held while Bus Master Enable is 0 (R430, R432). -/
def State.emit (s : State) (w : HostWrite) : State :=
  if s.host.busMaster then { s with host := { s.host with out := s.host.out ++ [w] } }
  else { s with host := { s.host with heldOut := s.host.heldOut ++ [w] } }

/-- Fields of HST_RING_CFG (R432 ff). -/
def Ring.enabled (r : Ring) : Bool := r.cfg.getLsbD 31
def Ring.kind (r : Ring) : Nat := (r.cfg.extractLsb' 28 3).toNat
def Ring.context (r : Ring) : Nat := (r.cfg.extractLsb' 24 4).toNat
def Ring.depth (r : Ring) : Nat := 2 ^ ((r.cfg.extractLsb' 20 4).toNat + 6)
def Ring.vector (r : Ring) : Nat := (r.cfg.extractLsb' 14 6).toNat
def Ring.irq (r : Ring) : Nat := (r.cfg.extractLsb' 12 2).toNat
def Ring.group (r : Ring) : Nat := (r.cfg.extractLsb' 9 3).toNat

/-- Append a Logbook record to those waiting for the management core (R504, R506). -/
def State.record (s : State) (r : LogRec) : State :=
  { s with health := { s.health with pendingRecs := s.health.pendingRecs ++ [r] } }

/-- Ticks of the model in a minute and in a day: a tick is 0.625 ns. -/
def minuteTicks : Nat := 60 * 1600000000
def dayTicks : Nat := 1440 * minuteTicks

/-- Powered minutes since manufacture (R505). -/
def State.minutes (s : State) : Word := BitVec.ofNat 32 (s.health.poweredBefore + s.tick / minuteTicks)

/-- Note that a vector's message is due (R453). -/
def State.due (s : State) (vector : Nat) : State :=
  { s with host := { s.host with msixDue := s.host.msixDue ||| (1#64 <<< vector) } }

/-- Control cycles since power-on reset (R449): two nominal core cycles make one. -/
def State.time (s : State) : Dword := BitVec.ofNat 64 (s.tick / 2)

/-- An event to raise. -/
structure Ev where
  code : BitVec 16
  kind : BitVec 4
  ctx : Nat
  src : Nat
  arg0 : Dword
  arg1 : Dword
  count : Nat
deriving DecidableEq, Repr

/-- An event record (R449). -/
def eventRecord (e : Ev) (time : Dword) (phase : Bool) : BitVec 256 :=
  e.arg1 ++ e.arg0 ++ time ++ BitVec.ofBool phase ++ e.kind ++ BitVec.ofNat 4 e.ctx ++ BitVec.ofNat 14 e.src ++
    BitVec.ofNat 16 (min e.count 0xFFFF) ++ (0 : BitVec 9) ++ e.code

/-- A completion record (R443). -/
def completionRecord (c : Completion) (index : BitVec 16) (phase : Bool) : BitVec 256 :=
  c.c ++ c.b ++ c.a ++ BitVec.ofBool phase ++ (0 : BitVec 7) ++ c.status ++ c.user ++ (0 : BitVec 16) ++ index

/-- Advance a write position and its phase (R435). -/
def Ring.advance (r : Ring) : Ring :=
  if r.write + 1 < r.depth then { r with write := r.write + 1 } else { r with write := 0, phase := !r.phase }

/-- Free records of an Event ring: one slot stays unused so that full and empty differ. -/
def Ring.free (r : Ring) : Nat := r.depth - 1 - (r.write + r.depth - r.read) % r.depth

/-- Count a dropped event (R450). -/
def State.lose (s : State) : State := { s with host := { s.host with eventsLost := s.host.eventsLost + 1 } }

/-- Write one record to an Event ring that has room. -/
def State.putEvent (s : State) (n : Nat) (e : Ev) : State :=
  let r := s.ring n
  let s1 := s.emit (.data (r.base + BitVec.ofNat 64 (32 * r.write))
    (toBytes 32 (eventRecord e s.time r.phase).toNat) false)
  let s2 := s1.setRing n r.advance
  if r.irq = 1 ∨ r.irq = 2 then s2.due r.vector else s2

/-- Deliver an event to a ring that is enabled, or drop it (R450). -/
def State.deliver (s : State) (n : Nat) (e : Ev) : State :=
  let r := s.ring n
  if r.lostHere = 0 ∧ 0 < r.free then s.putEvent n e
  else (s.setRing n { r with lostHere := r.lostHere + 1 }).lose

/-- Deliver to the device event ring (R450, R458). -/
def State.deliverDevice (s : State) (e : Ev) : State :=
  let n := (s.host.deviceEvents.extractLsb' 0 6).toNat
  if s.host.deviceEvents.getLsbD 31 ∧ (s.ring n).enabled ∧ (s.ring n).kind = 6 then s.deliver n e else s.lose

/-- Raise an event: to the job's EVENT_RING, or to the device ring (R450, R458). -/
def State.raise (s : State) (e : Ev) : State :=
  if e.ctx < 8 ∧ (s.job e.ctx).present then
    let n := (s.job e.ctx).cfg.eventRing.toNat
    if (s.ring n).enabled ∧ (s.ring n).kind = 6 then s.deliver n e else s.deliverDevice e
  else s.deliverDevice e

/-- SOURCE_KIND values (R449). -/
def kTile : BitVec 4 := 0
def kStep : BitVec 4 := 1
def kOstler : BitVec 4 := 2
def kCourier : BitVec 4 := 3
def kUpdate : BitVec 4 := 4
def kPorter : BitVec 4 := 5
def kHealth : BitVec 4 := 6
def kMemory : BitVec 4 := 7
def kPort : BitVec 4 := 8
def kHost : BitVec 4 := 9
def kManagement : BitVec 4 := 10
def kSecurity : BitVec 4 := 11

/-- Raise an event with count 1. -/
def State.event (s : State) (code : BitVec 16) (kind : BitVec 4) (ctx src : Nat) (arg0 arg1 : Nat) : State :=
  s.raise ⟨code, kind, ctx, src, BitVec.ofNat 64 arg0, BitVec.ofNat 64 arg1, 1⟩

/-- "ring, index" of R449. -/
def ringIndex (ring : Nat) (index : BitVec 16) : Nat := ring + index.toNat * 65536

/-- "task, address" of R449. -/
def taskAddr (task : Nat) (pc : BitVec 16) : Nat := task * 65536 + pc.toNat

/-- Write the records of the finished entries at the front of a ring, in ring order (R436). -/
def flushRing (s : State) (n : Nat) : List Entry → State
  | [] =>
    let r := s.ring n
    s.setRing n { r with entries := [], active := r.active && r.enabled }
  | e :: es =>
    match e.done with
    | none => let r := s.ring n; s.setRing n { r with entries := e :: es }
    | some c =>
      let r := s.ring n
      let s1 := s.emit (.data (r.cbase + BitVec.ofNat 64 (32 * e.index.toNat))
        (toBytes 32 (completionRecord c e.index r.phase).toNat) false)
      let s2 := s1.setRing n { r.advance with entries := es }
      let s3 := if r.irq = 1 ∨ (r.irq = 2 ∧ c.status ≠ 0) then s2.due r.vector else s2
      flushRing s3 n es

/-- Mark the entry of a slot finished. -/
def markDone (index : BitVec 16) (c : Completion) : List Entry → List Entry
  | [] => []
  | e :: es =>
    if e.index = index ∧ e.done = none then { e with started := true, done := some c } :: es
    else e :: markDone index c es

/-- The USER field of a common header (R439); zero for Ostler and Courier entries (R443). -/
def headerUser (raw : BitVec 512) : BitVec 16 := raw.extractLsb' 480 16

/-- Complete the entry of a slot: its record is written when every earlier entry has its own (R436). -/
def State.complete (s : State) (ring : Nat) (index : BitVec 16) (status : Byte) (a b c : Dword) : State :=
  let r := s.ring ring
  let user : BitVec 16 :=
    match r.entries.find? (fun e => e.index = index ∧ e.done = none) with
    | some e => if (r.kind = 1 ∧ r.context ≠ 0xE) ∨ r.kind = 2 then 0 else headerUser e.raw
    | none => 0
  flushRing s ring (markDone index ⟨status, user, a, b, c⟩ r.entries)

/-- Mark an entry started. -/
def State.startEntry (s : State) (ring : Nat) (index : BitVec 16) : State :=
  let r := s.ring ring
  s.setRing ring { r with entries := r.entries.map fun e => if e.index = index then { e with started := true } else e }

/-- The oldest entry of a ring not started, if every ORDER rule lets it start: an entry with the order bit waits
for every earlier entry (R439, R243, R394). `order` reads the order bit. -/
def Ring.nextEntry (r : Ring) (order : BitVec 512 → Bool) : Option Entry :=
  match r.entries.find? (fun e => !e.started) with
  | none => none
  | some e =>
    if order e.raw ∧ (r.entries.takeWhile (fun x => x.started)).any (fun x => x.done.isNone) then none else some e

/-- ORDER of a common header (R439). -/
def headerOrder (raw : BitVec 512) : Bool := raw.getLsbD 503

/-- Fields of the common header (R439). -/
def headerOp (raw : BitVec 512) : Nat := (raw.extractLsb' 504 8).toNat
def headerCtx (raw : BitVec 512) : Nat := (raw.extractLsb' 500 3).toNat
def headerReserved (raw : BitVec 512) : Nat := (raw.extractLsb' 496 4).toNat

/-- `n` body bytes at byte `lo` of a descriptor, as a number (R439). -/
def bodyAt (raw : BitVec 512) (lo n : Nat) : Nat := raw.toNat / 2 ^ (8 * lo) % 2 ^ (8 * n)

/-- The oldest startable common-header entry of a ring, when it carries an opcode. -/
def State.entryOf (s : State) (ring : Nat) (op : Nat) : Option Entry :=
  match (s.ring ring).nextEntry headerOrder with
  | some e => if headerOp e.raw = op then some e else none
  | none => none

/-- The same for a command that reads host memory, which waits while Bus Master Enable is 0 (R432). -/
def State.hostEntryOf (s : State) (ring : Nat) (op : Nat) (reads : BitVec 512 → Bool) : Option Entry :=
  match s.entryOf ring op with
  | some e => if reads e.raw && !s.host.busMaster then none else some e
  | none => none

/-! ### The Tally -/

/-- Add to a cause of the Tally (R421). -/
def State.tallyAdd (s : State) (c cause n : Nat) : State :=
  let j := s.job c
  s.setJob c { j with tally := j.tally.set cause (j.tally.get 0 cause + BitVec.ofNat 64 n) }

/-- Count interlock cycles of a tile under CONTRACT_STALL (cause 12). -/
def State.contractStall (s : State) (tile n : Nat) : State :=
  match s.ctxOf tile with
  | some c => s.tallyAdd c 12 n
  | none => s

/-! ### Stopping a job (R86, R220, R603) -/

/-- An entry abandoned with status 5 (R445). -/
def abandonEntry (user : Bool) (e : Entry) : Entry :=
  { e with started := true, done := some ⟨5, if user then headerUser e.raw else 0, 0, 0, 0⟩ }

/-- Complete with status 5 every unfinished entry of a list (R445). -/
def abandonEntries (user : Bool) (l : List Entry) : List Entry :=
  l.map fun e => if e.done.isNone then abandonEntry user e else e

/-- Abandon the unfinished entries of every ring bound to a context (R445, R446). -/
def abandonRings (s : State) (c : Nat) : List Nat → State
  | [] => s
  | n :: ns =>
    let r := s.ring n
    let s1 := if r.context = c ∧ r.kind ≠ 6 ∧ r.entries ≠ [] then flushRing s n (abandonEntries (r.kind ≠ 1 && r.kind ≠ 2) r.entries)
      else s
    abandonRings s1 c ns

/-- Whether an entry of a device ring is a started command of a context other than the one kept. -/
def isJobCommand (c : Nat) (e : Entry) : Bool :=
  headerCtx e.raw == c && (headerOp e.raw == 2 || headerOp e.raw == 3)

/-- Abandon the STEP and INPUT commands of a context on the Step rings (R445). -/
def abandonSteps (s : State) (c : Nat) : List Nat → State
  | [] => s
  | n :: ns =>
    let r := s.ring n
    let s1 := if r.kind = 0 ∧ r.entries.any (fun e => e.started && e.done.isNone && isJobCommand c e) then
        flushRing s n (r.entries.map fun e =>
          if e.started && e.done.isNone && isJobCommand c e then abandonEntry true e else e)
      else s
    abandonSteps s1 c ns

/-- Abandon a job's work in every engine: descriptors, chunks, Courier commands, update entries, snapshots (R603,
R281, R428). -/
def State.abandon (s : State) (c : Nat) : State :=
  let gone := (s.descs.filter (fun d => d.ctx.val = c)).map (·.id)
  let s1 : State := { s with
    descs := s.descs.filter (fun d => d.ctx.val ≠ c)
    engineDescs := s.engineDescs.filter (fun d => d.1.val ≠ c)
    engineCmds := s.engineCmds.filter (fun d => d.1.val ≠ c)
    ostlers := s.ostlers.map fun o => (o.1, { o.2 with
      queue := o.2.queue.filter (fun k => k.desc ∉ gone)
      current := match o.2.current with
        | some k => if k.desc ∈ gone then none else some k
        | none => none })
    courier := { s.courier with
      cmds := s.courier.cmds.filter (fun k => k.ctx.val ≠ c)
      ended := s.courier.ended.filter (fun k => k.ctx.val ≠ c)
      held := s.courier.held.filter (fun h => !((s.courier.cmds ++ s.courier.ended).any (fun k => k.tag == h.tag && k.ctx.val == c))) }
    engines := s.engines.map fun e => (e.1, { e.2 with queue := e.2.queue.filter (fun q => q.1 ≠ c) }) }
  let p := s1.porter c
  let p1 : Porter := { p with capturing := false, copying := false, mirroring := false, ready := false }
  let s2 := s1.setPorter c { p1 with due := false, framesLeft := [], acksLeft := [], extra := [] }
  abandonSteps (abandonRings s2 c (List.range 64)) c (List.range 64)

/-- Stop a job where it stands (R603): no release, no token, unfinished work abandoned; a job that is being ended goes
on to its scrub (R440). -/
def State.stopNow (s : State) (c : Nat) : State :=
  let s1 := s.abandon c
  let j := s1.job c
  let ph : Phase := if j.closing = [] then .stopped else .scrubbing
  s1.setJob c { j with phase := ph, stop := false, msgs := [], step := none, waitingSteps := [] }

/-- Stop a job at its next Curfew (R603): during a Curfew wait, and before superstep 0, at once; otherwise at local
arrival or at the end of the Caravan. -/
def State.stopAtCurfew (s : State) (c : Nat) : State :=
  let j := s.job c
  match j.phase with
  | .curfew | .loaded => s.stopNow c
  | .compute | .caravan => s.setJob c { j with stop := true }
  | _ => s

/-- Whether an action of a job's superstep list is a HANDOFF, whose writes go into gradient buckets (R291, R481). -/
def Job.handsOff (j : Job) (action : Option Nat) : Bool :=
  match action with
  | none => false
  | some a => j.actions.any fun x => x.id == a && bitsOf x.raw.toNat 255 252 == 2

/-- Note poison written into a job's gradient buckets: the POISON bit of the step flag word (R295). -/
def State.noteBucket (s : State) (c : Nat) (action : Option Nat) (poison : Bool) : State :=
  if poison && (s.job c).handsOff action then s.setJob c { s.job c with poisonFlag := true } else s

/-- Hold a job for recovery (R522): its tasks stay at the Curfew and it accepts no STEP. -/
def State.holdJob (s : State) (c : Nat) : State := s.setJob c { s.job c with held := true }

/-! ### Torus geometry (R392, R393) -/

/-- Position of a coordinate word (20 bits) along axis 0 D to 3 P. -/
def coordAt (w : Nat) (axis : Nat) : Nat := bitsOf w (5 * axis + 4) (5 * axis)

/-- Extent of a job along an axis (R441). -/
def JobCtx.extentOf (c : JobCtx) (axis : Nat) : Nat := bitsOf c.extent.toNat (6 * axis + 5) (6 * axis)

/-- This module's position along an axis of a job (R392). -/
def State.position (s : State) (c : Nat) (axis : Nat) : Nat :=
  let j := (s.job c).cfg
  let e := j.extentOf axis
  (coordAt s.selfCoord.toNat axis + 32 * e - coordAt j.origin.toNat axis) % e

/-- Whether an axis of a job is a ring (WRAP, R392). -/
def JobCtx.isRing (c : JobCtx) (axis : Nat) : Bool := c.wrap.getLsbD axis

/-- The ports of an axis that lead to a module of the job (R159): 2 × axis is the + port. -/
def State.axisPorts (s : State) (c : Nat) (axis : Nat) : List Nat :=
  let j := (s.job c).cfg
  let e := j.extentOf axis
  let p := s.position c axis
  if e ≤ 1 then []
  else if j.isRing axis then [2 * axis, 2 * axis + 1]
  else (if p + 1 < e then [2 * axis] else []) ++ (if 0 < p then [2 * axis + 1] else [])

/-- Modules of a job: the product of its extents. -/
def JobCtx.modules (c : JobCtx) : Nat := c.extentOf 0 * c.extentOf 1 * c.extentOf 2 * c.extentOf 3

/-- The stack an edge frame or address belongs to (R225). -/
def stackOfPA (pa : Nat) : Nat := pa / 2 ^ 37 % 8

end Sys2Proof.Machine
end

