-- ==== Sys2Proof/Machine/Flags.lean ====
section
/-! DEFINITION. Flags and conditions of the tile: predicates and guards (R81, R119, R149), comparisons (R125), the
sticky NONFINITE flag (R37), the poison tags of registers (R216) and contract records (R94). -/

namespace Sys2Proof.Machine

/-- A predicate; p0 reads as 1 (R81). -/
def Task.pred (t : Task) (n : BitVec 3) : Bool := n == 0 || t.p.getLsbD n.toNat

/-- A byte with one bit set or cleared. -/
def putBit (v : Byte) (n : Nat) (b : Bool) : Byte := if b then v ||| (1#8 <<< n) else v &&& ~~~(1#8 <<< n)

/-- Write a predicate; a write of p0 leaves it at 1 (R149). -/
def Task.setPred (t : Task) (n : BitVec 3) (b : Bool) : Task := if n = 0 then t else { t with p := putBit t.p n.toNat b }

/-- Whether a guard lets its instruction take effect: p[PG] XOR PN (R119). -/
def guardHolds (g : Guard) (t : Task) : Bool := t.pred g.pg != (g.pn == 1#1)

/-- The comparisons of CMP and CMPI, by code (R125); none where the code is not listed. -/
def compareBy (cond : Nat) (a b : Word) : Option Bool :=
  match cond with
  | 0 => some (a == b)
  | 1 => some (a != b)
  | 2 => some (a.slt b)
  | 3 => some (!a.slt b)
  | 4 => some (a.ult b)
  | 5 => some (!a.ult b)
  | _ => none

/-- Raise the tile's NONFINITE flag (R37). It is sticky. -/
def Tile.noteNonfinite (x : Tile) (b : Bool) : Tile := { x with nonfinite := x.nonfinite || b }

/-- A token has reached a target modulo 2^16 (R113). -/
def tokenReached (count target : BitVec 16) : Bool := decide ((count - target).toNat < 0x8000)

/-- Poison tags of a task's registers (R216). -/
def Task.tagS (t : Task) (n : BitVec 5) : Bool := t.poisonS.getLsbD n.toNat
def Task.tagA (t : Task) (n : BitVec 4) : Bool := t.poisonA.getLsbD n.toNat
def Task.tagV (t : Task) (n : BitVec 4) : Bool := t.poisonV.getLsbD n.toNat

/-- A mask with one bit set or cleared. -/
def putTag {w : Nat} (m : BitVec w) (n : Nat) (b : Bool) : BitVec w :=
  if b then m ||| (1#w <<< n) else m &&& ~~~(1#w <<< n)

/-- Note an occurrence of a contract event at a key: one record per code and key, eight per superstep, further keys
counted as overflow (R94). -/
def noteContract (l : List Contract) (extra : Nat) (code : BitVec 16) (key arg1 : Nat) : List Contract × Nat :=
  let k := BitVec.ofNat 64 key
  if l.any (fun c => c.code == code && c.key == k) then
    (l.map fun c => if c.code == code && c.key == k then { c with count := c.count + 1 } else c, extra)
  else if l.length < 8 then (l ++ [⟨code, k, BitVec.ofNat 64 arg1, 1⟩], extra)
  else (l, extra + 1)

/-- Note BANK_CONFLICT or MISALIGNED_ACCESS at an instruction address (R94). -/
def Tile.contract (x : Tile) (code : BitVec 16) (task : Nat) (pc : BitVec 16) (arg1 : Nat) : Tile :=
  let r := noteContract x.records x.recordsOver code (taskAddr task pc) arg1
  { x with records := r.1, recordsOver := r.2 }

/-- Note LINK_CONFLICT or ACC_SEND_OPEN of a Caravan (R94). -/
def Tile.caravanContract (x : Tile) (code : BitVec 16) (key arg1 : Nat) : Tile :=
  let r := noteContract x.caravanRecords x.caravanOver code key arg1
  { x with caravanRecords := r.1, caravanOver := r.2 }

/-- Whether two requests are of one instruction: an array's operand fetches meet no conflict among themselves (R101). -/
def BankUse.sameAs (u v : BankUse) : Bool := u.prio == v.prio && u.task == v.task && u.pc == v.pc

/-- A request that loses its bank waits for a later cycle. Between statically scheduled requesters that is a conflict: its record opens,
and the cycle of delay is counted (R91 to R93). -/
def Tile.loseBank (x : Tile) (u : BankUse) (clash : Bool) : Tile × Nat :=
  let y : Tile := { x with bankWaits := x.bankWaits ++ [u] }
  if clash then (y.contract 0x0001 u.task.val u.pc u.bank, 1) else (y, 0)

/-- Ask for a bank in the present core cycle. A bank serves one access: a higher priority takes it, and of two core accesses the
older (R87, R91; the second is a DESIGN CHOICE, log entry 152). The answer counts the cycles of delay. -/
def Tile.useBank (x : Tile) (u : BankUse) : Tile × Nat :=
  match x.banks.find? (fun v => v.bank == u.bank) with
  | none => ({ x with banks := u :: x.banks }, 0)
  | some v =>
    let clash := decide (u.prio ≤ 3) && decide (v.prio ≤ 3)
    if u.sameAs v then (x, 0)
    else if u.prio < v.prio then ({ x with banks := u :: x.banks.erase v } : Tile).loseBank v clash
    else x.loseBank u clash

/-- Ask for the banks of several requests. -/
def Tile.useBanks (x : Tile) : List BankUse → Tile × Nat
  | [] => (x, 0)
  | u :: us =>
    let r := x.useBank u
    let r2 := r.1.useBanks us
    (r2.1, r.2 + r2.2)

/-- The requests for the banks of physical lines. -/
def bankUses (prio : Nat) (task : Fin 4) (pc : BitVec 16) (ls : List Nat) : List BankUse := ls.map fun l => ⟨l % 12, prio, task, pc⟩

/-- Ask for the banks of physical lines in the present core cycle. -/
def Tile.useLines (x : Tile) (prio : Nat) (task : Fin 4) (pc : BitVec 16) (ls : List Nat) : Tile × Nat :=
  x.useBanks (bankUses prio task pc ls)

end Sys2Proof.Machine
end

