-- ==== Sys2Proof/Machine/Operands.lean ====
section
/-! DEFINITION. Operand forms of the tile instructions: registers, scratchpad regions, the offer of an instruction at
the program counter, and the faults and waits of an issue (R81 to R123). -/

namespace Sys2Proof.Machine

/-! ### Registers -/

def Task.getS (t : Task) (n : BitVec 5) : Word := t.s.get 0 n.toNat
def Task.getA (t : Task) (n : BitVec 4) : Word := t.a.get 0 n.toNat
def Task.getV (t : Task) (n : BitVec 4) : VReg := t.v.get 0 n.toNat

/-- Write a scalar register with its poison tag (R216). -/
def Task.setS (t : Task) (n : BitVec 5) (v : Word) (tag : Bool) : Task :=
  { t with s := t.s.set n.toNat v, poisonS := putTag t.poisonS n.toNat tag }

/-- Write an address register with its poison tag. -/
def Task.setA (t : Task) (n : BitVec 4) (v : Word) (tag : Bool) : Task :=
  { t with a := t.a.set n.toNat v, poisonA := putTag t.poisonA n.toNat tag }

/-- Write a vector register with its poison tag. -/
def Task.setV (t : Task) (n : BitVec 4) (v : VReg) (tag : Bool) : Task :=
  { t with v := t.v.set n.toNat v, poisonV := putTag t.poisonV n.toNat tag }

/-- A lane of a vector register. -/
def lane (v : VReg) (i : Nat) : Word := v.extractLsb' (32 * i) 32

/-- The 32 lanes. -/
def lanes (v : VReg) : List Word := (List.range 32).map (lane v)

/-- A vector register of a list of lanes; missing lanes are +0. -/
def ofLanes (l : List Word) : VReg :=
  BitVec.ofNat 1024 (l.foldr (fun (w : Word) acc => w.toNat + 2 ^ 32 * acc) 0)

/-- The bytes of a vector register, byte 0 first. -/
def vregBytes (v : VReg) : List Byte := (List.range 128).map fun i => v.extractLsb' (8 * i) 8

/-- A vector register of 128 bytes. -/
def vregOf (l : List Byte) : VReg := BitVec.ofNat 1024 (ofBytes l)

/-! ### Regions (R83 to R85) -/

/-- TASKn_SP, _IS, _ACC and _OVF fields, in lines. -/
def Task.spBase (t : Task) : Nat := bitsOf t.sp.toNat 12 0
def Task.spBound (t : Task) : Nat := bitsOf t.sp.toNat 28 16
def Task.isBase (t : Task) : Nat := bitsOf t.is.toNat 9 0
def Task.isBound (t : Task) : Nat := bitsOf t.is.toNat 25 16
def Task.accOffset (t : Task) : Nat := bitsOf t.acc.toNat 12 0
def Task.accLines (t : Task) : Nat := bitsOf t.acc.toNat 26 16
def Task.ovfOffset (t : Task) : Nat := bitsOf t.ovf.toNat 12 0
def Task.ovfLines (t : Task) : Nat := bitsOf t.ovf.toNat 26 16
def Task.enabled (t : Task) : Bool := t.ctrl.getLsbD 31
def Task.entry (t : Task) : BitVec 16 := t.ctrl.extractLsb' 0 16 &&& 0xFFFC

/-- Whether `n` bytes from a byte offset of the task lie in its scratchpad region (R85). -/
def Task.inBounds (t : Task) (off n : Nat) : Bool := decide (off + n ≤ 64 * t.spBound)

/-- The physical scratchpad byte of a task's offset. -/
def Task.padAddr (t : Task) (off : Nat) : Nat := 64 * t.spBase + off

/-- Whether a task-relative line lies in the task's accumulate region. -/
def Task.inAcc (t : Task) (line : Nat) : Bool :=
  decide (t.accOffset ≤ line) && decide (line < t.accOffset + t.accLines)

/-- The physical lines that `n` bytes from a physical byte touch. -/
def linesOf (pa n : Nat) : List Nat := (List.range ((pa + n + 63) / 64 - pa / 64)).map (· + pa / 64)

/-! ### Scratchpad bytes, poison and lines in flight (R96, R97, R216, R217) -/

/-- The tile with the lines in flight that a read does not see taken back: those whose write has not had its bank (R96), and of the
others as `fresh` chooses for each (R97). -/
def Tile.viewed (x : Tile) (fresh : Nat) : List InFlight → Tile
  | [] => x
  | f :: fs =>
    let y : Tile := if !f.now && Config.readsNew fresh then x
      else { x with pad := x.pad.write (64 * f.line) f.old, padPoison := setMember x.padPoison f.line f.oldPoison }
    y.viewed (fresh + 1) fs

/-- What a tile read sees: with no line in flight, the scratchpad. -/
def Tile.seen (x : Tile) (fresh : Nat) : Tile := if x.inFlight = [] then x else x.viewed fresh x.inFlight.reverse

/-- `n` bytes of scratchpad and whether a line of them is poisoned. -/
def Tile.padRead (x : Tile) (pa n : Nat) : List Byte × Bool :=
  (x.pad.read pa n, (linesOf pa n).any (fun l => decide (l ∈ x.padPoison)))

/-- Write scratchpad bytes. A whole-line write sets each line's poison, a partial one keeps a poisoned line
poisoned (R216, R217). Bytes a line in flight will uncover are written there too. -/
def Tile.padWrite (x : Tile) (pa : Nat) (data : List Byte) (poison whole : Bool) : Tile :=
  let ls := linesOf pa data.length
  { x with
    pad := x.pad.write pa data
    padPoison := ls.foldl (fun p l => setMember p l (poison || (!whole && decide (l ∈ p)))) x.padPoison
    inFlight := x.inFlight.map fun f =>
      if f.line ∈ ls then
        { f with
          old := f.old.mapIdx fun i b => if pa ≤ 64 * f.line + i then (data[64 * f.line + i - pa]?).getD b else b
          oldPoison := poison || (!whole && f.oldPoison) }
      else f }

/-! ### The scoreboard (R104, R498) -/

/-- The physical lines that a drain has still to write. -/
def Tile.drainLines (x : Tile) (d : Drain) : List Nat :=
  (List.range (d.lines - d.written)).map (fun i => (x.task d.task.val).spBase + d.addr.toNat / 64 + d.written + i)

/-- Whether a line is marked by a pending drain. -/
def Tile.markedByDrain (x : Tile) (l : Nat) : Bool := x.drains.any (fun d => decide (l ∈ x.drainLines d))

/-- Panel geometry (R100, R137): consecutive k per line and lines of a panel without its scales. -/
def perLine (fmt : Nat) (wide : Bool) : Nat :=
  match fmt with
  | 0 | 1 => 2
  | 2 | 3 => 4
  | 4 => 5
  | _ => if wide then 4 else 8

/-- Whether a pair of format codes is FP4 with FP4, whose block is 16 × 32 (R99). -/
def ArrayCfg.wide (c : ArrayCfg) : Bool := c.fmtA == 5 && c.fmtB == 5

/-- Whether a format code carries block scales. -/
def isMx (fmt : Nat) : Bool := fmt == 4 || fmt == 5

/-- Lines of a panel's elements. -/
def panelLines (fmt : Nat) (wide : Bool) (k : Nat) : Nat := ceilDiv k (perLine fmt wide)

/-- Lines of a panel with its scale array. -/
def panelAll (fmt rows : Nat) (wide : Bool) (k : Nat) : Nat :=
  panelLines fmt wide k + (if isMx fmt then ceilDiv (rows * (k / 32)) 64 else 0)

/-- Lines that the A and the B panel of a run take. -/
def ArrayCfg.linesA (c : ArrayCfg) (k : Nat) : Nat := panelAll c.fmtA.toNat 16 false k
def ArrayCfg.linesB (c : ArrayCfg) (k : Nat) : Nat := panelAll c.fmtB.toNat (if c.wide then 32 else 16) c.wide k

/-- Whether a line belongs to a panel of a checked run that is not settled (R498). -/
def Tile.heldByChecker (x : Tile) (l : Nat) : Bool :=
  x.runs.any fun r => r.checked && !r.settled &&
    (let b := (x.task r.task.val).spBase
     (decide (b + r.panelA.toNat / 64 ≤ l) && decide (l < b + r.panelA.toNat / 64 + r.cfg.linesA r.k)) ||
     (decide (b + r.panelB.toNat / 64 ≤ l) && decide (l < b + r.panelB.toNat / 64 + r.cfg.linesB r.k)))

/-! ### Halting (R85, R86, R152) -/

/-- The oldest block that holds the array enters the drain buffer once that is free (R103). -/
def Tile.promote (x : Tile) : Tile :=
  if x.runs.any (fun r => r.stage == .buffered) then x
  else
    match x.runs.find? (fun r => r.stage == .holding) with
    | none => x
    | some h => { x with runs := x.runs.map fun r => if r.id = h.id then { r with stage := .buffered } else r }

/-- Take a run and its drain out: the buffer is free (R103). -/
def Tile.dropRun (x : Tile) (id : Nat) : Tile :=
  Tile.promote { x with runs := x.runs.filter (fun r => r.id ≠ id), drains := x.drains.filter (fun d => d.run ≠ id) }

/-- A task that halts: its loads are dropped, its blocks go nowhere, and its marked lines are unmarked (R152). -/
def Tile.halted (x : Tile) (n : Fin 4) : Tile :=
  Tile.promote { x.setTask n.val { x.task n.val with state := .faulted, loads := [], hold := .none } with
    runs := (x.runs.filter fun r => r.task ≠ n || r.stage = .queued || r.stage = .running).map fun r =>
      if r.task = n then { r with dropped := true } else r
    drains := x.drains.filter fun d => d.task ≠ n }

/-! ### The handler pass (R145, R179, R187 to R189) -/

/-- The tile with every ring empty and its tasks resumed: the end of a handler pass (R144, R179). -/
def Tile.resumeAll (x : Tile) : Tile :=
  { x with
    handling := none
    delivered := []
    rings := x.rings.mapAll fun r => { r with head := r.tail, used := 0 }
    tasks := x.tasks.mapAll fun e =>
      if e.state = .atCurfew then { e with state := .running, hold := .none, roomUsed := 0 }
      else { e with roomUsed := 0 } }

/-- Whether a handler-table entry names a handler of a task (R188). -/
def handlerOk (h : Word) (task : BitVec 2) : Bool := h.getLsbD 31 && h.extractLsb' 16 2 == task

/-- A task on entry to the handler of a message: what a15, s30 and s31 held, or a load would still bring, is lost (R145). -/
def Task.enterHandler (t : Task) (h : Word) (m : Delivered) : Task :=
  let t : Task := { t with loads := t.loads.filter fun l => l.vector || (l.dest != 30 && l.dest != 31) }
  { (((t.setA 15 (BitVec.ofNat 32 (64 * m.line)) false).setS 31 (BitVec.ofNat 32 m.lines) false).setS 30
      (BitVec.ofNat 32 (m.seq.toNat + 65536 * m.channel.toNat + 2 ^ 20 * m.handler.toNat)) false) with
    state := .running, hold := .none, pc := h.extractLsb' 0 16 &&& 0xFFFC }

/-- Run on from the messages still to be handled: an invalid handler halts its task and the pass goes on; a halted
task's handlers are not run (R188, R203). -/
def State.passFrom (s : State) (tile : Nat) : List Delivered → State
  | [] => s.setTile tile (s.tile tile).resumeAll
  | m :: ms =>
    let x := s.tile tile
    let t := x.task m.task.toNat
    let h := x.handlers.get 0 m.handler.toNat
    if t.state = .faulted then s.passFrom tile ms
    else if !handlerOk h m.task then
      let c := (s.ctxOf tile).getD 0xF
      let s1 := s.setTile tile (x.halted ⟨m.task.toNat, m.task.isLt⟩)
      let s2 := s1.event 0x0107 kTile c tile m.task.toNat m.waybillHi.toNat
      (s2.stopAtCurfew c).passFrom tile ms
    else
      s.setTile tile { x.setTask m.task.toNat (t.enterHandler h m) with
        handling := some ⟨⟨m.task.toNat, m.task.isLt⟩, t.state, t.pc, m⟩, delivered := ms }

/-! ### Faults of an instruction (R85, R86) -/

/-- Halt a task by fault and stop its job at the next Curfew (R85, R86); a handler pass it ran goes on. -/
def State.haltTask (s : State) (w : Site) (code : BitVec 16) (arg0 arg1 : Nat) : State :=
  let x := s.tile w.tile
  let c := (s.ctxOf w.tile).getD 0xF
  let s1 := s.setTile w.tile (x.halted w.task)
  let s2 := match x.handling with
    | some h => if h.task = w.task then s1.passFrom w.tile x.delivered else s1
    | none => s1
  (s2.event code kTile c w.tile arg0 arg1).stopAtCurfew c

/-! ### The offer of an instruction -/

/-- The instruction word at a byte offset of a task (R118). -/
def Tile.wordAt (x : Tile) (t : Task) (off : Nat) : Word := BitVec.ofNat 32 (ofBytes (x.store.read (64 * t.isBase + off) 4))

/-- Whether a word at an offset lies in the task's instruction-store region (R85). -/
def Task.fetchable (t : Task) (off : Nat) : Bool := decide (off + 4 ≤ 64 * t.isBound)

/-- Whether a task is one that can use the issue slot, and could at its last offer: a task whose region is to open
holds at its ACCOPEN (R107). -/
def Task.ready (t : Task) : Bool := t.enabled && t.state == .running && t.hold == .none && t.opening.isNone

/-- Whether it is a task's turn: in the rotation after the task that issued last, every task before it could not
issue (R82). -/
def Tile.turn (x : Tile) (n : Fin 4) : Bool :=
  match x.lastIssued with
  | none => (List.range n.val).all fun m => !(x.task m).ready
  | some m => (List.range ((n.val + 3 - m.val) % 4)).all fun i => !(x.task ((m.val + 1 + i) % 4)).ready

/-- Whether a task may use the issue slot: its job is in a compute phase; a handler of the tile runs alone (R145),
and no task resumes before the last delivered message is handled. While a loss of the root PLL lasts no core cycle passes (R575). -/
def State.mayIssue (s : State) (w : Site) : Bool :=
  let x := s.tile w.tile
  match s.ctxOf w.tile with
  | none => false
  | some c =>
    !s.power.lossHandling && (s.job c).phase == .compute &&
      (match x.handling with
       | some h => h.task == w.task
       | none => x.delivered.isEmpty && x.turn w.task) &&
      (x.task w.task.val).state == .running && (x.task w.task.val).opening.isNone

/-- How an offered instruction stands. -/
inductive Issue where
  /-- The tile does not take it: not running, not its turn, or not the word at the program counter. -/
  | notOffered
  /-- The fetch lies outside the instruction-store region (R85). -/
  | outside
  /-- The word's opcode is not listed (R121). -/
  | unlisted (word : Word)
  /-- The guard is false: the instruction is passed over by its size (R119). -/
  | skip (n : Nat)
  /-- It takes effect. -/
  | take
deriving DecidableEq, Repr

/-- How a tile command stands at its site. -/
def State.issueOf (s : State) (i : Instr) (w : Site) : Issue :=
  if !s.mayIssue w then .notOffered
  else
    let x := s.tile w.tile
    let t := x.task w.task.val
    let pc := t.pc.toNat
    if !t.fetchable pc then .outside
    else
      let word := x.wordAt t pc
      let taken := guardHolds (guardOf word) t
      match decodeTile w word (x.wordAt t (pc + 4)) with
      | none => if taken then .unlisted word else .skip 4
      | some j =>
        if tileWord i ≠ some word then .notOffered
        else if !taken then .skip (tileSize j)
        else if tileSize j = 8 ∧ !t.fetchable (pc + 4) then .outside
        else if tileSecond i ≠ tileSecond j then .notOffered
        else .take

/-- Advance the program counter. -/
def Task.advance (t : Task) (n : Nat) : Task := { t with pc := t.pc + BitVec.ofNat 16 n }

/-- The tile after a task has issued: the next rotation starts after it, and every waiting task is offered
again (R82). -/
def Tile.issued (x : Tile) (n : Fin 4) (t : Task) : Tile :=
  { x with
    lastIssued := some n
    tasks := (x.tasks.mapAll fun e => { e with hold := Hold.none }).set n.val { t with hold := .none } }

/-- Complete an issue: the task's new state. -/
def State.retire (s : State) (w : Site) (t : Task) : State := s.setTile w.tile ((s.tile w.tile).issued w.task t)

/-- Note why a task could not issue; nothing else changes. -/
def State.holdTask (s : State) (w : Site) (h : Hold) : State := s.setTaskAt w { s.taskAt w with hold := h }

/-- "task, address" of the instruction at a site. -/
def State.where_ (s : State) (w : Site) : Nat := taskAddr w.task.val (s.taskAt w).pc

/-- The word of a tile command as a number. -/
def wordNum (i : Instr) : Nat := ((tileWord i).getD 0).toNat

/-- INSTRUCTION_INVALID (R121). -/
def State.invalid (s : State) (i : Instr) (w : Site) : State := s.haltTask w 0x0105 (s.where_ w) (wordNum i)

/-- OPERAND_INVALID (R122). -/
def State.operandBad (s : State) (i : Instr) (w : Site) : State := s.haltTask w 0x0106 (s.where_ w) (wordNum i)

/-- SCRATCHPAD_BOUNDS (R85). -/
def State.outOfBounds (s : State) (w : Site) (off : Nat) : State := s.haltTask w 0x0103 (s.where_ w) off

/-- POISON_CONSUMED of a tagged register (R220): the address consumed is a free value. -/
def State.eatTag (s : State) (w : Site) : State :=
  { s.haltTask w 0x0202 (s.where_ w) (Config.consumedAddress s.fresh).toNat with fresh := s.fresh + 1 }

/-- POISON_CONSUMED of a scratchpad line (R220). -/
def State.eatPad (s : State) (w : Site) (pa : Nat) : State := s.haltTask w 0x0202 (s.where_ w) pa

/-- Offer an instruction: fetch, guard and opcode (R85, R119, R121); `eff` is its effect where it takes one. -/
def State.issue (s : State) (i : Instr) (w : Site) (eff : State → Out) : Out :=
  match s.issueOf i w with
  | .notOffered => .next s
  | .outside => .next (s.haltTask w 0x0104 (s.where_ w) 0)
  | .unlisted word => .next (s.haltTask w 0x0105 (s.where_ w) word.toNat)
  | .skip n => .next (s.retire w ((s.taskAt w).advance n))
  | .take => eff s

/-- Whether a register that an instruction names waits for a load (R123). -/
def Task.waits (t : Task) (ss : List (BitVec 5)) (vs : List (BitVec 4)) : Bool :=
  t.loads.any fun l => if l.vector then vs.any (fun v => v.setWidth 5 == l.dest) else ss.any (fun n => n == l.dest)

/-- What an instruction that works on a task's registers needs and does. -/
structure RegOp where
  /-- R121: every field is one the instruction allows. -/
  ok : Bool
  /-- Scalar and vector registers it names. -/
  ss : List (BitVec 5)
  vs : List (BitVec 4)
  /-- Whether it consumes a tagged register (R219). -/
  eats : Task → Bool
  /-- Whether a register operand is out of range (R122). -/
  bad : Task → Bool
  /-- The task after it, the program counter included. -/
  run : Task → Task
  /-- Whether it produces or converts a non-finite value (R37). -/
  nonfinite : Task → Bool

/-- The effect of a register instruction that takes effect. -/
def State.regEffect (s : State) (i : Instr) (w : Site) (o : RegOp) : Out :=
  let t := s.taskAt w
  if !o.ok then .next (s.invalid i w)
  else if t.waits o.ss o.vs then .next (s.holdTask w .interlock)
  else if o.eats t then .next (s.eatTag w)
  else if o.bad t then .next (s.operandBad i w)
  else .next (s.setTile w.tile (((s.tile w.tile).issued w.task (o.run t)).noteNonfinite (o.nonfinite t)))

/-- A register instruction. -/
def State.regOp (s : State) (i : Instr) (w : Site) (o : RegOp) : Out := s.issue i w fun s => s.regEffect i w o

/-- No task is in this condition. -/
def never (_ : Task) : Bool := false

/-- A register instruction that consumes nothing it need not, and sets no flag. -/
def RegOp.plain (ok : Bool) (ss : List (BitVec 5)) (eats : Task → Bool) (run : Task → Task) : RegOp :=
  { ok := ok, ss := ss, vs := [], eats := eats, bad := never, run := run, nonfinite := never }

/-- A field that names an address register, vector register or token in five bits: its fifth bit is RSV (R120). -/
def low4 (f : BitVec 5) : BitVec 4 := f.extractLsb' 0 4
def top4 (f : BitVec 5) : Bool := f.getLsbD 4
/-- A field that names a predicate in five bits: its upper two are RSV. -/
def low3 (f : BitVec 5) : BitVec 3 := f.extractLsb' 0 3
def top3 (f : BitVec 5) : Bool := f.extractLsb' 3 2 != 0

end Sys2Proof.Machine
end

