-- ==== Sys2Proof/Machine/Access.lean ====
section
/-! DEFINITION. Scratchpad loads and stores (R85, R88 to R93, R104, R109 to R111, R127, R498). -/

namespace Sys2Proof.Machine

/-- The byte offset of a memory instruction: a[AB] + OFF11 modulo 2^32 (R127). -/
def Task.offset (t : Task) (f : FM) : Nat := (t.getA f.ab + f.off.signExtend 32).toNat

/-- Bytes of a scalar access by SZ (R127). -/
def szBytes (sz : BitVec 2) : Nat :=
  match sz.toNat with
  | 1 => 2
  | 2 => 4
  | _ => 1

/-- The value a scalar load writes, by SZ (R127). -/
def loadValue (sz : BitVec 2) (l : List Byte) : Word :=
  if sz = 3 then ((BitVec.ofNat 8 (ofBytes l)).signExtend 32) else BitVec.ofNat 32 (ofBytes l)

/-- A tile after a misaligned access has been noted (R90). -/
def Tile.noteMisaligned (x : Tile) (n : Fin 4) (pc : BitVec 16) (off : Nat) (misaligned : Bool) : Tile :=
  if misaligned then x.contract 0x0002 n.val pc off else x

/-- The tile after a core access has taken its banks and noted a misaligned access (R90 to R92), with the
conflicts it met. -/
def Tile.touch (x : Tile) (n : Fin 4) (pc : BitVec 16) (off pa size : Nat) (misaligned : Bool) : Tile × Nat :=
  let x1 := x.noteMisaligned n pc off misaligned
  x1.useLines 3 n pc (linesOf pa size)

/-- Whether a scalar access crosses a line, or a vector access is not on a line (R90). -/
def misaligned (vector : Bool) (off size : Nat) : Bool :=
  if vector then off % 64 != 0 else decide (off / 64 ≠ (off + size - 1) / 64)

/-- The checks and waits common to loads and stores, in order: registers (R123), the address's tag (R219), bounds
(R85), marked lines (R104) and, for a store, lines held for the checker (R498). -/
def State.access (s : State) (w : Site) (f : FM) (ss : List (BitVec 5)) (vs : List (BitVec 4)) (size : Nat)
    (store : Bool) (eff : State → Nat → Out) : Out :=
  let x := s.tile w.tile
  let t := x.task w.task.val
  let off := t.offset f
  let pa := t.padAddr off
  if t.waits ss vs then .next (s.holdTask w .interlock)
  else if t.tagA f.ab then .next (s.eatTag w)
  else if !t.inBounds off size then .next (s.outOfBounds w off)
  else if (linesOf pa size).any x.markedByDrain then .next (s.holdTask w .drains)
  else if store && (linesOf pa size).any x.heldByChecker then .next (s.holdTask w .checker)
  else if !store && decide (8 ≤ t.loads.length) then .next (s.holdTask w .resource)
  else eff s off

/-- Issue a load: the data is taken now and reaches its register when the load returns (R88, R97). -/
def State.startLoad (s : State) (w : Site) (vector : Bool) (dest : BitVec 5) (off size : Nat)
    (value : List Byte → VReg) : State :=
  let x := s.tile w.tile
  let t := x.task w.task.val
  let pa := t.padAddr off
  let r := (x.seen s.fresh).padRead pa size
  let u := x.touch w.task t.pc off pa size (misaligned vector off size)
  let t1 : Task := { t with loads := t.loads ++ [⟨vector, t.pc, dest, value r.1, r.2⟩] }
  { (s.setTile w.tile (u.1.issued w.task (t1.advance 4))).contractStall w.tile u.2 with
    fresh := s.fresh + x.inFlight.length }

/-- Issue a store: it asks for its banks in the cycle after issue (R88, R89, R217). -/
def State.startStore (s : State) (w : Site) (vector : Bool) (off : Nat) (data : List Byte) (tag : Bool) : State :=
  let x := s.tile w.tile
  let t := x.task w.task.val
  let pa := t.padAddr off
  let x1 := x.noteMisaligned w.task t.pc off (misaligned vector off data.length)
  let y := ({ x1 with bankNext := x1.bankNext ++ bankUses 3 w.task t.pc (linesOf pa data.length) } : Tile).padWrite pa data tag
    (vector && off % 64 == 0)
  s.setTile w.tile (y.issued w.task (t.advance 4))

/-- LD (R127). -/
def execLd (w : Site) (f : FM) (s : State) : Out :=
  s.issue (.ld w f) w fun s =>
    s.access w f [f.d] [] (szBytes f.sz) false fun s off =>
      .next (s.startLoad w false f.d off (szBytes f.sz) fun l => (loadValue f.sz l).setWidth 1024)

/-- ST: SZ 0b11 is invalid (R127). -/
def execSt (w : Site) (f : FM) (s : State) : Out :=
  s.issue (.st w f) w fun s =>
    if f.sz = 3 then .next (s.invalid (.st w f) w)
    else
      s.access w f [f.d] [] (szBytes f.sz) true fun s off =>
        let t := s.taskAt w
        .next (s.startStore w false off (toBytes (szBytes f.sz) (t.getS f.d).toNat) (t.tagS f.d))

/-- VLD: SZ 0b00 only (R127). -/
def execVld (w : Site) (f : FM) (s : State) : Out :=
  s.issue (.vld w f) w fun s =>
    if f.sz ≠ 0 ∨ top4 f.d then .next (s.invalid (.vld w f) w)
    else s.access w f [] [low4 f.d] 128 false fun s off => .next (s.startLoad w true f.d off 128 vregOf)

/-- VST: SZ 0b00 only (R127). -/
def execVst (w : Site) (f : FM) (s : State) : Out :=
  s.issue (.vst w f) w fun s =>
    if f.sz ≠ 0 ∨ top4 f.d then .next (s.invalid (.vst w f) w)
    else
      s.access w f [] [low4 f.d] 128 true fun s off =>
        let t := s.taskAt w
        .next (s.startStore w true off (vregBytes (t.getV (low4 f.d))) (t.tagV (low4 f.d)))

/-- Whether a task's access at an address still waits for a bank (R92). -/
def Tile.bankLate (x : Tile) (n : Fin 4) (pc : BitVec 16) : Bool := x.bankWaits.any fun u => u.prio == 3 && u.task == n && u.pc == pc

/-- A load's data reaches its register, with the poison of its lines (R88, R218); one that waits for a bank comes later (R92). -/
def execScratchpadLoadReturn (w : Site) (n : Nat) (s : State) : Out :=
  let t := s.taskAt w
  match t.loads[n]? with
  | none => .next s
  | some l =>
    let t1 := { t with loads := t.loads.eraseIdx n }
    if (s.tile w.tile).bankLate w.task l.pc then .next s
    else .next (s.setTaskAt w
      (if l.vector then t1.setV (low4 l.dest) l.data l.poison else t1.setS l.dest (l.data.setWidth 32) l.poison))

end Sys2Proof.Machine
end

