-- ==== Sys2Proof/Machine/Grid.lean ====
section
/-! DEFINITION. The repair map, the logical grid, the steering switches and the settings blocks that feed them
(R9 to R27, R561, R562). A die row is numbered 2 × row, plus 1 for the dies C1 and C3. -/

namespace Sys2Proof.Machine

/-! ### Settings blocks -/

/-- A generation that was never written. -/
def Generation.blank : Generation := ⟨false, false, false, []⟩

/-- Generation `g` of block `b`, as the last power-on reset found it. -/
def Boot.gen (x : Boot) (b g : Nat) : Generation := x.otpBoot.get Generation.blank (4 * b + g)

/-- The settings as programmed now, seen through the same functions. -/
def Boot.now (x : Boot) : Boot := { x with otpBoot := x.otp }

/-- The highest generation with a committed copy (R562). -/
def Boot.committed (x : Boot) (b : Nat) : Option Nat := [3, 2, 1, 0].find? fun g => (x.gen b g).committed

/-- The live generation of a block: none where the block holds its blank values or is damaged (R562). -/
def Boot.live (x : Boot) (b : Nat) : Option Nat :=
  match x.committed b with
  | some g => if (x.gen b g).valid then some g else none
  | none => none

/-- A damaged block: its highest committed generation has no valid copy (R562). -/
def Boot.damaged (x : Boot) (b : Nat) : Bool :=
  match x.committed b with
  | some g => !(x.gen b g).valid
  | none => false

/-- The live payload of a block; a blank block's is given by the caller (R561). -/
def Boot.payload (x : Boot) (b : Nat) (blank : List Byte) : List Byte :=
  match x.live b with
  | some g => (x.gen b g).payload
  | none => blank

/-- Lifecycle states (R565): 0 MANUFACTURE, 1 PRODUCTION, 2 RMA, 3 DECOMMISSIONED. -/
def Boot.lifecycle (x : Boot) : Nat := numAt (x.payload 4 [0]) 0 1

/-- The highest core step of the clock-limits block (R561). -/
def Boot.clockLimit (x : Boot) : BitVec 2 := BitVec.ofNat 2 (numAt (x.payload 1 [0]) 0 1)

/-- The core-rail offset of a die in units of 2.5 mV (R561). -/
def Boot.trim (x : Boot) (die : Nat) : Int := signedOf 8 (numAt (x.payload 2 []) die 1)

/-- The live root-key hash (R561); zero stands for none. -/
def Boot.rootHash (x : Boot) : List Byte := fitBytes 48 (x.payload 3 [])

/-- The default-policy block (R561). -/
def Boot.minSvn (x : Boot) : Nat := numAt (x.payload 5 []) 0 4
def Boot.smbusAddr (x : Boot) : Nat :=
  let a := numAt (x.payload 5 []) 4 1 % 128
  if a = 0 then 0x5A else a
def Boot.portsForceDown (x : Boot) : Bool := bitOf (numAt (x.payload 5 []) 5 1) 0
def Boot.hostloadDeny (x : Boot) : Bool := bitOf (numAt (x.payload 5 []) 5 1) 1

/-- The fused-out tiles of the repair-map block: 400 entries of 16 bits (R561). -/
def Boot.fused (x : Boot) : List Nat :=
  ((List.range 400).map fun i => numAt (x.payload 0 []) (2 * i) 2).filterMap fun e =>
    if bitOf e 15 then some (e % 2 ^ 14) else none

/-! ### The grid -/

/-- The first physical column of a die row (R9). -/
def firstCol (row : Nat) : Nat := 52 * (row % 2)

/-- The physical tiles of a die row that the repair map marks: fused out or retired (R11). -/
def State.marked (s : State) (row : Nat) : List Nat :=
  (s.boot.fused ++ s.retired).filter fun p => decide (2 * (p / 104) + p % 104 / 52 = row)

/-- The physical columns that hold the die row's logical columns in ascending order: the lowest 50 good ones
under the map in force (R11, R18). -/
def State.gridCols (s : State) (row : Nat) : List Nat :=
  (((List.range 52).map (· + firstCol row)).filter fun c => 104 * (row / 2) + c ∉ s.applied.get [] row).take 50

/-- The die row of a logical tile. -/
def dieRow (tile : Nat) : Nat := 2 * (tile / 100) + tile % 100 / 50

/-- The physical index of a logical tile, if a tile holds it (R11). -/
def State.physical (s : State) (tile : Nat) : Option Nat :=
  match (s.gridCols (dieRow tile))[tile % 50]? with
  | some c => some (104 * (tile / 100) + c)
  | none => none

/-- The logical tile that a physical tile holds, if it is in the grid. -/
def State.logical (s : State) (phys : Nat) : Option Nat :=
  let row := 2 * (phys / 104) + phys % 104 / 52
  match (s.gridCols row).findIdx? (· = phys % 104) with
  | some i => some (100 * (phys / 104) + 50 * (row % 2) + i)
  | none => none

/-- Bit b of ID_TILE_USABLE n is set: logical tile 32 n + b is in the grid and not retired (R471). -/
def State.isUsable (s : State) (tile : Nat) : Bool := (s.boot.usable.get 0 (tile / 32)).getLsbD (tile % 32)

/-- ID_TILE_USABLE with one tile's bit set or cleared. -/
def setUsable (u : Tbl Word) (tile : Nat) (b : Bool) : Tbl Word :=
  let w := u.get 0 (tile / 32)
  let m : Word := 1#32 <<< (tile % 32)
  u.set (tile / 32) (if b then w ||| m else w &&& ~~~m)

/-- Whether a logical tile is in the grid and its physical tile is not retired. -/
def State.good (s : State) (tile : Nat) : Bool :=
  match s.physical tile with
  | some p => p ∉ s.retired
  | none => false

/-- ID_TILE_USABLE of every tile of a die row written from the map in force (R471). -/
def State.writeUsable (s : State) (row : Nat) : State :=
  { s with boot := { s.boot with usable := (List.range 50).foldl (fun u i =>
      let tile := 100 * (row / 2) + 50 * (row % 2) + i
      setUsable u tile (s.good tile)) s.boot.usable } }

/-- The die row of the first tile and the edge of a port (R15): rows for top and bottom edges. -/
def portDieRow : Nat → Option Nat
  | 0 => some 0
  | 1 => some 199
  | 2 => some 1
  | 3 => some 198
  | _ => none

/-- The first logical row of a left or right edge's die, and whether it is the right edge (R15). -/
def portSide : Nat → Nat × Bool
  | 4 => (50, false)
  | 5 => (0, true)
  | 6 => (50, true)
  | _ => (0, false)

/-- The in-grid positions of a die row, ascending (R16). -/
def State.gridPositions (s : State) (row : Nat) : List Nat := (s.gridCols row).map (· - firstCol row)

/-- The positions that carry the eight gates of a top or bottom edge, ascending (R16). -/
def gatePositions (grid : List Nat) : List Nat :=
  let up := (grid.filter (29 ≤ ·)).take 8
  let down := ((grid.filter (· < 29)).reverse.take (8 - up.length)).reverse
  down ++ up

/-- The logical tile that carries gate `g` of port `p` under the map in force (R15, R16). -/
def State.steer (s : State) (p g : Nat) : Nat :=
  match portDieRow p with
  | some row =>
    let grid := s.gridPositions row
    let pos := (gatePositions grid).getD g 0
    100 * (row / 2) + 50 * (row % 2) + (grid.findIdx (· = pos))
  | none =>
    let (r0, right) := portSide p
    let r := r0 + 29 + g
    if right then 100 * r + 50 + ((s.gridCols (2 * r + 1)).length - 1) else 100 * r

/-- ID_GATE_TILE entry of a gate point (VALID in bit 31). -/
def State.gateTileOf (s : State) (n : Nat) : Nat := (s.boot.gateTile.get 0 n).toNat % 2 ^ 14

/-- Set the steering switches of every gate whose link enters a die row (R16, R27). -/
def State.setSwitches (s : State) (row : Nat) : State :=
  { s with boot := { s.boot with gateTile := (List.range 64).foldl (fun t n =>
      let tile := s.steer (n / 8) (n % 8)
      if dieRow tile = row then t.set n (BitVec.ofNat 32 (2 ^ 31 + tile)) else t) s.boot.gateTile } }

/-- Apply the repair map to a die row and move its edge links (R18). -/
def State.applyRow (s : State) (row : Nat) : State :=
  let s1 := { s with applied := s.applied.set row (s.marked row) }
  (s1.writeUsable row).setSwitches row

/-- Whether no partition holding a loaded job contains a tile of the die row (R18). -/
def State.atBoundary (s : State) (row : Nat) : Bool :=
  !((List.range 8).any fun c => (s.job c).phase != .empty &&
    (List.range 50).any fun i => (s.job c).cfg.holds (100 * (row / 2) + 50 * (row % 2) + i))

/-- Apply every change whose boundary has come (R18). -/
def State.applyRepairs (s : State) : State :=
  (List.range 200).foldl (fun s row =>
    if s.atBoundary row ∧ s.marked row ≠ s.applied.get [] row then s.applyRow row else s) s

/-- Retire a physical tile's ID_TILE_USABLE bit at once (R471, R508). -/
def State.retireTile (s : State) (phys : Nat) : State :=
  let s1 := { s with retired := addTo s.retired phys }
  match s.logical phys with
  | some tile => { s1 with boot := { s1.boot with usable := setUsable s1.boot.usable tile false } }
  | none => s1

/-- The tiles of an Ostler's edge attachment (R15, R16): positions from 5 on of its stack's edge. -/
def State.ostlerTile (s : State) (o j : Nat) : Nat :=
  let port : Nat := [0, 7, 2, 5, 4, 3, 6, 1].getD (o / 5) 0
  let q := 4 * (o % 5) + j
  match portDieRow port with
  | some row =>
    let grid := s.gridPositions row
    100 * (row / 2) + 50 * (row % 2) + (grid.findIdx (· = (grid.filter (5 ≤ ·)).getD q 0))
  | none =>
    let (r0, right) := portSide port
    if right then 100 * (r0 + 5 + q) + 50 + ((s.gridCols (2 * (r0 + 5 + q) + 1)).length - 1) else 100 * (r0 + 5 + q)

end Sys2Proof.Machine
end

