-- ==== Sys2Proof/Machine/Vector.lean ====
section
/-! DEFINITION. Vector arithmetic, conversions, reductions and transfers (R29 to R54, R63 to R67, R129 to R134,
R150). -/

namespace Sys2Proof.Machine

/-- Apply an operation to the lanes of three registers. -/
def laneMap (op : Word → Word → Word → Word) (a b c : VReg) : VReg :=
  ofLanes ((List.range 32).map fun i => op (lane a i) (lane b i) (lane c i))

/-- Whether a register holds an infinity or a NaN in a lane. -/
def anyNonfinite (v : VReg) : Bool := (lanes v).any nonfinite32

/-- VOP by FN over the lanes of vA, vB and the third operand, vC or for VSQACC vD (R129). -/
def vopLane (fn : Nat) : Option (Word → Word → Word → Word) :=
  match fn with
  | 0x00 => some fun a b _ => fadd a b
  | 0x01 => some fun a b _ => fsub a b
  | 0x02 => some fun a b _ => fmul a b
  | 0x03 => some fun a b _ => fdiv a b
  | 0x04 => some fun a b c => ffma a b c
  | 0x05 => some fun a _ _ => fsqrt a
  | 0x06 => some fun a b _ => fmin a b
  | 0x07 => some fun a b _ => fmax a b
  | 0x08 => some fun a _ _ => fabs a
  | 0x09 => some fun a _ _ => fneg a
  | 0x0A => some fun a _ _ => a
  | 0x0B => some fun a _ d => fadd d (fmul a a)
  | _ => none

/-- Whether a form of VOP uses vB, and whether it uses vC. -/
def vopUsesB (fn : Nat) : Bool := decide (fn ≤ 0x04) || fn == 0x06 || fn == 0x07
def vopUsesC (fn : Nat) : Bool := fn == 0x04

/-- The result of VOP. -/
def Task.vop (t : Task) (f : FV) : VReg :=
  let fn := f.fn.toNat
  if fn = 0x0A then t.getV f.va
  else laneMap ((vopLane fn).getD fun a _ _ => a) (t.getV f.va) (t.getV f.vb) (t.getV (if fn = 0x0B then f.vd else f.vc))

/-- The register operation of VOP. VMOV copies bits and moves the tag (R129, R218). -/
def vopOp (f : FV) : RegOp :=
  let fn := f.fn.toNat
  { ok := (vopLane fn).isSome && (vopUsesB fn || f.vb == 0) && (vopUsesC fn || f.vc == 0)
    ss := []
    vs := [f.vd, f.va] ++ (if vopUsesB fn then [f.vb] else []) ++ (if vopUsesC fn then [f.vc] else [])
    eats := fun t => fn != 0x0A && (t.tagV f.va || (vopUsesB fn && t.tagV f.vb) || (vopUsesC fn && t.tagV f.vc) ||
      (fn == 0x0B && t.tagV f.vd))
    bad := never
    run := fun t => (t.setV f.vd (t.vop f) (fn == 0x0A && t.tagV f.va)).advance 4
    nonfinite := fun t => fn != 0x0A && anyNonfinite (t.vop f) }

/-- VOP (R129). -/
def execVop (w : Site) (f : FV) (s : State) : Out := s.regOp (.vop w f) w (vopOp f)

/-! ### Tensor slots (R131) -/

def Task.slot (t : Task) (n : BitVec 4) : Slot := t.slots.get Slot.empty n.toNat
def Task.setSlot (t : Task) (n : BitVec 4) (x : Slot) : Task := { t with slots := t.slots.set n.toNat x }

/-- Whether a slot is filled and matches an FP8 format code, 2 or 3 (R131). -/
def Slot.matches (x : Slot) (code : Nat) : Bool := x.filled && x.format.toNat + 2 == code

/-- The slot's scale exponent, signed. -/
def Slot.scale (x : Slot) : Int := x.exp.toInt

/-- The largest finite magnitude of FP32 values (R45, R46). -/
def amaxOf (vals : List Word) : Word :=
  vals.foldl (fun acc v => if nonfinite32 v then acc else magMax acc (fabs v)) 0

/-- Pack FP32 values into a slot's tensor: the bits, and the slot with its amax and saturations (R43, R45, R54). -/
def Slot.pack (x : Slot) (code : Nat) (vals : List Word) : List Conv × Slot :=
  let cs := vals.map fun v => convertTo code x.ovf ((of32 v).scale x.scale)
  (cs, { x with amax := magMax x.amax (amaxOf vals), sat := x.sat + BitVec.ofNat 32 (cs.countP (·.sat)) })

/-! ### Conversions (R132) -/

/-- Bytes of a group of 32 elements, and the number of parts. -/
def groupBytes (code : Nat) : Nat := 4 * widthOf code
def groupParts (code : Nat) : Nat := 128 / groupBytes code

/-- The elements of a group, and the group of a list of elements: element i at bits [w i + w − 1 : w i] (R32). -/
def groupGet (code : Nat) (v : VReg) (part : Nat) : List Nat :=
  (List.range 32).map fun i => v.toNat / 2 ^ (8 * groupBytes code * part + widthOf code * i) % 2 ^ widthOf code
def groupBits (code : Nat) (es : List Nat) : Nat := es.foldr (fun e acc => e + 2 ^ widthOf code * acc) 0

/-- A register with a group's bytes replaced. -/
def groupPut (code : Nat) (v : VReg) (part : Nat) (es : List Nat) : VReg :=
  let lo := 8 * groupBytes code * part
  let hi := lo + 8 * groupBytes code
  BitVec.ofNat 1024 (v.toNat % 2 ^ lo + 2 ^ lo * groupBits code es + v.toNat / 2 ^ hi * 2 ^ hi)

/-- The fields of VCVT. -/
def cvtPack (f : FV) : Bool := f.fn.getLsbD 5
def cvtCode (f : FV) : Nat := bitsOf f.fn.toNat 4 2

/-- R121 for VCVT: the code, the part, and VC where a form does not use it. -/
def cvtOk (f : FV) : Bool :=
  let c := cvtCode f
  f.fn.extractLsb' 0 2 == 0 && decide (c < 7) && decide (f.vb.toNat < groupParts c) &&
    (decide (2 ≤ c ∧ c ≤ 5) || f.vc == 0 || (decide (c < 2) && cvtPack f && f.vc == 1))

/-- The scalar register that an MX form names: s0 to s15. -/
def cvtScale (f : FV) : BitVec 5 := f.vc.setWidth 5

/-- Unpack a group into FP32 lanes (R132). -/
def Task.unpack (t : Task) (f : FV) : List Word :=
  let c := cvtCode f
  (groupGet c (t.getV f.va) f.vb.toNat).map fun e =>
    if isMx c then mxUnpack c e ((t.getS (cvtScale f)).extractLsb' 0 8)
    else if c = 2 ∨ c = 3 then fp8Read (valueOf c e) (t.slot f.vc).scale
    else to32 (valueOf c e)

/-- Whether an unpack reads an infinity or a NaN, or makes one. -/
def Task.unpackNonfinite (t : Task) (f : FV) : Bool := (t.unpack f).any nonfinite32

/-- The task after a pack, and whether it read or made a non-finite value (R39, R40, R43, R132). -/
def Task.pack (t : Task) (f : FV) : Task × Bool :=
  let c := cvtCode f
  let vals := lanes (t.getV f.va)
  let put (t : Task) (es : List Nat) : Task := t.setV f.vd (groupPut c (t.getV f.vd) f.vb.toNat es) (t.tagV f.vd)
  if isMx c then
    let sc := mxScale (mxEmax c) vals
    ((put t (vals.map (mxPack c sc))).setS (cvtScale f) (sc.setWidth 32) false, vals.any nonfinite32)
  else if c = 2 ∨ c = 3 then
    let r := (t.slot f.vc).pack c vals
    ((put t (r.1.map (·.bits))).setSlot f.vc r.2, r.1.any (·.nonfinite))
  else
    let cs := vals.map fun v => convertTo c (f.vc.getLsbD 0) (of32 v)
    (put t (cs.map (·.bits)), cs.any (·.nonfinite))

/-- The register operation of VCVT. -/
def cvtOp (f : FV) : RegOp :=
  let c := cvtCode f
  { ok := cvtOk f
    ss := if isMx c then [cvtScale f] else []
    vs := [f.vd, f.va]
    eats := fun t => t.tagV f.va || (isMx c && !cvtPack f && t.tagS (cvtScale f))
    bad := fun t => (c == 2 || c == 3) && !(t.slot f.vc).matches c
    run := fun t => (if cvtPack f then (t.pack f).1 else t.setV f.vd (ofLanes (t.unpack f)) false).advance 4
    nonfinite := fun t => if cvtPack f then (t.pack f).2 else t.unpackNonfinite f }

/-- VCVT (R132). -/
def execVcvt (w : Site) (f : FV) (s : State) : Out := s.regOp (.vcvt w f) w (cvtOp f)

/-! ### Reductions (R64 to R67, R133, R134) -/

/-- Combine the 32 lanes in the tree of R64. -/
def treeOf (op : Word → Word → Word) (l : List Word) : Word := (treeFold op 5 l).headD 0

/-- The single-value reductions by FN (R133). -/
def reduceLanes (fn : Nat) (l : List Word) : Word :=
  match fn with
  | 0 => treeOf fadd l
  | 1 => treeOf fadd (l.map fun x => fmul x x)
  | 2 => treeOf fmax l
  | _ => treeOf fmax (l.map fabs)

/-- A partial result of R67. -/
structure Moments where
  n : Word
  mu : Word
  m2 : Word
deriving DecidableEq, Repr

/-- The element update of R67. -/
def Moments.update (p : Moments) (x : Word) : Moments :=
  let n := p.n + 1
  let d := fsub x p.mu
  let mu := fadd p.mu (fdiv d (ofCount n.toNat))
  ⟨n, mu, fadd p.m2 (fmul d (fsub x mu))⟩

/-- The merge of R67, with R134 for a side of count 0. -/
def Moments.merge (a b : Moments) : Moments :=
  if a.n = 0 ∧ b.n = 0 then ⟨0, 0, 0⟩
  else if a.n = 0 then b
  else if b.n = 0 then a
  else
    let n := a.n + b.n
    let d := fsub b.mu a.mu
    let cn := ofCount n.toNat
    let na := ofCount a.n.toNat
    let nb := ofCount b.n.toNat
    ⟨n, fadd a.mu (fdiv (fmul d nb) cn), fadd (fadd a.m2 b.m2) (fdiv (fmul (fmul d d) (fmul na nb)) cn)⟩

/-- The moments of a lane: vB, vC and vD (R133). -/
def Task.momentsAt (t : Task) (f : FV) (i : Nat) : Moments :=
  ⟨lane (t.getV f.vb) i, lane (t.getV f.vc) i, lane (t.getV f.vd) i⟩

/-- The merge of the 32 lanes. -/
def Task.merged (t : Task) (f : FV) : Moments :=
  (treeFold Moments.merge 5 ((List.range 32).map (t.momentsAt f))).headD ⟨0, 0, 0⟩

/-- The variance that VMVMP and VMVMS form: NaN for too few elements (R134). -/
def variance (sample : Bool) (m : Moments) : Word :=
  if sample then (if m.n.toNat ≤ 1 then nan32 else fdiv m.m2 (ofCount (m.n.toNat - 1)))
  else if m.n = 0 then nan32 else fdiv m.m2 (ofCount m.n.toNat)

/-- The task after VMVU. -/
def Task.vmvu (t : Task) (f : FV) : Task :=
  let r := (List.range 32).map fun i => (t.momentsAt f i).update (lane (t.getV f.va) i)
  ((t.setV f.vb (ofLanes (r.map (·.n))) false).setV f.vc (ofLanes (r.map (·.mu))) false).setV f.vd
    (ofLanes (r.map (·.m2))) false

/-- The task after VMVMP or VMVMS. -/
def Task.vmvm (t : Task) (f : FV) (sample : Bool) : Task :=
  let m := t.merged f
  ((t.setV f.vb (ofLanes [m.n]) false).setV f.vc (ofLanes [m.mu]) false).setV f.vd
    (ofLanes [m.m2, variance sample m]) false

/-- The task after VRED. -/
def Task.vred (t : Task) (f : FV) : Task :=
  match f.fn.toNat with
  | 4 => t.vmvu f
  | 5 => t.vmvm f false
  | 6 => t.vmvm f true
  | fn => t.setV f.vd (ofLanes [reduceLanes fn (lanes (t.getV f.va))]) false

/-- R121 for VRED: the forms, their RSV fields and the three distinct registers of R150. -/
def vredOk (f : FV) : Bool :=
  let fn := f.fn.toNat
  if fn ≤ 3 then f.vb == 0 && f.vc == 0
  else decide (fn ≤ 6) && f.vb != f.vc && f.vb != f.vd && f.vc != f.vd && (fn == 4 || f.va == 0)

/-- The register operation of VRED. -/
def vredOp (f : FV) : RegOp :=
  let fn := f.fn.toNat
  { ok := vredOk f
    ss := []
    vs := if fn ≤ 3 then [f.vd, f.va] else if fn = 4 then [f.vd, f.va, f.vb, f.vc] else [f.vd, f.vb, f.vc]
    eats := fun t => (decide (fn ≤ 4) && t.tagV f.va) || (decide (4 ≤ fn) && (t.tagV f.vb || t.tagV f.vc || t.tagV f.vd))
    bad := never
    run := fun t => (t.vred f).advance 4
    nonfinite := fun t =>
      let r := t.vred f
      anyNonfinite (r.getV f.vd) || (decide (4 ≤ fn) && anyNonfinite (r.getV f.vc)) }

/-- VRED (R133). -/
def execVred (w : Site) (f : FV) (s : State) : Out := s.regOp (.vred w f) w (vredOp f)

/-! ### Transfers (R130) -/

/-- A register with one lane replaced. -/
def putLane (v : VReg) (i : Nat) (x : Word) : VReg :=
  ofLanes ((List.range 32).map fun j => if j = i then x else lane v j)

/-- The register operation of VXFER: every form moves poison (R218). -/
def vxferOp (f : FR) : RegOp :=
  let fn := f.fn.toNat
  { ok := (fn == 0 && !top4 f.d && f.b == 0) || (fn == 1 && !top4 f.a) || (fn == 2 && !top4 f.d)
    ss := if fn = 1 then [f.d] else [f.a]
    vs := if fn = 1 then [low4 f.a] else [low4 f.d]
    eats := never
    bad := never
    run := fun t =>
      (match fn with
       | 0 => t.setV (low4 f.d) (ofLanes (List.replicate 32 (t.getS f.a))) (t.tagS f.a)
       | 1 => t.setS f.d (lane (t.getV (low4 f.a)) f.b.toNat) (t.tagV (low4 f.a))
       | _ => t.setV (low4 f.d) (putLane (t.getV (low4 f.d)) f.b.toNat (t.getS f.a))
           (t.tagV (low4 f.d) || t.tagS f.a)).advance 4
    nonfinite := never }

/-- VXFER (R130). -/
def execVxfer (w : Site) (f : FR) (s : State) : Out := s.regOp (.vxfer w f) w (vxferOp f)

end Sys2Proof.Machine
end

