-- ==== Sys2Proof/Machine/Array.lean ====
section
/-! DEFINITION. The matrix array: configuration, runs, blocks, drains, accumulate regions and the checker (R55 to R62,
R99 to R108, R135 to R141, R151, R152, R494 to R503). -/

namespace Sys2Proof.Machine

/-! ### Operand panels (R32, R100, R137) -/

/-- The encoded elements of a panel, all rows of k = 0 first, row 0 lowest within each k (log entry 21). -/
def panelElems (fmt rows : Nat) (wide : Bool) (k : Nat) (bytes : List Byte) : List Word :=
  let per := perLine fmt wide
  let wd := widthOf fmt
  let ls := (cutBytes 64 (ceilDiv k per) bytes).map ofBytes
  (ls.flatMap fun l => (List.range (rows * per)).map fun e => BitVec.ofNat 32 (l / 2 ^ (wd * e) % 2 ^ wd)).take (rows * k)

/-- The scale bytes of a panel: row r of block j at rows × j + r (R137). -/
def panelScales (fmt rows : Nat) (wide : Bool) (k : Nat) (bytes : List Byte) : List Byte :=
  if isMx fmt then (bytes.drop (64 * panelLines fmt wide k)).take (rows * (k / 32)) else []

/-- An operand's exact value, its block scale applied; a scale of 0xFF makes it NaN (R40, R55). -/
def operandValue (fmt : Nat) (bits : Word) (scale : Option Byte) : FVal :=
  match scale with
  | none => valueOf fmt bits.toNat
  | some x => if x = 0xFF then .nan else (valueOf fmt bits.toNat).scale ((x.toNat : Int) - 127)

/-- Columns of a run's block (R59). -/
def Run.cols (r : Run) : Nat := if r.cfg.wide then 32 else 16

/-- Operand a of row i and operand b of column j at step k. -/
def Run.a (r : Run) (i k : Nat) : FVal :=
  operandValue r.cfg.fmtA.toNat (r.aVals.getD (16 * k + i) 0)
    (if isMx r.cfg.fmtA.toNat then some (r.aScale.getD (16 * (k / 32) + i) 0) else none)
def Run.b (r : Run) (k j : Nat) : FVal :=
  operandValue r.cfg.fmtB.toNat (r.bVals.getD (r.cols * k + j) 0)
    (if isMx r.cfg.fmtB.toNat then some (r.bScale.getD (r.cols * (k / 32) + j) 0) else none)

/-- The FP32 totals of a run, row-major (R55 to R59). -/
def Run.block (r : Run) : List Word :=
  (List.range 16).flatMap fun i => (List.range r.cols).map fun j =>
    dot r.len ((List.range r.k).map fun k => (r.a i k).mul (r.b k j))

/-- Totals with silent errors XORed in: the environment's, not the manual's. -/
def flipTotals (flips : List (Nat × Word)) (l : List Word) : List Word :=
  l.mapIdx fun i w => flips.foldl (fun w f => if f.1 = i then w ^^^ f.2 else w) w

/-! ### The checker (R495 to R497) -/

/-- σ_k and μ_k: a column of A and of its magnitudes summed, rounded once to 20 bits. -/
def Run.sigma (r : Run) (k : Nat) : FVal :=
  round20 ((List.range 16).foldl (fun acc i => acc.add (r.a i k)) (.fin false 0 0))
def Run.mu (r : Run) (k : Nat) : FVal :=
  round20 ((List.range 16).foldl (fun acc i => acc.add (r.a i k).abs) (.fin false 0 0))

/-- C_j, M_j and S_j of R495. -/
def Run.checksum (r : Run) (j : Nat) : Word := dot r.len ((List.range r.k).map fun k => (r.sigma k).mul (r.b k j))
def Run.magnitude (r : Run) (j : Nat) : FVal :=
  (List.range r.k).foldl (fun acc k => up32 (acc.add (up32 ((r.mu k).mul (r.b k j).abs)))) (.fin false 0 0)
def Run.columnSum (r : Run) (totals : List Word) (j : Nat) : Word :=
  (List.range 16).foldl (fun acc i => fadd acc (totals.getD (r.cols * i + j) 0)) 0

/-- τ_j of R495, rounded upward. -/
def Run.tau (r : Run) (j : Nat) : FVal :=
  up32 (((FVal.fin false (2 * r.k + ceilDiv r.k r.len + 10) (-20)).mul (r.magnitude j)).add (.fin false 1 (-116)))

/-- Whether column j passes; a non-finite value is not compared (R497). -/
def Run.columnPasses (r : Run) (totals : List Word) (j : Nat) : Bool :=
  let c := of32 (r.checksum j)
  let sj := of32 (r.columnSum totals j)
  if c.isNonfinite || sj.isNonfinite || (r.magnitude j).isNonfinite then true
  else !((r.tau j).lt (up32 (c.add sj.neg).abs))

/-- The first failing column of a block. -/
def Run.firstFailing (r : Run) (totals : List Word) : Option Nat :=
  (List.range r.cols).find? fun j => !r.columnPasses totals j

/-- Whether the Step Engine selects a run (R494). -/
def selected (step : Word) (tile : Nat) (task : Nat) (ordinal : Word) (cover : Nat) : Bool :=
  let h := (crc32c (toBytes 4 step.toNat ++ toBytes 2 tile ++ toBytes 2 task ++ toBytes 4 ordinal.toNat)).toNat % 1024
  decide (h < cover)

/-! ### ACFG and ARUN -/

/-- The pairs of operand formats that a run may take (R30). -/
def pairOk (a b : Nat) : Bool :=
  (a == 0 && b == 0) || (a == 1 && b == 1) || (decide (2 ≤ a ∧ a ≤ 3) && decide (2 ≤ b ∧ b ≤ 3)) || (isMx a && isMx b)

/-- ACFG (R135): X, Y the slots, MOD[8:6] and MOD[5:3] the formats. -/
def execAcfg (w : Site) (f : FA) (s : State) : Out :=
  let a := f.md.extractLsb' 6 3
  let b := f.md.extractLsb' 3 3
  s.regOp (.acfg w f) w (RegOp.plain (pairOk a.toNat b.toNat && f.md.extractLsb' 0 3 == 0 && f.s == 0) [] never
    (fun t => { t with cfg := some ⟨f.x, f.y, a, b⟩ }.advance 4))

/-- The run length that MOD[8:7] selects (R136). -/
def runLength (md : BitVec 9) : Nat :=
  match (md.extractLsb' 7 2).toNat with
  | 0 => 32
  | 1 => 8
  | 2 => 16
  | _ => 64

/-- The operand checks of ARUN (R136): true where one fails. -/
def Task.arunBad (t : Task) (f : FA) : Bool :=
  match t.cfg with
  | none => true
  | some c =>
    let k := t.getS f.s
    let mx := isMx c.fmtA.toNat || isMx c.fmtB.toNat
    let fp8 (fmt : BitVec 3) (slot : BitVec 4) : Bool := (fmt == 2 || fmt == 3) && !(t.slot slot).matches fmt.toNat
    k.extractLsb' 16 16 != 0 || (t.getA f.x).toNat % 64 != 0 || (t.getA f.y).toNat % 64 != 0 ||
      (mx && k.toNat % 32 != 0) || fp8 c.fmtA c.slotA || fp8 c.fmtB c.slotB

/-- The first line offset of a panel that lies out of bounds (R85). -/
def Task.badLine (t : Task) (off n : Nat) : Option Nat :=
  ((List.range n).map (fun i => off + 64 * i)).find? fun o => !t.inBounds o 64

/-- The run of an ARUN that issues. -/
def State.newRun (s : State) (w : Site) (f : FA) (c : ArrayCfg) : Run :=
  let x := s.tile w.tile
  let t := x.task w.task.val
  let k := (t.getS f.s).toNat
  let seen := x.seen s.fresh
  let a := seen.pad.read (t.padAddr (t.getA f.x).toNat) (64 * c.linesA k)
  let b := seen.pad.read (t.padAddr (t.getA f.y).toNat) (64 * c.linesB k)
  let cols := if c.wide then 32 else 16
  let expOf (fmt : BitVec 3) (slot : BitVec 4) : Int := if fmt = 2 ∨ fmt = 3 then (t.slot slot).scale else 0
  let j := s.job ((s.ctxOf w.tile).getD 0)
  let step := match j.step with
    | some c => c.number
    | none => 0
  { id := x.nextRun, task := w.task, pc := t.pc, panelA := t.getA f.x, panelB := t.getA f.y, k := k,
    len := runLength f.md, cfg := c, expA := expOf c.fmtA c.slotA, expB := expOf c.fmtB c.slotB,
    checked := f.md.getLsbD 6 || selected step w.tile w.task.val t.ordinal j.cfg.cover.toNat,
    stage := .queued, fed := 0, aVals := panelElems c.fmtA.toNat 16 false k a, bVals := panelElems c.fmtB.toNat cols c.wide k b,
    aScale := panelScales c.fmtA.toNat 16 false k a, bScale := panelScales c.fmtB.toNat cols c.wide k b,
    totals := [], arb := none, ready := false, settled := false, dropped := false }

/-- The lines of a panel at a task offset. -/
def Task.panelLinesAt (t : Task) (off n : Nat) : List Nat := (List.range n).map (fun i => t.spBase + off / 64 + i)

/-- ARUN (R136 to R138): the operands are those at issue; a store after it cannot reach them (R123). Where several faults meet, a
poisoned register comes first, then an operand out of range, a line out of bounds and a poisoned line (DESIGN CHOICE, log entry
148). -/
def execArun (w : Site) (f : FA) (s : State) : Out :=
  s.issue (.arun w f) w fun s =>
    let x := s.tile w.tile
    let t := x.task w.task.val
    if f.md.extractLsb' 0 6 ≠ 0 then .next (s.invalid (.arun w f) w)
    else if t.waits [f.s] [] then .next (s.holdTask w .interlock)
    else if t.tagA f.x || t.tagA f.y || t.tagS f.s then .next (s.eatTag w)
    else if t.arunBad f then .next (s.operandBad (.arun w f) w)
    else
      let c := t.cfg.getD ⟨0, 0, 0, 0⟩
      let k := (t.getS f.s).toNat
      let oa := (t.getA f.x).toNat
      let ob := (t.getA f.y).toNat
      match t.badLine oa (c.linesA k), t.badLine ob (c.linesB k) with
      | some o, _ => .next (s.outOfBounds w o)
      | none, some o => .next (s.outOfBounds w o)
      | none, none =>
        let ls := t.panelLinesAt oa (c.linesA k) ++ t.panelLinesAt ob (c.linesB k)
        if ls.any x.markedByDrain then .next (s.holdTask w .interlock)
        else if x.runs.any (fun r => r.stage == .queued) then .next (s.holdTask w .resource)
        else
          match ls.find? (fun l => l ∈ (x.seen s.fresh).padPoison) with
          | some l => .next (s.eatPad w (64 * l))
          | none =>
            let t1 : Task := { t with ordinal := t.ordinal + 1 }
            let x1 : Tile := { x with runs := x.runs ++ [s.newRun w f c], nextRun := x.nextRun + 1 }
            .next { s.setTile w.tile (x1.issued w.task (t1.advance 4)) with fresh := s.fresh + x.inFlight.length }

/-! ### Runs and blocks (R101 to R103) -/

/-- Apply a function to a run. -/
def Tile.mapRun (x : Tile) (id : Nat) (f : Run → Run) : Tile :=
  { x with runs := x.runs.map fun r => if r.id = id then f r else r }

/-- Whether the array is taken: a run streams or holds it, a repeat is due, or another tile's spare run is (R103, R499,
R500). -/
def State.arrayBusy (s : State) (tile : Nat) : Bool :=
  (s.tile tile).runs.any (fun r => r.stage == .running || r.stage == .holding ||
    (match r.arb with
     | some a => !a.short && a.repeated.isNone
     | none => false)) ||
  s.tiles.any fun e => e.2.runs.any fun r =>
    match r.arb with
    | some a => a.spare == some tile && a.spareTotals.isNone
    | none => false

/-- The lines of a panel that are fetched in cycle `y` of a run: the panel line whose first k step then has its turn, and the lines of
its scale array whose first scale that line's k steps take (R99, R101, R137). -/
def panelFetch (fmt rows : Nat) (wide : Bool) (k pace y : Nat) : List Nat :=
  let per := perLine fmt wide
  let n := panelLines fmt wide k
  let i := y / (pace * per)
  if y % (pace * per) ≠ 0 ∨ n ≤ i then []
  else i :: ((List.range (panelAll fmt rows wide k - n)).filter fun m => 32 * (64 * m / rows) / per = i).map (n + ·)

/-- The physical lines that a run fetches in its cycle `y`: a BF16 or FP16 run takes a k step every two cycles (R99). -/
def Tile.fetchLines (x : Tile) (r : Run) (y : Nat) : List Nat :=
  let b := (x.task r.task.val).spBase
  let pace := if r.cfg.fmtA.toNat < 2 then 2 else 1
  (panelFetch r.cfg.fmtA.toNat 16 false r.k pace y).map (b + r.panelA.toNat / 64 + ·) ++
    (panelFetch r.cfg.fmtB.toNat r.cols r.cfg.wide r.k pace y).map (b + r.panelB.toNat / 64 + ·)

/-- ARRAY_RUN_START: the queued run begins to fetch, and its first k step enters (R101, R103). A run with K = 0 fetches nothing
(R137). -/
def execArrayRunStart (tile : Nat) (s : State) : Out :=
  let x := s.tile tile
  match x.runs.find? (fun r => r.stage == .queued) with
  | none => .next s
  | some r =>
    if s.arrayBusy tile then .next s
    else
      let u := x.useLines 2 r.task r.pc (x.fetchLines r 0)
      .next ((s.setTile tile (u.1.mapRun r.id fun r => { r with stage := .running, fed := 1 })).contractStall tile u.2)

/-- Whether a tile is in an arbitration, as the failing tile or as the spare. -/
def State.arbitrating (s : State) (tile : Nat) : Bool :=
  (s.tile tile).runs.any (fun r => r.arb.isSome) ||
  s.tiles.any fun e => e.2.runs.any fun r =>
    match r.arb with
    | some a => a.spare == some tile
    | none => false

/-- The spare or partner tile of an arbitration (R500); none while the partner is in another. -/
def State.pickSpare (s : State) (c tile : Nat) : Option Nat :=
  let cfg := (s.job c).cfg
  let row := (cfg.tiles.filter fun t => decide (t / 100 = tile / 100))
  let spareOk (t : Nat) : Bool := !(s.tile t).recorded && s.isUsable t && !s.arbitrating t
  match (row ++ cfg.tiles).find? spareOk with
  | some t => some t
  | none =>
    let mates (l : List Nat) : List Nat := l.filter fun t => t != tile && (s.tile t).recorded
    let order := mates (row.filter (tile < ·)) ++ mates (row.filter (· < tile)) ++ mates cfg.tiles
    match order.head? with
    | some t => if s.arbitrating t then none else some t
    | none => none

/-- The count of PERSISTENT_SUSPECT records of the tile that holds a logical index (R502). -/
def State.suspectCount (s : State) (tile : Nat) : Nat :=
  match s.physical tile with
  | some p => s.health.suspects.get 0 p
  | none => 0

/-- ARRAY_BLOCK_COMPLETE: the block moves to the drain buffer or holds the array; a checked block is compared, and an
unchecked one may be drained (R103, R141, R495, R499). -/
def execArrayBlockComplete (tile : Nat) (flips : List (Nat × Word)) (s : State) : Out :=
  let x := s.tile tile
  match x.runs.find? (fun r => r.stage == .running) with
  | none => .next s
  | some r =>
    if r.dropped then .next (s.setTile tile (x.dropRun r.id))
    else
      let totals := flipTotals flips r.block
      let fail := if r.checked then r.firstFailing totals else none
      let free := !x.runs.any (fun q => q.stage == .buffered)
      let arb : Option Arbitration := match fail with
        | none => none
        | some j =>
          some ⟨decide (1 ≤ s.suspectCount tile), j, none, s.pickSpare ((s.ctxOf tile).getD 0) tile, none, true⟩
      .next (s.setTile tile (x.mapRun r.id fun r =>
        { r with totals := totals, stage := if free then .buffered else .holding, arb := arb,
                 ready := fail.isNone, settled := fail.isNone }))

/-! ### Arbitration (R499 to R503) -/

/-- ARG1 of R503. -/
def arbArg (step : Word) (spare : Nat) (short : Bool) (column : Nat) : Nat :=
  step.toNat * 2 ^ 32 + spare % 2 ^ 14 * 2 ^ 16 + (if short then 2 ^ 15 else 0) + column % 32

/-- The step number of a job's STEP in force, or 0. -/
def Job.stepNumber (j : Job) : Word :=
  match j.step with
  | some c => c.number
  | none => 0

/-- Columns of a job's rectangle: usable in every row and named by no tile record. -/
def State.spareColumns (s : State) (c : Nat) : List Nat :=
  let j := (s.job c).cfg
  (List.range j.cols.toNat).filter fun k => (List.range j.rows.toNat).all fun r =>
    let t := (j.row0.toNat + r) * 100 + (j.col0.toNat + k)
    s.isUsable t && !(s.tile t).recorded

/-- SPARES_EXHAUSTED: a tile's failure leaves its partition no spare column (R524). -/
def State.checkSpares (s : State) (c tile : Nat) : State :=
  if !(s.job c).present || !(s.spareColumns c).isEmpty then s
  else
    let j := (s.job c).cfg
    let row := tile / 100
    let n := (List.range j.cols.toNat).countP fun k => s.isUsable (row * 100 + (j.col0.toNat + k))
    s.event 0x0807 kStep c 0 row n

/-- Raise the event of a verdict and record it (R501, R503). -/
def State.verdictEvent (s : State) (tile : Nat) (r : Run) (a : Arbitration) (code : BitVec 16) : State :=
  let c := (s.ctxOf tile).getD 0xF
  let step := (s.job c).stepNumber
  let arg := arbArg step (a.spare.getD 0) a.short a.column
  let s1 := s.event code kTile c tile (taskAddr r.task.val r.pc) arg
  match s.physical tile with
  | none => s1
  | some p =>
    let h := s1.health
    let s2 := { s1 with health := { h with
      known := addTo h.known p
      suspects := if code = 0x0704 then h.suspects.set p (h.suspects.get 0 p + 1) else h.suspects } }
    s2.record ⟨0x01, code, BitVec.ofNat 24 p, s.minutes, step, 1, BitVec.ofNat 96 arg⟩

/-- Keep a block of an arbitrated run: it may be drained, and the run is settled when the drain has written it. -/
def State.keepBlock (s : State) (tile id : Nat) (totals : List Word) : State :=
  s.setTile tile ((s.tile tile).mapRun id fun r => { r with totals := totals, arb := none, ready := true })

/-- Decide an arbitration whose results suffice (R501, R502). A block that is discarded before an ADRN has bound its run takes the run
with it, so that the ADRN binds the task's next run or is invalid (DESIGN CHOICE, log entry 147). -/
def State.decide_ (s : State) (tile : Nat) (r : Run) (a : Arbitration) : State :=
  let o := r.totals
  match a.spareTotals with
  | none => s.setTile tile ((s.tile tile).mapRun r.id fun r => { r with arb := some a })
  | some sp =>
    let c := (s.ctxOf tile).getD 0xF
    let fresh : Bool := match s.physical tile with
      | some p => p ∉ s.health.known
      | none => true
    if !a.spareOk then
      let s1 := s.verdictEvent tile r a 0x0805
      ((s1.setTile tile ((s1.tile tile).dropRun r.id)).holdJob c).checkSpares c tile
    else if sp = o then (s.verdictEvent tile r a 0x0702).keepBlock tile r.id o
    else if a.short then (s.verdictEvent tile r a 0x0704).keepBlock tile r.id sp
    else
      match a.repeated with
      | none => s.setTile tile ((s.tile tile).mapRun r.id fun r => { r with arb := some a })
      | some rp =>
        let code : BitVec 16 := if sp = rp then 0x0703 else if o = rp then 0x0704 else if fresh then 0x0703 else 0x0704
        (s.verdictEvent tile r a code).keepBlock tile r.id sp

/-- The run in arbitration of a tile. -/
def Tile.disputed (x : Tile) : Option (Run × Arbitration) :=
  x.runs.findSome? fun r => match r.arb with
    | some a => some (r, a)
    | none => none

/-- The repeat R of a failed run ends on its own array (R499). -/
def execRepeatRunComplete (tile : Nat) (flips : List (Nat × Word)) (s : State) : Out :=
  match (s.tile tile).disputed with
  | none => .next s
  | some (r, a) =>
    if a.short || a.repeated.isSome then .next s
    else .next (s.decide_ tile r { a with repeated := some (flipTotals flips r.block) })

/-- The spare run S of a failed run of `tile` ends, with its own checker's verdict (R499, R500). -/
def execSpareRunComplete (tile : Nat) (flips : List (Nat × Word)) (s : State) : Out :=
  match (s.tile tile).disputed with
  | none => .next s
  | some (r, a) =>
    let spare := match a.spare with
      | some t => some t
      | none => s.pickSpare ((s.ctxOf tile).getD 0) tile
    match spare with
    | none => .next s
    | some t =>
      if a.spareTotals.isSome ∨ (s.tile t).runs.any (fun q => q.stage == .running) then .next s
      else
        let totals := flipTotals flips r.block
        let a1 : Arbitration := { a with spare := some t, spareTotals := some totals, spareOk := (r.firstFailing totals).isNone }
        .next (s.decide_ tile r a1)

/-! ### Drains (R60 to R62, R104 to R106, R139, R140) -/

/-- Bytes of an element of a drain target. -/
def targetBytes (target : BitVec 2) : Nat :=
  match target.toNat with
  | 0 => 4
  | 1 => 2
  | _ => 1

/-- The oldest run of a task that no drain has bound (R139). -/
def Tile.unbound (x : Tile) (n : Fin 4) : Option Run :=
  x.runs.find? fun r => r.task == n && !r.dropped && !x.drains.any (fun d => d.run == r.id)

/-- R121 for ADRN: target 0b11, and the fields its target does not use. -/
def adrnOk (f : FA) : Bool :=
  let target := (f.md.extractLsb' 7 2).toNat
  decide (target ≤ 2) && (target == 1 || !f.md.getLsbD 6) && f.md.extractLsb' 0 6 == 0 && f.s == 0 && (target == 2 || f.y == 0)

/-- ADRN (R139). -/
def execAdrn (w : Site) (f : FA) (s : State) : Out :=
  s.issue (.adrn w f) w fun s =>
    let x := s.tile w.tile
    let t := x.task w.task.val
    let target := f.md.extractLsb' 7 2
    let off := (t.getA f.x).toNat
    if !adrnOk f then .next (s.invalid (.adrn w f) w)
    else if t.tagA f.x then .next (s.eatTag w)
    else
      match x.unbound w.task with
      | none => .next (s.operandBad (.adrn w f) w)
      | some r =>
        let n := 16 * r.cols * targetBytes target / 64
        if off % 64 ≠ 0 ∨ (target = 2 ∧ !(t.slot f.y).filled) ∨
            (target ≠ 0 ∧ (List.range n).any (fun i => t.inAcc (off / 64 + i))) then
          .next (s.operandBad (.adrn w f) w)
        else
          match t.badLine off n with
          | some o => .next (s.outOfBounds w o)
          | none =>
            if x.drains.any (fun d => d.written == 0) then .next (s.holdTask w .resource)
            else
              let d : Drain := { run := r.id, task := w.task, pc := t.pc, addr := t.getA f.x, target := target,
                                 ovf := f.md.getLsbD 6, slot := f.y, lines := n, written := 0, undo := [] }
              .next (s.setTile w.tile (({ x with drains := x.drains ++ [d] } : Tile).issued w.task (t.advance 4)))

/-- T × 2^(−Ea − Eb), exactly. -/
def Run.scaledTotal (r : Run) (v : Word) : FVal := (of32 v).scale (-(r.expA + r.expB))

/-- The magnitude that a drain into an FP8 tensor records (R61): rounded to FP32, no larger than the largest finite
value; non-finite totals record nothing (R46). -/
def drainAmax (v : FVal) : Word :=
  if v.isNonfinite then 0
  else
    let m := to32 v.abs
    if nonfinite32 m then 0x7F7FFFFF else m

/-- What a drain writes for one line: the bytes, the slot after it, and whether a value was non-finite. `old` is the
accumulate line it adds into (R60 to R62). -/
def drainLine (r : Run) (d : Drain) (slot : Slot) (vals : List Word) (old : Option (List Byte)) :
    List Byte × Slot × Bool :=
  match d.target.toNat with
  | 0 =>
    let out := vals.mapIdx fun i v =>
      let x := to32 (r.scaledTotal v)
      match old with
      | some bs => fadd (BitVec.ofNat 32 (numAt bs (4 * i) 4)) x
      | none => x
    (out.flatMap fun x => toBytes 4 x.toNat, slot, out.any nonfinite32 || vals.any nonfinite32)
  | 1 =>
    let cs := vals.map fun v => bf16.convert d.ovf (r.scaledTotal v)
    (cs.flatMap fun c => toBytes 2 c.bits, slot, cs.any (·.nonfinite))
  | _ =>
    let code := slot.format.toNat + 2
    let cs := vals.map fun v => convertTo code slot.ovf ((r.scaledTotal v).scale slot.scale)
    let top := vals.foldl (fun acc v => magMax acc (drainAmax (r.scaledTotal v))) slot.amax
    (cs.flatMap fun c => toBytes 1 c.bits,
      { slot with amax := top, sat := slot.sat + BitVec.ofNat 32 (cs.countP (·.sat)) }, cs.any (·.nonfinite))

/-- The buffered run whose block may be drained, and its drain. -/
def Tile.draining (x : Tile) : Option (Run × Drain) :=
  match x.runs.find? (fun r => r.stage == .buffered && r.ready) with
  | none => none
  | some r => match x.drains.find? (fun d => d.run == r.id) with
    | none => none
    | some d => some (r, d)

/-- Whether the next line of a drain adds into the task's accumulate region (R105). -/
def Tile.drainAdds (x : Tile) (d : Drain) : Bool :=
  d.target == 0 && (x.task d.task.val).inAcc (d.addr.toNat / 64 + d.written)

/-- Take back the lines that a drain has written, where nothing has written them since (R220). -/
def Tile.undoDrain (x : Tile) (d : Drain) : Tile :=
  d.undo.foldl (fun x u =>
    if x.pad.read (64 * u.line) 64 = u.wrote then x.padWrite (64 * u.line) u.old u.oldPoison true else x) x

/-- ARRAY_DRAIN_LINE_WRITE: the next line of the drain (R140). An add waits while the region is open (R107); an add
into a poisoned line consumes it, and the drain takes no effect (R219, R220). -/
def execArrayDrainLineWrite (tile : Nat) (s : State) : Out :=
  let x := s.tile tile
  match x.draining with
  | none => .next s
  | some (r, d) =>
    let t := x.task d.task.val
    let pa := t.padAddr (d.addr.toNat + 64 * d.written)
    let adds := x.drainAdds d
    if adds ∧ t.region.isSome then .next s
    else if adds ∧ pa / 64 ∈ x.padPoison then
      .next ((s.setTile tile (x.undoDrain d)).haltTask ⟨tile, d.task⟩ 0x0202 (taskAddr d.task.val d.pc) pa)
    else
      let per := 64 / targetBytes d.target
      let vals := (r.totals.drop (per * d.written)).take per
      let out := drainLine r d (t.slot d.slot) vals (if adds then some (x.pad.read pa 64) else none)
      let u := x.useLines 1 d.task d.pc [pa / 64]
      let x1 := (u.1.padWrite pa out.1 false true).noteNonfinite out.2.2
      let x2 := if d.target = 2 then x1.setTask d.task.val ((x1.task d.task.val).setSlot d.slot out.2.1) else x1
      let x3 : Tile := if d.written + 1 = d.lines then x2.dropRun r.id
        else { x2 with drains := x2.drains.map fun e => if e.run = d.run then { e with
            written := e.written + 1
            undo := if d.target = 0 then e.undo ++ [⟨pa / 64, x.pad.read pa 64, decide (pa / 64 ∈ x.padPoison), out.1⟩] else e.undo } else e }
      .next ((s.setTile tile x3).contractStall tile u.2)

/-! ### ACHK, ACCOPEN and the region (R107, R141, R147) -/

/-- Whether a block that the task drained is not settled (R141). -/
def Tile.unsettled (x : Tile) (n : Fin 4) : Bool :=
  x.drains.any fun d => d.task == n && x.runs.any fun r => r.id == d.run && r.checked && !r.settled

/-- Whether a task has a bound drain that has not written its last line. -/
def Tile.hasDrain (x : Tile) (n : Fin 4) : Bool := x.drains.any fun d => d.task == n

/-- ACHK (R141): all fields RSV. -/
def execAchk (w : Site) (f : FA) (s : State) : Out :=
  s.issue (.achk w f) w fun s =>
    if f.bits ≠ 0 then .next (s.invalid (.achk w f) w)
    else if (s.tile w.tile).unsettled w.task then .next (s.holdTask w .checker)
    else .next (s.retire w ((s.taskAt w).advance 4))

/-- ACCOPEN (R147): waits for an open region, then asks for the region to open. -/
def execAccopen (w : Site) (f : FT) (s : State) : Out :=
  s.issue (.accopen w f) w fun s =>
    let t := s.taskAt w
    let n := t.getS f.s
    if f.rsv ≠ 0 ∨ f.n ≠ 0 then .next (s.invalid (.accopen w f) w)
    else if t.waits [f.s] [] then .next (s.holdTask w .interlock)
    else if t.tagS f.s then .next (s.eatTag w)
    else if t.accLines = 0 ∨ n = 0 ∨ 65535 < n.toNat then .next (s.operandBad (.accopen w f) w)
    else if t.region.isSome then .next (s.holdTask w .region)
    else .next (s.retire w ({ t with opening := some ⟨f.tn, n.extractLsb' 0 16⟩ }.advance 4))

/-- ACC_REGION_OPEN: the region opens once every drain that the task issued before has written (R107). -/
def execAccRegionOpen (w : Site) (s : State) : Out :=
  let t := s.taskAt w
  match t.opening with
  | none => .next s
  | some r =>
    if (s.tile w.tile).hasDrain w.task then .next s
    else .next (s.setTaskAt w { t with region := some r, opening := none })

/-- Advance a completion token, and count down the region that it closes (R97, R107). -/
def Task.advanceToken (t : Task) (n : BitVec 4) : Task :=
  { t with
    tokens := t.tokens.set n.toNat (t.tokens.get 0 n.toNat + 1)
    region := match t.region with
      | none => none
      | some r => if r.token = n then (if r.left = 1 then none else some { r with left := r.left - 1 }) else some r }

end Sys2Proof.Machine
end

