-- ==== Sys2Proof/Machine/Control.lean ====
section
/-! DEFINITION. Exchange, handler and task-control instructions (R113, R115, R142 to R147, R153, R154, R167, R175). -/

namespace Sys2Proof.Machine

/-- The SOURCE entry of an outbound channel in a route table (R164). -/
def RouteTable.source (r : RouteTable) (ch : BitVec 4) : Option SourceEntry := r.sources.find? (fun e => e.outCh == ch)

/-- Reduce modes of a SOURCE entry. -/
def SourceEntry.isReduce (e : SourceEntry) : Bool := decide (2 ≤ e.mode.toNat ∧ e.mode.toNat ≤ 4)

/-- Whether SEND's register operands or its route refuse it (R142, R167). -/
def Tile.sendBad (x : Tile) (t : Task) (f : FX) : Bool :=
  let n := (t.getS f.sl).toNat
  decide (n = 0 ∨ 4096 < n) || (t.getA f.as).toNat % 64 != 0 ||
    (match x.current.source f.ch with
     | none => true
     | some e => decide (e.maxLines.toNat < n) || (e.isReduce && x.queued.any (fun q => q.ch == f.ch)))

/-- SEND (R142): the message is queued for the coming Caravan; with 64 queued the task halts (R175). -/
def execSend (w : Site) (f : FX) (s : State) : Out :=
  s.issue (.send w f) w fun s =>
    let x := s.tile w.tile
    let t := x.task w.task.val
    let n := (t.getS f.sl).toNat
    let off := (t.getA f.as).toNat
    if f.rsv ≠ 0 then .next (s.invalid (.send w f) w)
    else if t.waits [f.sl] [] then .next (s.holdTask w .interlock)
    else if t.tagS f.sl || t.tagA f.as then .next (s.eatTag w)
    else if x.sendBad t f then .next (s.operandBad (.send w f) w)
    else
      match t.badLine off n with
      | some o => .next (s.outOfBounds w o)
      | none =>
        if 64 ≤ x.queued.length then .next (s.haltTask w 0x0304 (s.where_ w) 0)
        else
          let q : Queued := { task := w.task, pc := t.pc, ch := f.ch, hid := f.hid, addr := t.getA f.as, lines := n, waited := false }
          .next (s.setTile w.tile (({ x with queued := x.queued ++ [q] } : Tile).issued w.task (t.advance 4)))

/-- Messages of a task that have not left the router. -/
def Tile.outstanding (x : Tile) (n : Fin 4) : Nat := x.queued.countP fun q => q.task == n

/-- SWAIT: N from 0 to 64 (R143). -/
def execSwait (w : Site) (f : FT) (s : State) : Out :=
  s.issue (.swait w f) w fun s =>
    if f.tn ≠ 0 ∨ f.s ≠ 0 ∨ f.rsv ≠ 0 ∨ 64 < f.n.toNat then .next (s.invalid (.swait w f) w)
    else if f.n.toNat < (s.tile w.tile).outstanding w.task then .next (s.holdTask w .sends)
    else .next (s.retire w ((s.taskAt w).advance 4))

/-- What FENCE waits for: the task's loads and its bound drains (R147). -/
def State.fenced (s : State) (w : Site) : Bool := (s.taskAt w).loads.isEmpty && !(s.tile w.tile).hasDrain w.task

/-- CURF: waits as FENCE and ACHK do, then arrives; invalid in a handler (R144, R145, R154). -/
def execCurf (w : Site) (f : FT) (s : State) : Out :=
  s.issue (.curf w f) w fun s =>
    let x := s.tile w.tile
    if f.bits ≠ 0 ∨ x.handling.isSome then .next (s.invalid (.curf w f) w)
    else if !s.fenced w then .next (s.holdTask w .resource)
    else if x.unsettled w.task then .next (s.holdTask w .checker)
    else .next (s.retire w { (s.taskAt w).advance 4 with state := .atCurfew })

/-- A handled message's lines go back to its ring's used count (R146, R179). -/
def Tile.returnLines (x : Tile) (m : Delivered) : Tile :=
  if m.overflow then x
  else { x with rings := x.rings.modify ⟨0, 0, 0⟩ m.channel.toNat fun r => { r with used := r.used - (m.lines + 1) } }

/-- HEND: ends the handler and starts the next; invalid outside one (R146, R189). -/
def execHend (w : Site) (f : FT) (s : State) : Out :=
  s.issue (.hend w f) w fun s =>
    let x := s.tile w.tile
    match x.handling with
    | none => .next (s.invalid (.hend w f) w)
    | some h =>
      if f.bits ≠ 0 then .next (s.invalid (.hend w f) w)
      else
        let t : Task := { s.taskAt w with state := h.was, pc := h.resume }
        let x1 := (x.issued w.task t).returnLines h.msg
        .next ((s.setTile w.tile { x1 with handling := none }).passFrom w.tile x.delivered)

/-- TWAIT (R113, R147). -/
def execTwait (w : Site) (f : FT) (s : State) : Out :=
  s.issue (.twait w f) w fun s =>
    let t := s.taskAt w
    let v := t.getS f.s
    if f.rsv ≠ 0 ∨ f.n ≠ 0 then .next (s.invalid (.twait w f) w)
    else if t.waits [f.s] [] then .next (s.holdTask w .interlock)
    else if t.tagS f.s then .next (s.eatTag w)
    else if v.extractLsb' 16 16 ≠ 0 then .next (s.operandBad (.twait w f) w)
    else if tokenReached (t.tokens.get 0 f.tn.toNat) (v.extractLsb' 0 16) then .next (s.retire w (t.advance 4))
    else .next (s.holdTask w .token)

/-- TEND: the program ends; invalid in a handler (R115, R145, R147). -/
def execTend (w : Site) (f : FT) (s : State) : Out :=
  s.issue (.tend w f) w fun s =>
    if f.bits ≠ 0 ∨ (s.tile w.tile).handling.isSome then .next (s.invalid (.tend w f) w)
    else .next (s.retire w { s.taskAt w with state := .ended })

/-- FENCE (R147). -/
def execFence (w : Site) (f : FT) (s : State) : Out :=
  s.issue (.fence w f) w fun s =>
    if f.bits ≠ 0 then .next (s.invalid (.fence w f) w)
    else if !s.fenced w then .next (s.holdTask w .resource)
    else .next (s.retire w ((s.taskAt w).advance 4))

/-- TFLAG: pD takes the tile's NONFINITE flag (R147). -/
def execTflag (w : Site) (f : FT) (s : State) : Out :=
  s.issue (.tflag w f) w fun s =>
    if f.tn.getLsbD 3 ∨ f.s ≠ 0 ∨ f.rsv ≠ 0 ∨ f.n ≠ 0 then .next (s.invalid (.tflag w f) w)
    else .next (s.retire w (((s.taskAt w).setPred (f.tn.extractLsb' 0 3) (s.tile w.tile).nonfinite).advance 4))

end Sys2Proof.Machine
end

