-- ==== Sys2Proof/Machine/MemUnit.lean ====
section
/-! DEFINITION. The memory controllers: symbol ECC, poison, refresh, patrol scrub, frames and page tables
(R208 to R239). -/

namespace Sys2Proof.Machine

/-! ### Ownership -/

/-- The bank number of an address (R225). -/
def bankOf (pa : Nat) : Nat := bitsOf pa 13 8 * 64 + bitsOf pa 19 14

/-- Whether a bank of a frame is due to leave service (R507): its owner then becomes the device. -/
def State.frameRetires (s : State) (frame : Nat) : Bool :=
  s.health.bankDays.any fun b => decide (3 ≤ b.2.length) &&
    decide (b.1 / 4096 = stackOfPA (frame * 65536)) &&
    (List.range 256).any fun i => decide (bankOf (frame * 65536 + 256 * i) = b.1 % 4096)

/-- The ownership byte of a frame: frames 0 to 255 belong to the device, the others are free until assigned (R226); a free
frame of a bank that has been over its rate on three days is out of service (R507). -/
def State.ownerOf (s : State) (frame : Nat) : Byte :=
  let b := s.mem.owner.get (if frame < 256 then 0xE else 0xF) frame
  if b = 0xF ∧ s.frameRetires frame then 0xE else b

/-- Whether a context owns a frame that is not being zeroed. -/
def State.owns (s : State) (c frame : Nat) : Bool := s.ownerOf frame == BitVec.ofNat 8 c

/-! ### Symbol ECC (R211, R212) -/

/-- Multiplication in GF(2^8) with 0x11D, `n` bits of the first factor left. -/
def gfMul : Nat → Nat → Nat → Nat
  | 0, _, _ => 0
  | n + 1, a, b =>
    let b2 := if 2 * b ≥ 256 then (2 * b) ^^^ 0x11D else 2 * b
    (if a % 2 = 1 then b else 0) ^^^ gfMul n (a / 2) b2

/-- α^n. -/
def gfPow : Nat → Nat
  | 0 => 1
  | n + 1 => gfMul 8 2 (gfPow n)

/-- Syndrome k of an error pattern over positions 0 to 35, position i standing for x^(35 − i). -/
def syndrome (errs : List (Nat × Byte)) (k : Nat) : Nat :=
  errs.foldl (fun acc e => acc ^^^ gfMul 8 (gfPow (k * (35 - e.1))) e.2.toNat) 0

/-- What the decoder makes of a codeword (R212). -/
inductive Decoded where
  | clean | corrected | detected | undetected
deriving DecidableEq, Repr

/-- Decode one codeword from its error pattern (R212). -/
def decodeCodeword (errs : List (Nat × Byte)) : Decoded :=
  let live := errs.filter (fun e => e.2 ≠ 0)
  match live.length with
  | 0 => .clean
  | 1 => .corrected
  | 2 => .detected
  | 3 => .detected
  | _ => if (List.range 4).all (fun k => syndrome live k == 0) then .undetected else .detected

/-- The errors of one codeword, by position. -/
def codewordErrs (errs : List (Nat × Byte)) (c : Nat) : List (Nat × Byte) :=
  (errs.filter (fun e => decide (e.1 / 36 = c))).map (fun e => (e.1 % 36, e.2))

/-- XOR a symbol upset into an error list. -/
def upsetSymbol (errs : List (Nat × Byte)) (u : Nat × Byte) : List (Nat × Byte) :=
  (Tbl.modify (0 : Byte) errs u.1 (· ^^^ u.2)).filter (fun e => e.2 ≠ 0)

/-- The data bytes of a line as stored: the data symbols' errors XORed in. -/
def storedLine (data : List Byte) (errs : List (Nat × Byte)) : List Byte :=
  data.mapIdx fun i b => b ^^^ Tbl.get 0 errs (36 * (i % 2) + i / 2)

/-- Set bits of a byte. -/
def popCount (b : Byte) : Nat := (List.range 8).countP (fun i => b.getLsbD i)

/-- The owner that MEM_UNCORRECTABLE carries: 0xF for a free frame (R214). -/
def State.ownerField (s : State) (frame : Nat) : Nat := (s.ownerOf frame).toNat % 16

/-- Record a bank that is over its rate, and the day, unless three days have already put it out of service (R507). -/
def State.bankOver (s : State) (m b : Nat) : State :=
  let now := s.minutes.toNat / 1440
  let key := 4096 * m + b
  let days := s.health.bankDays.get [] key
  let kept := if 3 ≤ days.length then days else addTo (days.filter fun d => decide (now < d + 30)) now
  let s1 : State := { s with health := { s.health with bankDays := s.health.bankDays.set key kept } }
  s1.record ⟨0x02, 0x0701, BitVec.ofNat 24 (m * 2 ^ 21 + b), s.minutes, 0, 1, Config.recordDetail 0x0701 b⟩

/-- The ticks of a bank's corrected symbols in the last 24 hours (R213). -/
def Stack.recent (k : Stack) (now b : Nat) : List Nat := (k.bankTimes.get [] b).filter fun t => decide (now < t + dayTicks)

/-- The banks that have reached the threshold in the last 24 hours (R213). -/
def Stack.overRate (k : Stack) (now : Nat) : List Nat := (k.banksOver.filter fun e => decide (now < e.2 + dayTicks)).map (·.1)

/-- Count a corrected symbol of a line; a bank whose symbols of the last 24 hours reach 256 is reported once in 24 hours
(R213). -/
def State.countCorrected (s : State) (pa : Nat) : State :=
  let m := stackOfPA pa
  let b := bankOf pa
  let k := s.stack m
  let l := k.recent s.tick b ++ [s.tick]
  let hit := decide (256 ≤ l.length) && decide (b ∉ k.overRate s.tick)
  let s1 := s.setStack m { k with
    ce := k.ce + 1
    bankTimes := k.bankTimes.set b l
    banksOver := if hit then k.banksOver.set b s.tick else k.banksOver }
  if hit then (s1.event 0x0701 kMemory 0xF m m b).bankOver m b else s1

/-- At a job boundary the counts of every bank go into the Logbook, as counter summaries (R213, R505). -/
def State.bankSummaries (s : State) : State :=
  (List.range 8).foldl (fun s m => ((s.stack m).bankTimes.map (·.1)).foldl (fun s b =>
    let n := ((s.stack m).recent s.tick b).length
    if n = 0 then s
    else s.record ⟨0x02, 0, BitVec.ofNat 24 (m * 2 ^ 21 + b), s.minutes, 0, BitVec.ofNat 16 (min n 0xFFFF),
      Config.recordDetail 0 b⟩) s) s

/-- Count the first detected-uncorrectable read of a line and report it (R214). -/
def State.countUncorrectable (s : State) (line : Nat) : State :=
  let m := stackOfPA (64 * line)
  let k := s.stack m
  let o := s.ownerField (line / 1024)
  let s1 := s.setStack m { k with ue := k.ue + 1 }
  s1.event 0x0201 kMemory (if o < 8 then o else 0xF) m (64 * line) o

/-- Whether a line belongs to the frame table, frames 0 to 255 (R226). -/
def inTable (line : Nat) : Bool := decide (line < 262144)

/-- The data of a line without its errors; a line of the frame table holds the ownership bytes of its 64 frames (R226). -/
def State.lineData (s : State) (line : Nat) : List Byte :=
  if inTable line then (List.range 64).map fun i => s.ownerOf (64 * line + i) else s.mem.data.read (64 * line) 64

/-- A line's data replaced. -/
def State.storeLine (s : State) (line : Nat) (l : List Byte) : State :=
  { s with mem := if inTable line then
      { s.mem with owner := (l.zipIdx).foldl (fun t b => t.set (64 * line + b.2) b.1) s.mem.owner }
    else { s.mem with data := s.mem.data.write (64 * line) l } }

/-- Whether a line is poisoned. -/
def State.linePoison (s : State) (line : Nat) : Bool := line ∈ s.mem.poison

/-- Apply an armed injection to a write of its line (R233). -/
def State.applyInjection (s : State) (line : Nat) : State :=
  let i := s.mem.inject
  if i.getLsbD 63 ∧ (i.extractLsb' 6 34).toNat = line then
    let sym := (i.extractLsb' 0 6).toNat
    let kind := (i.extractLsb' 61 2).toNat
    let m : Memory := { s.mem with inject := i &&& ~~~(1#64 <<< 63) }
    if kind = 0 then { s with mem := { m with errors := m.errors.set line (upsetSymbol (m.errors.get [] line) (sym, 0xFF)) } }
    else if kind = 1 then
      let e := upsetSymbol (upsetSymbol (m.errors.get [] line) (sym, 0xFF)) ((sym + 1) % 36, 0xFF)
      { s with mem := { m with errors := m.errors.set line e } }
    else { s with mem := { m with poison := addTo m.poison line } }
  else s

/-- What a read of a line answers (R212, R214, R215): the state after, the bytes, the poison. An error that forms another
codeword is from then on the line's data, and the upset bits of a poison byte stay in it until the line is written. A read
that writes the line back takes an injection armed for it (R233). -/
def State.readLine (s : State) (line : Nat) : State × List Byte × Bool :=
  let errs := Tbl.get ([] : List (Nat × Byte)) s.mem.errors line
  if errs = [] then (s, s.lineData line, s.linePoison line)
  else
    let mark : Byte := (if s.linePoison line then 0xFF else 0) ^^^ Tbl.get 0 errs 72
    let poisoned := decide (4 ≤ popCount mark)
    let d0 := decodeCodeword (codewordErrs errs 0)
    let d1 := decodeCodeword (codewordErrs errs 1)
    let bad := decide (d0 = .detected) || decide (d1 = .detected)
    let keep := errs.filter fun e => decide (e.1 < 72) &&
      (if e.1 / 36 = 0 then decide (d0 ≠ .corrected) else decide (d1 ≠ .corrected))
    let data := storedLine (s.lineData line) keep
    let written := bad || decide (d0 = .corrected) || decide (d1 = .corrected) || decide (popCount mark = 4)
    let left : Byte := if written then 0 else mark ^^^ (if poisoned then 0xFF else 0)
    let s1 := if d0 = .corrected then s.countCorrected (64 * line) else s
    let s2 := if d1 = .corrected then s1.countCorrected (64 * line) else s1
    let sK := if keep = [] then s2 else s2.storeLine line data
    let s3 : State := { sK with mem := { sK.mem with
      errors := if left = 0 then sK.mem.errors.drop line else sK.mem.errors.set line [(72, left)]
      poison := setMember sK.mem.poison line (poisoned || bad) } }
    let s4 := if written then s3.applyInjection line else s3
    (if bad then s4.countUncorrectable line else s4, data, poisoned || bad)

/-- Write a frame's ownership byte: the controllers' own read and write of a line of the frame table (R226). -/
def State.setOwner (s : State) (frame : Nat) (b : Byte) : State :=
  let s1 := (s.readLine (frame / 64)).1
  let s2 : State := { s1 with mem := { s1.mem with owner := s1.mem.owner.set frame b } }
  s2.applyInjection (frame / 64)

/-- Read every line of a range for its ECC effect. -/
def State.demand (s : State) (pa n : Nat) : State :=
  (s.mem.errors.filter (fun e => decide (pa / 64 ≤ e.1) && decide (64 * e.1 < pa + n))).foldl
    (fun s e => (s.readLine e.1).1) s

/-- The state with a range as a read of it leaves it. -/
def State.seen (s : State) (pa n : Nat) : State := if s.mem.errors = [] then s else s.demand pa n

/-- Whether a read of a range answers a poisoned line. -/
def State.rangePoison (s : State) (pa n : Nat) : Bool :=
  (s.seen pa n).mem.poison.any (fun l => decide (pa / 64 ≤ l) && decide (64 * l < pa + n))

/-- The first poisoned byte of a range. -/
def State.firstPoison (s : State) (pa n : Nat) : Nat :=
  match (s.seen pa n).mem.poison.find? (fun l => decide (pa / 64 ≤ l) && decide (64 * l < pa + n)) with
  | some l => max pa (64 * l)
  | none => pa

/-- The bytes that a read of a range answers. -/
def State.bytes (s : State) (pa n : Nat) : List Byte := (s.seen pa n).mem.data.read pa n

/-! ### Writes (R216, R217, R233) -/

/-- A frame's image for a snapshot: its bytes relative to its start and its poisoned lines (R517). -/
def State.frameImage (s : State) (va frame : Nat) : Block :=
  { va := BitVec.ofNat 48 va
    data := (s.mem.data.filter (fun c => decide (c.1 / 65536 = frame))).map (fun c => (c.1 % 65536, c.2))
    poison := (s.mem.poison.filter (fun l => decide (l / 1024 = frame))).map (· % 1024)
    crcOk := true }

/-- The slot a snapshot is being written into: the older one (R518). -/
def Porter.target (p : Porter) : Nat := if p.newestValid then (if p.newestSlot then 0 else 1) else 0

/-- Copy a frame that the Porter has still to copy into its slot (R518 step 5). -/
def Porter.copyFrame (p : Porter) (b : Block) (frame : Nat) : Porter :=
  let t := p.slots.get Snap.empty p.target
  { p with
    slots := p.slots.set p.target { t with blocks := t.blocks.filter (fun x => x.va ≠ b.va) ++ [b] }
    framesLeft := p.framesLeft.filter (fun f => f.2 ≠ frame) }

/-- A write waits until the Porter has copied the frame (R518): the copy is made first, of what reads of its lines answer (R212,
R214), unless the frame has left the context (R238). -/
def State.copyBefore (s : State) (frame : Nat) : State :=
  (List.range 8).foldl (fun s c =>
    let p := s.porter c
    match p.framesLeft.find? (fun f => f.2 = frame) with
    | some f => if p.copying && s.owns c frame then
        let s1 := s.demand (frame * 65536) 65536
        s1.setPorter c (p.copyFrame (s1.frameImage f.1 frame) frame)
      else s
    | none => s) s

/-- Set both dirty bits of a frame (R518). -/
def State.markDirty (s : State) (frame : Nat) : State :=
  if (frame, 0) ∈ s.mem.dirty ∧ (frame, 1) ∈ s.mem.dirty then s
  else { s with mem := { s.mem with dirty := (frame, 0) :: (frame, 1) :: s.mem.dirty.filter (fun d => d.1 ≠ frame) } }

/-- Write a line: whole, or with bytes merged into the line as a read leaves it (R217). -/
def State.putLine (s : State) (line : Nat) (whole : Bool) (merge : List Byte → List Byte) (poison : Bool) : State :=
  let s0 := (s.copyBefore (line / 1024)).markDirty (line / 1024)
  let s1 := if whole then s0 else (s0.readLine line).1
  let s2 : State := { s1 with mem := { s1.mem with
    data := s1.mem.data.write (64 * line) (merge (s1.lineData line))
    errors := s1.mem.errors.drop line
    poison := setMember s1.mem.poison line (poison || (!whole && s1.linePoison line)) } }
  s2.applyInjection line

/-- Write bytes within one line: a whole-line write replaces it, a partial one merges (R217). -/
def State.writeLine (s : State) (pa : Nat) (data : List Byte) (poison : Bool) : State :=
  let off := pa % 64
  s.putLine (pa / 64) (decide (off = 0) && decide (data.length = 64))
    (fun old => old.take off ++ data ++ old.drop (off + data.length)) poison

/-- Write bytes from an address on, line by line, `n` lines at most. -/
def State.writeSpan (s : State) (pa : Nat) (data : List Byte) (poison : Bool) : Nat → State
  | 0 => s
  | n + 1 =>
    if data = [] then s
    else
      let k := 64 - pa % 64
      (s.writeLine pa (data.take k) poison).writeSpan (pa + k) (data.drop k) poison n

/-- Write bytes from an address on. -/
def State.writeBytes (s : State) (pa : Nat) (data : List Byte) (poison : Bool) : State :=
  s.writeSpan pa data poison (data.length / 64 + 2)

/-! ### Page tables (R229 to R232) -/

/-- How a translation ends: an address, a failure code of R232, or a poisoned entry (R237). -/
inductive Walk where
  | ok (pa : Nat)
  | fail (code : BitVec 16)
  | poisoned (pa : Nat)
deriving DecidableEq, Repr

def pageFault : BitVec 16 := 0x0108
def pagePermission : BitVec 16 := 0x0109
def pageNotOwned : BitVec 16 := 0x010A

/-- Bits of a page-table entry that must be zero at a level (R230): a pointer's permissions, its [11:8] unless the
next level is L3, a leaf's [15:8] and a 2 MiB leaf's [20:16]. -/
def pteBad (e level : Nat) : Bool :=
  let ptr := bitsOf e 63 62 == 1
  bitsOf e 59 40 != 0 || bitsOf e 7 0 != 0 ||
    (if ptr then bitsOf e 61 60 != 0 || (level != 2 && bitsOf e 11 8 != 0)
     else bitsOf e 15 8 != 0 || (level == 2 && bitsOf e 20 16 != 0))

/-- The index into the table of a level and the shift of its page (R229). -/
def vaIndex (va : Nat) : Nat → Nat
  | 0 => bitsOf va 47 39
  | 1 => bitsOf va 38 30
  | 2 => bitsOf va 29 21
  | _ => bitsOf va 20 16

/-- Walk from a level's table; `n` levels are left. -/
def State.walkFrom (s : State) (c va : Nat) (write : Bool) (table level : Nat) : Nat → Walk
  | 0 => .fail pageFault
  | n + 1 =>
    let at_ := table + 8 * vaIndex va level
    if s.rangePoison at_ 8 then .poisoned at_
    else
      let e := ofBytes (s.bytes at_ 8)
      let type := bitsOf e 63 62
      let addr := bitsOf e 39 8 * 256
      if type = 1 then
        if level ≥ 3 ∨ pteBad e level then .fail pageFault
        else if !s.owns c (addr / 65536) then .fail pageNotOwned
        else s.walkFrom c va write addr (level + 1) n
      else if type = 2 then
        if level < 2 ∨ pteBad e level then .fail pageFault
        else
          let size := if level = 2 then 32 else 1
          if !((List.range size).all fun i => s.owns c (addr / 65536 + i)) then .fail pageNotOwned
          else if (if write then bitsOf e 60 60 else bitsOf e 61 61) = 0 then .fail pagePermission
          else .ok (addr + va % (65536 * size))
      else .fail pageFault

/-- The ECC effects of a walk's reads of its table entries; `n` levels are left. -/
def State.demandFrom (s : State) (c va : Nat) (table level : Nat) : Nat → State
  | 0 => s
  | n + 1 =>
    let at_ := table + 8 * vaIndex va level
    let s1 := s.demand at_ 8
    let e := ofBytes (s1.bytes at_ 8)
    let addr := bitsOf e 39 8 * 256
    if !s1.rangePoison at_ 8 && bitsOf e 63 62 == 1 && decide (level < 3) && !pteBad e level && s1.owns c (addr / 65536) then
      s1.demandFrom c va addr (level + 1) n
    else s1

/-- The ECC effects of translating the pages of a range; `k` pages are left. -/
def State.demandWalks (s : State) (c va n : Nat) : Nat → State
  | 0 => s
  | k + 1 =>
    let root := (s.job c).cfg.ptRoot.toNat
    if s.mem.errors = [] ∨ n = 0 ∨ 2 ^ 48 ≤ va ∨ !s.owns c (root / 65536) then s
    else
      let len := min n (65536 - va % 65536)
      (s.demandFrom c va root 0 4).demandWalks c (va + len) (n - len) k

/-- Translate a device virtual address in a context (R229 to R232); an address outside 48 bits is a PAGE_FAULT
(R276), and the root is checked as any table is. -/
def State.translate (s : State) (c : Nat) (va : Int) (write : Bool) : Walk :=
  if va < 0 ∨ (2 : Int) ^ 48 ≤ va then .fail pageFault
  else
    let root := (s.job c).cfg.ptRoot.toNat
    if !s.owns c (root / 65536) then .fail pageNotOwned
    else s.walkFrom c va.toNat write root 0 4

/-- Translate every 64 KiB page that a range touches; the first failure ends it. The answer pairs each page's first
address in the range with its physical address and length. -/
def State.translateRange (s : State) (c : Nat) (va n : Nat) (write : Bool) : Nat → List (Nat × Nat) → Walk × List (Nat × Nat)
  | 0, acc => (.ok 0, acc)
  | k + 1, acc =>
    if n = 0 then (.ok 0, acc)
    else
      let len := min n (65536 - va % 65536)
      match s.translate c va write with
      | .ok pa => s.translateRange c (va + len) (n - len) write k (acc ++ [(pa, len)])
      | w => (w, acc)

/-- The pages of a range of bytes. -/
def State.pages (s : State) (c va n : Nat) (write : Bool) : Walk × List (Nat × Nat) :=
  s.translateRange c va n write (n / 65536 + 2) []

/-- The bytes of translated pages. -/
def State.pageBytes (s : State) (pages : List (Nat × Nat)) : List Byte := pages.flatMap fun p => s.bytes p.1 p.2

/-- Whether translated pages hold poison. -/
def State.pagePoison (s : State) (pages : List (Nat × Nat)) : Bool := pages.any fun p => s.rangePoison p.1 p.2

/-- Write bytes over translated pages. -/
def State.writePages (s : State) (data : List Byte) (poison : Bool) : List (Nat × Nat) → State
  | [] => s
  | p :: ps => (s.writeBytes p.1 (data.take p.2) poison).writePages (data.drop p.2) poison ps

/-- ECC effects of reading translated pages. -/
def State.demandPages (s : State) (pages : List (Nat × Nat)) : State := pages.foldl (fun s p => s.demand p.1 p.2) s

/-- Why an engine's access to job memory ends its work: a failed translation (R232), or consumed poison (R220). -/
inductive Stop where
  | page (code : BitVec 16) (va : Int)
  | poison (addr : Nat)
deriving DecidableEq, Repr

/-- Read `n` bytes of a context's memory: the bytes, and the first poisoned physical byte (R229 to R232, R237). -/
def State.vread (s : State) (c : Nat) (va : Int) (n : Nat) : Except Stop (List Byte × Option Nat) :=
  if va < 0 then .error (.page pageFault va)
  else
    match s.pages c va.toNat n false with
    | (.ok _, ps) => .ok (s.pageBytes ps, (ps.find? fun p => s.rangePoison p.1 p.2).map fun p => s.firstPoison p.1 p.2)
    | (.fail code, ps) => .error (.page code (va + (ps.map (·.2)).sum))
    | (.poisoned pa, _) => .error (.poison pa)

/-- Read `n` bytes and consume their poison. -/
def State.vuse (s : State) (c : Nat) (va : Int) (n : Nat) : Except Stop (List Byte) :=
  match s.vread c va n with
  | .error e => .error e
  | .ok (l, none) => .ok l
  | .ok (_, some pa) => .error (.poison pa)

/-- The ECC effects of reading `n` bytes of a context's memory. -/
def State.vdemand (s : State) (c : Nat) (va n : Nat) : State :=
  if s.mem.errors = [] then s
  else
    let s1 := s.demandWalks c va n (n / 65536 + 2)
    s1.demandPages (s1.pages c va n false).2

/-- Write bytes to a context's memory; pages before a failing one are written (R261). -/
def State.vwrite (s : State) (c : Nat) (va : Nat) (data : List Byte) (poison : Bool) : State × Option Stop :=
  let s0 := s.demandWalks c va data.length (data.length / 65536 + 2)
  match s.pages c va data.length true with
  | (.ok _, ps) => (s0.writePages data poison ps, none)
  | (.fail code, ps) => (s0.writePages data poison ps, some (.page code (va + (ps.map (·.2)).sum)))
  | (.poisoned pa, ps) => (s0.writePages data poison ps, some (.poison pa))

/-- A VA as the 64 bits that an event carries. -/
def vaBits (va : Int) : Nat := (BitVec.ofInt 64 va).toNat

/-- The event of an engine's failed access (R220, R232). `ref` is "ring, index". -/
def State.stopEvent (s : State) (c : Nat) (kind : BitVec 4) (unit ref : Nat) : Stop → State
  | .page code va => s.event code kind c unit (vaBits va) ref
  | .poison addr => s.event 0x0202 kind c unit ref addr

/-- The event of an engine's failed access, and the stop of its job (R220, R232). -/
def State.engineStop (s : State) (c : Nat) (kind : BitVec 4) (unit ref : Nat) (why : Stop) : State :=
  (s.stopEvent c kind unit ref why).stopAtCurfew c

/-- The status with which a command with the common header ends at a failed access: the poison status of R445 where it consumed
poison (R220), else 2. -/
def Stop.hostStatus : Stop → Byte
  | .page _ _ => 2
  | .poison _ => 1

/-- "ring, index" of a descriptor or command; a free value for one that the Step Engine issued, which the manual
does not number. -/
def State.srcRef (s : State) (src : Source) (index : BitVec 16) : Nat :=
  match src with
  | .ring r => ringIndex r.val index
  | .engine c => (Config.engineRef s.fresh c.val).toNat

/-! ### The commands -/

/-- Why an access of the controllers cannot be served: its stack has not trained (R210). -/
def State.served (s : State) (pa : Nat) : Option Fault :=
  if !(s.stack (stackOfPA pa)).trained then some .stackAbsent else none

/-- XOR storage upsets into a line. -/
def State.upset (s : State) (line : Nat) (u : List (Nat × Byte)) : State :=
  let e := u.foldl upsetSymbol (s.mem.errors.get [] line)
  { s with mem := { s.mem with errors := if e = [] then s.mem.errors.drop line else s.mem.errors.set line e } }

/-- MEMORY_READ (R212): the requester gets the line's bytes and poison. Of the frame table no requester reads a line (R226): such
a command does nothing. -/
def execMemoryRead (pa : BitVec 40) (upset : List (Nat × Byte)) (s : State) : Out :=
  match s.served pa.toNat with
  | some f => .fault f
  | none =>
    if inTable (pa.toNat / 64) then .next s
    else
    let line := pa.toNat / 64
    let r := (s.upset line upset).readLine line
    let k := r.1.stack (stackOfPA pa.toNat)
    .next (r.1.setStack (stackOfPA pa.toNat) { k with response := some (line, r.2.1, r.2.2) })

/-- MEMORY_WRITE (R217): a whole or partial line; no requester writes the frame table (R226). -/
def execMemoryWrite (pa : BitVec 40) (data : List Byte) (poison : Bool) (s : State) : Out :=
  match s.served pa.toNat with
  | some f => .fault f
  | none => .next (if inTable (pa.toNat / 64) then s else s.writeLine pa.toNat (data.take (64 - pa.toNat % 64)) poison)

/-- PATROL_SCRUB (R223, R224): read, correct or poison, write back, indivisibly; the controller's own scrubber visits every frame,
the frame table's with the rest. -/
def execPatrolScrub (pa : BitVec 40) (upset : List (Nat × Byte)) (s : State) : Out :=
  match s.served pa.toNat with
  | some f => .fault f
  | none => .next ((s.upset (pa.toNat / 64) upset).readLine (pa.toNat / 64)).1

/-- Whether a stack reports 85 °C or more, in sixteenths of a degree (R222). -/
def State.stackHot (s : State) (m : Nat) : Bool := decide (1360 ≤ ((s.power.temp.get 0 (64 + m)).extractLsb' 0 16).toInt)

/-- REFRESH (R222): the controller refreshes a bank, at twice the rate while the stack is hot. -/
def execRefresh (stack : Fin 8) (bank : Nat) (s : State) : Out :=
  let k := s.stack stack.val
  .next (s.setStack stack.val { k with
    refreshed := k.refreshed.set bank (k.refreshed.get 0 bank + 1), hot := s.stackHot stack.val })

/-- The frames that a frame command names (R440). -/
def frameRange (raw : BitVec 512) : Nat × Nat := (bodyAt raw 0 4, bodyAt raw 4 4)

/-- HOST_DESCRIPTOR_INVALID and status 2 for an entry (R442): under a bound ring's own context, and for the
Health class, whose commands concern no context, under none. -/
def State.reject (s : State) (ring : Nat) (index : BitVec 16) (ctx : Nat) (byte : Nat) : State :=
  let r := s.ring ring
  let c := if r.context ≠ 0xE then r.context else if r.kind = 5 then 0xF else ctx
  (s.event 0x000E kHost c 0 (ringIndex ring index) byte).complete ring index 2 0 0 0

/-- The first byte of an entry's body, from byte `lo` on and `n` left, that is not zero. -/
def firstByte (raw : BitVec 512) (lo : Nat) : Nat → Option Nat
  | 0 => none
  | n + 1 => if bodyAt raw lo 1 ≠ 0 then some lo else firstByte raw (lo + 1) n

/-- The field checks common to the commands with a header (R439, R442): the failing byte, if any. `body` is the
first body byte that must be zero. -/
def headerFault (r : Ring) (raw : BitVec 512) (body : Nat) : Option Nat :=
  if headerReserved raw ≠ 0 then some 62
  else if r.context ≠ 0xE ∧ headerCtx raw ≠ r.context then some 62
  else firstByte raw body (60 - body)

/-- FRAME_ASSIGN (R227): every frame must be free; otherwise none is assigned. -/
def execFrameAssign (ring : Fin 64) (s : State) : Out :=
  match s.entryOf ring.val 0x10 with
  | none => .next s
  | some e =>
    let c := headerCtx e.raw
    match headerFault (s.ring ring.val) e.raw 8 with
    | some b => .next (s.reject ring.val e.index c b)
    | none =>
      let (first, count) := frameRange e.raw
      if 2 ^ 24 ≤ first ∨ count = 0 ∨ 2 ^ 24 < count then
        .next (s.reject ring.val e.index c (if 2 ^ 24 ≤ first then 0 else 4))
      else if first + count ≤ 2 ^ 24 ∧ (List.range count).all (fun i => s.ownerOf (first + i) == 0xF &&
          (s.stack (stackOfPA ((first + i) * 65536))).trained) then
        .next ((((List.range count).foldl (fun s i => s.setOwner (first + i) (BitVec.ofNat 8 c)) s)).complete
          ring.val e.index 0 0 0 0)
      else .next (s.complete ring.val e.index 2 0 0 0)

/-- FRAME_RELEASE (R227): the frames leave their context and are marked ZEROING. -/
def execFrameRelease (ring : Fin 64) (s : State) : Out :=
  match s.entryOf ring.val 0x11 with
  | none => .next s
  | some e =>
    let c := headerCtx e.raw
    match headerFault (s.ring ring.val) e.raw 8 with
    | some b => .next (s.reject ring.val e.index c b)
    | none =>
      let (first, count) := frameRange e.raw
      if 2 ^ 24 ≤ first ∨ count = 0 ∨ 2 ^ 24 < count then
        .next (s.reject ring.val e.index c (if 2 ^ 24 ≤ first then 0 else 4))
      else if first + count ≤ 2 ^ 24 ∧ (List.range count).all (fun i => s.owns c (first + i)) then
        let s1 := (List.range count).foldl (fun s i => s.setOwner (first + i) (0x80 ||| BitVec.ofNat 8 c)) s
        let s2 := s1.startEntry ring.val e.index
        .next { s2 with mem := { s2.mem with releases := s2.mem.releases ++
          [⟨ring, e.index, ⟨c % 8, Nat.mod_lt _ (by decide)⟩, (List.range count).map (first + ·)⟩] } }
      else .next (s.complete ring.val e.index 2 0 0 0)

/-- Zero a frame: zero data, valid check symbols, clean poison bytes (R227, R236); an armed injection applies to its line
(R233). -/
def State.zeroFrame (s : State) (frame : Nat) : State :=
  let s1 : State := { s with mem := { s.mem with
    data := s.mem.data.clear (frame * 65536) 65536
    poison := s.mem.poison.filter (fun l => decide (l / 1024 ≠ frame))
    errors := s.mem.errors.filter (fun e => decide (e.1 / 1024 ≠ frame)) } }
  let line := (s.mem.inject.extractLsb' 6 34).toNat
  if line / 1024 = frame then s1.applyInjection line else s1

/-- The copies that lay in a frame of a shadow or mirror region are gone with it (R227, R228). -/
def State.dropCopies (s : State) (frame : Nat) : State :=
  (List.range 8).foldl (fun s c =>
    let p := s.porter c
    let clear (t : Tbl Snap) (fs : Tbl (List Nat)) : Tbl Snap :=
      t.filter fun e => !((fs.get [] e.1).any fun f => f == frame)
    if (p.slotFrames ++ p.mirrorFrames).all (fun e => frame ∉ e.2) then s
    else s.setPorter c { p with slots := clear p.slots p.slotFrames, mirrors := clear p.mirrors p.mirrorFrames }) s

/-- FRAME_ZERO (R227): a released frame is zeroed and set free; the command completes with its last frame. -/
def execFrameZero (frame : Nat) (s : State) : Out :=
  match s.mem.releases.find? (fun r => frame ∈ r.frames) with
  | none => .next s
  | some r =>
    let s1 := ((s.zeroFrame frame).dropCopies frame).setOwner frame (if s.frameRetires frame then 0xE else 0xF)
    let left := dropFrom r.frames frame
    if left = [] then
      let s2 : State := { s1 with mem := { s1.mem with releases := s1.mem.releases.filter (fun x => x ≠ r) } }
      .next (s2.complete r.ring.val r.index 0 0 0 0)
    else
      .next { s1 with mem := { s1.mem with
        releases := s1.mem.releases.map fun x => if x = r then { r with frames := left } else x } }

/-- A write of MEM_INJECT: arming may be ignored whole (R233). -/
def State.writeInject (s : State) (value : Dword) : State :=
  let kind := (value.extractLsb' 61 2).toNat
  let sym := (value.extractLsb' 0 6).toNat
  if value.getLsbD 63 ∧ (s.anyJob ∨ kind = 3 ∨ (kind < 2 ∧ 35 < sym)) then s
  else { s with mem := { s.mem with inject := value &&& 0xE00000FFFFFFFFFF } }

/-- Whether BAR accesses reach the blocks of normal operation: after DONE, with the main rails on, and not under the recovery
image (R554, R599). -/
def State.blocksOpen (s : State) : Bool := s.boot.done && !s.power.mainOff && s.boot.running != .recovery

/-- MEM_INJECT_ARM: a write with ARM 1. -/
def execMemInjectArm (value : Dword) (s : State) : Out :=
  .next (if s.blocksOpen && value.getLsbD 63 then s.writeInject value else s)

end Sys2Proof.Machine
end

