-- ==== Sys2Proof/Machine/Scale.lean ====
section
/-! DEFINITION. The scale table of a job (R41 to R54): its entries in local memory, the push, the halving and the
probe. -/

namespace Sys2Proof.Machine

/-- A scale-table entry (R42): the history, the control word at 0x40, CURRENT_AMAX, SAT_COUNT, PROBE_COUNT,
TENSOR_BASE and TENSOR_BYTES. -/
structure ScaleEntry where
  hist : List Word
  ctl : Word
  cur : Word
  sat : Word
  probes : Word
  base : Nat
  size : Nat
deriving DecidableEq, Repr

/-- Read an entry from its 128 bytes. -/
def scaleEntry (l : List Byte) : ScaleEntry :=
  { hist := (List.range 16).map fun i => BitVec.ofNat 32 (numAt l (4 * i) 4)
    ctl := BitVec.ofNat 32 (numAt l 0x40 4)
    cur := BitVec.ofNat 32 (numAt l 0x44 4)
    sat := BitVec.ofNat 32 (numAt l 0x48 4)
    probes := BitVec.ofNat 32 (numAt l 0x4C 4)
    base := numAt l 0x50 8
    size := numAt l 0x58 8 }

/-- The bytes that the device maintains: offsets 0x00 to 0x4F. -/
def ScaleEntry.bytes (e : ScaleEntry) : List Byte :=
  (e.hist.flatMap fun w => toBytes 4 w.toNat) ++ toBytes 4 e.ctl.toNat ++ toBytes 4 e.cur.toNat ++
    toBytes 4 e.sat.toNat ++ toBytes 4 e.probes.toNat

/-- A word with the field of `n` bits at `lo` replaced. -/
def putField (w : Word) (lo n v : Nat) : Word :=
  BitVec.ofNat 32 (w.toNat - bitsOf w.toNat (lo + n - 1) lo * 2 ^ lo + v % 2 ^ n * 2 ^ lo)

/-- Fields of the control word (R42). -/
def ScaleEntry.seeded (e : ScaleEntry) : Bool := e.ctl.getLsbD 31
def ScaleEntry.gradient (e : ScaleEntry) : Bool := e.ctl.getLsbD 30
def ScaleEntry.format (e : ScaleEntry) : Nat := bitsOf e.ctl.toNat 29 28
def ScaleEntry.ovf (e : ScaleEntry) : Bool := e.ctl.getLsbD 27
def ScaleEntry.isProbing (e : ScaleEntry) : Bool := e.ctl.getLsbD 26
def ScaleEntry.head (e : ScaleEntry) : Nat := bitsOf e.ctl.toNat 23 20
def ScaleEntry.axes (e : ScaleEntry) : Nat := bitsOf e.ctl.toNat 19 16
def ScaleEntry.initExp (e : ScaleEntry) : Byte := e.ctl.extractLsb' 8 8
def ScaleEntry.scaleExp (e : ScaleEntry) : Byte := e.ctl.extractLsb' 0 8

/-- The exponent in force: INIT_EXP until the entry is seeded (R43, R52). -/
def ScaleEntry.inForce (e : ScaleEntry) : Byte := if e.seeded then e.scaleExp else e.initExp

/-- Recompute SCALE_EXP from the largest entry of the history; zero keeps it (R43, R44). -/
def ScaleEntry.rescale (e : ScaleEntry) (margin : Nat) : ScaleEntry :=
  match Sys2Proof.Machine.scaleExp (e.hist.foldl magMax 0) (e.format == 1) margin with
  | some x => { e with ctl := putField e.ctl 0 8 (BitVec.ofInt 8 x).toNat }
  | none => e

/-- Seed an entry from a value: all sixteen slots, HEAD 0, SCALE_EXP, SEEDED (R49, R52); a zero leaves INIT_EXP in force
(R79). -/
def ScaleEntry.seed (e : ScaleEntry) (v : Word) (margin : Nat) : ScaleEntry :=
  let ctl := putField (putField (putField e.ctl 0 8 e.initExp.toNat) 20 4 0) 31 1 1
  { e with hist := List.replicate 16 v, ctl := ctl }.rescale margin

/-- The push of R45 and R52, CURRENT_AMAX cleared. -/
def ScaleEntry.push (e : ScaleEntry) (v : Word) (margin : Nat) : ScaleEntry :=
  let e0 : ScaleEntry := { e with cur := 0 }
  if e.seeded then
    ({ e0 with hist := e.hist.set e.head v, ctl := putField e.ctl 20 4 (e.head + 1) } : ScaleEntry).rescale margin
  else if v = 0 then e0
  else e0.seed v margin

/-- Twice an FP32 magnitude, no larger than the largest finite value (R48). -/
def twice (w : Word) : Word :=
  let d := fadd w w
  if nonfinite32 d ∧ !nonfinite32 w then 0x7F7FFFFF else d

/-- Hold INIT_EXP in SCALE_EXP while the entry is unseeded (R52). -/
def ScaleEntry.settle (e : ScaleEntry) : ScaleEntry :=
  if e.seeded then e else { e with ctl := putField e.ctl 0 8 e.initExp.toNat }

/-- Halve the scale of a tensor (R48); SCALE_EXP of an unseeded one stays INIT_EXP (R52). -/
def ScaleEntry.halve (e : ScaleEntry) : ScaleEntry :=
  ({ e with hist := e.hist.map twice
            ctl := putField e.ctl 0 8 (BitVec.ofInt 8 (max (-127) (e.scaleExp.toInt - 1))).toNat } : ScaleEntry).settle

/-- Merge a chunk's maximum and saturations into an entry (R45, R54). -/
def ScaleEntry.merge (e : ScaleEntry) (amax : Word) (sat : Nat) : ScaleEntry :=
  { e with cur := magMax e.cur amax, sat := e.sat + BitVec.ofNat 32 sat }

/-- Discard the history (R53). -/
def ScaleEntry.unseed (e : ScaleEntry) : ScaleEntry :=
  { e with ctl := putField (putField e.ctl 31 1 0) 0 8 e.initExp.toNat }

/-- The VA of an entry (R41). -/
def State.scaleVA (s : State) (c tensor : Nat) : Nat := (s.job c).cfg.scaleBase.toNat + 128 * tensor

/-- Read an entry, consuming poison. -/
def State.scaleRead (s : State) (c tensor : Nat) : Except Stop ScaleEntry :=
  match s.vuse c (s.scaleVA c tensor) 128 with
  | .ok l => .ok (scaleEntry l)
  | .error e => .error e

/-- Write what the device maintains of an entry. -/
def State.scaleWrite (s : State) (c tensor : Nat) (e : ScaleEntry) : State × Option Stop :=
  s.vwrite c (s.scaleVA c tensor) e.bytes false

/-- Read, change and write an entry. -/
def State.scaleUpdate (s : State) (c tensor : Nat) (f : ScaleEntry → ScaleEntry) : State × Option Stop :=
  let s0 := s.vdemand c (s.scaleVA c tensor) 128
  match s0.scaleRead c tensor with
  | .error e => (s0, some e)
  | .ok e => s0.scaleWrite c tensor (f e)

/-- The Step Engine's change of an entry; a failed access stops the job. -/
def State.scaleStep (s : State) (c tensor : Nat) (f : ScaleEntry → ScaleEntry) : State :=
  match s.scaleUpdate c tensor f with
  | (s1, none) => s1
  | (s1, some e) =>
    { s1.engineStop c kStep 0 (Config.engineRef s1.fresh c).toNat e with fresh := s1.fresh + 1 }

/-! ### The push at a step's final Curfew (R45) -/

/-- The slots of a job's tasks that hold a tensor (R131). -/
def State.slotsOf (s : State) (c tensor : Nat) : List Slot :=
  (s.job c).cfg.tiles.flatMap fun t => (s.tile t).tasks.flatMap fun k =>
    (k.2.slots.map (·.2)).filter fun x => x.filled && x.tensor.toNat == tensor

/-- The largest local amax of a tensor's slots. -/
def State.slotAmax (s : State) (c tensor : Nat) : Word := (s.slotsOf c tensor).foldl (fun a x => magMax a x.amax) 0

/-- The saturations of a tensor's slots. -/
def State.slotSat (s : State) (c tensor : Nat) : Nat := ((s.slotsOf c tensor).map (·.sat.toNat)).sum

/-- Clear the local amax and the saturations that a tensor's slots hold. -/
def State.clearSlots (s : State) (c tensor : Nat) : State :=
  (s.job c).cfg.tiles.foldl (fun s t =>
    s.setTile t { s.tile t with tasks := (s.tile t).tasks.mapAll fun k =>
      { k with slots := k.slots.mapAll fun x =>
          if x.filled && x.tensor.toNat == tensor then { x with amax := 0, sat := 0 } else x } }) s

/-- Take a tensor's slots into its entry: their local amax and the saturations that they counted (R54, R131). -/
def State.readSlots (s : State) (c tensor : Nat) : State :=
  (s.scaleStep c tensor fun e => e.merge (s.slotAmax c tensor) (s.slotSat c tensor)).clearSlots c tensor

/-- Discard CURRENT_AMAX at a skipped step, keeping the saturations counted (R47, R54). -/
def State.discardAmax (s : State) (c tensor : Nat) : State :=
  (s.scaleStep c tensor fun e => { e.merge 0 (s.slotSat c tensor) with cur := 0 }).clearSlots c tensor

/-- A slot filled from the scale-table entry of its tensor (R131). -/
def ScaleEntry.slot (e : ScaleEntry) (tensor : BitVec 16) : Slot :=
  ⟨true, tensor, BitVec.ofNat 2 e.format, e.ovf, e.inForce, 0, 0⟩

/-- Fill the slots that an enabled task's list names; a failed access stops the job (R131, R480). -/
def State.fillTask (s : State) (c tile task : Nat) : State :=
  let t0 := (s.tile tile).task task
  if !t0.enabled then s
  else
    (List.range 16).foldl (fun s i =>
      if !t0.slotMask.getLsbD i then s
      else
        let n := t0.slotTensors.get 0 i
        let s1 := s.vdemand c (s.scaleVA c n.toNat) 128
        match s1.scaleRead c n.toNat with
        | .error e => { s1.engineStop c kStep 0 (Config.engineRef s1.fresh c).toNat e with fresh := s1.fresh + 1 }
        | .ok e =>
          let x := s1.tile tile
          let t := x.task task
          s1.setTile tile (x.setTask task { t with slots := t.slots.set i (e.slot n) })) s

/-- Fill the tensor slots of every task at superstep 0 of a step (R131, R480). -/
def State.fillSlots (s : State) (c : Nat) : State :=
  (s.job c).cfg.tiles.foldl (fun s t =>
    let s1 := (List.range 4).foldl (fun s n => s.fillTask c t n) s
    let x := s1.tile t
    s1.setTile t { x with tasks := x.tasks.mapAll fun k => { k with ordinal := 0 } }) s

/-- Whether a set of axes joins a job's module with others. -/
def JobCtx.groupOf (j : JobCtx) (axes : Nat) : Nat :=
  ((List.range 4).map fun a => if bitOf axes a then j.extentOf a else 1).foldl (· * ·) 1

/-- AMAX_COMBINE_COMPLETE (R45, R52): `others` is the maximum over the other modules of the combining group. -/
def execAmaxCombineComplete (ctx : Fin 8) (tensor : BitVec 16) (others : Word) (s : State) : Out :=
  let c := ctx.val
  let j := s.job c
  if tensor ∉ j.pushesLeft then .next s
  else
    let own := s.slotAmax c tensor.toNat
    let s1 := s.scaleStep c tensor.toNat fun e =>
      let m := magMax e.cur own
      let v := if j.cfg.groupOf e.axes ≤ 1 then m else magMax m others
      (e.merge 0 (s.slotSat c tensor.toNat)).push v j.cfg.margin.toNat
    let s2 := s1.clearSlots c tensor.toNat
    let j2 := s2.job c
    .next (s2.setJob c { j2 with pushesLeft := j2.pushesLeft.filter (· ≠ tensor) })

/-! ### The probe (R49, R50) -/

/-- The largest finite magnitude of a tensor's local extent, read as FP32 (R49 step 2). -/
def State.extentMax (s : State) (c : Nat) (e : ScaleEntry) : Except Stop Word :=
  match s.vuse c e.base e.size with
  | .error x => .error x
  | .ok l => .ok (amaxOf ((cutBytes 4 (l.length / 4) l).map fun b => BitVec.ofNat 32 (ofBytes b)))

/-- Begin a probe of an unseeded tensor: PROBING, and the module's own maximum (R49 steps 1 and 2). -/
def State.probe (s : State) (c tensor : Nat) (e : ScaleEntry) : State × Option Stop :=
  let s0 := s.vdemand c e.base e.size
  match s0.extentMax c e with
  | .error x => (s0, some x)
  | .ok m =>
    match s0.scaleWrite c tensor { e with ctl := putField e.ctl 26 1 1 } with
    | (s1, some x) => (s1, some x)
    | (s1, none) =>
      let j := s1.job c
      (s1.setJob c { j with
        probing := j.probing.set tensor m, probeSince := j.probeSince.set tensor s1.tick
        stalledProbes := dropFrom j.stalledProbes tensor }, none)

/-- PROBE_REQUEST: a partner's probe is joined unless the entry is seeded or already probing (R50). -/
def execProbeRequest (ctx : Fin 8) (tensor : BitVec 16) (s : State) : Out :=
  let c := ctx.val
  let t := tensor.toNat
  if !(s.job c).running ∨ (s.job c).cfg.scaleEntries.toNat ≤ t then .next s
  else
    let stop (s : State) (x : Stop) : State :=
      { s.engineStop c kStep 0 (Config.engineRef s.fresh c).toNat x with fresh := s.fresh + 1 }
    let s0 := s.vdemand c (s.scaleVA c t) 128
    match s0.scaleRead c t with
    | .error x => .next (stop s0 x)
    | .ok e =>
      if e.seeded || e.isProbing then .next s0
      else
        match s0.probe c t e with
        | (s1, none) => .next s1
        | (s1, some x) => .next (stop s1 x)

/-- PROBE_COMBINE_COMPLETE: the combined value seeds the entry; waiting conversions go on (R49 steps 4 and 5). -/
def execProbeCombineComplete (ctx : Fin 8) (tensor : BitVec 16) (others : Word) (s : State) : Out :=
  let c := ctx.val
  let t := tensor.toNat
  let j := s.job c
  match j.probing.find t with
  | none => .next s
  | some own =>
    let s1 := s.scaleStep c t fun e =>
      let v := if j.cfg.groupOf e.axes ≤ 1 then own else magMax own others
      let e1 := e.seed v j.cfg.margin.toNat
      { e1 with ctl := putField e1.ctl 26 1 0, probes := e1.probes + 1 }
    let j1 := s1.job c
    .next (s1.setJob c { j1 with probing := j1.probing.drop t, probeSince := j1.probeSince.drop t })

end Sys2Proof.Machine
end

