-- ==== Sys2Proof/Machine/Ostler.lean ====
section
/-! DEFINITION. The Ostlers (R240 to R282): the descriptor, its checks, chunks, and what a chunk moves. -/

namespace Sys2Proof.Machine

/-! ### The descriptor (R243, R244) -/

/-- A base that names a tile (R244). -/
structure TileBase where
  tile : Nat
  task : Nat
  offset : Nat
  pitch : Nat
  reserved : Nat
deriving DecidableEq, Repr

def tileBase (b : Nat) : TileBase :=
  { tile := bitsOf b 47 34, task := bitsOf b 33 32, offset := bitsOf b 31 19, pitch := bitsOf b 18 6,
    reserved := bitsOf b 5 0 }

/-- The fields of a descriptor (R243): `ext` and `stride` are listed from dimension 0 up, an extent as its count. -/
structure ODesc where
  mode : Nat
  dir : Bool
  sTile : Bool
  pkind : Nat
  sfmt : Nat
  pfmt : Nat
  strict : Bool
  ovf : Bool
  swz : Nat
  token : BitVec 4
  mark : Bool
  aux : Nat
  tensor : Nat
  fill : Nat
  sbase : Nat
  pbase : Nat
  ext : List Nat
  bound1 : Nat
  bound0 : Nat
  stride : List Int
deriving DecidableEq, Repr

def odesc (raw : BitVec 512) : ODesc :=
  let v := raw.toNat
  { mode := bitsOf v 511 508, dir := bitOf v 507, sTile := bitOf v 506, pkind := bitsOf v 505 504,
    sfmt := bitsOf v 503 501, pfmt := bitsOf v 500 498, strict := bitOf v 497, ovf := bitOf v 496,
    swz := bitsOf v 495 494, token := raw.extractLsb' 490 4, mark := bitOf v 489, aux := bitsOf v 487 448 * 256,
    tensor := bitsOf v 447 432, fill := bitsOf v 431 416, sbase := bitsOf v 415 368, pbase := bitsOf v 367 320,
    ext := (List.range 5).map fun d => bitsOf v (255 + 16 * d) (240 + 16 * d) + 1,
    bound1 := bitsOf v 239 216, bound0 := bitsOf v 215 200,
    stride := (List.range 5).map fun d => signedOf 40 (bitsOf v (40 * d + 39) (40 * d)) }

def ODesc.e (d : ODesc) (k : Nat) : Nat := d.ext.getD k 1
def ODesc.st (d : ODesc) (k : Nat) : Int := d.stride.getD k 0

/-- Elements of a descriptor (R245). -/
def ODesc.total (d : ODesc) : Nat := d.ext.foldl (· * ·) 1

/-- Modes 3 to 5 take their rows from an index array (R246). -/
def ODesc.indexed (d : ODesc) : Bool := decide (3 ≤ d.mode ∧ d.mode ≤ 5)
def ODesc.transposes (d : ODesc) : Bool := d.mode == 2
def ODesc.fills (d : ODesc) : Bool := d.mode == 6
def ODesc.adds (d : ODesc) : Bool := d.mode == 5
def ODesc.isPoint (d : ODesc) : Bool := d.pkind == 2

/-- The format that a descriptor reads and the one it writes; FILL reads BF16. -/
def ODesc.srcFmt (d : ODesc) : Nat := if d.fills then 0 else if d.dir then d.pfmt else d.sfmt
def ODesc.dstFmt (d : ODesc) : Nat := if d.dir then d.sfmt else d.pfmt

/-- A bit move: COPY, and TRANSPOSE, GATHER and SCATTER with equal formats (R250). -/
def ODesc.isMove (d : ODesc) : Bool :=
  d.mode == 0 || ((d.mode == 2 || d.mode == 3 || d.mode == 4) && d.sfmt == d.pfmt)

def isFp8 (fmt : Nat) : Bool := fmt == 2 || fmt == 3

/-- Whether a descriptor converts into, or from, an FP8 side (R251). -/
def ODesc.fp8Dst (d : ODesc) : Bool := !d.isMove && isFp8 d.dstFmt
def ODesc.fp8Src (d : ODesc) : Bool := !d.isMove && !d.fills && isFp8 d.srcFmt
def ODesc.mxDst (d : ODesc) : Bool := !d.isMove && isMx d.dstFmt
def ODesc.mxSrc (d : ODesc) : Bool := !d.isMove && !d.fills && isMx d.srcFmt
def ODesc.int8Src (d : ODesc) : Bool := !d.isMove && !d.fills && d.srcFmt == 6

/-- The tile that a descriptor writes, if it writes one. -/
def ODesc.dstTile (d : ODesc) : Option TileBase :=
  if d.dir then (if d.sTile then some (tileBase d.sbase) else none)
  else if d.pkind = 1 then some (tileBase d.pbase) else none

/-- Whether its destination, or its source, is its strided side. -/
def ODesc.sMem (d : ODesc) : Bool := !d.sTile
def ODesc.pMem (d : ODesc) : Bool := d.pkind == 0

/-! ### Addresses (R245 to R248, R252, R253) -/

/-- Component k of a linear index. -/
def ODesc.comp (d : ODesc) (n k : Nat) : Nat := n / (d.ext.take k).foldl (· * ·) 1 % d.e k

/-- The packed position of a linear index, and the linear index of a packed position (R247). -/
def ODesc.posOf (d : ODesc) (n : Nat) : Nat :=
  let a := d.e 0 * d.e 1
  if d.transposes then n / a * a + d.comp n 0 * d.e 1 + d.comp n 1 else n
def ODesc.linOf (d : ODesc) (p : Nat) : Nat :=
  let a := d.e 0 * d.e 1
  if d.transposes then p / a * a + p % d.e 1 * d.e 0 + p / d.e 1 % d.e 0 else p

/-- The strided side's base in bytes: a VA, or an offset of the task. -/
def ODesc.sOrigin (d : ODesc) : Int := if d.sTile then 64 * (tileBase d.sbase).offset else d.sbase

/-- The strided address of the row of an element, its index replaced by `x`. -/
def ODesc.row (d : ODesc) (n x : Nat) : Int :=
  d.sOrigin + d.comp n 4 * d.st 4 + d.comp n 3 * d.st 3 + d.comp n 2 * d.st 2 + x * d.st 1

/-- The strided location of dimension-0 index `i0` of a row: its first byte and the bit in it (R246). -/
def ODesc.strided (d : ODesc) (row : Int) (i0 : Nat) : Int × Nat :=
  if d.sfmt = 5 then
    let h := 2 * row + i0 * d.st 0
    (h.fdiv 2, 4 * (h.fmod 2).toNat)
  else if d.sfmt = 4 then
    let b := 6 * (i0 % 4)
    (row + 3 * (i0 / 4 : Nat) + (b / 8 : Nat), b % 8)
  else (row + i0 * d.st 0, 0)

/-- Bytes that `w` bits from bit `b` of a byte touch. -/
def spanBytes (b w : Nat) : Nat := (b + w + 7) / 8

/-- The byte addresses of a strided element and its first bit. -/
def ODesc.sLoc (d : ODesc) (n x : Nat) : List Int × Nat :=
  let l := d.strided (d.row n x) (d.comp n 0)
  ((List.range (spanBytes l.2 (widthOf d.sfmt))).map fun (i : Nat) => l.1 + (i : Int), l.2)

/-- Elements of a packed tile row (R248). -/
def ODesc.rowLen (d : ODesc) : Nat := if d.transposes then d.e 1 else d.e 0

/-- The task byte of byte `b` of packed row `rho` (R248). -/
def ODesc.rowByte (d : ODesc) (t : TileBase) (rho b : Nat) : Int :=
  let j := b / 64
  (64 * (t.offset + rho * t.pitch + 12 * (j / 12) + ((j % 12) ^^^ (rho * d.swz % 4))) + b % 64 : Nat)

/-- The byte addresses of packed position `p` and its first bit (R247, R248). -/
def ODesc.pLoc (d : ODesc) (p : Nat) : List Int × Nat :=
  let w := widthOf d.pfmt
  if d.pkind = 1 then
    let t := tileBase d.pbase
    let bit := p % d.rowLen * w
    ((List.range (spanBytes (bit % 8) w)).map fun i => d.rowByte t (p / d.rowLen) (bit / 8 + i), bit % 8)
  else
    let bit := p * w
    let base : Nat := if d.isPoint then 0 else d.pbase
    ((List.range (spanBytes (bit % 8) w)).map fun i => ((base + bit / 8 + i : Nat) : Int), bit % 8)

/-- The VA of an element's index (R246). -/
def ODesc.indexVA (d : ODesc) (n : Nat) : Nat := d.aux + 4 * (n / d.e 0)

/-- The VA of an element's block scale (R252). -/
def ODesc.scaleByteVA (d : ODesc) (n : Nat) : Nat :=
  d.aux + (n / (d.e 0 * d.e 1) * (d.e 0 / 32) + d.comp n 0 / 32) * d.e 1 + d.comp n 1

/-- Whether an element is out of bounds (R254): `x` is its row. -/
def ODesc.outside (d : ODesc) (n x : Nat) : Bool :=
  (d.bound0 != 0 && decide (d.bound0 ≤ d.comp n 0)) || (d.bound1 != 0 && decide (d.bound1 ≤ x))

/-! ### Spans (R258, R259) -/

/-- Lowest and highest offsets that a dimension of `n` steps of `st` adds. -/
def reach (n : Nat) (st : Int) : Int × Int := (min 0 ((n - 1 : Nat) * st), max 0 ((n - 1 : Nat) * st))

/-- The in-bounds extent of a dimension: indices below BOUND1 in an indexed mode. -/
def ODesc.inExt (d : ODesc) (k : Nat) : Nat :=
  if k = 0 then (if d.bound0 = 0 then d.e 0 else min (d.e 0) d.bound0)
  else if k = 1 then
    (if d.indexed then (if d.bound1 = 0 then 2 ^ 32 else d.bound1)
     else if d.bound1 = 0 then d.e 1 else min (d.e 1) d.bound1)
  else d.e k

/-- The span of dimensions 1 to 4 from the origin. -/
def ODesc.rowSpan (d : ODesc) : Int × Int :=
  [1, 2, 3, 4].foldl (fun a k => (a.1 + (reach (d.inExt k) (d.st k)).1, a.2 + (reach (d.inExt k) (d.st k)).2))
    (d.sOrigin, d.sOrigin)

/-- The strided side's span: lowest byte to highest byte + 1. -/
def ODesc.sSpan (d : ODesc) : Int × Int :=
  let r := d.rowSpan
  let n := d.inExt 0
  if d.sfmt = 5 then
    let k := reach n (d.st 0)
    ((2 * r.1 + k.1).fdiv 2, (2 * r.2 + k.2).fdiv 2 + 1)
  else if d.sfmt = 4 then (r.1, r.2 + (6 * n + 7) / 8)
  else
    let k := reach n (d.st 0)
    (r.1 + k.1, r.2 + k.2 + (widthOf d.sfmt / 8 : Nat))

/-- The packed memory side's span: every packed position, also one whose strided element is out of bounds (DESIGN CHOICE, log
entry 141: R258 counts in-bounds elements and gives bounds to the strided side alone). -/
def ODesc.pSpan (d : ODesc) : Int × Int := (d.pbase, d.pbase + ((d.total * widthOf d.pfmt + 7) / 8 : Nat))

/-- Bytes that two spans share. -/
def shared (a b : Int × Int) : Nat := (min a.2 b.2 - max a.1 b.1).toNat

/-- The span of a descriptor's memory destination. -/
def ODesc.dstSpan (d : ODesc) : Option (Int × Int) :=
  if d.dir then (if d.sMem then some d.sSpan else none) else if d.pMem then some d.pSpan else none

/-! ### Checks (R264) -/

/-- What the checks make of a descriptor. -/
inductive Checked where
  | good
  | invalid
  | overlap (bytes : Nat)
  | bounced (bytes : Nat)
deriving DecidableEq, Repr

/-- Directions and kinds (R250). -/
def ODesc.kindsOk (d : ODesc) : Bool :=
  !(d.sTile && d.pkind == 1) && !(d.isPoint && !d.dir) &&
    (match d.mode with
     | 0 | 1 | 2 => d.pkind != 3
     | 3 => !d.dir && d.sMem && (d.pkind == 0 || d.pkind == 1)
     | 4 | 5 => d.dir && (d.pkind == 1 || d.pkind == 2)
     | 6 => d.dir && d.pkind == 3
     | _ => false)

/-- Formats (R246, R250, R251, R252): FP6 needs STRIDE0 3 and whole groups on the strided side. -/
def ODesc.formatsOk (d : ODesc) : Bool :=
  let anyMx := isMx d.sfmt || (!d.fills && isMx d.pfmt)
  !(d.mode == 0 && d.sfmt != d.pfmt) && !(d.adds && d.sfmt != 7) &&
    !(d.transposes && d.isMove && isMx d.sfmt) && !(d.fp8Dst && d.fp8Src) && !(d.indexed && anyMx) &&
    !(d.sfmt == 4 && (d.st 0 != 3 || d.e 0 % 4 != 0)) &&
    !((d.mxDst || d.mxSrc) && (d.e 0 % 32 != 0 || d.aux == 0))

/-- A tile base (R244, R249, R260). -/
def ODesc.tileOk (d : ODesc) (j : JobCtx) (packed : Bool) (b : Nat) : Bool :=
  let t := tileBase b
  let r := ceilDiv (d.rowLen * widthOf d.pfmt) 512
  t.reserved == 0 && j.holds t.tile &&
    (if packed then
      decide (r ≤ t.pitch) &&
        (d.swz == 0 || (t.offset % 12 == 0 && t.pitch % 12 == 0 && decide (12 * ceilDiv r 12 ≤ t.pitch)))
     else t.pitch == 0)

/-- MARK (R256). -/
def ODesc.markOk (d : ODesc) : Bool :=
  !d.mark || ((d.mode == 4 || d.mode == 5) && d.sMem && d.bound1 != 0 && decide (0 < d.st 1))

/-- Whether an INT8 source takes its factor per row (R253). -/
def ODesc.perRow (d : ODesc) : Bool := d.int8Src && !(d.aux != 0 && (d.mode == 1 || d.mode == 2))

/-- Every per-row factor address is a multiple of 4 (R253). -/
def ODesc.factorsOk (d : ODesc) : Bool :=
  !d.perRow ||
    (let b := (d.strided d.sOrigin (d.e 0)).1
     b % 4 == 0 && [1, 2, 3, 4].all fun k => (d.inExt k == 1) || d.st k % 4 == 0)

/-- The spans that an indexed mode may not write over (R259). -/
def ODesc.sideSpans (d : ODesc) : List (Int × Int) :=
  [((d.aux : Int), ((d.aux + 4 * (d.total / d.e 0) : Nat) : Int))] ++
    (if d.perRow && d.sMem then
      let r := d.rowSpan
      let f := d.e 0 * d.st 0
      [(r.1 + f, r.2 + f + 4)]
     else [])

/-- The checks that need only the descriptor and its job; `group` is its ring's steal group. -/
def ODesc.check (d : ODesc) (j : JobCtx) (group : Option Nat) : Checked :=
  if !d.kindsOk || !d.formatsOk || !d.markOk || !d.factorsOk || (d.swz != 0 && d.pkind != 1) ||
      (d.indexed && d.aux == 0) || (d.sTile && !d.tileOk j false d.sbase) ||
      (d.pkind == 1 && !d.tileOk j true d.pbase) then .invalid
  else if d.isPoint && (decide (40 ≤ bitsOf d.pbase 47 42) || (match group with
      | some g => bitsOf d.pbase 47 42 / 5 != g
      | none => false)) then .invalid
  else if d.indexed && (match d.dstSpan with
      | some sp => d.sideSpans.any fun x => decide (0 < shared x sp)
      | none => false) then .invalid
  else if d.sMem && d.pMem then
    let n := shared d.sSpan d.pSpan
    if n = 0 then .good else if d.strict || decide (65536 < n) then .overlap n else .bounced n
  else .good

/-- The entry of a descriptor's FP8 side: rejected where TENSOR fails R251. -/
def State.tensorEntry (s : State) (c : Nat) (d : ODesc) : Except Stop (Option (Option ScaleEntry)) :=
  if !d.fp8Dst && !d.fp8Src then .ok (some none)
  else if (s.job c).cfg.scaleEntries.toNat ≤ d.tensor then .ok none
  else
    match s.scaleRead c d.tensor with
    | .error e => .error e
    | .ok e =>
      if e.format + 2 = (if d.fp8Dst then d.dstFmt else d.srcFmt) then .ok (some (some e)) else .ok none

/-! ### Splitting (R267, R269) -/

/-- The injectivity test (R269), in bits: an FP6 element is six. -/
def ODesc.injective (d : ODesc) : Bool :=
  let dims := ((List.range 5).filter fun k => decide (1 < d.e k)).map fun k => ((d.st k).natAbs, d.e k)
  let sorted := dims.foldl (fun l x => l.filter (fun y => decide (y.1 ≤ x.1)) ++ x :: l.filter (fun y => decide (x.1 < y.1))) []
  let rec go : Nat → List (Nat × Nat) → Bool
    | _, [] => true
    | least, x :: xs => decide (least ≤ 8 * x.1) && go (8 * x.1 * x.2) xs
  go (widthOf d.sfmt) sorted

/-- Descriptors that run whole (R269). -/
def ODesc.unsplit (d : ODesc) (bounced : Bool) : Bool :=
  d.mode == 4 || d.adds || bounced || d.isPoint || (d.dir && (d.sfmt == 5 || !d.injective))

/-- Elements of a chunk at a CHUNK setting (R267). -/
def ODesc.chunkLen (d : ODesc) (code : Nat) : Nat :=
  let bytes := 4096 * 4 ^ code
  512 * max 1 (8 * bytes / (512 * widthOf (if d.fills then d.sfmt else d.pfmt)))

/-! ### What an element reads -/

/-- What became of an element's source: out of bounds or dropped, so FILL, with the task offset of a dropped tile
read; or bits, with the poisoned byte. -/
inductive Fetched where
  | fill (bounds : Option Int)
  | bits (v : Nat) (poison : Option Nat)
deriving DecidableEq, Repr

/-- `n` bits from bit `b` of a byte string. -/
def cutBits (l : List Byte) (b n : Nat) : Nat := ofBytes l / 2 ^ b % 2 ^ n

/-- Whether task byte offsets lie in a task's region. -/
def Task.holdsBytes (t : Task) (l : List Int) : Bool :=
  l.all fun a => decide (0 ≤ a) && decide (a < (64 * t.spBound : Nat))

/-- Read bytes of a tile's task (R260). -/
def State.readTask (s : State) (t : TileBase) (addrs : List Int) (b w : Nat) : Fetched :=
  let x := s.tile t.tile
  let k := x.task t.task
  if !k.holdsBytes addrs then .fill (addrs.head?)
  else
    let pas := addrs.map fun a => k.padAddr a.toNat
    .bits (cutBits (pas.map fun p => x.pad.get p) b w) (pas.find? fun p => decide (p / 64 ∈ x.padPoison))

/-- Read consecutive bytes of a job's memory. -/
def State.readMem (s : State) (c : Nat) (addrs : List Int) (b w : Nat) : Except Stop Fetched :=
  match s.vread c (addrs.headD 0) addrs.length with
  | .error e => .error e
  | .ok (l, p) => .ok (.bits (cutBits l b w) p)

/-- The row of an element: its index, or its dimension-1 index (R246). A poisoned index is consumed (R262). -/
def State.elemRow (s : State) (c : Nat) (d : ODesc) (n : Nat) : Except Stop Nat :=
  if d.indexed then
    match s.vuse c (d.indexVA n) 4 with
    | .ok l => .ok (ofBytes l)
    | .error e => .error e
  else .ok (d.comp n 1)

/-- The source of an element in bounds, or of a write out of bounds that is not dropped. `pt` are the payload lines
of an Ostler point; the address that a poisoned one of them carries is a free value (log entry 15). -/
def State.fetchElem (s : State) (c : Nat) (d : ODesc) (pt : List (List Byte × Bool)) (n x : Nat) : Except Stop Fetched :=
  if d.fills then .ok (.bits d.fill none)
  else if d.dir then
    let l := d.pLoc (d.posOf n)
    let w := widthOf d.pfmt
    if d.isPoint then
      let bytes := l.1.map fun a => ((pt.getD (a.toNat / 64) ([], false)).1).getD (a.toNat % 64) 0
      .ok (.bits (cutBits bytes l.2 w)
        (if l.1.any fun a => (pt.getD (a.toNat / 64) ([], false)).2 then some (Config.consumedAddress s.fresh).toNat else none))
    else if d.pkind = 1 then .ok (s.readTask (tileBase d.pbase) l.1 l.2 w)
    else s.readMem c l.1 l.2 w
  else if d.outside n x then .ok (.fill none)
  else
    let l := d.sLoc n x
    if d.sTile then .ok (s.readTask (tileBase d.sbase) l.1 l.2 (widthOf d.sfmt))
    else s.readMem c l.1 l.2 (widthOf d.sfmt)

/-- The factor of an INT8 source (R253). -/
def State.factor (s : State) (c : Nat) (d : ODesc) (n x : Nat) : Except Stop Fetched :=
  let used (r : Fetched) : Except Stop Fetched :=
    match r with
    | .bits _ (some pa) => .error (.poison pa)
    | r => .ok r
  if d.perRow then
    let a := (d.strided (d.row n x) (d.e 0)).1
    let addrs := (List.range 4).map fun (i : Nat) => a + (i : Int)
    if d.sTile then used (s.readTask (tileBase d.sbase) addrs 0 32)
    else match s.readMem c addrs 0 32 with
      | .ok r => used r
      | .error e => .error e
  else
    match s.vuse c d.aux 4 with
    | .ok l => .ok (.bits (ofBytes l) none)
    | .error e => .error e

/-- The value that a converting element reads (R35, R38, R43, R250): its exact value, whether it is a fill and the
offset of a dropped tile read. An INT8 element whose per-row factor lies outside its task's region is itself FILL and counts as
one (DESIGN CHOICE, log entry 143). -/
def State.elemValue (s : State) (c : Nat) (d : ODesc) (exp : Int) (pt : List (List Byte × Bool)) (n x : Nat) :
    Except Stop (FVal × Bool × Option Int) :=
  let fillV := bf16.value d.fill
  match s.fetchElem c d pt n x with
  | .error e => .error e
  | .ok (.fill b) => .ok (fillV, true, b)
  | .ok (.bits _ (some pa)) => .error (.poison pa)
  | .ok (.bits v none) =>
    if d.fills then .ok (fillV, false, none)
    else if d.fp8Src then .ok (of32 (fp8Read (valueOf d.srcFmt v) exp), false, none)
    else if d.mxSrc then
      match s.vuse c (d.scaleByteVA n) 1 with
      | .error e => .error e
      | .ok l => .ok (of32 (mxUnpack d.srcFmt v (l.headD 0)), false, none)
    else if d.int8Src then
      match s.factor c d n x with
      | .error e => .error e
      | .ok (.fill b) => .ok (fillV, true, b)
      | .ok (.bits f _) => .ok ((ofInt8 v).mul (of32 (BitVec.ofNat 32 f)), false, none)
    else .ok (valueOf d.srcFmt v, false, none)

/-- The scale of an MX destination's block from its exact values (R39, R40). -/
def mxScaleOf (code : Nat) (vals : List FVal) : Byte :=
  if vals.any FVal.isNonfinite then 0xFF
  else
    match vals.foldl (fun a v => if a.lt v.abs then v.abs else a) (.fin false 0 0) with
    | .fin _ m e => if m = 0 then 0 else BitVec.ofInt 8 (max (-127) (min 127 (floorLog2 m e - mxEmax code)) + 127)
    | _ => 0xFF

/-- The values of an element's block that the descriptor writes (R39, R252): an element whose write is out of bounds is dropped and
has no part in the block's largest magnitude (DESIGN CHOICE, log entry 142). -/
def State.blockValues (s : State) (c : Nat) (d : ODesc) (exp : Int) (pt : List (List Byte × Bool)) (n : Nat) :
    List Nat → Except Stop (List FVal)
  | [] => .ok []
  | i :: is =>
    let m := n / 32 * 32 + i
    match s.elemRow c d m with
    | .error e => .error e
    | .ok x =>
      if d.dir && d.outside m x then s.blockValues c d exp pt n is
      else
        match s.elemValue c d exp pt m x with
        | .error e => .error e
        | .ok (v, _, _) =>
          match s.blockValues c d exp pt n is with
          | .error e => .error e
          | .ok vs => .ok (v :: vs)

/-! ### What a chunk writes -/

/-- A byte to write: its physical address, the bits of it that are written, and their poison. -/
structure ByteWrite where
  at_ : Nat
  mask : Byte
  val : Byte
  poison : Bool
deriving DecidableEq, Repr

/-- What a chunk has gathered. -/
structure Gathered where
  mem : List ByteWrite
  pad : List ByteWrite
  fills : Nat
  dropped : Nat
  bits : Nat
  nonfinite : Bool
  moved : Bool
  amax : Word
  sat : Nat
  bounds : List Int
  stop : Option Stop
deriving DecidableEq, Repr

def Gathered.none : Gathered :=
  { mem := [], pad := [], fills := 0, dropped := 0, bits := 0, nonfinite := false, moved := false, amax := 0, sat := 0,
    bounds := [], stop := .none }

/-- The masked bytes of `w` bits `v` from bit `b`. -/
def maskedBytes (b w v : Nat) : List (Byte × Byte) :=
  let n := spanBytes b w
  (toBytes n ((2 ^ w - 1) * 2 ^ b)).zip (toBytes n (v % 2 ^ w * 2 ^ b))

/-- Add bytes at virtual addresses, translating each (R260). -/
def State.putVA (s : State) (c : Nat) (poison : Bool) : List (Int × Byte × Byte) → Gathered → Gathered
  | [], g => g
  | (a, m, v) :: l, g =>
    match s.translate c a true with
    | .ok pa => s.putVA c poison l { g with mem := g.mem ++ [⟨pa, m, v, poison⟩] }
    | .fail code => { g with stop := some (.page code a) }
    | .poisoned pa => { g with stop := some (.poison pa) }

/-- Note a dropped access of a tile: one event for each line (R95, R260). -/
def Gathered.note (g : Gathered) (a : Int) : Gathered :=
  let l := 64 * a.fdiv 64
  if l ∈ g.bounds then g else { g with bounds := g.bounds ++ [l] }

/-- Write `w` bits of an element at its destination. An access outside the task's region is dropped (R95). -/
def State.putElem (s : State) (c : Nat) (d : ODesc) (n x v : Nat) (poison : Bool) (g : Gathered) : Gathered :=
  let l := if d.dir then d.sLoc n x else d.pLoc (d.posOf n)
  let w := widthOf d.dstFmt
  let bs := maskedBytes l.2 w v
  match d.dstTile with
  | none =>
    let g1 := s.putVA c poison (l.1.zip bs) g
    if g1.stop.isSome then g1 else { g1 with bits := g1.bits + w }
  | some t =>
    let k := (s.tile t.tile).task t.task
    if !k.holdsBytes l.1 then { g.note (l.1.headD 0) with dropped := g.dropped + 1 }
    else
      { g with pad := g.pad ++ (l.1.zip bs).map fun e => ⟨k.padAddr e.1.toNat, e.2.1, e.2.2, poison⟩
               bits := g.bits + w }

/-- The bitmap byte and bit of a touched row (R256). -/
def ODesc.markAt (d : ODesc) (x : Nat) : Int × Byte :=
  let e : Int := d.sbase + d.bound1 * d.st 1
  ((e + 255).fdiv 256 * 256 + (x / 8 : Nat), 1#8 <<< (x % 8))

/-- One element of a store mode. FILL delivered inside a bit move converts with the descriptor's OVF, which such a move does not
otherwise use (DESIGN CHOICE, log entry 144). -/
def State.storeElem (s : State) (c : Nat) (d : ODesc) (en : Option ScaleEntry) (pt : List (List Byte × Bool))
    (g : Gathered) (n : Nat) : Gathered :=
  if g.stop.isSome then g
  else
    match s.elemRow c d n with
    | .error e => { g with stop := some e }
    | .ok x =>
      let g0 := if d.mark && decide (x < d.bound1) then
          let m := d.markAt x
          s.putVA c false [(m.1, m.2, m.2)] g
        else g
      if g0.stop.isSome then g0
      else if d.dir && d.outside n x then { g0 with dropped := g0.dropped + 1 }
      else if d.isMove then
        match s.fetchElem c d pt n x with
        | .error e => { g0 with stop := some e }
        | .ok (.bits v p) => s.putElem c d n x v p.isSome { g0 with moved := g0.moved || p.isSome }
        | .ok (.fill b) =>
          let g1 : Gathered := { (match b with | some a => g0.note a | none => g0) with fills := g0.fills + 1 }
          s.putElem c d n x (convertTo d.dstFmt d.ovf (bf16.value d.fill)).bits false g1
      else
        let exp : Int := match en with | some e => e.inForce.toInt | none => 0
        match s.elemValue c d exp pt n x with
        | .error e => { g0 with stop := some e }
        | .ok (v, fill, b) =>
          let g1 : Gathered := match b with | some a => g0.note a | none => g0
          let g2 : Gathered := { g1 with fills := g1.fills + (if fill then 1 else 0), nonfinite := g1.nonfinite || v.isNonfinite }
          if d.mxDst then
            match s.blockValues c d exp pt n (List.range 32) with
            | .error e => { g2 with stop := some e }
            | .ok vs =>
              let sc := mxScaleOf d.dstFmt vs
              let bits := if sc = 0xFF then 0 else (convertTo d.dstFmt false (v.scale (127 - (sc.toNat : Int)))).bits
              s.putElem c d n x bits false (s.putVA c false [((d.scaleByteVA n : Int), (0xFF : Byte), sc)]
                { g2 with nonfinite := g2.nonfinite || sc == 0xFF })
          else if d.fp8Dst then
            let cv := convertTo d.dstFmt (match en with | some e => e.ovf | none => false) (v.scale exp)
            s.putElem c d n x cv.bits false { g2 with
              nonfinite := g2.nonfinite || cv.nonfinite, amax := magMax g2.amax (drainAmax v)
              sat := g2.sat + (if cv.sat then 1 else 0) }
          else
            let cv := convertTo d.dstFmt d.ovf v
            s.putElem c d n x cv.bits false { g2 with nonfinite := g2.nonfinite || cv.nonfinite }

/-! ### Committing writes -/

/-- Byte writes gathered by line, in order. -/
def byLine (l : List ByteWrite) : Tbl (List ByteWrite) :=
  l.foldl (fun t w => Tbl.modify [] t (w.at_ / 64) (· ++ [w])) []

/-- A line after masked byte writes. -/
def mergeBytes (old : List Byte) (ws : List ByteWrite) : List Byte :=
  ws.foldl (fun l w => l.set (w.at_ % 64) (((l.getD (w.at_ % 64) 0) &&& ~~~w.mask) ||| w.val)) old

/-- Whether masked writes cover a whole line. -/
def wholeLine (ws : List ByteWrite) : Bool :=
  (List.range 64).all fun i => (ws.foldl (fun (m : Byte) w => if w.at_ % 64 = i then m ||| w.mask else m) 0) == 0xFF

/-- Commit byte writes to memory. -/
def State.commitMem (s : State) (l : List ByteWrite) : State :=
  (byLine l).foldl (fun s e => s.putLine e.1 (wholeLine e.2) (fun old => mergeBytes old e.2) (e.2.any (·.poison))) s

/-- An Ostler's write of one scratchpad line: until the descriptor completes, a read may miss it (R97). -/
def Tile.ostlerLine (x : Tile) (desc line : Nat) (ws : List ByteWrite) : Tile :=
  let old := x.pad.read (64 * line) 64
  let was := decide (line ∈ x.padPoison)
  let poison := ws.any (·.poison)
  { x with
    pad := x.pad.write (64 * line) (mergeBytes old ws)
    padPoison := setMember x.padPoison line (poison || (!wholeLine ws && was))
    inFlight := if x.inFlight.any (fun f => f.desc == desc && f.line == line) then x.inFlight
      else x.inFlight ++ [⟨desc, line, old, was, true⟩] }

/-- Commit byte writes to a tile's scratchpad. -/
def Tile.commitPad (x : Tile) (desc : Nat) (l : List ByteWrite) : Tile :=
  (byLine l).foldl (fun x e => x.ostlerLine desc e.1 e.2) x

/-! ### SCATTER_ACC (R255, R107) -/

/-- One element of a scatter-accumulate: read, add, write. -/
def State.addElem (c desc : Nat) (d : ODesc) (exp : Int) (pt : List (List Byte × Bool))
    (r : State × Gathered) (n : Nat) : State × Gathered :=
  let s := r.1
  let g := r.2
  if g.stop.isSome then r
  else
    match s.elemRow c d n with
    | .error e => (s, { g with stop := some e })
    | .ok x =>
      let gm := if d.mark && decide (x < d.bound1) then
          let m := d.markAt x
          s.putVA c false [(m.1, m.2, m.2)] g
        else g
      if gm.stop.isSome then (s, gm)
      else
        let s0 := s.commitMem gm.mem
        let g0 : Gathered := { gm with mem := [] }
        if d.outside n x then (s0, { g0 with dropped := g0.dropped + 1 })
        else
          match s0.elemValue c d exp pt n x with
          | .error e => (s0, { g0 with stop := some e })
          | .ok (v, fill, b) =>
            let g1 : Gathered := match b with | some a => g0.note a | none => g0
            let cv := convertTo 7 d.ovf v
            let w : Word := BitVec.ofNat 32 cv.bits
            let g2 : Gathered := { g1 with
              fills := g1.fills + (if fill then 1 else 0), nonfinite := g1.nonfinite || cv.nonfinite || nonfinite32 w }
            let loc := (d.sLoc n x).1
            match d.dstTile with
            | none =>
              match s0.vuse c (loc.headD 0) 4 with
              | .error e => (s0, { g2 with stop := some e })
              | .ok l =>
                let sum := fadd (BitVec.ofNat 32 (ofBytes l)) w
                let g3 := s0.putElem c d n x sum.toNat false { g2 with nonfinite := g2.nonfinite || nonfinite32 sum }
                if g3.stop.isSome then (s0, g3) else (s0.commitMem g3.mem, { g3 with mem := [] })
            | some t =>
              let y := s0.tile t.tile
              let k := y.task t.task
              if !(k.holdsBytes loc && loc.all fun a => k.inAcc (a.toNat / 64)) then
                (s0, { g2.note (loc.headD 0) with dropped := g2.dropped + 1 })
              else
                let pas := loc.map fun a => k.padAddr a.toNat
                match pas.find? fun p => decide (p / 64 ∈ y.padPoison) with
                | some pa => (s0, { g2 with stop := some (.poison pa) })
                | none =>
                  let sum := fadd (BitVec.ofNat 32 (ofBytes (pas.map fun p => y.pad.get p))) w
                  let g3 := s0.putElem c d n x sum.toNat false { g2 with nonfinite := g2.nonfinite || nonfinite32 sum }
                  (s0.setTile t.tile (y.commitPad desc g3.pad), { g3 with pad := [] })

/-! ### Reading with ECC -/

/-- The ranges of memory that an element reads. -/
def ODesc.reads (d : ODesc) (s : State) (c n : Nat) : List (Int × Nat) :=
  let x := match s.elemRow c d n with | .ok x => x | .error _ => 0
  let w := (widthOf d.sfmt + 7) / 8 + 1
  (if d.indexed then [((d.indexVA n : Int), 4)] else []) ++
    (if !d.dir && d.sMem && !d.outside n x || d.adds && d.sMem then [((d.sLoc n x).1.headD 0, w)] else []) ++
    (if d.dir && d.pMem then [((d.pLoc (d.posOf n)).1.headD 0, (widthOf d.pfmt + 7) / 8 + 1)] else []) ++
    (if d.mxSrc then [((d.scaleByteVA n : Int), 1)] else []) ++
    (if d.int8Src then (if d.perRow then (if d.sMem then [((d.strided (d.row n x) (d.e 0)).1, 4)] else [])
      else [((d.aux : Int), 4)]) else [])

/-- The ECC effects of the walk for what an element writes to memory. -/
def State.demandDst (s : State) (c : Nat) (d : ODesc) (n : Nat) : State :=
  let x := match s.elemRow c d n with | .ok x => x | .error _ => 0
  let l := (if d.dir then d.sLoc n x else d.pLoc (d.posOf n)).1
  let a := l.headD 0
  if d.dstTile.isSome || decide (a < 0) then s else s.demandWalks c a.toNat l.length 2

/-- The ECC effects of what elements read: corrected, or poisoned (R212, R214). -/
def State.demandElems (s : State) (c : Nat) (d : ODesc) (l : List Nat) : State :=
  if s.mem.errors = [] then s
  else l.foldl (fun s n =>
    ((d.reads s c n).foldl (fun s r => if r.1 < 0 then s else s.vdemand c r.1.toNat r.2) s).demandDst c d n) s

/-! ### Running a chunk -/

def State.desc (s : State) (id : Nat) : Option Desc := s.descs.find? (fun d => d.id == id)
def State.mapDesc (s : State) (id : Nat) (f : Desc → Desc) : State :=
  { s with descs := s.descs.map fun d => if d.id = id then f d else d }

/-- The linear indices of a chunk, in the order it takes them: a descriptor that runs whole takes ascending linear
index (R269). -/
def ODesc.elems (d : ODesc) (k : Chunk) : List Nat :=
  if k.lo = 0 ∧ k.count = d.total then List.range d.total else (List.range k.count).map fun i => d.linOf (k.lo + i)

/-- End a descriptor early: no further chunk of it begins (R261, R277). -/
def State.endDesc (s : State) (id : Nat) (status : Byte) : State :=
  let s1 : State := { s with ostlers := s.ostlers.mapAll fun o =>
    ({ o with queue := o.queue.filter (fun k => k.desc ≠ id) } : Ostler) }
  s1.mapDesc id fun d => { d with ended := some status, chunksLeft := 0, next := (odesc d.raw).total }

/-- The status of a stop (R264). -/
def Stop.status : Stop → Byte
  | .page _ _ => 3
  | .poison _ => 4

/-- Merge a chunk's maximum and saturations into its tensor's entry (R251, R54). -/
def State.mergeScale (s : State) (c : Nat) (d : ODesc) (g : Gathered) : State × Option Stop :=
  if d.fp8Dst && (g.amax != 0 || g.sat != 0) then s.scaleUpdate c d.tensor (fun e => e.merge g.amax g.sat) else (s, none)

/-- What a chunk gathers and, for SCATTER_ACC, adds. -/
def State.gather (s : State) (q : Desc) (d : ODesc) (k : Chunk) (en : Option ScaleEntry) : State × Gathered :=
  let c := q.ctx.val
  let l := d.elems k
  let s0 := s.demandElems c d l
  if d.adds then l.foldl (State.addElem c q.id d (match en with | some e => e.inForce.toInt | none => 0) q.lines) (s0, Gathered.none)
  else (s0, l.foldl (s0.storeElem c d en q.lines) Gathered.none)

/-- Perform a chunk of an Ostler: all it reads, then all it writes (R250 to R263). -/
def State.performChunk (s : State) (o : Nat) (q : Desc) (k : Chunk) : State :=
  let c := q.ctx.val
  let d := odesc q.raw
  let ref := s.srcRef q.src q.index
  let sF : State := { s with fresh := s.fresh + 2 }
  let failed (s : State) (e : Stop) : State := (s.stopEvent c kOstler o ref e).endDesc q.id e.status
  match sF.tensorEntry c d with
  | .error e => failed sF e
  | .ok en0 =>
    let r := sF.gather q d k (en0.getD none)
    let g := r.2
    let s1 := r.1.commitMem g.mem
    let s2 := match d.dstTile with
      | some t => s1.setTile t.tile (((s1.tile t.tile).commitPad q.id g.pad).noteNonfinite g.nonfinite)
      | none => s1
    let sP := s2.noteBucket c q.action (g.moved || g.mem.any fun w => s1.linePoison (w.at_ / 64))
    let s3 := if g.nonfinite then sP.setJob c { sP.job c with nonfinite := true } else sP
    let s4 := g.bounds.foldl (fun s a => s.event 0x0103 kTile c
      (match d.dstTile with
       | some t => t.tile
       | none => if d.sTile then (tileBase d.sbase).tile else (tileBase d.pbase).tile) ref (vaBits a)) s3
    let s5 := s4.mapDesc q.id fun e => { e with
      chunksLeft := e.chunksLeft - 1, fills := e.fills + g.fills, dropped := e.dropped + g.dropped, bits := e.bits + g.bits
      poisonMoved := e.poisonMoved || g.moved }
    let x := s5.ostler o
    let s6 := s5.setOstler o { x with bytes := x.bytes + BitVec.ofNat 64 (g.bits / 8) }
    let m := s6.mergeScale c d g
    match g.stop, m.2 with
    | some e, _ => failed m.1 e
    | none, some e => failed m.1 e
    | none, none => m.1

/-- Whether a chunk waits for a probe of its tensor, one that stalled too (R50, R251, R268). -/
def State.probeWait (s : State) (q : Desc) : Bool :=
  let d := odesc q.raw
  let j := s.job q.ctx.val
  d.fp8Dst && ((j.probing.find d.tensor).isSome || decide (d.tensor ∈ j.stalledProbes))

/-- The job superstep whose step a conversion issued now belongs to: during a Caravan the one that it begins. -/
def Job.nextSuperstep (j : Job) : Nat := if j.phase = .caravan then j.superstep + 1 else j.superstep

/-- Whether an action is an ISSUE that serves a later step: the superstep that needs it lies beyond the present step (R482). -/
def Job.issuedAhead (j : Job) (action : Option Nat) : Bool :=
  j.actions.any fun a => some a.id == action && bitsOf a.raw.toNat 255 252 == 1 &&
    decide (j.nextSuperstep / max 1 j.listS < (a.superstep + bitsOf a.raw.toNat 239 224) / max 1 j.listS)

/-- Whether a conversion waits for the push of its tensor's entry: one of the next step until the present step is decided and
pushed (R78). -/
def State.pushWait (s : State) (c : Nat) (action : Option Nat) (d : ODesc) : Bool :=
  let j := s.job c
  (d.fp8Src || d.fp8Dst) && (decide (BitVec.ofNat 16 d.tensor ∈ j.pushesLeft) ||
    (j.issuedAhead action && (j.decision == .pending || !j.pushesLeft.isEmpty)))

/-- Whether a chunk waits for its tensor's scale-table entry: a probe or a push (R78, R251, R268). -/
def State.scaleWait (s : State) (q : Desc) : Bool := s.probeWait q || s.pushWait q.ctx.val q.action (odesc q.raw)

/-- Physical lines of a tile that a chunk writes. -/
def State.chunkLines (s : State) (q : Desc) (k : Chunk) : List Nat :=
  let d := odesc q.raw
  match d.dstTile with
  | none => []
  | some t =>
    let task := (s.tile t.tile).task t.task
    (d.elems k).flatMap fun n =>
      let x := match s.elemRow q.ctx.val d n with | .ok x => x | .error _ => 0
      let l := if d.dir then d.sLoc n x else d.pLoc (d.posOf n)
      l.1.map fun a => task.padAddr a.toNat / 64

/-- Whether an Ostler point has received all that its descriptor consumes (R271). -/
def Desc.fed (q : Desc) : Bool :=
  let d := odesc q.raw
  !d.isPoint || decide (d.total * widthOf d.pfmt ≤ 512 * q.lines.length)

/-- Whether a descriptor's data cross the mesh and its edge attachments. -/
def ODesc.crossesMesh (d : ODesc) : Bool := d.sTile || d.pkind == 1

/-- Whether a chunk may run: one that crosses the mesh waits while its job's is frozen (R192), an add for an open region (R107), a
write for the checker (R498). -/
def State.chunkReady (s : State) (q : Desc) (k : Chunk) : Bool :=
  let d := odesc q.raw
  q.fed && !(d.crossesMesh && decide (0 < (s.job q.ctx.val).frozen)) && (match d.dstTile with
    | none => true
    | some t =>
      let x := s.tile t.tile
      !(d.adds && (x.task t.task).region.isNone) &&
        (x.runs.all (fun r => !r.checked || r.settled) || (s.chunkLines q k).all fun l => !x.heldByChecker l))

/-! ### The commands -/

/-- ORDER of a descriptor (R243). -/
def ostlerOrder (raw : BitVec 512) : Bool := raw.getLsbD 488

/-- Whether an earlier scatter-accumulate of the same source has not completed (R255). -/
def State.addsBefore (s : State) (src : Source) (raw : BitVec 512) : Bool :=
  (odesc raw).adds && s.descs.any fun q => q.src == src && (odesc q.raw).adds

/-- The Ostler that receives a descriptor (R266). -/
def State.dealTo (s : State) (d : ODesc) (group : Nat) : Nat :=
  if d.isPoint then bitsOf d.pbase 47 42
  else ((List.range 5).map (5 * group + ·)).foldl (fun best o =>
    if (s.ostler o).queue.length < (s.ostler best).queue.length then o else best) (5 * group)

/-- Whether ranges (address, bytes) cover the bytes from `lo` up to `hi`; `n` ranges are used at most. -/
def covered (l : List (Nat × Nat)) (hi : Nat) : Nat → Nat → Bool
  | 0, lo => decide (hi ≤ lo)
  | n + 1, lo =>
    decide (hi ≤ lo) || (match l.find? fun r => decide (r.1 ≤ lo) && decide (lo < r.1 + r.2) with
      | some r => covered l hi n (r.1 + r.2)
      | none => false)

/-- The spans of memory that a descriptor reads: its source, and its index, factor or scale bytes (R246, R252, R253). -/
def ODesc.readSpans (d : ODesc) : List (Int × Int) :=
  (if d.dir then (if d.pMem then [d.pSpan] else []) else if d.sMem then [d.sSpan] else []) ++
    (if d.indexed || (d.perRow && d.sMem) then d.sideSpans else []) ++
    (if d.mxSrc then [((d.aux : Int), ((d.aux + (d.total + 31) / 32 : Nat) : Int))] else []) ++
    (if d.int8Src && !d.perRow then [((d.aux : Int), ((d.aux + 4 : Nat) : Int))] else [])

/-- Whether what a descriptor reads of a command's destination `dest` lies in ranges that have landed (R410). -/
def ODesc.hasLanded (d : ODesc) (dest l : List (Nat × Nat)) : Bool :=
  d.readSpans.all fun r => dest.all fun t =>
    let lo := max r.1.toNat t.1
    covered l (min r.2.toNat (t.1 + t.2)) (l.length + 1) lo

/-- Whether a descriptor that the Step Engine issued may start: a conversion of an ISSUE action waits until the bytes it reads
have landed, which all have when the command has completed (R410), and one that touches a scale-table entry waits for the push of
that entry (R78). -/
def State.engineReady (s : State) (e : Fin 8 × Option Nat × BitVec 512) : Bool :=
  let d := odesc e.2.2
  if s.pushWait e.1.val e.2.1 d then false
  else
  match (s.job e.1.val).actions.find? fun a => some a.id == e.2.1 with
  | some a => bitsOf a.raw.toNat 255 252 != 1 || (!a.cmdDue && !a.cmdOpen) ||
      s.courier.cmds.any fun k => decide (k.ctx = e.1) && decide (k.action = some a.id) && k.status.isNone &&
        d.hasLanded k.dest k.landed
  | none => true

/-- Where a descriptor of a source stands: its entry's slot, context, action and bits, if one may start. -/
def State.nextDescriptor (s : State) (src : Source) : Option (BitVec 16 × Nat × Option Nat × BitVec 512 × Bool) :=
  match src with
  | .ring r =>
    let x := s.ring r.val
    if x.kind = 1 ∧ x.context < 8 then (x.nextEntry ostlerOrder).map fun e => (e.index, x.context, none, e.raw, e.ep)
    else none
  | .engine c =>
    match s.engineDescs.find? (fun e => e.1 == c && s.engineReady e) with
    | some e => if ostlerOrder e.2.2 && s.descs.any (fun q => q.src == src) then none
        else some (0, c.val, e.2.1, e.2.2, false)
    | none => none

/-- Take a descriptor from its source. -/
def State.takeDescriptor (s : State) (src : Source) (index : BitVec 16) : State :=
  match src with
  | .ring r => s.startEntry r.val index
  | .engine c => { s with engineDescs := s.engineDescs.eraseP fun e => e.1 == c && s.engineReady e }

/-- Complete a descriptor's entry, or count it for the action that issued it. -/
def State.finishDesc (s : State) (src : Source) (index : BitVec 16) (ctx : Nat) (action : Option Nat) (status : Byte)
    (a b c : Nat) : State :=
  match src with
  | .ring r => s.complete r.val index status (BitVec.ofNat 64 a) (BitVec.ofNat 64 b) (BitVec.ofNat 64 c)
  | .engine _ =>
    let j := s.job ctx
    let as : List Action := j.actions.map fun x =>
      if some x.id = action then { x with descsLeft := x.descsLeft - 1 } else x
    s.setJob ctx { j with actions := as }

/-- OSTLER_DESCRIPTOR_FETCH (R242, R264, R266): checked, and dealt to an Ostler or rejected. -/
def execOstlerDescriptorFetch (src : Source) (s : State) : Out :=
  match s.nextDescriptor src with
  | none => .next s
  | some (index, c, action, raw, ep) =>
    let j := s.job c
    let r0 := s.srcRef src index
    let d := odesc raw
    if ep ∨ !j.present then
      match src with
      | .ring r => .next ((s.event 0x000E kHost c 0 r0 0xFFFFFFFF).complete r.val index 2 0 0 0)
      | .engine _ => .next s
    else if !j.running ∨ s.addsBefore src raw then .next s
    else
      let group : Option Nat := match src with
        | .ring r => some (s.ring r.val).group
        | .engine _ => none
      let o := s.dealTo d (group.getD 0)
      let s1 : State := { s.takeDescriptor src index with fresh := s.fresh + 1 }
      let s2 := if d.fp8Dst || d.fp8Src then s1.vdemand c (s1.scaleVA c d.tensor) 128 else s1
      let reject (s : State) (code : BitVec 16) (n : Nat) : Out :=
        .next (((s.event code kOstler c o r0 n).finishDesc src index c action 2 0 0 0).stopAtCurfew c)
      let fail (s : State) (e : Stop) : Out :=
        .next (((s.stopEvent c kOstler o r0 e).finishDesc src index c action e.status 0 0 0).stopAtCurfew c)
      let chk := d.check j.cfg group
      match chk with
      | .invalid => reject s2 0x0006 0
      | .overlap n => reject s2 0x0007 n
      | _ =>
        match s2.tensorEntry c d with
        | .error e => fail s2 e
        | .ok none => reject s2 0x0006 0
        | .ok (some en) =>
          let probed : State × Option Stop := match en with
            | some e => if d.fp8Dst && !e.seeded && !e.isProbing then s2.probe c d.tensor e else (s2, none)
            | none => (s2, none)
          match probed with
          | (s3, some e) => fail s3 e
          | (s3, none) =>
            let b : Nat := match chk with | .bounced n => n | _ => 0
            let s4 := if b = 0 then s3 else s3.event 0x0008 kOstler c o r0 b
            let q : Desc := { id := s4.nextDesc, src := src, index := index, ctx := ⟨c % 8, Nat.mod_lt _ (by decide)⟩
                              raw := raw, action := action, ostler := o, bounced := b != 0, next := 0, chunksLeft := 0
                              ended := none, poisonMoved := false, fills := 0, dropped := 0, bits := 0, granted := 0
                              lines := [], ctrl := none }
            .next { s4 with descs := s4.descs ++ [q], nextDesc := s4.nextDesc + 1 }

/-- The chunks of a descriptor from a position on, at most `room` of them. -/
def chunksFrom (id total len : Nat) : Nat → Nat → List Chunk
  | 0, _ => []
  | room + 1, lo =>
    if total ≤ lo then [] else ⟨id, lo, min len (total - lo)⟩ :: chunksFrom id total len room (lo + len)

/-- OSTLER_CHUNK_SPLIT: the oldest descriptor not wholly split fills the queue, which holds 64 chunks (R267), under the
OST_GROUP_CTRL that its splitting began with (R275). -/
def execOstlerChunkSplit (ostler : Fin 40) (s : State) : Out :=
  let o := ostler.val
  let x := s.ostler o
  match s.descs.find? fun q => decide (q.ostler = o) && decide (q.next < (odesc q.raw).total) with
  | none => .next s
  | some q =>
    let d := odesc q.raw
    let ctl := q.ctrl.getD (s.groups.get 0x80000001 (o / 5))
    let len := if d.unsplit q.bounced then d.total else d.chunkLen (bitsOf ctl.toNat 1 0)
    let ks := chunksFrom q.id d.total len (64 - x.queue.length) q.next
    let n := (ks.map (·.count)).sum
    .next ((s.setOstler o { x with queue := x.queue ++ ks }).mapDesc q.id fun e =>
      { e with next := e.next + n, chunksLeft := e.chunksLeft + ks.length, ctrl := some ctl })

/-- The first chunk of a queue whose descriptor does not wait on a probe or a push (R78, R268). -/
def State.headChunk (s : State) (l : List Chunk) : Option (Chunk × Desc) :=
  l.findSome? fun k => match s.desc k.desc with
    | some q => if s.scaleWait q then none else some (k, q)
    | none => none

/-- OSTLER_CHUNK_RUN: the chunk at the head of the queue (R268). -/
def execOstlerChunkRun (ostler : Fin 40) (s : State) : Out :=
  let o := ostler.val
  let x := s.ostler o
  match s.headChunk x.queue with
  | none => .next s
  | some (k, q) =>
    if !s.chunkReady q k then .next s
    else
      .next ((s.setOstler o { x with queue := x.queue.erase k, current := some k, bounce := q.bounced }).performChunk o q k)

/-- Whether an idle Ostler may take a chunk: not one of a descriptor that waits on a probe or a push, nor of one that runs whole
where it was received, nor of one split while stealing was off (R268, R269, R275). -/
def State.takeable (s : State) (k : Chunk) : Bool :=
  match s.desc k.desc with
  | some q => !s.scaleWait q && !(odesc q.raw).unsplit q.bounced && (q.ctrl.getD 0).getLsbD 31
  | none => false

/-- CHUNK_STEAL: an idle Ostler takes a chunk from the tail of its group's longest queue (R268). -/
def execChunkSteal (ostler : Fin 40) (s : State) : Out :=
  let o := ostler.val
  let x := s.ostler o
  let g := o / 5
  if x.queue ≠ [] ∨ x.current.isSome then .next s
  else
    let victim := ((List.range 5).map (5 * g + ·)).foldl (fun best v =>
      if (s.ostler best).queue.length < (s.ostler v).queue.length then v else best) (5 * g)
    let y := s.ostler victim
    match y.queue.reverse.find? s.takeable with
    | none => .next s
    | some k =>
      .next ((s.setOstler victim { y with queue := (y.queue.reverse.erase k).reverse }).setOstler o
        { x with queue := [k], stolen := x.stolen + 1 })

/-- Count a completion token of a tile task (R97): its lines in flight become visible. -/
def State.deliverToken (s : State) (desc : Nat) (d : ODesc) (ok : Bool) : State :=
  match d.dstTile with
  | none => s
  | some t =>
    let x := s.tile t.tile
    let x1 : Tile := { x with inFlight := x.inFlight.filter (fun f => f.desc ≠ desc) }
    s.setTile t.tile (if ok then x1.setTask t.task ((x1.task t.task).advanceToken d.token) else x1)

/-- Complete a descriptor whose chunks have finished (R261, R264, R265): its token advances unless a failed translation ended it
(R97). -/
def State.completeDesc (s : State) (q : Desc) : State :=
  let d := odesc q.raw
  let c := q.ctx.val
  let s1 : State := { s with
    descs := s.descs.filter fun e => e.id ≠ q.id
    ostlers := s.ostlers.mapAll fun o => match o.current with
      | some k => if k.desc = q.id then ({ o with current := none, bounce := false } : Ostler) else o
      | none => o }
  let s2 := s1.deliverToken q.id d (q.ended != some 3)
  let status : Byte := q.ended.getD (if q.poisonMoved then 1 else 0)
  let s3 := s2.finishDesc q.src q.index c q.action status q.fills q.dropped (q.bits / 8)
  if q.ended.isSome then s3.stopAtCurfew c else s3

/-- OSTLER_DESCRIPTOR_COMPLETE: its last chunk has finished. -/
def execOstlerDescriptorComplete (desc : Nat) (s : State) : Out :=
  match s.desc desc with
  | none => .next s
  | some q =>
    if q.chunksLeft = 0 ∧ q.next = (odesc q.raw).total then .next (s.completeDesc q) else .next s

/-- Whether a task's accumulate region is not open (R107, R108). -/
def State.unopened (s : State) (d : ODesc) : Bool :=
  match d.dstTile with
  | some t => ((s.tile t.tile).task t.task).region.isNone
  | none => false

/-- The scatter-accumulates into tiles that have not run and wait for an unopened region at a step's final Curfew (R108), in
ascending token and then descriptor order. -/
def State.waitingAdds (s : State) (c : Nat) : List Desc :=
  let l := s.descs.filter fun q => let d := odesc q.raw
    decide (q.ctx.val = c) && d.adds && s.unopened d && q.ended.isNone && q.fed && !(q.chunksLeft == 0 && q.next == d.total)
  (List.range 16).flatMap fun t => l.filter fun q => decide ((odesc q.raw).token.toNat = t)

/-- Open a region for an add that still waits, apply it whole and complete it: ACC_NOT_OPENED (R108). -/
def State.applyWaiting (s : State) (q : Desc) : State :=
  let d := odesc q.raw
  match d.dstTile with
  | none => s
  | some t =>
    let s0 := s.event 0x0004 kTile q.ctx.val t.tile t.task d.token.toNat
    let s1 : State := { s0 with ostlers := s0.ostlers.mapAll fun o =>
      ({ o with queue := o.queue.filter (fun k => k.desc ≠ q.id) } : Ostler) }
    let q1 : Desc := { q with next := d.total, chunksLeft := 1 }
    let s2 := (s1.mapDesc q.id fun _ => q1).performChunk q.ostler q1 ⟨q.id, 0, d.total⟩
    match s2.desc q.id with
    | some q2 => s2.completeDesc q2
    | none => s2

/-- The sources of a context's descriptors: its Ostler rings and the Step Engine. -/
def State.descSources (s : State) (c : Nat) : List Source :=
  ((List.finRange 64).filter fun r => (s.ring r.val).kind == 1 && (s.ring r.val).context == c).map Source.ring ++
    ((List.finRange 8).filter fun k => k.val == c).map Source.engine

/-- Fetch the next descriptor of a source where it adds into an unopened region (R108). -/
def State.fetchAdd (s : State) (src : Source) : State :=
  match s.nextDescriptor src with
  | some (_, _, _, raw, false) =>
    if (odesc raw).adds && s.unopened (odesc raw) then
      match execOstlerDescriptorFetch src s with
      | .next s1 => s1
      | _ => s
    else s
  | _ => s

/-- Apply every scatter-accumulate of a context that waits for a region, and then those that waited behind them in their rings,
`n` times at most (R108, R255, R310). That adds waiting behind others come in a later round is a DESIGN CHOICE (log entry 145). -/
def State.applyAdds (s : State) (c : Nat) : Nat → State
  | 0 => s
  | n + 1 =>
    let s1 := (s.descSources c).foldl State.fetchAdd s
    match s1.waitingAdds c with
    | [] => s1
    | l => (l.foldl (fun s q => s.applyWaiting q) s1).applyAdds c n

end Sys2Proof.Machine
end

