-- ==== Sys2Proof/Machine/Courier.lean ====
section
/-! DEFINITION. The Courier (R392 to R428): commands, participants, counts, routes, streams, folds, gates and queues. -/

namespace Sys2Proof.Machine

/-! ### The command (R393 to R398) -/

/-- The fields of a Courier command (R394). -/
structure CF where
  op : Nat
  order : Bool
  pack : Bool
  elem : Nat
  red : Nat
  axes : List Nat
  srcKind : Nat
  dstTiles : Bool
  stream : BitVec 4
  rsv : Bool
  tag : BitVec 16
  fill : Nat
  src : Nat
  dst : Nat
  table : Nat
  stage : Nat
  count : Nat
  slot : Nat
  auxn : Nat
  root : Nat
  collectAt : Nat
  deliverAt : Nat
  queue : Nat
  dir : Bool
deriving DecidableEq, Repr

def courierFields (raw : BitVec 512) : CF :=
  let v := raw.toNat
  { op := bitsOf v 511 508, order := bitOf v 507, pack := bitOf v 506, elem := bitsOf v 505 503, red := bitsOf v 502 501,
    axes := [bitsOf v 500 498, bitsOf v 497 495, bitsOf v 494 492, bitsOf v 491 489], srcKind := bitsOf v 488 487,
    dstTiles := bitOf v 486, stream := raw.extractLsb' 482 4, rsv := bitsOf v 481 480 != 0 || bitsOf v 70 0 != 0,
    tag := raw.extractLsb' 464 16, fill := bitsOf v 463 448, src := bitsOf v 447 400, dst := bitsOf v 399 352,
    table := bitsOf v 351 304, stage := bitsOf v 303 256, count := bitsOf v 255 216, slot := bitsOf v 215 176,
    auxn := bitsOf v 175 160, root := bitsOf v 159 140, collectAt := bitsOf v 139 108, deliverAt := bitsOf v 107 76,
    queue := bitsOf v 75 72, dir := bitOf v 71 }

/-- The axes a command names, 0 D to 3 P: the list ends at the first absent entry (R395). -/
def CF.named (f : CF) : List Nat := (f.axes.takeWhile (· ≠ 0)).map (· - 1)

/-- R395: a non-empty list with no gap and no axis twice. -/
def CF.axesOk (f : CF) : Bool :=
  let l := f.named
  l != [] && (f.axes.drop l.length).all (· == 0) && l.all (decide <| · < 4) && l.eraseDups.length == l.length

/-- Bytes of an element. -/
def CF.es (f : CF) : Nat := widthOf f.elem / 8

/-- Commands that use the gate table (R406, R407). -/
def CF.gated (f : CF) : Bool := decide (f.op < 6) && f.op != 4 && (f.srcKind == 1 || f.dstTiles)

/-- A command's participants: extents and this module's position along its axes (R393). -/
structure Group where
  axes : List Nat
  exts : List Nat
  rings : List Bool
  mine : List Nat
deriving DecidableEq, Repr

def State.group (s : State) (c : Nat) (axes : List Nat) : Group :=
  let j := (s.job c).cfg
  { axes := axes, exts := axes.map j.extentOf, rings := axes.map j.isRing, mine := axes.map (s.position c) }

/-- N, the number of participants. -/
def Group.size (g : Group) : Nat := g.exts.foldl (· * ·) 1

/-- The flattened index of positions (R393). -/
def flatten : List Nat → List Nat → Nat
  | p :: ps, e :: es => p + e * flatten ps es
  | _, _ => 0

def Group.me (g : Group) : Nat := flatten g.mine g.exts

/-- The position of participant `i` along the k-th axis. -/
def Group.coord (g : Group) (i k : Nat) : Nat := i / (g.exts.take k).foldl (· * ·) 1 % g.exts.getD k 1

/-- Participant `i` with its k-th position replaced. -/
def Group.moved (g : Group) (i k p : Nat) : Nat :=
  flatten ((List.range g.exts.length).map fun x => if x = k then p else g.coord i x) g.exts

/-- Bytes of a command's table. -/
def CF.tableBytes (f : CF) (n : Nat) : Nat :=
  if f.op = 4 then 32 * f.count
  else if f.gated then 16 * f.auxn
  else if f.op < 4 ∧ f.op ≠ 2 ∧ f.table ≠ 0 then (if f.op = 3 then 8 * n * n else 8 * n)
  else 0

/-- Whether counts come from a table (R397). -/
def CF.tabled (f : CF) : Bool := f.table != 0 && !f.gated && (f.op == 0 || f.op == 1 || f.op == 3)

/-- The count of participant `i`, and of the pair (i, j) (R397). -/
def CF.cnt (f : CF) (tbl : List Byte) (i : Nat) : Nat := if f.tabled then numAt tbl (8 * i) 5 else f.count
def CF.pairCnt (f : CF) (tbl : List Byte) (n i j : Nat) : Nat := if f.tabled then numAt tbl (8 * (i * n + j)) 5 else f.count

/-- The offset of segment `i` of counts `c`, in elements (R397). -/
def CF.offset (f : CF) (c : Nat → Nat) (i : Nat) : Nat :=
  if f.pack then ((List.range i).map c).sum else i * f.slot

/-- Elements that `n` segments span. -/
def CF.span (f : CF) (c : Nat → Nat) (n : Nat) : Nat := if f.pack then f.offset c n else n * f.slot

/-- The run of participant `i` of an ALL_REDUCE: first element and count (R399). -/
def CF.run (f : CF) (n i : Nat) : Nat × Nat :=
  let q := ceilDiv f.count n
  (min f.count (i * q), min q (f.count - i * q))

/-- What owner `i` reduces: element offset at its destination and count (R399). -/
def CF.owned (f : CF) (tbl : List Byte) (n i : Nat) : Nat × Nat := if f.op = 2 then f.run n i else (0, f.cnt tbl i)

/-- The root's flattened index; ROOT gives five bits an axis, AXIS0 highest. -/
def CF.rootPos (f : CF) (k : Nat) : Nat := bitsOf f.root (19 - 5 * k) (15 - 5 * k)
def CF.rootIndex (f : CF) (g : Group) : Nat := flatten ((List.range g.exts.length).map f.rootPos) g.exts

/-! ### Moves of a PERMUTE (R412 to R414) -/

structure Move where
  srcPos : Nat
  dstPos : Nat
  srcVA : Nat
  dstVA : Nat
  bytes : Nat
deriving DecidableEq, Repr

def moveAt (tbl : List Byte) (i : Nat) : Move :=
  { srcPos := numAt tbl (32 * i) 3, dstPos := numAt tbl (32 * i + 3) 3, srcVA := numAt tbl (32 * i + 8) 6,
    dstVA := numAt tbl (32 * i + 16) 6, bytes := numAt tbl (32 * i + 24) 8 }

def CF.window (f : CF) : Nat := f.auxn * 65536

/-- Divide moves into rounds: no participant receives more than the window in one (R413). -/
def splitRounds (w : Nat) : List Move → List Move → List (List Move)
  | cur, [] => if cur = [] then [] else [cur]
  | cur, m :: ms =>
    let got := ((cur.filter fun x => x.dstPos = m.dstPos).map (·.bytes)).sum
    if got + m.bytes ≤ w then splitRounds w (cur ++ [m]) ms else cur :: splitRounds w [m] ms

def CF.rounds (f : CF) (tbl : List Byte) : List (List Move) :=
  splitRounds f.window [] ((List.range f.count).map (moveAt tbl))

/-- Whether two byte ranges meet. -/
def meets (a n b m : Nat) : Bool := decide (a < b + m) && decide (b < a + n) && decide (0 < n) && decide (0 < m)

/-- R414 and the fields of R412, on one participant. -/
def CF.movesOk (f : CF) (tbl : List Byte) (n me : Nat) : Bool :=
  let ms := (List.range f.count).map (moveAt tbl)
  let rs := f.rounds tbl
  (List.range f.count).all (fun i => numAt tbl (32 * i + 6) 2 == 0 && numAt tbl (32 * i + 14) 2 == 0 &&
      numAt tbl (32 * i + 22) 2 == 0) &&
    ms.all (fun m => decide (m.srcPos < n) && decide (m.dstPos < n) && m.bytes % 64 == 0 && decide (m.bytes ≤ f.window)) &&
    ms.all (fun m => !(m.srcPos == me && meets f.stage f.window m.srcVA m.bytes) &&
      !(m.dstPos == me && meets f.stage f.window m.dstVA m.bytes)) &&
    (List.range rs.length).all fun r => (rs.getD r []).all fun d => d.dstPos != me ||
      (rs.drop (r + 1)).all fun later => later.all fun x => x.srcPos != me || !meets d.dstVA d.bytes x.srcVA x.bytes

/-! ### The gate table (R408) -/

structure GateEntry where
  deliver : Bool
  tile : Nat
  channel : BitVec 4
  handler : BitVec 6
  gate : Nat
  lines : Nat
  offset : Nat
  start : Nat
  ok : Bool
deriving DecidableEq, Repr

def gateEntry (tbl : List Byte) (i : Nat) : GateEntry :=
  let v := numAt tbl (16 * i) 16
  let d := bitOf v 127
  { deliver := d, tile := bitsOf v 126 113, channel := BitVec.ofNat 4 (bitsOf v 112 109),
    handler := BitVec.ofNat 6 (bitsOf v 108 103), gate := bitsOf v 102 97, lines := bitsOf v 96 84,
    offset := bitsOf v 83 48, start := bitsOf v 31 0,
    ok := decide (1 ≤ bitsOf v 96 84) && decide (bitsOf v 96 84 ≤ 4096) && bitsOf v 53 48 == 0 && bitsOf v 47 32 == 0 &&
      (d || (bitsOf v 112 97 == 0 && bitsOf v 31 0 == 0)) }

def CF.gates (f : CF) (tbl : List Byte) : List GateEntry := (List.range f.auxn).map (gateEntry tbl)

/-! ### Checks (R417) -/

/-- The source and destination bytes of a command on this participant. -/
def CF.extents (f : CF) (tbl : List Byte) (g : Group) : Nat × Nat :=
  let n := g.size
  let me := g.me
  match f.op with
  | 0 => (f.cnt tbl me * f.es, f.span (f.cnt tbl) n * f.es)
  | 1 => (f.span (f.cnt tbl) n * f.es, f.cnt tbl me * f.es)
  | 2 => (f.count * f.es, f.count * f.es)
  | 3 => (f.span (f.pairCnt tbl n me) n * f.es, f.span (fun i => f.pairCnt tbl n i me) n * f.es)
  | 5 => (if me = f.rootIndex g then f.count * f.es else 0, f.count * f.es)
  | _ => (0, 0)

/-- The ranges of memory in which a command's results land on this participant. -/
def CF.landing (f : CF) (tbl : List Byte) (g : Group) : List (Nat × Nat) :=
  if f.op = 4 then (((List.range f.count).map (moveAt tbl)).filter fun m => m.dstPos = g.me).map fun m => (m.dstVA, m.bytes)
  else [(f.dst, (f.extents tbl g).2)]

/-- A base that a command needs. -/
def baseOk (b : Nat) : Bool := b != 0 && b % 64 == 0

/-- The checks that need no table. -/
def CF.fieldsOk (f : CF) (engine : Bool) : Bool :=
  let reduces := f.op == 1 || f.op == 2
  decide (f.op < 8) && f.elem != 4 && f.elem != 5 && f.red != 3 && !f.rsv && decide (f.srcKind < 2) && f.axesOk &&
    (engine == decide (0xF000 ≤ f.tag.toNat)) &&
    (if reduces then (f.elem == 0 || f.elem == 1 || f.elem == 7) && f.red != 0 else f.red == 0) &&
    [f.src, f.dst, f.table, f.stage].all (· % 64 == 0) && (f.op == 4 || f.stage == 0) &&
    (match f.op with
     | 4 => baseOk f.table && baseOk f.stage && f.auxn != 0
     | 6 => decide (1 ≤ f.count) && decide (f.count ≤ 4096) && decide (1 ≤ f.slot) && decide (f.slot ≤ 4096) &&
         (f.srcKind == 1 || baseOk f.dst)
     | 7 => true
     | _ => baseOk f.dst && (f.gated == (f.auxn != 0)) && (!f.gated || baseOk f.table))

/-- The checks that need the table and the group. -/
def CF.tableOk (f : CF) (tbl : List Byte) (g : Group) (j : JobCtx) : Bool :=
  let n := g.size
  let ext := f.extents tbl g
  let pairs := if f.op = 3 then n * n else n
  (!f.tabled || (List.range pairs).all fun i => numAt tbl (8 * i + 5) 3 == 0) &&
    (match f.op with
     | 0 | 1 | 3 => f.pack || (List.range pairs).all fun i => decide ((if f.tabled then numAt tbl (8 * i) 5 else f.count) ≤ f.slot)
     | 4 => f.movesOk tbl n g.me
     | 5 => (List.range g.exts.length).all fun k => decide (f.rootPos k < g.exts.getD k 1)
     | _ => true) &&
    (!f.gated || (f.gates tbl).all fun e => e.ok && j.holds e.tile) &&
    (decide (f.op = 4 ∨ 6 ≤ f.op) || (f.op == 5 && f.rootIndex g != g.me) || baseOk f.src) &&
    (decide (f.op = 4 ∨ 6 ≤ f.op) || (f.op == 2 && f.src == f.dst) || !meets f.src ext.1 f.dst ext.2)

/-! ### Routes (R403, R404) -/

/-- Whether this module goes forward along the k-th axis to reach a position; segment numbers break a tie. -/
def Group.forward (g : Group) (k target seg : Nat) : Bool :=
  let e := g.exts.getD k 1
  let p := g.mine.getD k 0
  if g.rings.getD k false then
    let d := (target + e - p) % e
    if 2 * d = e then seg % 2 == 0 else decide (2 * d < e)
  else decide (p < target)

/-- The port of a direction along the k-th axis: 2 × axis is the + port (R15). -/
def Group.port (g : Group) (k : Nat) (fwd : Bool) : Nat := 2 * g.axes.getD k 0 + (if fwd then 0 else 1)

/-- The port of the next hop towards a participant: AXIS0 is corrected first (R403). -/
def Group.hop (g : Group) (target seg : Nat) : Option Nat :=
  match (List.range g.exts.length).find? fun k => g.mine.getD k 0 ≠ g.coord target k with
  | none => none
  | some k => some (g.port k (g.forward k (g.coord target k) seg))

/-- How far a relayed segment goes along the k-th axis in a direction. -/
def Group.reach (g : Group) (k : Nat) (fwd : Bool) (seg : Nat) : Nat :=
  let e := g.exts.getD k 1
  let p := g.mine.getD k 0
  if g.rings.getD k false then
    (if e % 2 = 1 then (e - 1) / 2
     else if fwd == (seg % 2 == 0) then e / 2 else e / 2 - 1)
  else if fwd then e - 1 - p else p

/-- Where a segment is sent from here along the axes from the k-th on: the port and the last participant of each
path (R404). -/
def Group.spread (g : Group) (k seg : Nat) : List (Nat × Nat) :=
  ((List.range g.exts.length).filter (k ≤ ·)).flatMap fun x => [true, false].filterMap fun fwd =>
    let r := g.reach x fwd seg
    let e := g.exts.getD x 1
    let p := g.mine.getD x 0
    if r = 0 then none else some (g.port x fwd, g.moved g.me x (if fwd then (p + r) % e else (p + e - r) % e))

/-! ### Flits (R360, R405) -/

/-- Queue a flit on a port in its class (R363). -/
def State.flitOut (s : State) (p : Nat) (class1 : Bool) (f : TxFlit) : State :=
  let x := s.port p
  s.setPort p (if class1 then { x with class1 := x.class1 ++ [f] } else { x with class0 := x.class0 ++ [f] })

/-- A CTRL flit of a KIND. -/
def ctrlFlit (kind stream : Nat) (payload : List Byte) : TxFlit :=
  { type := 2, courier := BitVec.ofNat 28 (kind * 2 ^ 24 + stream * 2 ^ 18), payload := payload, poison := 0, nonfinite := false }

/-- The payload of an OPEN (R405). -/
def openPayload (tag : BitVec 16) (origin final offset count : Nat) : List Byte :=
  toBytes 2 tag.toNat ++ toBytes 3 origin ++ toBytes 3 final ++ toBytes 8 offset ++ toBytes 8 count

/-- The mark of each granule of a flit's bytes. -/
def granuleMarks (l : List MByte) : BitVec 15 :=
  BitVec.ofNat 15 ((List.range 15).foldl (fun a i => if ((l.drop (16 * i)).take 16).any (·.poison) then a + 2 ^ i else a) 0)

/-- The DATA flits of a stream's bytes, 240 bytes each. -/
def dataFlits (stream : Nat) : Nat → Nat → List MByte → List TxFlit
  | 0, _, _ => []
  | n + 1, i, l =>
    if l = [] then []
    else
      let c := l.take 240
      { type := 1, courier := BitVec.ofNat 28 (stream * 2 ^ 22 + i), payload := c.map (·.val), poison := granuleMarks c,
        nonfinite := c.any (·.nonfinite) } :: dataFlits stream n (i + 1) (l.drop 240)

def addCount (t : Tbl Dword) (p n : Nat) : Tbl Dword := t.set p (t.get 0 p + BitVec.ofNat 64 n)

/-- The streams of a port direction that are open: their last flit has not left (R405). -/
def State.streamsInUse (s : State) (p : Nat) : List Nat :=
  ((s.port p).class1.map fun f => bitsOf f.courier.toNat 27 22) ++
    s.courier.streams.flatMap fun e => (e.2.relays.filter fun r => r.1 == p).map (·.2)

/-- A stream number that a port direction may open: none while 64 segments are open (R405). -/
def State.freeStream (s : State) (p : Nat) : Option Nat :=
  let used := s.streamsInUse p
  ((List.range 64).map fun i => (s.courier.nextStream.get 0 p + i) % 64).find? fun n => decide (n ∉ used)

/-- Open a stream on a port: OPEN goes out, and the next stream number is taken. -/
def State.openStream (s : State) (p n : Nat) (tag : BitVec 16) (origin final offset count : Nat) : State :=
  let s1 := s.flitOut p false (ctrlFlit 0 n (openPayload tag origin final offset count))
  { s1 with courier := { s1.courier with nextStream := s1.courier.nextStream.set p ((n + 1) % 64) } }

/-- Put a segment on its port under a stream number. -/
def State.emitSegment (s : State) (h : HeldSegment) (n : Nat) : State :=
  let s0 := s.openStream h.port n h.tag h.origin h.final h.offset (h.data.length / max 1 h.elem)
  let s1 := (dataFlits n (h.data.length / 240 + 1) 0 h.data).foldl (fun s f => s.flitOut h.port true f) s0
  { s1 with courier := { s1.courier with tx := addCount s1.courier.tx h.port h.data.length } }

/-- Send one segment on a port, or hold it behind others until a stream number is free. -/
def State.sendSegment (s : State) (h : HeldSegment) : State :=
  match s.courier.held.any (fun x => x.port == h.port), s.freeStream h.port with
  | false, some n => s.emitSegment h n
  | _, _ => { s with courier := { s.courier with held := s.courier.held ++ [h] } }

/-- Send the segments that a port holds while stream numbers are free; `n` at most. -/
def State.sendHeld (s : State) (p : Nat) : Nat → State
  | 0 => s
  | k + 1 =>
    match s.courier.held.find? (fun h => h.port == p), s.freeStream p with
    | some h, some n =>
      (({ s with courier := { s.courier with held := s.courier.held.erase h } }).emitSegment h n).sendHeld p k
    | _, _ => s

/-- CRR_CTRL.SEGMENT in bytes. -/
def State.segmentBytes (s : State) : Nat := 65536 * 4 ^ (bitsOf s.courier.ctrl.toNat 1 0)

/-- Cut bytes of a transfer into numbered segments: number, element offset, bytes. `pos` is where they begin in the transfer. -/
def segments (seg es : Nat) : Nat → Nat → Nat → List MByte → List (Nat × Nat × List MByte)
  | 0, _, _, _ => []
  | n + 1, pos, off, l =>
    if l = [] then []
    else
      let k := seg - pos % seg
      (pos / seg, off, l.take k) :: segments seg es n (pos + k) (off + k / max 1 es) (l.drop k)

def cutTransfer (seg es pos off : Nat) (l : List MByte) : List (Nat × Nat × List MByte) :=
  segments seg es (l.length / seg + 2) pos off l

/-- Send bytes of a transfer to one participant (R403). -/
def State.sendTo (s : State) (g : Group) (tag : BitVec 16) (seg target pos off es : Nat) (l : List MByte) : State :=
  (cutTransfer seg es pos off l).foldl (fun s x =>
    match g.hop target x.1 with
    | some p => s.sendSegment ⟨p, tag, g.me, target, x.2.1, es, x.2.2⟩
    | none => s) s

/-- Send bytes of a transfer to every participant (R404). -/
def State.sendAll (s : State) (g : Group) (tag : BitVec 16) (seg pos off es : Nat) (l : List MByte) : State :=
  (cutTransfer seg es pos off l).foldl (fun s x =>
    (g.spread 0 x.1).foldl (fun s d => s.sendSegment ⟨d.1, tag, g.me, d.2, x.2.1, es, x.2.2⟩) s) s

/-! ### Memory with marks -/

/-- Read bytes of a context's memory with the poison of their lines. -/
def State.vtake (s : State) (c va n : Nat) : State × Except Stop (List MByte) :=
  let s0 := s.vdemand c va n
  match s0.pages c va n false with
  | (.ok _, ps) => (s0, .ok (ps.flatMap fun p => (List.range p.2).map fun i =>
      ⟨s0.mem.data.get (p.1 + i), s0.linePoison ((p.1 + i) / 64), false⟩))
  | (.fail code, ps) => (s0, .error (.page code (va + (ps.map (·.2)).sum)))
  | (.poisoned pa, _) => (s0, .error (.poison pa))

/-- The byte writes of a stream of bytes over translated pages. -/
def pageWrites : List MByte → List (Nat × Nat) → List ByteWrite
  | _, [] => []
  | l, p :: ps => ((l.take p.2).mapIdx fun i b => ⟨p.1 + i, 0xFF, b.val, b.poison⟩) ++ pageWrites (l.drop p.2) ps

/-- Write marked bytes to a context's memory. -/
def State.vput (s : State) (c va : Nat) (l : List MByte) : State × Option Stop :=
  let s0 := s.demandWalks c va l.length (l.length / 65536 + 2)
  match s.pages c va l.length true with
  | (.ok _, ps) => (s0.commitMem (pageWrites l ps), none)
  | (.fail code, ps) => (s0.commitMem (pageWrites l ps), some (.page code (va + (ps.map (·.2)).sum)))
  | (.poisoned pa, ps) => (s0.commitMem (pageWrites l ps), some (.poison pa))

/-! ### Commands in progress -/

def CCmd.f (k : CCmd) : CF := courierFields k.raw

/-- The command of a TAG; Courier traffic is matched by TAG alone (R442). -/
def State.cmdOf (s : State) (tag : BitVec 16) : Option CCmd := s.courier.cmds.find? fun k => k.tag == tag

/-- The command by which a TAG's traffic is relayed: one in progress, or one that has ended here (R404). -/
def State.routeOf (s : State) (tag : BitVec 16) : Option CCmd :=
  match s.cmdOf tag with
  | some k => some k
  | none => s.courier.ended.find? fun k => k.tag == tag

def State.mapCmd (s : State) (c : Nat) (tag : BitVec 16) (f : CCmd → CCmd) : State :=
  { s with courier := { s.courier with cmds := s.courier.cmds.map fun k => if k.ctx.val = c ∧ k.tag = tag then f k else k } }
def State.setCmd (s : State) (k : CCmd) : State := s.mapCmd k.ctx.val k.tag fun _ => k

def CCmd.group (k : CCmd) (s : State) : Group := s.group k.ctx.val k.f.named

/-- Set a job's NONFINITE flag (R295). -/
def State.noteJob (s : State) (c : Nat) (b : Bool) : State :=
  if b then s.setJob c { s.job c with nonfinite := true } else s

/-- End a command on a failed access (R220, R232, R419). -/
def State.cmdFail (s : State) (k : CCmd) (e : Stop) : State :=
  let s1 := s.stopEvent k.ctx.val kCourier 0 (s.srcRef k.src k.index) e
  let st : Byte := match e with
    | .page _ _ => 4
    | .poison _ => Config.courierPoisonStatus s.fresh
  { s1.setCmd { k with status := some st, failed := true } with fresh := s1.fresh + 1 }

/-- Clear the poison of the lines that lie wholly in ranges a command has written without poison: the flits of a line are one
write of it (R216, R217). `va` and `n` are the bytes written last. -/
def State.cleanLines (s : State) (c va n : Nat) (clean : List (Nat × Nat)) : State :=
  if s.mem.poison = [] then s
  else
    let whole := ((List.range ((va + n + 63) / 64 - va / 64)).map (va / 64 + ·)).filter fun l =>
      covered clean (64 * l + 64) (clean.length + 1) (64 * l)
    whole.foldl (fun s l => match s.translate c (64 * l : Nat) true with
      | .ok pa => { s with mem := { s.mem with poison := setMember s.mem.poison (pa / 64) false } }
      | _ => s) s

/-- The ranges that a command has written without poison, after `l` at `va`: a line that poison has come to is no longer whole. -/
def cleanAfter (clean : List (Nat × Nat)) (va : Nat) (l : List MByte) : List (Nat × Nat) :=
  if !l.any (·.poison) then clean ++ [(va, l.length)]
  else
    let gs := (List.range ((l.length + 15) / 16)).map fun i => (va + 16 * i, (l.drop (16 * i)).take 16)
    let bad := (gs.filter fun g => g.2.any (·.poison)).map (·.1)
    (clean.filter fun r => !bad.any fun b => meets r.1 r.2 (b / 64 * 64) ((b + 15) / 64 * 64 + 64 - b / 64 * 64)) ++
      (gs.filter fun g => !g.2.any (·.poison)).map fun g => (g.1, g.2.length)

/-- A command's own bytes received at its destination: write them, count them and note their marks. -/
def State.cmdPut (s : State) (k : CCmd) (va : Nat) (l : List MByte) (counts : Bool) : State :=
  let c := k.ctx.val
  match (s.noteJob c (l.any (·.nonfinite))).vput c va l with
  | (s1, some e) => (s1.noteBucket c k.action (l.any (·.poison))).cmdFail k e
  | (s1, none) =>
    let clean := cleanAfter k.clean va l
    let s2 := s1.cleanLines c va l.length clean
    let left := l.any (·.poison) || (match (s2.pages c va l.length false).2 with
      | ps => s2.pagePoison ps)
    (s2.noteBucket c k.action left).setCmd { k with
      got := if counts then k.got + l.length else k.got, poisonMoved := k.poisonMoved || l.any (·.poison)
      landed := if k.f.op = 4 ∧ counts then k.landed else k.landed ++ [(va, l.length)], clean := clean
      nonfinite := k.nonfinite || l.any (·.nonfinite), since := s.tick }

/-- The state of a command after `f`, where it has not ended. -/
def State.onCmd (s : State) (c : Nat) (tag : BitVec 16) (f : CCmd → State → State) : State :=
  match s.courier.cmds.find? (fun k => k.ctx.val = c && k.tag == tag) with
  | some k => if k.status.isNone then f k s else s
  | none => s

/-- Read a command's source bytes, with the NONFINITE marks of lines that a gate stream brought (R402); poison that they carry is
moved (R419). -/
def State.cmdRead (s : State) (k : CCmd) (va n : Nat) (f : List MByte → State → State) : State :=
  match s.vtake k.ctx.val va n with
  | (s1, .error e) => s1.cmdFail k e
  | (s1, .ok l) =>
    let l1 : List MByte := if k.nfLines = [] then l else l.mapIdx fun i b => { b with nonfinite := decide ((va + i) / 64 ∈ k.nfLines) }
    f l1 (if l.any (·.poison) then s1.mapCmd k.ctx.val k.tag fun q => { q with poisonMoved := true } else s1)

/-- Count payload bytes that a command has sent. -/
def State.cmdSent (s : State) (k : CCmd) (n : Nat) : State := s.mapCmd k.ctx.val k.tag fun x => { x with txBytes := x.txBytes + n }

/-- Write the fill of a destination's segments (R397). `cs` are their counts. -/
def State.cmdFill (s : State) (k : CCmd) (cs : List Nat) : State :=
  let f := k.f
  if f.pack then s
  else
    let v := (convertTo f.elem false (bf16.value f.fill)).bits
    (cs.zipIdx).foldl (fun s x => s.onCmd k.ctx.val k.tag fun q s =>
      let n := f.slot - x.1
      let l : List MByte := (List.replicate n (toBytes f.es v)).flatten.map fun b => ⟨b, false, false⟩
      let s1 := s.cmdPut q (f.dst + (x.2 * f.slot + x.1) * f.es) l false
      s1.mapCmd k.ctx.val k.tag fun q => { q with fills := q.fills + n }) s

/-! ### Folding (R69, R400, R402) -/

/-- The marked byte of a contribution. -/
def pieceByte (ps : List Piece) (sender off : Nat) : MByte :=
  match ps.find? fun p => decide (p.sender = sender) && decide (p.offset ≤ off) && decide (off < p.offset + p.data.length) with
  | some p => p.data.getD (off - p.offset) ⟨0, false, false⟩
  | none => ⟨0, false, false⟩

/-- The order in which an owner folds the contributions to the element at `off`: by index, or, with deterministic mode off, as
they arrived, its own at a place that is free (R69, R71, R400). -/
def foldOrder (det : Bool) (tag : BitVec 16) (n me : Nat) (ps : List Piece) (off : Nat) : List Nat :=
  if det then List.range n
  else
    let here := ps.filter fun p => decide (p.sender ≠ me) && decide (p.offset ≤ off) && decide (off < p.offset + p.data.length)
    let l := (here.map (·.sender)).foldl (fun l i => if i ∈ l then l else l ++ [i]) []
    l.insertIdx (Config.ownPlace tag % (l.length + 1)) me

/-- One element folded: widened to FP32, combined, converted once with OVF 1. -/
def foldElem (f : CF) (ps : List Piece) (order : List Nat) (off : Nat) : List MByte :=
  let parts := order.map fun i => (List.range f.es).map fun b => pieceByte ps i (off + b)
  let vals := parts.map fun l => to32 (valueOf f.elem (ofBytes (l.map (·.val))))
  let r := match vals with
    | [] => 0
    | v :: vs => vs.foldl (fun a x => if f.red = 1 then fadd a x else fmax a x) v
  let cv := convertTo f.elem true (of32 r)
  let poison := parts.any fun l => l.any (·.poison)
  let nf := parts.any (fun l => l.any (·.nonfinite)) || cv.nonfinite || nonfinite32 r
  (toBytes f.es cv.bits).map fun b => ⟨b, poison, nf⟩

/-- Marks spread over the 64-byte lines of a destination: `at_` is the first byte's address (R402). -/
def spreadMarks (at_ : Nat) (l : List MByte) : List MByte :=
  l.mapIdx fun i b =>
    let lo := (at_ + i) / 64 * 64 - at_
    let ln := (l.drop lo).take (64 - (at_ + lo) % 64)
    { b with poison := ln.any (·.poison), nonfinite := ln.any (·.nonfinite) }

/-- Bytes that an owner needs of every contribution. -/
def CCmd.owes (k : CCmd) (g : Group) : Nat := (k.f.owned k.table g.size g.me).2 * k.f.es

/-- The bytes of each contribution that an owner permits at a time: what its fold buffer of 4 MiB holds of all, no more than
4 KiB of one (R401; the size of a chunk is a DESIGN CHOICE, log entry 146). -/
def chunkBytes (n : Nat) : Nat :=
  let m := 4194304 / max 1 (n - 1)
  if 64 ≤ m then min 4096 (m / 64 * 64) else max 4 (m / 4 * 4)

/-- The bytes of the fold buffer that a command's grants have taken (R401). -/
def CCmd.buffered (k : CCmd) (n : Nat) : Nat := (k.grantedTo - k.foldedTo) * (n - 1)

/-- The bytes of the fold buffer in use. -/
def State.foldUse (s : State) : Nat :=
  ((s.courier.cmds.filter fun k => k.status.isNone && (k.f.op == 1 || k.f.op == 2)).map fun k => k.buffered (k.group s).size).sum

/-- A CTRL flit towards a participant (R403). -/
def State.ctrlTo (s : State) (g : Group) (target kind : Nat) (payload : List Byte) : State :=
  match g.hop target 0 with
  | some p => s.flitOut p false (ctrlFlit kind 0 payload)
  | none => s

/-- What a GRANT tells: the owner, the contributor and the bytes up to which it may send. -/
def grantPayload (tag : BitVec 16) (owner target upTo : Nat) : List Byte :=
  Config.ctrlPayload 2 tag (owner + 2 ^ 24 * target + 2 ^ 48 * upTo)

/-- Permit the next chunk of every contribution, once the last one is folded and the fold buffer has room for all (R401). -/
def State.grantNext (s : State) (c : Nat) (tag : BitVec 16) : State :=
  s.onCmd c tag fun k s =>
    let g := k.group s
    let n := g.size
    let upTo := min (k.owes g) (k.grantedTo + chunkBytes n)
    if !k.started ∨ (k.f.op ≠ 1 ∧ k.f.op ≠ 2) ∨ k.grantedTo ≠ k.foldedTo ∨ k.owes g ≤ k.foldedTo ∨
        4194304 < s.foldUse + (upTo - k.grantedTo) * (n - 1) then s
    else
      ((List.range n).filter (· ≠ g.me)).foldl (fun s i => s.ctrlTo g i 2 (grantPayload tag g.me i upTo))
        (s.setCmd { k with grantedTo := upTo })

/-- Permit what the fold buffer has room for, command by command. -/
def State.grantAll (s : State) : State :=
  (s.courier.cmds.map fun k => (k.ctx.val, k.tag)).foldl (fun s x => s.grantNext x.1 x.2) s

/-- The bytes of a contributor that have come. -/
def CCmd.upTo (k : CCmd) (i : Nat) : Nat := ((k.pieces.filter fun p => p.sender = i).map fun p => p.data.length).sum

/-- Fold the chunk that has been permitted once every contribution to it has come; an ALL_REDUCE then distributes the result
(R399, R400). -/
def State.cmdFold (s : State) (k : CCmd) : State :=
  let f := k.f
  let g := k.group s
  let n := g.size
  let o := f.owned k.table n g.me
  if !k.started ∨ k.grantedTo ≤ k.foldedTo ∨ (List.range n).any (fun i => decide (k.upTo i < k.grantedTo)) then s
  else
    let det := (s.job k.ctx.val).cfg.det
    let lo := o.1 * f.es + k.foldedTo
    let at_ := f.dst + (if f.op = 2 then lo else k.foldedTo)
    let m := (k.grantedTo - k.foldedTo) / max 1 f.es
    let res := spreadMarks at_ ((List.range m).flatMap fun e =>
      let off := lo + e * f.es
      foldElem f k.pieces (foldOrder det k.tag n g.me k.pieces off) off)
    let s1 := s.cmdPut { k with foldedTo := k.grantedTo } at_ res false
    let s2 := s1.onCmd k.ctx.val k.tag fun q s =>
      if f.op = 2 then (s.sendAll g k.tag k.segment k.foldedTo (lo / max 1 f.es) f.es res).cmdSent q res.length else s
    s2.grantAll

/-- Fold every chunk that is complete, `n` at most: a lone participant's own are all there at once (R395). -/
def State.foldOut (s : State) (k : CCmd) : Nat → State
  | 0 => s
  | n + 1 =>
    let s1 := s.cmdFold k
    match s1.courier.cmds.find? (fun q => q.ctx == k.ctx && q.tag == k.tag) with
    | some q => if q.status.isNone && decide (q.foldedTo < q.grantedTo) && decide (k.foldedTo < q.foldedTo) then s1.foldOut q n else s1
    | none => s1

/-! ### Starting and finishing -/

/-- The ports that a command exchanges CHECK on: both neighbours on each named axis (R418). -/
def State.checkPorts (s : State) (c : Nat) (f : CF) : List Nat := f.named.flatMap fun a => s.axisPorts c a

/-- The fields of a command that a CHECK covers: OPCODE, PACK, ELEM, OP, AXES, TAG, COUNT, SLOT and AUXN (R418). -/
def CF.checked (raw : BitVec 512) : BitVec 512 :=
  let v := raw.toNat
  let keep (hi lo : Nat) : Nat := bitsOf v hi lo * 2 ^ lo
  BitVec.ofNat 512 (keep 511 508 + keep 506 489 + keep 479 464 + keep 255 160)

/-- The CRC that a CHECK carries (R418). -/
def CCmd.crc (k : CCmd) : Word := crc32c (Config.commandBytes (CF.checked k.raw) k.table)

/-- The P port by which a queue's entries travel, and the one by which its credits come back (R415, R416). -/
def queuePort (back dir : Bool) : Nat := if back != dir then 7 else 6

/-- The ports that a command needs: those of its CHECKs; for a queue, the one that joins its two modules, if it leads into the job
(R392, R415, R418). -/
def State.needPorts (s : State) (c : Nat) (f : CF) : List Nat :=
  if f.op < 6 then s.checkPorts c f
  else
    let sender := if f.op = 6 then f.srcKind == 1 else
      match (s.job c).queues.find (f.queue + 16 * (if f.dir then 1 else 0)) with
      | some q => q.sender
      | none => false
    (s.axisPorts c 3).filter fun p => p == queuePort (!sender) f.dir

/-- Send an owner what it permits of this module's contribution and has not yet got (R400, R401). -/
def State.contribute (s : State) (k : CCmd) (owner : Nat) : State :=
  let f := k.f
  let g := k.group s
  let o := f.owned k.table g.size owner
  let at_ := (if f.op = 2 then o.1 else f.offset (f.cnt k.table) owner) * f.es
  let sent := k.sentTo.get 0 owner
  let upTo := min (k.granted.get 0 owner) (o.2 * f.es)
  if upTo ≤ sent then s
  else
    s.cmdRead k (f.src + at_ + sent) (upTo - sent) fun l s =>
      ((s.sendTo g k.tag k.segment owner sent (o.1 + sent / max 1 f.es) f.es l).cmdSent k l.length).mapCmd k.ctx.val k.tag fun q =>
        { q with sentTo := q.sentTo.set owner upTo }

/-- Where the bytes of a move lie in its receiver's window: moves of the round in table order (R413). -/
def windowOffset (r : List Move) (i : Nat) : Nat :=
  match r[i]? with
  | some m => (((r.take i).filter fun x => x.dstPos = m.dstPos).map (·.bytes)).sum
  | none => 0

/-- Send this module's bytes of a round; a move to itself goes straight into the window (R413). -/
def State.roundSend (s : State) (k : CCmd) (r : List Move) : State :=
  let f := k.f
  let g := k.group s
  (List.range r.length).foldl (fun s i => s.onCmd k.ctx.val k.tag fun q s =>
    match r[i]? with
    | none => s
    | some m =>
      if m.srcPos ≠ g.me then s
      else
        s.cmdRead q m.srcVA m.bytes fun l s =>
          if m.dstPos = g.me then s.cmdPut q (f.stage + windowOffset r i) l true
          else (s.sendTo g k.tag k.segment m.dstPos 0 (windowOffset r i / max 1 f.es) f.es l).cmdSent q l.length) s

/-- Bytes that this module receives in a round. -/
def roundNeed (r : List Move) (me : Nat) : Nat := ((r.filter fun m => m.dstPos = me).map (·.bytes)).sum

/-- Copy the window to the destinations of a round (R413). -/
def State.roundCopy (s : State) (k : CCmd) (r : List Move) : State :=
  let f := k.f
  let g := k.group s
  (List.range r.length).foldl (fun s i => s.onCmd k.ctx.val k.tag fun q s =>
    match r[i]? with
    | none => s
    | some m =>
      if m.dstPos ≠ g.me then s
      else s.cmdRead q (f.stage + windowOffset r i) m.bytes fun l s => s.cmdPut q m.dstVA l false) s

/-- What a DONE tells: the round and the participant. -/
def donePayload (tag : BitVec 16) (round sender : Nat) : List Byte := Config.ctrlPayload 4 tag (sender + 2 ^ 24 * round)

/-- Carry a PERMUTE as far as it goes: DONE when the round's bytes have landed, the copy when every participant's DONE
has come, and the next round (R413). `n` bounds the rounds. -/
def State.permuteOn (s : State) (c : Nat) (tag : BitVec 16) : Nat → State
  | 0 => s
  | n + 1 => s.onCmd c tag fun k s =>
    let g := k.group s
    let rs := k.f.rounds k.table
    match rs[k.round]? with
    | none => s
    | some r =>
      if k.got < roundNeed r g.me then s
      else
        let s1 := if k.ownDone then s
          else ((s.checkPorts c k.f).foldl (fun s p => s.flitOut p false (ctrlFlit 4 0 (donePayload tag k.round g.me))) s).mapCmd
            c tag fun q => { q with ownDone := true }
        if ((List.range g.size).filter (· ≠ g.me)).all fun i => (k.round, i) ∈ k.dones then
          let s2 := s1.onCmd c tag fun q s => s.roundCopy q r
          let s3 := s2.mapCmd c tag fun q => { q with
            round := k.round + 1, got := 0, ownDone := false, dones := q.dones.filter fun d => decide (k.round < d.1) }
          let s4 := match rs[k.round + 1]? with
            | some r2 => s3.onCmd c tag fun q s => s.roundSend q r2
            | none => s3
          s4.permuteOn c tag n
        else s1

/-- The queue that a QUEUE_OPEN opens (R415). -/
def CF.newQueue (f : CF) : PipeQueue :=
  { tag := f.tag, dir := f.dir, sender := f.srcKind == 1, base := f.dst, elem := f.elem, entryLines := f.count, depth := f.slot
    stream := f.stream, credits := f.slot, sent := 0, landed := 0, read := 0, released := 0, partial_ := [], ends := [] }

def CF.queueKey (f : CF) : Nat := f.queue + 16 * (if f.dir then 1 else 0)

/-- Let a command's data flow: its CHECKs agree and its source is filled (R396, R406, R418). -/
def State.cmdStart (s : State) (k0 : CCmd) : State :=
  let f := k0.f
  let c := k0.ctx.val
  let g := k0.group s
  let n := g.size
  let me := g.me
  let k : CCmd := { k0 with started := true, segment := s.segmentBytes, since := s.tick }
  let s := s.setCmd k
  match f.op with
  | 0 =>
    let o := f.offset (f.cnt k.table) me
    s.cmdRead k f.src (f.cnt k.table me * f.es) fun l s =>
      let s1 := (s.cmdPut k (f.dst + o * f.es) l false).cmdFill k ((List.range n).map (f.cnt k.table))
      s1.onCmd c k.tag fun q s => (s.sendAll g k.tag k.segment 0 o f.es l).cmdSent q l.length
  | 1 | 2 =>
    let o := f.owned k.table n me
    let at_ := if f.op = 2 then o.1 else f.offset (f.cnt k.table) me
    s.cmdRead k (f.src + at_ * f.es) (o.2 * f.es) fun l s =>
      let s1 := (s.mapCmd c k.tag fun q => { q with pieces := q.pieces ++ [⟨me, o.1 * f.es, l⟩] }).grantNext c k.tag
      let s2 := k.granted.foldl (fun s i => s.onCmd c k.tag fun q s => s.contribute q i.1) s1
      s2.onCmd c k.tag fun q s => s.foldOut q (q.owes g / 4 + 1)
  | 3 =>
    let mineAt (i : Nat) := f.offset (fun i => f.pairCnt k.table n i me) i
    let s1 := s.cmdFill k ((List.range n).map fun i => f.pairCnt k.table n i me)
    (List.range n).foldl (fun s j => s.onCmd c k.tag fun q s =>
      let at_ := f.offset (f.pairCnt k.table n me) j
      s.cmdRead q (f.src + at_ * f.es) (f.pairCnt k.table n me j * f.es) fun l s =>
        if j = me then s.cmdPut q (f.dst + mineAt me * f.es) l false
        else (s.sendTo g k.tag k.segment j 0 (f.offset (fun i => f.pairCnt k.table n i j) me) f.es l).cmdSent q l.length) s1
  | 4 =>
    let s1 := match (f.rounds k.table)[0]? with
      | some r => s.roundSend k r
      | none => s
    s1.permuteOn c k.tag ((f.rounds k.table).length + 1)
  | 5 =>
    if f.rootIndex g = me then
      s.cmdRead k f.src (f.count * f.es) fun l s =>
        let s1 := s.cmdPut k f.dst l false
        s1.onCmd c k.tag fun q s => (s.sendAll g k.tag k.segment 0 0 f.es l).cmdSent q l.length
    else s
  | 6 => s.setJob c { s.job c with queues := (s.job c).queues.set f.queueKey f.newQueue }
  | _ => s

/-- Start a command whose conditions hold: a queue command has no source to fill (R415). -/
def State.cmdTry (s : State) (c : Nat) (tag : BitVec 16) : State :=
  s.onCmd c tag fun k s =>
    if !k.started && k.checks == [] && (k.f.srcKind == 0 || decide (6 ≤ k.f.op) || k.collected) then s.cmdStart k else s

/-- Bytes that a command receives from the others at its destination. -/
def CCmd.need (k : CCmd) (g : Group) : Nat :=
  let f := k.f
  let n := g.size
  match f.op with
  | 0 => (((List.range n).filter (· ≠ g.me)).map fun i => f.cnt k.table i * f.es).sum
  | 2 => (f.count - (f.run n g.me).2) * f.es
  | 3 => (((List.range n).filter (· ≠ g.me)).map fun i => f.pairCnt k.table n i g.me * f.es).sum
  | 5 => if f.rootIndex g = g.me then 0 else f.count * f.es
  | _ => 0

/-- Whether every owner has been sent this module's whole contribution. -/
def CCmd.sentAll (k : CCmd) (g : Group) : Bool :=
  (List.range g.size).all fun i => i == g.me || decide ((k.f.owned k.table g.size i).2 * k.f.es ≤ k.sentTo.get 0 i)

/-- Whether a command's result is complete in memory. -/
def State.cmdLanded (s : State) (k : CCmd) : Bool :=
  let f := k.f
  let g := k.group s
  k.started && (match f.op with
    | 1 => decide (k.owes g ≤ k.foldedTo) && k.sentAll g
    | 2 => decide (k.owes g ≤ k.foldedTo) && decide (k.need g ≤ k.got) && k.sentAll g
    | 4 => decide ((f.rounds k.table).length ≤ k.round)
    | 6 => true
    | 7 => match (s.job k.ctx.val).queues.find (f.queue + 16 * (if f.dir then 1 else 0)) with
        | some q => if q.sender then q.credits == q.depth else q.landed == q.released
        | none => true
    | _ => decide (k.need g ≤ k.got))

/-- Whether a command has finished: ended, or landed and delivered. -/
def State.cmdDone (s : State) (k : CCmd) : Bool :=
  k.status.isSome || (s.cmdLanded k && (!(k.f.gated && k.f.dstTiles) || k.delivered))

/-- Whether a port carries Courier traffic: authenticated or degraded (R380). -/
def Port.carries (p : Port) : Bool := p.link == .run && p.session.isSome && !p.loopback

/-- Whether a partner is still joined: authenticated or degraded, or in a retrain of an authenticated one, which keeps the session
(R376, R388). -/
def Port.joined (p : Port) : Bool := p.carries || (p.link == .train && p.rxKey.isSome && !p.loopback)

/-- A port that has lost its partner: the session state, the keys and the buffers are erased (R366, R376). The NAKs of the window stay,
for the event that names them (R378). -/
def Port.erase (x : Port) (st : Link) : Port :=
  { x with
    link := st, activeRx := 0, activeTx := 0, retrained := false, erased := none, mapVersion := 0, mapAsked := [], rxNext := none
    txVersion := 0, txPending := none, txAnnounced := false, nakOut := false, session := none, nextSession := none, lower := false
    txKey := none, rxKey := none, txOld := none, txFresh := false, rxFresh := false, authStep := 0, mySteps := 0, reauth := false
    loopback := false, nonce := 0, secret := 0, myMsgs := [], peerNonce := 0, peerPoint := 0, peerMsgs := [], authIn := [], txSeq := 0
    rxSeq := 0, txFrame := 0, txEpoch := 0, rxFrame := 0, rxEpoch := 0, rxMark := none, dropNext := false, txSlot := 0, txMark := []
    txHeads := [], txCipher := [], txTag := 0, class0 := [], class1 := [], retry := [], resend := [], credit1 := 4096, credit0 := 8
    owe1 := 0, owe0 := 0, rx := [], berCount := [] }

/-- The ports on which tokens go, with their axes (R159). -/
def State.tokenPorts (s : State) (c : Nat) : List (Nat × Nat) :=
  (List.range 4).flatMap fun a =>
    if (s.job c).cfg.curfewAxes.getLsbD a then (s.axisPorts c a).map fun p => (p, a) else []

/-- The Step Engine stops waiting for a partner in a Curfew: CURFEW_PARTNER_LOST, and the job is held (R161). -/
def State.partnerLost (s : State) (c p : Nat) : State :=
  (s.event 0x0801 kStep c 0 (s.job c).curfew.toNat p).holdJob c

/-- Whether a job waits in a Curfew for a partner's token on a port. -/
def State.awaits (s : State) (c p : Nat) : Bool :=
  let j := s.job c
  j.phase == .curfew && !j.held && (s.tokenPorts c).any (fun q => q.1 == p) && j.tokens.all fun t => t.1.val != p || t.2 != j.curfew

/-! ### Taking a command -/

/-- ORDER of a Courier command (R394). -/
def courierOrder (raw : BitVec 512) : Bool := raw.getLsbD 507

/-- The next command of a source with an opcode, if it may start; any of the eight takes a command whose OPCODE is invalid, which is
then rejected (R394, R417). -/
def State.nextCommand (s : State) (src : Source) (op : Nat) : Option (BitVec 16 × Nat × Option Nat × BitVec 512 × Bool) :=
  let here (raw : BitVec 512) : Bool := (courierFields raw).op == op || decide (8 ≤ (courierFields raw).op)
  match src with
  | .ring r =>
    let x := s.ring r.val
    if x.kind = 2 ∧ x.context < 8 then
      match x.nextEntry courierOrder with
      | some e => if here e.raw then some (e.index, x.context, none, e.raw, e.ep) else none
      | none => none
    else none
  | .engine c =>
    match s.engineCmds.find? (fun e => e.1 == c) with
    | some e => if here e.2.2 && !(courierOrder e.2.2 && s.courier.cmds.any (fun k => k.src == src)) then
        some (0, c.val, e.2.1, e.2.2, false) else none
    | none => none

def State.takeCommand (s : State) (src : Source) (index : BitVec 16) : State :=
  match src with
  | .ring r => s.startEntry r.val index
  | .engine c => { s with engineCmds := s.engineCmds.eraseP fun e => e.1 == c }

/-- Close a command of its source: its record (R419), or its action, whose conversions are then issued (R410). -/
def State.closeCommand (s : State) (src : Source) (index : BitVec 16) (c : Nat) (action : Option Nat) (status : Byte)
    (a b : Nat) : State :=
  match src with
  | .ring r => s.complete r.val index status (BitVec.ofNat 64 a) (BitVec.ofNat 64 b) 0
  | .engine _ =>
    let j := s.job c
    let as : List Action := j.actions.map fun x => if some x.id = action then { x with cmdOpen := false } else x
    s.setJob c { j with actions := as }

/-- COURIER_COMMAND_INVALID (R417): nothing is written and the job stops. -/
def State.cmdInvalid (s : State) (src : Source) (index : BitVec 16) (c : Nat) (action : Option Nat) (tag : BitVec 16) : State :=
  (({ s.event 0x000B kCourier c 0 (s.srcRef src index) tag.toNat with fresh := s.fresh + 1 }).closeCommand
    src index c action 2 0 0).stopAtCurfew c

/-- COURIER_PARTNER_LOST: the command ends with status 3 and the job is held (R420). -/
def State.cmdLost (s : State) (k : CCmd) (code : BitVec 16) (port : Nat) : State :=
  let s1 := s.event code kCourier k.ctx.val 0 k.tag.toNat port
  (s1.setCmd { k with status := some 3 }).holdJob k.ctx.val

/-- Begin a checked command: CHECKs go out on the ports that it needs (R418). -/
def State.cmdBegin (s : State) (k : CCmd) : State :=
  let f := k.f
  let c := k.ctx.val
  let ports := s.needPorts c f
  let s1 : State := { s with courier := { s.courier with
    cmds := s.courier.cmds ++ [{ k with checks := ports }]
    ended := s.courier.ended.filter fun e => !(e.tag == k.tag) } }
  match ports.find? fun p => !(s.port p).joined with
  | some p => s1.onCmd c k.tag fun q s => s.cmdLost q 0x0802 p
  | none =>
    let s2 := ports.foldl (fun s p => s.flitOut p false (ctrlFlit 1 0 (Config.ctrlPayload 1 k.tag k.crc.toNat))) s1
    s2.cmdTry c k.tag

/-- A Courier command with opcode `op` of a source (R396, R417). -/
def State.courierCommand (s : State) (src : Source) (op : Nat) : State :=
  match s.nextCommand src op with
  | none => s
  | some (index, c, action, raw, ep) =>
    let j := s.job c
    let f := courierFields raw
    if ep ∨ !j.present then
      match src with
      | .ring r => (s.event 0x000E kHost c 0 (ringIndex r.val index) 0xFFFFFFFF).complete r.val index 2 0 0 0
      | .engine _ => s
    else if !j.running ∨ 64 ≤ s.courier.cmds.length then s
    else
      let g := s.group c f.named
      let s1 := s.takeCommand src index
      let engine := match src with | .ring _ => false | .engine _ => true
      let inUse := s.courier.cmds.any fun k => k.ctx.val = c && k.tag == f.tag
      let qOk := if op = 6 then (j.queues.find f.queueKey).isNone else op != 7 || (j.queues.find f.queueKey).isSome
      if !f.fieldsOk engine || inUse || !qOk then s1.cmdInvalid src index c action f.tag
      else
        let k : CCmd := { src := src, index := index, ctx := ⟨c % 8, Nat.mod_lt _ (by decide)⟩, raw := raw, action := action
                          tag := f.tag, table := [], checks := [], started := false, collected := false, granted := []
                          sentTo := [], pieces := [], grantedTo := 0, foldedTo := 0, got := 0, round := 0, ownDone := false, dones := []
                          fills := 0, txBytes := 0, poisonMoved := false, nonfinite := false, delivered := false
                          status := none, segment := s.segmentBytes, dest := [], landed := [], clean := []
                          nfLines := [], failed := false, since := s.tick }
        let n := f.tableBytes g.size
        let s2 := s1.vdemand c f.table n
        match s2.vuse c f.table n with
        | .error e =>
          let s3 : State := { s2 with courier := { s2.courier with cmds := s2.courier.cmds ++ [k] } }
          s3.cmdFail k e
        | .ok tbl =>
          if !f.tableOk tbl g j.cfg then s2.cmdInvalid src index c action f.tag
          else s2.cmdBegin { k with table := tbl, dest := f.landing tbl g }

/-- ALL_GATHER. -/
def execAllGather (src : Source) (s : State) : Out := .next (s.courierCommand src 0)
/-- REDUCE_SCATTER. -/
def execReduceScatter (src : Source) (s : State) : Out := .next (s.courierCommand src 1)
/-- ALL_REDUCE. -/
def execAllReduce (src : Source) (s : State) : Out := .next (s.courierCommand src 2)
/-- ALL_TO_ALL. -/
def execAllToAll (src : Source) (s : State) : Out := .next (s.courierCommand src 3)
/-- PERMUTE. -/
def execPermute (src : Source) (s : State) : Out := .next (s.courierCommand src 4)
/-- BROADCAST. -/
def execBroadcast (src : Source) (s : State) : Out := .next (s.courierCommand src 5)
/-- QUEUE_OPEN. -/
def execQueueOpen (src : Source) (s : State) : Out := .next (s.courierCommand src 6)
/-- QUEUE_CLOSE. -/
def execQueueClose (src : Source) (s : State) : Out := .next (s.courierCommand src 7)

/-! ### Received flits -/

/-- Whether an accepted flit is a given one: its TYPE, its COURIER field, the marks of DATA, and the bytes at the front of its payload,
which is padded to whole granules (R357). -/
def isFlit (t : TxFlit) (f : Flit) : Bool :=
  f.type == t.type && f.courier == t.courier && (t.type != 1 || (f.poison == t.poison && f.nonfinite == t.nonfinite)) &&
    f.payload.take t.payload.length == t.payload

/-- Whether a flit has been accepted and not taken (R364). -/
def Port.hasFlit (p : Port) (t : TxFlit) : Bool := p.rx.any (isFlit t)

/-- Take an accepted flit from a port's receive buffer, owing its credit (R362). -/
def Port.takeFlit (p : Port) (t : TxFlit) : Port :=
  let q : Port := { p with rx := p.rx.eraseP (isFlit t) }
  if t.type = 1 then { q with owe1 := q.owe1 + 1 } else { q with owe0 := q.owe0 + 1 }

/-- What a received flit makes of the state when the Courier or the Step Engine takes it: only once it has been accepted, and from a
partner that is authenticated or degraded (R364, R380). -/
def State.fromPort (s : State) (p : Nat) (t : TxFlit) (f : State → State) : State :=
  if (s.port p).carries && (s.port p).hasFlit t then f (s.setPort p ((s.port p).takeFlit t)) else s

/-- The window offset at which the move of a PERMUTE that a segment belongs to begins: a move of the present round, or of a later one
(R413). -/
def CCmd.moveBase (k : CCmd) (origin final offset : Nat) : Nat :=
  let rs := (k.f.rounds k.table).drop k.round
  let hit (r : List Move) (i : Nat) : Bool :=
    match r[i]? with
    | some m => m.srcPos == origin && m.dstPos == final && decide (windowOffset r i ≤ offset * k.f.es) &&
        decide (offset * k.f.es < windowOffset r i + m.bytes)
    | none => false
  (rs.findSome? fun r => ((List.range r.length).find? (hit r)).map fun i => windowOffset r i / max 1 k.f.es).getD 0

/-- The segment number of a segment within its transfer: its offset from the transfer's first element. -/
def CCmd.segNumber (k : CCmd) (g : Group) (origin final offset : Nat) : Nat :=
  let f := k.f
  let n := g.size
  let base := match f.op with
    | 0 => f.offset (f.cnt k.table) origin
    | 1 => 0
    | 2 => offset / max 1 (ceilDiv f.count n) * ceilDiv f.count n
    | 3 => f.offset (fun i => f.pairCnt k.table n i final) origin
    | 4 => k.moveBase origin final offset
    | _ => 0
  (offset - base) * f.es / max 1 k.segment

/-- Whether a segment of a command is relayed to every participant of its path (R404), or goes to its final participant
alone. -/
def CCmd.relayed (k : CCmd) (g : Group) (final offset : Nat) : Bool :=
  let f := k.f
  match f.op with
  | 0 | 5 => true
  | 2 => offset / max 1 (ceilDiv f.count g.size) != final
  | _ => false

/-- The axis of a command that a port lies on, and whether a flit received there travels forward. -/
def Group.arrival (g : Group) (p : Nat) : Option (Nat × Bool) :=
  match g.axes.findIdx? (· = p / 2) with
  | some k => some (k, p % 2 == 1)
  | none => none

/-- Where a segment received on a port is passed on to: ports and last participants. -/
def CCmd.passOn (k : CCmd) (g : Group) (p origin final offset : Nat) : List (Nat × Nat) :=
  match g.arrival p with
  | none => []
  | some (a, fwd) =>
    let seg := k.segNumber g origin final offset
    let straight := if g.mine.getD a 0 ≠ g.coord final a then [(g.port a fwd, final)] else []
    if k.relayed g final offset then straight ++ g.spread (a + 1) seg
    else if straight ≠ [] then straight
    else match g.hop final seg with
      | some q => [(q, final)]
      | none => []

/-- The queue of a TAG. -/
def State.queueOf (s : State) (tag : BitVec 16) (sender : Bool) : Option (Nat × Nat × PipeQueue) :=
  (List.range 8).findSome? fun c => (s.job c).queues.findSome? fun q =>
    if q.2.tag == tag && q.2.sender == sender then some (c, q.1, q.2) else none

/-- Whether a port has a free stream for each of a segment's onward ways. -/
def State.mayOpen (s : State) (onward : List (Nat × Nat)) : Bool := onward.all fun d => (s.freeStream d.1).isSome

/-- CTRL OPEN: the stream is bound, and opened on every port it goes on from (R404, R405). It waits in the receive buffer until this
module has taken the command of its TAG, by which it is routed, and until every onward port has a stream number free. -/
def execCtrlOpen (port : Fin 8) (stream : BitVec 6) (tag : BitVec 16) (origin final : Nat) (offset count : Nat)
    (s : State) : Out :=
  let onward := match s.routeOf tag with
    | some k => k.passOn (k.group s) port.val origin final offset
    | none => []
  if ((s.routeOf tag).isNone && (s.queueOf tag false).isNone && (Config.shipment tag).isNone) || !s.mayOpen onward then .next s
  else
    .next (s.fromPort port.val (ctrlFlit 0 stream.toNat (openPayload tag origin final offset count)) fun s =>
      let key := 64 * port.val + stream.toNat
      let r := onward.foldl (fun (r : State × List (Nat × Nat)) d =>
        match r.1.freeStream d.1 with
        | some n => (r.1.openStream d.1 n tag origin d.2 offset count, r.2 ++ [(d.1, n)])
        | none => r) (s, [])
      let ss := r.1.courier.streams.set key ⟨tag, origin, final, offset, count, 0, r.2⟩
      { r.1 with courier := { r.1.courier with streams := ss } })

/-- The participant at the other end of a port, as a flattened index. -/
def Group.beyond (g : Group) (p : Nat) : Nat :=
  match g.arrival p with
  | some (a, fwd) =>
    let e := g.exts.getD a 1
    let q := g.mine.getD a 0
    g.moved g.me a (if fwd then (q + e - 1) % e else (q + 1) % e)
  | none => 0

/-- COURIER_TABLE_MISMATCH with the ABORTs that tell it (R418). -/
def State.mismatch (s : State) (k : CCmd) (p : Nat) : State :=
  let s1 := s.event 0x000C kCourier k.ctx.val 0 k.tag.toNat ((k.group s).beyond p)
  (s1.needPorts k.ctx.val k.f).foldl (fun s p => s.flitOut p false (ctrlFlit 5 0 (Config.ctrlPayload 5 k.tag 0))) s1

/-- CTRL CHECK: equal CRCs let the command go on; others end it on every participant, and tell so of one that has ended here
(R418). A CHECK that comes before its command waits in the receive buffer. -/
def execCtrlCheck (port : Fin 8) (tag : BitVec 16) (crc : Word) (s : State) : Out :=
  match s.routeOf tag with
  | none => .next s
  | some k =>
    .next (s.fromPort port.val (ctrlFlit 1 0 (Config.ctrlPayload 1 tag crc.toNat)) fun s =>
      let c := k.ctx.val
      if (s.cmdOf tag).isNone ∨ k.status.isSome then (if k.crc = crc then s else s.mismatch k port.val)
      else if k.crc = crc then
        (s.setCmd { k with checks := dropFrom k.checks port.val, since := s.tick }).cmdTry c tag
      else (s.mismatch k port.val).setCmd { k with status := some 2 })

/-- CTRL GRANT: an owner permits a contributor's bytes up to a count; one for another participant goes on towards it (R401, R403). -/
def execCtrlGrant (port : Fin 8) (tag : BitVec 16) (grant : GrantTo) (s : State) : Out :=
  match s.routeOf tag with
  | none => .next s
  | some k =>
    .next (s.fromPort port.val (ctrlFlit 2 0 (grantPayload tag grant.owner grant.target grant.upTo)) fun s =>
      let g := k.group s
      if grant.target ≠ g.me then s.ctrlTo g grant.target 2 (grantPayload tag grant.owner grant.target grant.upTo)
      else if (s.cmdOf tag).isNone then s
      else
        let k1 : CCmd := { k with granted := k.granted.set grant.owner (max grant.upTo (k.granted.get 0 grant.owner)), since := s.tick }
        let s1 := s.setCmd k1
        if k.started ∧ k.status.isNone ∧ grant.owner ≠ g.me ∧ grant.owner < g.size ∧ (k.f.op = 1 ∨ k.f.op = 2) then s1.contribute k1 grant.owner
        else s1)

def State.setQueue (s : State) (c key : Nat) (q : PipeQueue) : State :=
  s.setJob c { s.job c with queues := (s.job c).queues.set key q }

/-- CTRL CREDIT: the sender's credits come back (R416). -/
def execCtrlCredit (port : Fin 8) (tag : BitVec 16) (credits : Nat) (s : State) : Out :=
  match s.queueOf tag true with
  | none => .next s
  | some (c, key, q) =>
    .next (s.fromPort port.val (ctrlFlit 3 0 (Config.ctrlPayload 3 tag credits)) fun s =>
      s.setQueue c key { q with credits := min q.depth (q.credits + credits) })

/-- CTRL DONE: a participant's bytes of a PERMUTE round have landed; the first word of it is passed on along every named axis, so that
it reaches every participant (R413). -/
def execCtrlDone (port : Fin 8) (tag : BitVec 16) (done : DoneOf) (s : State) : Out :=
  match s.routeOf tag with
  | none => .next s
  | some k =>
    .next (s.fromPort port.val (ctrlFlit 4 0 (donePayload tag done.round done.sender)) fun s =>
      if (s.cmdOf tag).isNone ∨ done.round < k.round ∨ (done.round, done.sender) ∈ k.dones ∨ done.sender = (k.group s).me then s
      else
        let s1 := ((s.checkPorts k.ctx.val k.f).filter (· ≠ port.val)).foldl
          (fun s p => s.flitOut p false (ctrlFlit 4 0 (donePayload tag done.round done.sender))) s
        (s1.setCmd { k with dones := (done.round, done.sender) :: k.dones, since := s.tick }).permuteOn k.ctx.val tag
          ((k.f.rounds k.table).length + 1))

/-- CTRL ABORT: the command ends with status 2, and the ABORT is passed on (R418); of a command that has ended it says nothing
new. -/
def execCtrlAbort (port : Fin 8) (tag : BitVec 16) (s : State) : Out :=
  match s.routeOf tag with
  | none => .next s
  | some k =>
    .next (s.fromPort port.val (ctrlFlit 5 0 (Config.ctrlPayload 5 tag 0)) fun s =>
      if (s.cmdOf tag).isNone ∨ k.status.isSome then s
      else
        let s1 := ((s.needPorts k.ctx.val k.f).filter (· ≠ port.val)).foldl
          (fun s p => s.flitOut p false (ctrlFlit 5 0 (Config.ctrlPayload 5 tag 0))) s
        s1.setCmd { k with status := some 2 })

/-- The bytes of a flit with their marks: a granule's mark marks its bytes. -/
def markedFlit (payload : List Byte) (poison : BitVec 15) (nonfinite : Bool) : List MByte :=
  payload.mapIdx fun i b => ⟨b, poison.getLsbD (i / 16), nonfinite⟩

/-- A flit's bytes at this participant: written, held for the fold, or landed in the window (R396, R401, R413). -/
def State.acceptBytes (s : State) (k : CCmd) (st : Stream) (l : List MByte) : State :=
  let f := k.f
  let c := k.ctx.val
  let g := k.group s
  let pos := 240 * st.nextIndex
  if k.relayed g st.final st.offset then s.cmdPut k (f.dst + st.offset * f.es + pos) l true
  else if st.final ≠ g.me then s
  else
    match f.op with
    | 1 | 2 =>
      let ps := k.pieces ++ [⟨st.origin, st.offset * f.es + pos, l⟩]
      let k1 : CCmd := { k with pieces := ps, since := s.tick, nonfinite := k.nonfinite || l.any (·.nonfinite) }
      ((s.noteJob c (l.any (·.nonfinite))).setCmd k1).foldOut k1 (k1.owes g / 4 + 1)
    | 3 => s.cmdPut k (f.dst + st.offset * f.es + pos) l true
    | 4 => (s.cmdPut k (f.stage + st.offset * f.es + pos) l true).permuteOn c k.tag ((f.rounds k.table).length + 1)
    | _ => s

/-- A queue entry's bytes at the receiver (R415). The entry has landed when its bytes are there without a gap, up to the slot's end or
to the end of a segment shorter than the longest (R403). -/
def State.acceptEntry (s : State) (c key : Nat) (q : PipeQueue) (st : Stream) (l : List MByte) (last : Bool) : State :=
  let es := widthOf q.elem / 8
  let at_ := st.offset * es + 240 * st.nextIndex
  match (s.noteJob c (l.any (·.nonfinite))).vput c (q.base + at_) l with
  | (s1, none) =>
    let size := 64 * q.entryLines
    let slot := at_ / max 1 size
    let end_ := at_ + l.length
    let got := q.partial_ ++ [(at_, l.length)]
    let ends := if last && (decide (end_ = size * (slot + 1)) || decide (st.count * es < s.segmentBytes)) then (slot, end_) :: q.ends
      else q.ends
    match ends.find? fun e => covered got e.2 (got.length + 1) (size * e.1) with
    | some e => s1.setQueue c key { q with
        landed := q.landed + 1, ends := ends.erase e, partial_ := got.filter fun r => decide (r.1 / max 1 size ≠ e.1) }
    | none => s1.setQueue c key { q with ends := ends, partial_ := got }
  | (s1, some e) => { s1.engineStop c kCourier 0 (Config.engineRef s1.fresh c).toNat e with fresh := s1.fresh + 1 }

/-- A shipment's bytes land in frames that the receiving context owns, with their poison (R216, R231, R305). -/
def State.landShipment (s : State) (tag : BitVec 16) (st : Stream) (l : List MByte) : State :=
  match Config.shipment tag with
  | none => s
  | some (c, va) =>
    match s.vput c (va + st.offset + 240 * st.nextIndex) l with
    | (s1, none) => s1
    | (s1, some e) => { s1.stopEvent c kPorter 0 (Config.engineRef s1.fresh c).toNat e with fresh := s1.fresh + 1 }

/-- DATA_FLIT: the next flit of an open stream is taken here and passed on (R360, R404); a stream that no command or queue claims
carries a shipment of another module's Porter (R305). -/
def execDataFlit (port : Fin 8) (stream : BitVec 6) (index : BitVec 22) (payload : List Byte) (poison : BitVec 15)
    (nonfinite : Bool) (s : State) : Out :=
  let key := 64 * port.val + stream.toNat
  match s.courier.streams.find key with
  | none => .next s
  | some st =>
    let cmd := s.routeOf st.tag
    let queue := s.queueOf st.tag false
    if st.nextIndex ≠ index.toNat ∨ (cmd.isNone ∧ queue.isNone ∧ (Config.shipment st.tag).isNone) then .next s
    else
      .next (s.fromPort port.val ⟨1, BitVec.ofNat 28 (stream.toNat * 2 ^ 22 + index.toNat), payload, poison, nonfinite⟩ fun s =>
        let l := markedFlit payload poison nonfinite
        let es := match cmd, queue with
          | some k, _ => k.f.es
          | none, some q => widthOf q.2.2.elem / 8
          | none, none => 1
        let last := decide (st.count * es ≤ 240 * st.nextIndex + payload.length)
        let co := s.courier
        let s0 : State := { s with courier := { co with
          rx := addCount co.rx port.val payload.length
          through := if st.relays = [] then co.through else addCount co.through port.val payload.length
          streams := if last then co.streams.drop key else co.streams.set key { st with nextIndex := st.nextIndex + 1 } } }
        let s1 := st.relays.foldl (fun (s : State) d =>
          let s2 := s.flitOut d.1 true ⟨1, BitVec.ofNat 28 (d.2 * 2 ^ 22 + index.toNat), payload, poison, nonfinite⟩
          { s2 with courier := { s2.courier with tx := addCount s2.courier.tx d.1 payload.length } }) s0
        match cmd, queue with
        | some k, _ => if k.status.isSome || (s.cmdOf st.tag).isNone then s1 else s1.acceptBytes k st l
        | none, some (c, qk, q) => s1.acceptEntry c qk q st l last
        | none, none => s1.landShipment st.tag st l)

/-- COURIER_COMMAND_COMPLETE: a finished command closes; its record waits for earlier ones (R419). -/
def execCourierCommandComplete (ctx : Fin 8) (tag : BitVec 16) (s : State) : Out :=
  let c := ctx.val
  match s.courier.cmds.find? (fun k => k.ctx.val = c && k.tag == tag) with
  | none => .next s
  | some k =>
    if !s.cmdDone k then .next s
    else
      let st : Byte := k.status.getD (if k.poisonMoved then 1 else 0)
      let s1 : State := { s with courier := { s.courier with
        cmds := s.courier.cmds.filter fun x => !(x.ctx.val = c && x.tag == tag)
        ended := s.courier.ended ++ [k] } }
      let s2 := if k.f.op = 7 ∧ k.status.isNone then
          s1.setJob c { s1.job c with queues := (s1.job c).queues.drop k.f.queueKey } else s1
      let s3 := s2.closeCommand k.src k.index c k.action st k.fills k.txBytes
      .next ((if k.failed then s3.stopAtCurfew c else s3).grantAll)

/-- CURFEW_TIMEOUT in ticks: 0 means 100,000 µs (R441). -/
def JobCtx.timeoutTicks (j : JobCtx) : Nat := 1600 * (if j.curfewTimeout = 0 then 100000 else j.curfewTimeout.toNat)

/-- End the probe of a tensor whose combination has stalled: PROBING clears, and the conversions that wait for it go on waiting
in the job that is now held (R50, R420). -/
def State.probeStalled (s : State) (c tensor port : Nat) : State :=
  let s1 := (s.event 0x0803 kCourier c 0 tensor port).scaleStep c tensor fun e => { e with ctl := putField e.ctl 26 1 0 }
  let j := s1.job c
  (s1.setJob c { j with
    probing := j.probing.drop tensor, probeSince := j.probeSince.drop tensor
    stalledProbes := addTo j.stalledProbes tensor }).holdJob c

/-- COURIER_STALLED: no progress for CURFEW_TIMEOUT ends the command, or the probe, and the job is held (R420, R50). -/
def execCourierStalled (ctx : Fin 8) (what : Stalled) (port : Fin 8) (s : State) : Out :=
  let c := ctx.val
  match what with
  | .probe tensor =>
    if ((s.job c).probing.find tensor.toNat).isNone ∨
        s.tick < (s.job c).probeSince.get 0 tensor.toNat + (s.job c).cfg.timeoutTicks then .next s
    else .next (s.probeStalled c tensor.toNat port.val)
  | .command tag =>
    match s.courier.cmds.find? (fun k => k.ctx.val = c && k.tag == tag) with
    | none => .next s
    | some k =>
      if s.cmdDone k ∨ s.tick < k.since + (s.job c).cfg.timeoutTicks then .next s
      else .next (s.cmdLost k 0x0803 port.val)

end Sys2Proof.Machine
end

