-- ==== Sys2Proof/Machine/Exchange.lean ====
section
/-! DEFINITION. The Caravan (R157, R162 to R207): route images, requests, grants, rings, chains, gates, freezes and its
end. -/

namespace Sys2Proof.Machine

/-! ### Route images (R162 to R166) -/

/-- A SOURCE entry of 128 bits (R164). -/
def sourceEntry (v : Nat) : SourceEntry :=
  { outCh := BitVec.ofNat 4 (bitsOf v 125 122), mode := BitVec.ofNat 3 (bitsOf v 121 119),
    destCh := BitVec.ofNat 4 (bitsOf v 118 115), pred := bitOf v 114, final := bitOf v 113,
    point := BitVec.ofNat 2 (bitsOf v 112 111), dest := BitVec.ofNat 14 (bitsOf v 110 97),
    dest2 := BitVec.ofNat 14 (bitsOf v 96 83), maxLines := BitVec.ofNat 13 (bitsOf v 82 70),
    start := BitVec.ofNat 32 (bitsOf v 63 32) }

/-- A SINK entry of 128 bits (R165). -/
def sinkEntry (v : Nat) : SinkEntry :=
  { inCh := BitVec.ofNat 4 (bitsOf v 125 122), task := BitVec.ofNat 2 (bitsOf v 121 120),
    offset := BitVec.ofNat 13 (bitsOf v 113 101), lines := BitVec.ofNat 13 (bitsOf v 100 88) }

/-- Fields of ROUTE_CFG. -/
def Tile.routeTask (x : Tile) : Nat := bitsOf x.routeCfg.toNat 31 30
def Tile.imageLines (x : Tile) : Nat := bitsOf x.routeCfg.toNat 29 23
def Tile.imageCount (x : Tile) : Nat := bitsOf x.routeCfg.toNat 22 13
def Tile.imageOffset (x : Tile) : Nat := bitsOf x.routeCfg.toNat 12 0

/-- The first scratchpad byte of image `i`. -/
def Tile.imageAt (x : Tile) (i : Nat) : Nat := (x.task x.routeTask).padAddr (64 * (x.imageOffset + i * x.imageLines))

/-- The gate tile of a gate point's DEST: bits [5:3] the port, [2:0] the gate. -/
def State.gateTileAt (s : State) (dest : Nat) : Nat := s.gateTileOf (dest % 64)

/-- Two line ranges meet. -/
def linesMeet (a n b m : Nat) : Bool := decide (a < b + m) && decide (b < a + n)

/-- The checks of a SOURCE entry (R166), and no others: a reserved field is not one of them. `before` are the entries already
accepted. -/
def State.sourceOk (s : State) (j : JobCtx) (tile v : Nat) (before : List SourceEntry) : Bool :=
  let e := sourceEntry v
  decide (e.mode.toNat < 5) && decide (e.point.toNat < 3) && !(before.any fun b => b.outCh == e.outCh) &&
    (match e.point.toNat with
     | 0 => j.holds e.dest.toNat
     | 1 => j.holds (s.gateTileAt e.dest.toNat)
     | _ => true) &&
    (e.mode != 1 || j.holds e.dest2.toNat) &&
    (!(e.isReduce && !e.final) || (e.point == 0 && decide (tile < e.dest.toNat)))

/-- The checks of a SINK entry (R166), and no others: its ring lies in its task's region and meets neither the task's
accumulate region, nor its overflow room of at least 128 lines, nor another ring. -/
def Tile.sinkOk (x : Tile) (v : Nat) (before : List SinkEntry) : Bool :=
  let e := sinkEntry v
  let t := x.task e.task.toNat
  let o := e.offset.toNat
  let n := e.lines.toNat
  !(before.any fun b => b.inCh == e.inCh) && decide (o + n ≤ t.spBound) && !(t.accLines != 0 && linesMeet o n t.accOffset t.accLines) &&
    !linesMeet o n t.ovfOffset t.ovfLines && decide (128 ≤ t.ovfLines) &&
    !(before.any fun b => linesMeet (t.spBase + o) n ((x.task b.task.toNat).spBase + b.offset.toNat) b.lines.toNat)

/-- Check entries in order: the table, or the index of the first that fails. -/
def State.checkEntries (s : State) (j : JobCtx) (tile : Nat) (x : Tile) (img : List Byte) :
    Nat → Nat → RouteTable → Except Nat RouteTable
  | 0, _, t => .ok t
  | n + 1, i, t =>
    let v := numAt img (64 + 16 * i) 16
    match bitsOf v 127 126 with
    | 1 => if s.sourceOk j tile v t.sources then
        s.checkEntries j tile x img n (i + 1) { t with sources := t.sources ++ [sourceEntry v] } else .error i
    | 2 => if x.sinkOk v t.sinks then
        s.checkEntries j tile x img n (i + 1) { t with sinks := t.sinks ++ [sinkEntry v] } else .error i
    | _ => .error i

/-- Check an image (R166): the table, or ARG1 of ROUTE_IMAGE_INVALID. -/
def State.checkImage (s : State) (j : JobCtx) (tile : Nat) (x : Tile) (img : List Byte) : Except Nat RouteTable :=
  let h := numAt img 0 16
  let n := bitsOf h 95 87
  if 256 < n ∨ 4 * (x.imageLines - 1) < n then .error 0xFFFF
  else s.checkEntries j tile x img n 0 ⟨BitVec.ofNat 32 (bitsOf h 127 96), [], []⟩

/-- Load image `i` into a tile's other table (R157, R166); a tile without images routes from empty ones (R470). A failure, or
a poisoned line (R220), is reported and the
job is to stop. -/
def State.loadImage (s : State) (c tile i : Nat) : State :=
  let x := s.tile tile
  if !x.recorded || x.routeCfg == 0 then s.setTile tile { x with next := some RouteTable.empty }
  else
    let pa := x.imageAt i
    let n := 64 * x.imageLines
    let bytes := (x.padRead pa n).1
    match (linesOf pa n).find? fun l => decide (l ∈ x.padPoison) with
    | some l =>
      let s1 : State := { s.event 0x0202 kTile c tile (Config.engineRef s.fresh c).toNat (64 * l) with fresh := s.fresh + 1 }
      let s2 := s1.setTile tile { x with next := some RouteTable.empty }
      s2.setJob c { s2.job c with stop := true }
    | none =>
      match s.checkImage (s.job c).cfg tile x bytes with
      | .ok t => s.setTile tile { x with next := some t }
      | .error e =>
        let s1 := s.event 0x0302 kTile c tile i e
        let s2 := s1.setTile tile { x with next := some RouteTable.empty }
        s2.setJob c { s2.job c with stop := true }

/-- The image index of a job superstep (R157, R479). -/
def Job.imageOf (j : Job) (n : Nat) : Nat :=
  match j.records[n % max 1 j.listS]? with
  | some r => r.image.toNat
  | none => 0

/-! ### The Waybill (R176, R183) -/

/-- Everything a Waybill carries. -/
structure Waybill where
  handler : Nat
  channel : Nat
  seq : Nat
  length : Nat
  source : Nat
  dest : Nat
  part : Nat
  redOp : Nat
  poison : Bool
  nonfinite : Bool
  wrap : Bool
  overflow : Bool
  gate : Bool
  chain : Bool
deriving DecidableEq, Repr

def bit (b : Bool) (n : Nat) : Nat := if b then 2 ^ n else 0

/-- Its 128 bits. -/
def Waybill.bits (w : Waybill) : Nat :=
  w.handler * 2 ^ 122 + w.channel * 2 ^ 118 + w.seq * 2 ^ 102 + w.length * 2 ^ 89 + w.source * 2 ^ 75 + w.dest * 2 ^ 61 +
    w.part * 2 ^ 58 + w.redOp * 2 ^ 56 + bit w.poison 55 + bit w.nonfinite 54 + bit w.wrap 53 + bit w.overflow 52 +
    bit w.gate 51 + bit w.chain 50

/-- The ring line of a Waybill: bytes [63:16] are zero. -/
def Waybill.line (w : Waybill) : List Byte := fitBytes 64 (toBytes 16 w.bits)

/-- RED_OP of a SOURCE entry's MODE (R176). -/
def SourceEntry.redOp (e : SourceEntry) : Nat := if e.isReduce then e.mode.toNat - 1 else 0

/-- A message's Waybill at a destination tile. -/
def Msg.waybill (m : Msg) (c dest : Nat) (overflow : Bool) : Waybill :=
  { handler := m.handler.toNat, channel := m.entry.destCh.toNat, seq := m.seq.toNat, length := m.lines, source := m.last,
    dest := dest, part := c, redOp := m.entry.redOp, poison := m.payload.any (·.2), nonfinite := m.nonfinite, wrap := false,
    overflow := overflow, gate := m.gate.isSome, chain := false }

/-! ### Messages of a job -/

def Job.msg (j : Job) (id : Nat) : Option Msg := j.msgs.find? fun m => m.id == id
def Job.mapMsg (j : Job) (id : Nat) (f : Msg → Msg) : Job :=
  let l : List Msg := j.msgs.map fun m => if m.id = id then f m else m
  { j with msgs := l }
def Msg.at_ (m : Msg) (dest : Nat) : Option MsgDest := m.dests.find? fun d => d.dest == dest
def Msg.mapDest (m : Msg) (dest : Nat) (f : MsgDest → MsgDest) : Msg :=
  let l : List MsgDest := m.dests.map fun d => if d.dest = dest then f d else d
  { m with dests := l }

def State.mapMsg (s : State) (c id : Nat) (f : Msg → Msg) : State := s.setJob c ((s.job c).mapMsg id f)

/-- A request bound for the next contributor of a chain (R172). -/
def Msg.chains (m : Msg) : Bool := m.entry.isReduce && !m.entry.final

/-- Whether a job's exchange moves: in a Caravan and not frozen (R192). -/
def Job.moves (j : Job) : Bool := j.phase == .caravan && j.frozen == 0

/-- The tiles of a multicast rectangle (R171). -/
def rectangle (a b : Nat) : List Nat :=
  let r0 := min (a / 100) (b / 100)
  let r1 := max (a / 100) (b / 100)
  let k0 := min (a % 100) (b % 100)
  let k1 := max (a % 100) (b % 100)
  (List.range (r1 + 1 - r0)).flatMap fun r => (List.range (k1 + 1 - k0)).map fun k => 100 * (r0 + r) + (k0 + k)

/-- The destinations of a SOURCE entry. -/
def SourceEntry.dests (e : SourceEntry) : List Nat :=
  if e.mode = 1 then rectangle e.dest.toNat e.dest2.toNat else [e.dest.toNat]

/-- Destinations with nothing arrived. -/
def newDests (l : List Nat) : List MsgDest := l.map fun d => ⟨d, .requested, 0, 0, 0, false, 0⟩

/-! ### Departure (R168, R169, R172) -/

/-- The lines of a message as its router reads them, with their poison; a line in flight may be missed (R97). -/
def Tile.readLines (x : Tile) (fresh : Nat) (t : Task) (addr : Word) (n : Nat) : List (List Byte × Bool) :=
  let y := x.seen fresh
  (List.range n).map fun i =>
    let pa := t.padAddr (addr.toNat + 64 * i)
    (y.pad.read pa 64, decide (pa / 64 ∈ y.padPoison))

/-- Whether a queued message has a line in its task's open accumulate region (R292). -/
def Tile.readWaits (x : Tile) (q : Queued) : Bool :=
  let t := x.task q.task.val
  t.region.isSome && (List.range q.lines).any fun i => t.inAcc (q.addr.toNat / 64 + i)

/-- Whether the previous message of an outbound channel has sent its lines: the last has reached every destination (R169; that a later
request does not follow it on the way is a DESIGN CHOICE, log entry 22). -/
def Job.channelFree (j : Job) (tile : Nat) (ch : BitVec 4) : Bool :=
  (j.msgs.filter fun m => m.source == tile && m.outCh == ch && m.gate.isNone).all fun m => m.null ||
    m.dests.all fun d => d.stage == .delivered || d.stage == .acked

/-- The partial that has arrived for a chain entry and is not yet taken (R172). -/
def Job.predecessor (j : Job) (tile : Nat) (e : SourceEntry) : Option Msg :=
  j.msgs.find? fun m => m.chains && m.entry.destCh == e.outCh &&
    m.dests.any (fun d => d.dest == tile && d.stage == .arrived)

/-- Note ACC_SEND_OPEN of a queued message once (R94, R292). -/
def State.noteSendOpen (s : State) (tile : Nat) (q : Queued) : State :=
  let x := s.tile tile
  if q.waited then s
  else
    let l : List Queued := x.queued.map fun e => if e = q then { e with waited := true } else e
    s.setTile tile (({ x with queued := l } : Tile).caravanContract 0x0005 q.ch.toNat (taskAddr q.task.val q.pc))

/-- Send a tile's queued message, combined with a predecessor's partial where one carries payload (R168, R172, R173). -/
def State.departWith (s : State) (c tile : Nat) (e : SourceEntry) (q : Option Queued) (p : Option Msg) : State :=
  let x := s.tile tile
  let j := s.job c
  let payload := match q with
    | some q => x.readLines s.fresh (x.task q.task.val) q.addr q.lines
    | none => []
  let pm := match p with | some m => if m.null then none else some m | none => none
  let bad : Bool := match q, pm with
    | some q, some m => m.lines != q.lines || m.handler != q.hid || m.entry.mode != e.mode
    | _, _ => false
  let seq := x.seqs.get 0 e.outCh.toNat
  let blank : Msg := { id := j.nextMsg, source := tile, last := tile, outCh := e.outCh, task := 0, pc := 0, addr := 0, lines := 0
                       handler := 0, seq := 0, nonfinite := false, entry := e, gate := none, pred := none, own := false
                       dests := newDests e.dests, payload := [], null := true, complete := false }
  let m : Msg := match q, pm with
    | some q, none => { blank with task := q.task, pc := q.pc, addr := q.addr, lines := q.lines, handler := q.hid, seq := seq,
                                   nonfinite := x.nonfinite, own := true, payload := payload, null := false }
    | some q, some m => { blank with task := q.task, pc := q.pc, addr := q.addr, lines := q.lines, handler := q.hid, seq := seq,
                                     nonfinite := x.nonfinite || m.nonfinite, own := true, pred := some m.id, payload := payload,
                                     null := false }
    | none, some m => { blank with lines := m.lines, handler := m.handler, seq := m.seq, last := m.last, nonfinite := m.nonfinite,
                                   pred := some m.id, payload := List.replicate m.lines ([], false), null := false }
    | none, none => blank
  let m1 : Msg := if bad then { blank with null := true } else m
  let x1 : Tile := match q with
    | some q => { x with queued := x.queued.erase q, seqs := x.seqs.set e.outCh.toNat (seq + 1) }
    | none => x
  let j1 : Job := match p with
    | some p => j.mapMsg p.id fun m =>
        if m.null ∨ bad then { m.mapDest tile (fun d => { d with stage := .acked }) with complete := true }
        else m.mapDest tile fun d => { d with stage := .granted }
    | none => j
  let j2 : Job := { j1 with
    msgs := j1.msgs ++ [m1], nextMsg := j1.nextMsg + 1
    chainDone := if e.isReduce then (tile, e.outCh.toNat) :: j1.chainDone else j1.chainDone
    stop := j1.stop || bad }
  let s1 : State := { (s.setTile tile x1).setJob c j2 with fresh := s.fresh + x.inFlight.length }
  if bad then s1.event 0x0303 kTile c tile e.outCh.toNat (match p with | some m => m.last | none => 0) else s1

/-- The delivery that a gate tile may send on an inbound channel (R407). -/
def Job.gateReady (j : Job) (tile : Nat) (ch : BitVec 4) : Option GateOut :=
  match j.gateOut.find? fun g => g.tile == tile && g.channel == ch with
  | some g => if g.start ≤ j.clock then some g else none
  | none => none

/-- Send a gate's delivery: its lines are read from local memory (R407). -/
def State.departGate (s : State) (c tile : Nat) (g : GateOut) : State :=
  match s.vtake c g.va (64 * g.lines) with
  | (s1, .error e) =>
    let s2 : State := { s1.stopEvent c kCourier 0 (Config.engineRef s1.fresh c).toNat e with fresh := s1.fresh + 1 }
    let j := s2.job c
    s2.setJob c { j with stop := true, gateOut := j.gateOut.erase g }
  | (s1, .ok l) =>
    let j := s1.job c
    let key := 16 * tile + g.channel.toNat
    let seq := j.gateSeqs.get 0 key
    let nf := match s1.cmdOf g.tag with | some k => k.nonfinite | none => false
    let lines := (List.range g.lines).map fun i =>
      let part := (l.drop (64 * i)).take 64
      (part.map (·.val), part.any (·.poison))
    let e : SourceEntry := { outCh := g.channel, mode := 0, destCh := g.channel, pred := false, final := false, point := 0
                             dest := BitVec.ofNat 14 g.dest, dest2 := 0, maxLines := 4096, start := BitVec.ofNat 32 g.start }
    let m : Msg := { id := j.nextMsg, source := tile, last := tile, outCh := g.channel, task := 0, pc := 0, addr := 0
                     lines := g.lines, handler := g.handler, seq := seq, nonfinite := nf, entry := e, gate := some g.tag
                     pred := none, own := true, dests := newDests [g.dest], payload := lines, null := false, complete := false }
    s1.setJob c { j with msgs := j.msgs ++ [m], nextMsg := j.nextMsg + 1, gateOut := j.gateOut.erase g
                         gateSeqs := j.gateSeqs.set key (seq + 1) }

/-- REQUEST_DEPART: the next request of an outbound channel of a tile, or of a gate's inbound channel (R169, R172,
R177, R407). -/
def execRequestDepart (tile : Nat) (ch : Fin 16) (s : State) : Out :=
  match s.ctxOf tile with
  | none => .next s
  | some c =>
    let j := s.job c
    let x := s.tile tile
    let n : BitVec 4 := BitVec.ofNat 4 ch.val
    if !j.moves then .next s
    else
      let gate : Out := match j.gateReady tile n with
        | some g => .next (s.departGate c tile g)
        | none => .next s
      match x.current.source n with
      | none => gate
      | some e =>
        let q := x.queued.find? fun q => q.ch == n
        let due := decide (e.start.toNat ≤ j.clock)
        let waits : Bool := match q with | some q => x.readWaits q | none => false
        if e.isReduce then
          if (tile, ch.val) ∈ j.chainDone ∨ !due then gate
          else if waits then .next (match q with | some q => s.noteSendOpen tile q | none => s)
          else if e.pred then
            match j.predecessor tile e with
            | some p => .next (s.departWith c tile e q (some p))
            | none => gate
          else .next (s.departWith c tile e q none)
        else
          match q with
          | none => gate
          | some q0 =>
            if !due || !j.channelFree tile n then gate
            else if waits then .next (s.noteSendOpen tile q0)
            else .next (s.departWith c tile e (some q0) none)

/-! ### The sink (R178 to R184, R470) -/

/-- The SINK entry of an inbound channel. -/
def RouteTable.sink (r : RouteTable) (ch : BitVec 4) : Option SinkEntry := r.sinks.find? fun e => e.inCh == ch

/-- Whether a message lies at a tile, granted in this Caravan. -/
def MsgDest.placed (d : MsgDest) : Bool := d.stage == .granted || d.stage == .sending || d.stage == .delivered || d.stage == .acked

/-- Messages granted at a tile in rings, or in overflow rooms (R182). -/
def Job.indexCount (j : Job) (tile : Nat) (overflow : Bool) : Nat :=
  j.msgs.countP fun m => m.entry.point == 0 && !m.null && !m.chains &&
    m.dests.any fun d => d.dest == tile && d.overflow == overflow && d.placed

/-- Write whole clean or poisoned lines to a task's scratchpad. -/
def Tile.putLine (x : Tile) (task line : Nat) (bytes : List Byte) (poison : Bool) : Tile :=
  x.padWrite ((x.task task).padAddr (64 * line)) bytes poison true

/-- The ring line at which a message of `n` lines fits, and whether a wrap marker goes before it (R181, R202). -/
def RingPos.place (r : RingPos) (size n : Nat) : Option (Nat × Bool) :=
  let t := size - r.tail
  let free := size - r.used
  if n ≤ t then (if n ≤ free then some (r.tail, false) else none)
  else if t + n ≤ free then some (0, true) else none

/-- The ring after a placement: a tail that reaches the end becomes 0 (R178). -/
def RingPos.after (r : RingPos) (size n line : Nat) (wrapped : Bool) : RingPos :=
  let tail := (line + n) % size
  { r with tail := tail, used := r.used + n + (if wrapped then size - r.tail else 0) }

/-- Mark a destination granted at a line. -/
def State.granted (s : State) (c id dest line : Nat) (overflow : Bool) : State :=
  s.mapMsg c id fun m => m.mapDest dest fun d => { d with stage := .granted, line := line, overflow := overflow }

/-- Try to grant a request at a tile's ring (R181, R182). -/
def State.grantRing (s : State) (c : Nat) (m : Msg) (dest : Nat) : Option State :=
  let x := s.tile dest
  let n := m.lines + 1
  match x.current.sink m.entry.destCh with
  | none => none
  | some k =>
    if 512 ≤ (s.job c).indexCount dest false then none
    else
      let key := k.inCh.toNat
      let r := x.rings.get ⟨0, 0, 0⟩ key
      let size := k.lines.toNat
      match r.place size n with
      | none => none
      | some (line, wrapped) =>
        let base := k.offset.toNat
        let x1 := if wrapped then
            let w : Waybill := { handler := 0, channel := key, seq := 0, length := 0, source := 0, dest := dest, part := c, redOp := 0
                                 poison := false, nonfinite := false, wrap := true, overflow := false, gate := false, chain := false }
            x.putLine k.task.toNat (base + r.tail) w.line false
          else x
        let x2 := x1.putLine k.task.toNat (base + line) (m.waybill c dest false).line false
        let x3 : Tile := { x2 with rings := x2.rings.set key (r.after size n line wrapped) }
        some ((s.setTile dest x3).granted c m.id dest (base + line) false)

/-- The descriptor that is bound to an Ostler point's channel: the oldest (R271). -/
def State.boundDesc (s : State) (c ostler : Nat) (ch : BitVec 4) : Option Desc :=
  s.descs.find? fun q => decide (q.ctx.val = c) && (odesc q.raw).isPoint && decide (q.ostler = ostler) &&
    (odesc q.raw).token == ch && q.ended.isNone

/-- Bytes that an Ostler point's descriptor consumes. -/
def Desc.consumes (q : Desc) : Nat := ((odesc q.raw).total * widthOf (odesc q.raw).pfmt + 7) / 8

/-- Try to grant a request (R182, R272): a gate point grants at once; a tile with no record discards a multicast copy
(R470). -/
def State.tryGrant (s : State) (c : Nat) (m : Msg) (dest : Nat) : Option State :=
  match m.entry.point.toNat with
  | 0 =>
    if !(s.tile dest).recorded then (if m.entry.mode = 1 then some (s.granted c m.id dest 0 false) else none)
    else s.grantRing c m dest
  | 1 => some (s.granted c m.id dest 0 false)
  | _ =>
    match s.boundDesc c dest m.entry.destCh with
    | none => none
    | some q =>
      if 64 * (q.granted + m.lines) ≤ q.consumes then
        some ((s.mapDesc q.id fun d => { d with granted := d.granted + m.lines }).granted c m.id dest 0 false)
      else none

/-- Whether an earlier request of the same inbound channel still waits at a sink (R180). -/
def Job.blocked (j : Job) (m : Msg) (dest arrivedAt : Nat) : Bool :=
  j.msgs.any fun o => o.id != m.id && o.entry.point == m.entry.point && o.entry.destCh == m.entry.destCh && !o.chains &&
    o.dests.any fun d => d.dest == dest && d.stage == .refused && decide (d.arrivedAt < arrivedAt)

/-- Offer a waiting request to its sink. -/
def State.offer (s : State) (c id dest : Nat) : State :=
  let j := s.job c
  match j.msg id with
  | none => s
  | some m =>
    match m.at_ dest with
    | none => s
    | some d =>
      if d.stage ≠ .refused ∨ j.blocked m dest d.arrivedAt then s
      else (s.tryGrant c m dest).getD s

/-- Whether a chain request finds its next contributor (R172, R470). -/
def Tile.takesChain (x : Tile) (ch : BitVec 4) : Bool :=
  x.recorded && (match x.current.source ch with
    | some e => e.isReduce && e.pred
    | none => false)

/-- The links that a flit takes from one tile to another: along the sender's row, then along the destination's column (R170), each as
(tile, input, output). `start` is its input at the first tile, and with `leaves` it takes the edge link of the last. -/
def hops (a b start : Nat) (leaves : Bool) : List (Nat × Nat × Nat) :=
  let n := max (a % 100) (b % 100) - min (a % 100) (b % 100)
  let m := max (a / 100) (b / 100) - min (a / 100) (b / 100)
  let east := decide (a % 100 < b % 100)
  let south := decide (a / 100 < b / 100)
  let turned := if n = 0 then start else if east then 3 else 1
  ((List.range n).map fun i => (if east then a + i else a - i, if i = 0 then start else if east then 3 else 1, if east then 1 else 3)) ++
    ((List.range m).map fun i => (100 * (if south then a / 100 + i else a / 100 - i) + b % 100,
      if i = 0 then turned else if south then 0 else 2, if south then 2 else 0)) ++
    (if leaves then [(b, if m ≠ 0 then (if south then 0 else 2) else turned, 5)] else [])

/-- The side of the grid on which an edge link enters a tile. -/
def edgeSide (t : Nat) : Nat := if t / 100 = 0 then 0 else if t / 100 = 99 then 2 else if t % 100 = 0 then 3 else 1

/-- The tile by which a message leaves for a destination: the tile itself, a gate tile, or an edge tile of an Ostler, line j by the
tile at position j mod 4 (R170, R241; for a control flit position 0 is a DESIGN CHOICE, log entry 22). -/
def State.landsAt (s : State) (m : Msg) (dest i : Nat) : Nat :=
  match m.entry.point.toNat with
  | 0 => dest
  | 1 => s.gateTileAt dest
  | _ => s.ostlerTile dest (i % 4)

/-- Whether a flit loses a link to another: control goes before payload, and then the order of inputs decides (R170). -/
def LinkUse.losesTo (u v : LinkUse) : Bool := if u.control = v.control then decide (v.inp ≤ u.inp) else v.control

/-- Note a lost link: LINK_CONFLICT in that router's records, under the loser's outbound channel (R94, R170). -/
def State.noteLoss (s : State) (c : Nat) (u : LinkUse) : State :=
  s.setTile u.tile ((s.tile u.tile).caravanContract 0x0003 u.ch (s.job c).superstep)

/-- Take a path's links in the present Caravan cycle. Where another flit has a link, the loser is reported; a flit that loses waits in
the router's buffer, and does not arrive in this cycle (R170). Time on the way is left out (log entry 22). -/
def State.travel (s : State) (c : Nat) (m : Msg) (control : Bool) (part : Nat) (path : List (Nat × Nat × Nat)) : State × Bool :=
  let j := s.job c
  let uses : List LinkUse := path.map fun h => ⟨h.1, h.2.2, h.2.1, control, m.id, part, m.outCh.toNat, false⟩
  let clash (u : LinkUse) : Option LinkUse := j.flits.find? fun v =>
    !v.lost && v.tile == u.tile && v.out == u.out && !(v.msg == u.msg && v.part == u.part)
  let lost := uses.find? fun u => match clash u with
    | some v => u.losesTo v
    | none => false
  match lost with
  | some u =>
    if j.flits.any fun v => v.lost && v.msg == u.msg && v.part == u.part then (s, false)
    else ((s.noteLoss c u).setJob c { j with flits := { u with lost := true } :: j.flits }, false)
  | none => (((uses.filterMap clash).foldl (fun s v => s.noteLoss c v) s).setJob c { j with flits := uses ++ j.flits }, true)

/-- The path of a message's flit to a destination, and that of an answer back. -/
def State.pathTo (s : State) (m : Msg) (dest i : Nat) : List (Nat × Nat × Nat) :=
  hops m.source (s.landsAt m dest i) (if m.gate.isSome then edgeSide m.source else 4) (m.entry.point != 0)
def State.pathBack (s : State) (m : Msg) (dest : Nat) : List (Nat × Nat × Nat) :=
  let t := s.landsAt m dest 0
  hops t m.source (if m.entry.point = 0 then 4 else edgeSide t) m.gate.isSome

/-- Whether a request of the same sink and channel from a higher source has arrived in this Caravan cycle: those of one cycle are
granted in ascending source index, so that one commanded after it arrives in a later cycle (R180). -/
def Job.outOfTurn (j : Job) (m : Msg) (dest : Nat) : Bool :=
  j.msgs.any fun o => decide (m.source < o.source) && o.entry.point == m.entry.point && o.entry.destCh == m.entry.destCh && !o.chains &&
    !m.chains && o.dests.any fun d => d.dest == dest && d.stage != .requested && decide (d.refusedAt = j.clock)

/-- REQUEST_ARRIVE: granted and placed, or refused and waiting; a refused request is offered again (R168, R172, R181). -/
def execRequestArrive (ctx : Fin 8) (msg : Nat) (dest : Nat) (s : State) : Out :=
  let c := ctx.val
  let j := s.job c
  match j.msg msg with
  | none => .next s
  | some m =>
    match m.at_ dest with
    | none => .next s
    | some d =>
      if !j.moves then .next s
      else if d.stage = .refused ∧ !m.chains then .next (s.offer c msg dest)
      else if d.stage ≠ .requested ∨ j.outOfTurn m dest then .next s
      else
        let r := s.travel c m true 0 (s.pathTo m dest 0)
        let s1 := r.1
        let mark (st : MsgStage) : State :=
          let j1 := (s1.job c).mapMsg msg fun m => m.mapDest dest fun d =>
            { d with stage := st, refusedAt := j.clock, arrivedAt := j.nextMsg }
          s1.setJob c { j1 with nextMsg := j.nextMsg + 1 }
        if !r.2 then .next s1
        else if m.chains then
          if (s.tile dest).takesChain m.entry.destCh then
            .next ((mark .arrived).mapMsg c msg fun m => { m with complete := m.complete || m.null })
          else .next (mark .refused)
        else if m.null then .next ((mark .acked).mapMsg c msg fun m => { m with complete := true })
        else .next ((mark .refused).offer c msg dest)

/-- GRANT_ARRIVE: the sender's lines may depart (R168). -/
def execGrantArrive (ctx : Fin 8) (msg : Nat) (dest : Nat) (s : State) : Out :=
  let c := ctx.val
  let j := s.job c
  match j.msg msg with
  | none => .next s
  | some m =>
    match m.at_ dest with
    | none => .next s
    | some d =>
      if j.moves ∧ d.stage = .granted then
        let r := s.travel c m true (2 + 2 * dest) (s.pathBack m dest)
        .next (if r.2 then r.1.mapMsg c msg fun m => m.mapDest dest fun d => { d with stage := .sending } else r.1)
      else .next s

/-! ### Payload lines (R168, R172, R174) -/

/-- Combine a line of a partial with a contributor's own line: the partial is the left operand (R68, R172). -/
def combineLine (mode : Nat) (a b : List Byte) : List Byte × Bool :=
  if mode = 3 then
    let r := (List.range 32).map fun i =>
      bf16.convert true ((bf16.value (numAt a (2 * i) 2)).add (bf16.value (numAt b (2 * i) 2)))
    (r.flatMap fun v => toBytes 2 v.bits, r.any (·.nonfinite))
  else
    let r := (List.range 16).map fun i =>
      let x := BitVec.ofNat 32 (numAt a (4 * i) 4)
      let y := BitVec.ofNat 32 (numAt b (4 * i) 4)
      if mode = 2 then fadd x y else fmax x y
    (r.flatMap fun v => toBytes 4 v.toNat, r.any nonfinite32)

/-- A partial's line taken by the message that combines it. -/
def Msg.takePartial (n : Msg) (i : Nat) (line : List Byte × Bool) (nf : Bool) : Msg :=
  if n.own then
    let mine := n.payload.getD i ([], false)
    let r := combineLine n.entry.mode.toNat line.1 mine.1
    { n with payload := n.payload.set i (r.1, line.2 || mine.2), nonfinite := n.nonfinite || nf || r.2 }
  else { n with payload := n.payload.set i line, nonfinite := n.nonfinite || nf }

/-- A tile's task that a message at a destination belongs to: its ring's (R165). -/
def Tile.ringTask (x : Tile) (ch : BitVec 4) : Nat :=
  match x.current.sink ch with
  | some k => k.task.toNat
  | none => 0

/-- Whether the line of a message may be sent: every destination has granted, and a partial's line has come. -/
def Job.lineReady (j : Job) (m : Msg) (i : Nat) : Bool :=
  (m.dests.all fun d => d.stage == .sending || d.stage == .delivered || d.stage == .acked) &&
    (match m.pred with
     | none => true
     | some p => match (j.msg p).bind (·.at_ m.source) with
       | some d => decide (i < d.written)
       | none => false)

/-- The last line of a message at a tile: the Waybill takes its final flags, and NONFINITE sets the tile's flag (R37,
R176). -/
def State.delivered (s : State) (c : Nat) (m : Msg) (d : MsgDest) : State :=
  match m.entry.point.toNat with
  | 0 =>
    let x := s.tile d.dest
    if m.chains ∨ !x.recorded then s
    else
      let x1 := x.putLine (x.ringTask m.entry.destCh) d.line (m.waybill c d.dest d.overflow).line false
      s.setTile d.dest (x1.noteNonfinite m.nonfinite)
  | 1 => s
  | _ => s.noteJob c m.nonfinite

/-- PAYLOAD_LINE_ARRIVE: the next line of a message at a destination (R168). -/
def execPayloadLineArrive (ctx : Fin 8) (msg : Nat) (dest : Nat) (s : State) : Out :=
  let c := ctx.val
  let j := s.job c
  match j.msg msg with
  | none => .next s
  | some m =>
    match m.at_ dest with
    | none => .next s
    | some d =>
      let i := d.written
      if !j.moves || d.stage != .sending || !j.lineReady m i || decide (m.lines ≤ i) then .next s
      else
        let line := m.payload.getD i ([], false)
        let r := s.travel c m false 1 (s.pathTo m dest i)
        let s1 := r.1.mapMsg c msg fun m => m.mapDest dest fun d =>
          { d with written := i + 1, stage := if i + 1 = m.lines then .delivered else .sending }
        let s2 : State :=
          if m.chains then
            match j.msgs.find? fun n => n.pred == some msg && n.source == dest with
            | some n =>
              let made := n.own && (combineLine n.entry.mode.toNat line.1 (n.payload.getD i ([], false)).1).2
              let t := s1.tile dest
              (s1.mapMsg c n.id fun _ => n.takePartial i line m.nonfinite).setTile dest (t.noteNonfinite made)
            | none => s1
          else
            match m.entry.point.toNat with
            | 0 =>
              let x := s1.tile dest
              if x.recorded then
                let y := x.putLine (x.ringTask m.entry.destCh) (d.line + 1 + i) (fitBytes 64 line.1) line.2
                s1.setTile dest (y.useLines 4 0 0 [(x.task (x.ringTask m.entry.destCh)).spBase + d.line + 1 + i]).1
              else s1
            | 1 => s1
            | _ => match s1.boundDesc c dest m.entry.destCh with
              | some q => s1.mapDesc q.id fun q => { q with lines := q.lines ++ [line] }
              | none => s1
        .next (if !r.2 then r.1 else if i + 1 = m.lines then s2.delivered c m d else s2)

/-- DELIVERY_ACK_ARRIVE: the message is complete when every destination has acknowledged (R168, R171). -/
def execDeliveryAckArrive (ctx : Fin 8) (msg : Nat) (dest : Nat) (s : State) : Out :=
  let c := ctx.val
  let j := s.job c
  match j.msg msg with
  | none => .next s
  | some m =>
    match m.at_ dest with
    | none => .next s
    | some d =>
      if !j.moves ∨ d.stage ≠ .delivered then .next s
      else
        let r := s.travel c m true (3 + 2 * dest) (s.pathBack m dest)
        .next (if r.2 then r.1.mapMsg c msg fun m =>
            let m1 := m.mapDest dest fun d => { d with stage := .acked }
            { m1 with complete := m1.dests.all fun d => d.stage == .acked }
          else r.1)

/-! ### Overflow and deadlock (R184, R185) -/

/-- Send contract records (R94): the eighth carries the overflow count. ACC_SEND_OPEN gives its task and address and, in ARG1, its
channel, as the table of R451 has it where R94 gives ARG1 to the superstep (log entry 153). -/
def State.sendRecords (s : State) (c tile : Nat) (l : List Contract) (extra : Nat) : State :=
  (l.zipIdx).foldl (fun s x =>
    let r := x.1
    let a := if r.code = 0x0005 then r.arg1 else r.key
    let b := if r.code = 0x0005 then r.key else r.arg1
    let over_ : Dword := if x.2 = 7 then BitVec.ofNat 64 (extra * 2 ^ 32) else 0
    s.raise ⟨r.code, kTile, c, tile, a, b + over_, r.count⟩) s

/-- The tiles of a job send the contract records of the Caravan that ends (R94). -/
def State.caravanRecords (s : State) (c : Nat) : State :=
  s.tiles.foldl (fun s e =>
    if (s.job c).cfg.holds e.1 ∧ e.2.caravanRecords ≠ [] then
      let s1 := s.sendRecords c e.1 e.2.caravanRecords e.2.caravanOver
      s1.setTile e.1 { s1.tile e.1 with caravanRecords := [], caravanOver := 0 }
    else s) s

/-- EXCHANGE_DEADLOCK: the Caravan ends at once, its tiles send their records, and the job stops (R94, R185). -/
def State.deadlock (s : State) (c : Nat) (m : Msg) : State :=
  ((s.event 0x0306 kStep c 0 m.entry.destCh.toNat m.last).caravanRecords c).stopNow c

/-- OVERFLOW_ROOM_ESCAPE: 4,096 refused Caravan cycles put a message in its ring's overflow room, or end the exchange
(R184, R185, R272). -/
def execOverflowRoomEscape (ctx : Fin 8) (msg : Nat) (dest : Nat) (s : State) : Out :=
  let c := ctx.val
  let j := s.job c
  match j.msg msg with
  | none => .next s
  | some m =>
    match m.at_ dest with
    | none => .next s
    | some d =>
      if !j.moves ∨ d.stage ≠ .refused ∨ j.clock < d.refusedAt + 4096 then .next s
      else
        let x := s.tile dest
        match x.current.sink m.entry.destCh with
        | none => .next (s.deadlock c m)
        | some k =>
          let t := x.task k.task.toNat
          let n := m.lines + 1
          if m.chains ∨ m.entry.point ≠ 0 ∨ !x.recorded ∨ t.ovfLines < t.roomUsed + n ∨ 64 ≤ j.indexCount dest true then
            .next (s.deadlock c m)
          else
            let line := t.ovfOffset + t.roomUsed
            let x1 := x.putLine k.task.toNat line (m.waybill c dest true).line false
            let x2 := x1.setTask k.task.toNat { x1.task k.task.toNat with roomUsed := t.roomUsed + n }
            let s1 := ((s.setTile dest x2).granted c msg dest line true).event 0x0305 kTile c dest m.entry.destCh.toNat m.last
            .next (((s1.job c).msgs.filter fun o => o.entry.destCh == m.entry.destCh).foldl (fun s o => s.offer c o.id dest) s1)

/-! ### Freezes (R192 to R195) -/

/-- Whether a port of a job reports a NAK or has a resend range to its gates (R368). -/
def State.retrying (s : State) (c : Nat) : Bool :=
  ((List.range 4).flatMap fun a => s.axisPorts c a).any fun p => (s.port p).carries && ((s.port p).resend != [] || decide (0 < (s.port p).naks))

/-- FREEZE_DECISION: at the end of a window, or of a frozen period, HOLD freezes the exchange for 32 core cycles; `retry` and
`refresh` are what the gates and edge attachments assert (R192, R193), the gates only for a port that reports a retry (R368). A
throttle step's freeze is decided at the release (R194). -/
def execFreezeDecision (ctx : Fin 8) (retry : Bool) (refresh : Bool) (s : State) : Out :=
  let c := ctx.val
  let j := s.job c
  if j.phase ≠ .caravan ∨ j.frozen ≠ 0 ∨ j.clock % 32 ≠ 0 ∨ (j.clock = 0 ∧ !j.thawed) then .next s
  else if (retry ∧ s.retrying c) ∨ refresh then
    .next ((s.setJob c { j with frozen := 32, thawed := true }).tallyAdd c (if retry ∧ s.retrying c then 7 else 9) 32)
  else .next s

/-! ### The end of the Caravan (R196) -/

/-- The messages delivered to a tile, in the handlers' order (R187): ascending channel, rank of its sequence, source. Where one sender
reaches an inbound channel in two ways, the ranks count from the first message of either, and full ties keep the order of departure
(DESIGN CHOICE, log entry 150). -/
def Job.deliveries (j : Job) (c tile : Nat) (x : Tile) : List Delivered :=
  let mine := j.msgs.filter fun m => m.entry.point == 0 && !m.null && !m.chains && m.dests.any fun d => d.dest == tile && d.placed
  let items : List Delivered := mine.filterMap fun m =>
    match m.at_ tile with
    | none => none
    | some d =>
      let first := match mine.find? fun o => o.last == m.last && o.entry.destCh == m.entry.destCh with
        | some o => o.seq
        | none => m.seq
      some { channel := m.entry.destCh, rank := m.seq - first, source := BitVec.ofNat 14 m.last, seq := m.seq, handler := m.handler
             task := BitVec.ofNat 2 (x.ringTask m.entry.destCh), line := d.line + 1, lines := m.lines, overflow := d.overflow
             waybillHi := BitVec.ofNat 64 ((m.waybill c tile d.overflow).bits / 2 ^ 64) }
  let key (d : Delivered) : Nat := d.channel.toNat * 2 ^ 32 + d.rank.toNat * 2 ^ 16 + d.source.toNat
  items.foldl (fun l d => l.filter (fun e => decide (key e ≤ key d)) ++ d :: l.filter (fun e => decide (key d < key e))) []

/-- Whether a job is in the superstep that a Courier command names: commands take the job's numbering (R406, R407). -/
def Job.isAt (j : Job) (n : Nat) : Bool := decide (n = j.superstep)

/-- The messages of a gate stream in this Caravan, in the order of R187. -/
def Job.gateMessages (j : Job) (stream : BitVec 4) : List Msg :=
  let mine := j.msgs.filter fun m => m.entry.point == 1 && !m.null && !m.chains && m.entry.destCh == stream
  let rank (m : Msg) : BitVec 16 := m.seq - (match mine.find? fun o => o.last == m.last with | some o => o.seq | none => m.seq)
  let key (m : Msg) : Nat := (rank m).toNat * 2 ^ 16 + m.last
  mine.foldl (fun l m => l.filter (fun e => decide (key e ≤ key m)) ++ m :: l.filter (fun e => decide (key m < key e))) []

/-- The marked bytes of a message's payload. -/
def Msg.bytes (m : Msg) : List MByte := m.payload.flatMap fun l => (fitBytes 64 l.1).map fun b => ⟨b, l.2, m.nonfinite⟩

/-- Stop the job at the end of its Caravan. -/
def State.stopLater (s : State) (c : Nat) : State := s.setJob c { s.job c with stop := true }

/-- A message that becomes an entry of a pipeline queue: it goes to the receiver's slot (R415). `limit` is what the list
declares for this Caravan. -/
def State.queueEntry (s : State) (c key : Nat) (m : Msg) (sentNow limit : Nat) : State :=
  match (s.job c).queues.find key with
  | none => s
  | some q =>
    if q.entryLines < m.lines ∨ limit ≤ sentNow then
      (s.event 0x0309 kCourier c 0 q.tag.toNat (key % 16)).stopLater c
    else
      let es := max 1 (widthOf q.elem / 8)
      let off := q.sent % q.depth * q.entryLines * 64 / es
      let me := s.position c 3
      let s1 := ((s.axisPorts c 3).filter (· == queuePort false q.dir)).foldl (fun s p =>
        (cutTransfer s.segmentBytes es 0 off m.bytes).foldl (fun s x =>
          s.sendSegment ⟨p, q.tag, me, (s.group c [3]).beyond p, x.2.1, es, x.2.2⟩) s) s
      (s1.setQueue c key { q with sent := q.sent + 1, credits := q.credits - 1 }).noteJob c m.nonfinite

/-- Entries that the list's QUEUE_SEND actions declare for a queue in this superstep (R416). -/
def Job.declared (j : Job) (key : Nat) : Nat :=
  ((j.actions.filter fun a => bitsOf a.raw.toNat 255 252 == 3 && a.superstep == j.superstep &&
    bitsOf a.raw.toNat 251 248 + 16 * bitsOf a.raw.toNat 247 247 == key).map fun a => bitsOf a.raw.toNat 223 208).sum

/-- A message that joins a command's gate-stream source (R406). `used` are the lines placed from each tile. -/
def State.collect (s : State) (k : CCmd) (m : Msg) (used : Tbl Nat) : State × Tbl Nat :=
  let c := k.ctx.val
  let f := k.f
  match (f.gates k.table).find? fun e => !e.deliver && e.tile == m.last with
  | none => ((s.event 0x0307 kCourier c 0 f.stream.toNat m.last).stopLater c, used)
  | some e =>
    let u := used.get 0 m.last
    if e.lines < u + m.lines then ((s.event 0x0308 kCourier c 0 f.stream.toNat m.last).stopLater c, used)
    else
      let at_ := f.src + e.offset + 64 * u
      let s1 := (s.onCmd c k.tag fun q s => (s.cmdPut q at_ m.bytes false).mapCmd c k.tag fun x => { x with
        landed := q.landed
        nfLines := if m.nonfinite then (List.range m.lines).map (at_ / 64 + ·) ++ x.nfLines else x.nfLines })
      (s1, used.set m.last (u + m.lines))

/-- The gate messages of one stream at the end of a Caravan: a queue's entries, a command's source, or unbound. -/
def State.gateStream (s : State) (c : Nat) (stream : BitVec 4) : State :=
  let j := s.job c
  let ms := j.gateMessages stream
  let queue := j.queues.find? fun q => q.2.sender && q.2.stream == stream
  let cmd := s.courier.cmds.find? fun k => decide (k.ctx.val = c) && k.f.srcKind == 1 && decide (k.f.op < 6) &&
    k.f.stream == stream && j.isAt k.f.collectAt && k.status.isNone
  match queue, cmd with
  | some (key, _), _ =>
    ((ms.zipIdx).foldl (fun s x => s.queueEntry c key x.1 x.2 (j.declared key)) s)
  | none, some k =>
    let s1 := (ms.foldl (fun (r : State × Tbl Nat) m => r.1.collect k m r.2) (s, [])).1
    (s1.mapCmd c k.tag fun q => { q with collected := true }).cmdTry c k.tag
  | none, none => ms.foldl (fun s m => (s.event 0x0307 kCourier c 0 stream.toNat m.last).stopLater c) s

/-- The streams that have work at the end of a Caravan: messages, or a command to fill. -/
def State.gateStreams (s : State) (c : Nat) : State :=
  (List.range 16).foldl (fun s n => s.gateStream c (BitVec.ofNat 4 n)) s

/-- Mark the gate deliveries of this Caravan acknowledged (R409). -/
def State.gatesDelivered (s : State) (c : Nat) : State :=
  let cmds : List CCmd := s.courier.cmds.map fun k =>
    if k.ctx.val = c ∧ k.f.gated ∧ k.f.dstTiles ∧ (s.job c).isAt k.f.deliverAt ∧ k.started then { k with delivered := true } else k
  { s with courier := { s.courier with cmds := cmds } }

/-- A tile at the swap: image n + 1 in force, rings carried over where they are the same (R157, R178), and its messages in the delivery
index; a tile without a record has none (R470). -/
def State.swapTile (s : State) (c tile : Nat) : State :=
  let x := s.tile tile
  let new := x.next.getD RouteTable.empty
  let same (ch : BitVec 4) : Bool := (x.current.sink ch).isSome && x.current.sink ch == new.sink ch
  let rings : Tbl RingPos := x.rings.filter fun r => same (BitVec.ofNat 4 r.1)
  s.setTile tile { x with
    current := new, next := none, rings := rings
    delivered := if x.recorded then (s.job c).deliveries c tile x else [] }

/-- Whether a Caravan has nothing left to do (R196, R409): every message queued, chained or delivered by a gate is
complete, and every image is loaded. -/
def State.caravanQuiet (s : State) (c : Nat) : Bool :=
  let j := s.job c
  j.msgs.all (·.complete) && j.gateOut.isEmpty && j.cfg.tiles.all fun t =>
    let x := s.tile t
    x.queued.isEmpty && x.next.isSome &&
      x.current.sources.all fun e => !e.isReduce || (t, e.outCh.toNat) ∈ j.chainDone

/-- CARAVAN_END: the tables swap, the first superstep of a step fills the tensor slots, and the handler pass begins; or
the job stops (R131, R196, R603). -/
def execCaravanEnd (ctx : Fin 8) (s : State) : Out :=
  let c := ctx.val
  if !(s.job c).moves || !s.caravanQuiet c then .next s
  else
    let s1 := ((s.gateStreams c).gatesDelivered c).caravanRecords c
    let s2 := (s1.job c).cfg.tiles.foldl (fun s t => s.swapTile c t) s1
    if (s2.job c).stop then .next (s2.stopNow c)
    else
      let j := s2.job c
      let s3 := s2.setJob c { j with phase := .compute, superstep := j.superstep + 1, msgs := [], chainDone := [] }
      let s4 := if (j.superstep + 1) % max 1 j.listS = 0 then s3.fillSlots c else s3
      .next (j.cfg.tiles.foldl (fun s t => s.passFrom t (s.tile t).delivered) s4)

end Sys2Proof.Machine
end

