-- ==== Sys2Proof/Machine/Update.lean ====
section
/-! DEFINITION. The Update Engine (R312 to R348): rule slots, the layer table, the two passes, the matrix stage, and the
commands of its ring. -/

namespace Sys2Proof.Machine

/-! ### Host data that a command names (R452) -/

/-- The byte of host memory at an address; an address not listed reads as zero. -/
def HostView.byte (v : HostView) (a : Nat) : Byte := Tbl.get 0 v.cells a

/-- `n` bytes of host memory. -/
def HostView.bytes (v : HostView) (a n : Nat) : List Byte := (List.range n).map fun i => HostView.byte v (a + i)

/-- The 64-byte lines of a range. -/
def hostLines (a n : Nat) : List Nat := (List.range ((a + n + 63) / 64 - a / 64)).map (· + a / 64)

/-- What a read of host memory ends in. -/
inductive HostRead where
  | ok (l : List Byte)
  | ep
  | fail (addr : Nat)
deriving DecidableEq, Repr

/-- Read a record: a failed line ends it, and EP rejects it (R452). -/
def HostView.read (v : HostView) (a n : Nat) : HostRead :=
  match (hostLines a n).find? fun l => decide (l ∈ v.fail) with
  | some l => .fail (max a (64 * l))
  | none => if (hostLines a n).any fun l => decide (l ∈ v.ep) then .ep else .ok (HostView.bytes v a n)

/-- How a copy from host memory to a context's memory ends. -/
inductive HostCopy where
  | done (ep : Bool)
  | fail (addr : Nat)
  | stop (why : Stop)
deriving DecidableEq, Repr

/-- Copy `n` bytes line by line, `k` lines left; a line with EP is written poisoned (R447, R452). -/
def State.hostCopy (s : State) (c : Nat) (v : HostView) (src va n : Nat) (ep : Bool) : Nat → State × HostCopy
  | 0 => (s, .done ep)
  | k + 1 =>
    if n = 0 then (s, .done ep)
    else
      let len := min n 64
      if src / 64 ∈ v.fail then (s, .fail src)
      else
        let bad := decide (src / 64 ∈ v.ep)
        match s.vwrite c va (HostView.bytes v src len) bad with
        | (s1, some e) => (s1, .stop e)
        | (s1, none) => s1.hostCopy c v (src + len) (va + len) (n - len) (ep || bad) k

/-- Copy a range from host memory. -/
def State.fromHost (s : State) (c : Nat) (v : HostView) (src va n : Nat) : State × HostCopy :=
  s.hostCopy c v src va n false (n / 64 + 1)

/-- HOST_READ_FAILED of data that a command names: status 2, and the ring goes on (R452). -/
def State.readFailed (s : State) (ring : Nat) (index : BitVec 16) (c addr : Nat) : State :=
  (s.event 0x010E kHost c 0 (ringIndex ring index) addr).complete ring index 2 0 0 0

/-! ### Rule slots (R312 to R314) -/

/-- Coefficient `i` of a slot. -/
def Job.rule (j : Job) (slot i : Nat) : Word := j.rules.get 0 (16 * slot + i)

def isZero32 (w : Word) : Bool := w.extractLsb' 0 31 == 0
def below (a b : Word) : Bool := (of32 a).lt (of32 b)
def one32 : Word := 0x3F800000

/-- Whether a coefficient has an allowed value (R313). -/
def ruleOk (c : List Word) (i : Nat) : Bool :=
  let x := c.getD i 0
  !nonfinite32 x &&
    (match i with
     | 5 => !below x 0 && (!below (c.getD 6 0) 0 || !isZero32 x)
     | 6 => isZero32 x || x == 0xBE800000 || x == 0xBF000000 || x == 0xBF800000
     | 8 => !below x 0 && below x one32
     | 9 => !below x 0 && below x one32
     | 10 => !below x 0
     | 11 => !below x 0
     | _ => true)

/-- The fields that a job command must have right: the header's, and a job in its context (R442). -/
def State.jobCommand (s : State) (ring : Nat) (raw : BitVec 512) (body : Nat) : Option Nat :=
  match headerFault (s.ring ring) raw body with
  | some b => some b
  | none => if (s.job (headerCtx raw)).present then none else some 62

/-- RULE_LOAD (R312 to R314): the coefficients go to the pending copy of the slot. -/
def execRuleLoad (ring : Fin 64) (view : HostView) (s : State) : Out :=
  match s.hostEntryOf ring.val 0x20 (fun _ => true) with
  | none => .next s
  | some e =>
    let c := headerCtx e.raw
    let addr := bodyAt e.raw 0 8
    let slot := bodyAt e.raw 8 1
    let bad : Option Nat := match s.jobCommand ring.val e.raw 9 with
      | some b => some b
      | none => if addr % 64 ≠ 0 then some 0 else if 32 ≤ slot then some 8 else none
    match bad with
    | some b => .next (s.reject ring.val e.index c b)
    | none =>
      match HostView.read view addr 64 with
      | .ep => .next (s.reject ring.val e.index c 0xFFFFFFFF)
      | .fail a => .next (s.readFailed ring.val e.index c a)
      | .ok l =>
        let cs := (List.range 16).map fun i => BitVec.ofNat 32 (numAt l (4 * i) 4)
        match (List.range 16).find? fun i => !ruleOk cs i with
        | some i =>
          .next ((s.event 0x0009 kUpdate c 0 (ringIndex ring.val e.index) i).complete ring.val e.index 2 0 0 0)
        | none =>
          let j := s.job c
          let p : Tbl Word := (cs.zipIdx).foldl (fun t x => t.set (16 * slot + x.2) x.1) j.pendingRules
          .next ((s.setJob c { j with pendingRules := p }).complete ring.val e.index 0 0 0 0)

/-! ### The layer table (R321 to R327) -/

/-- The fields of a layer entry (R322). -/
structure LF where
  valid : Bool
  freeze : Bool
  owner : Bool
  sparse : Bool
  host : Bool
  slot : Nat
  stat : Nat
  sBf16 : Bool
  gBf16 : Bool
  mstage : Nat
  iter : Nat
  block : Nat
  id : Nat
  rows : Nat
  cols : Nat
  step : Nat
  w : Nat
  g : Nat
  s1 : Nat
  s2 : Nat
  scratch : Nat
  rowstep : Nat
  list : Nat
  zero : Bool
deriving DecidableEq, Repr

def layerFields (raw : BitVec 512) : LF :=
  let v := raw.toNat
  let f (hi lo : Nat) : Nat := bitsOf v hi lo
  { valid := bitOf v 511, freeze := bitOf v 510, owner := bitOf v 509, sparse := bitOf v 508, host := bitOf v 507
    slot := f 506 502, stat := f 501 500, sBf16 := bitOf v 499, gBf16 := bitOf v 498, mstage := f 497 496, iter := f 495 492
    block := 64 * 2 ^ f 491 490, id := f 489 478, rows := f 471 448, cols := f 447 424, step := f 423 392, w := f 391 344
    g := f 343 296, s1 := f 295 248, s2 := f 247 200, scratch := f 199 152, rowstep := f 151 104, list := f 103 56
    zero := f 477 472 == 0 && f 55 0 == 0 }

/-- Bytes of a gradient and of a state element. -/
def LF.gs (l : LF) : Nat := if l.gBf16 then 2 else 4
def LF.ss (l : LF) : Nat := if l.sBf16 then 2 else 4
def LF.n (l : LF) : Nat := l.rows * l.cols

/-- The first multiple of `m` at or above a number. -/
def alignUp (m a : Nat) : Nat := ceilDiv a m * m

/-- Where k of a factored state, the stage arrays D and Q, and the bitmap of a SPARSE table lie (R322, R329, R332). -/
def LF.kBase (l : LF) : Nat := l.s2 + alignUp 64 (l.rows * l.ss)
def LF.dBase (l : LF) : Nat := l.scratch + alignUp 64 (4 * (l.rows + l.cols))
def LF.qBase (l : LF) : Nat := l.dBase + 4 * l.n
def LF.bitmap (l : LF) : Nat := alignUp 256 (l.g + 4 * l.n)
def LF.bitmapBytes (l : LF) : Nat := ceilDiv l.rows 8

/-- The bases that an entry's settings use (R322). -/
def LF.needed (l : LF) : List Nat :=
  (if l.freeze then [] else [l.w, l.g, l.s1] ++ (if l.stat = 0 then [] else [l.s2]) ++
    (if l.stat = 2 ∨ l.mstage ≠ 0 then [l.scratch] else []) ++ (if l.sparse then [l.rowstep] else [])) ++
    (if l.sparse then [l.g, l.list] else [])

/-- Whether a valid entry breaks a rule of R327. `ids` are the numbers of the entries before it. -/
def LF.bad (l : LF) (j : Job) (ids : List Nat) : Bool :=
  l.stat == 3 || (l.mstage == 0) != (l.iter == 0) || !l.zero ||
    [l.w, l.g, l.s1, l.s2, l.scratch, l.rowstep, l.list].any (fun b => b % 64 != 0) || l.needed.any (· == 0) ||
    (l.sparse && (l.stat == 2 || l.mstage != 0 || l.gBf16 || l.host)) ||
    ((l.mstage != 0 || l.stat == 2) && !isZero32 (j.rule l.slot 11)) ||
    (l.mstage != 0 && !below 0 (j.rule l.slot 13)) || l.rows == 0 || l.cols == 0 || decide (l.id ∈ ids)

/-- The index of the first entry that R327 rejects. -/
def firstBad (j : Job) : List Layer → List Nat → Option Nat
  | [], _ => none
  | x :: xs, ids =>
    let l := layerFields x.raw
    if l.bad j ids then some x.index else firstBad j xs (l.id :: ids)

/-- "ring, index" of the STEP in force. -/
def Job.stepRef (j : Job) : Nat :=
  match j.step with
  | some c => ringIndex c.ring.val c.index
  | none => 0

/-- The end of an Update Engine access that fails: its event names the STEP in force, and the job stops (R220, R342). -/
def State.updStop (s : State) (c e : Nat) (why : Stop) : State := s.engineStop c kUpdate e (s.job c).stepRef why

/-- Deal the valid entries of a context's table to the micro-engines' queues (R341). -/
def State.dealLayers (s : State) (c : Nat) : State :=
  (s.job c).layers.foldl (fun s x =>
    let l := layerFields x.raw
    let m := match s.translate c l.w false with | .ok pa => stackOfPA pa | _ => 0
    let e := 2 * m + x.index % 2
    let q := s.engine e
    s.setEngine e { q with queue := q.queue ++ [(c, x.index)] }) s

/-- Begin pass one of a step: pending coefficients come into force, the table is read once and checked, frozen layers
are counted, and the entries are dealt (R314, R325, R327, R335, R341). -/
def State.beginPassOne (s : State) (c : Nat) : State :=
  let j := s.job c
  match j.step with
  | none => s
  | some cmd =>
    let rules : Tbl Word := j.pendingRules.foldl (fun t x => t.set x.1 x.2) j.rules
    let n := cmd.entries
    let va := cmd.tableVA.toNat
    let s1 := (s.setJob c { j with rules := rules, pendingRules := [] }).vdemand c va (64 * n)
    match s1.vuse c va (64 * n) with
    | .error e => s1.updStop c 0 e
    | .ok l =>
      let all : List Layer := (cutBytes 64 n l).zipIdx.map fun x =>
        ⟨x.2, BitVec.ofNat 512 (ofBytes x.1), false, false, 0, 0, 0, 0, false⟩
      let layers := all.filter fun x => (layerFields x.raw).valid
      let j1 := s1.job c
      match firstBad j1 layers [] with
      | some i => (s1.event 0x000A kUpdate c 0 cmd.number.toNat i).stopAtCurfew c
      | none =>
        let frozen := layers.countP fun x => (layerFields x.raw).freeze
        let j2 : Job := { j1 with layers := layers, layerTable := va, passOneBegun := true, frozenLayers := frozen, fellBackLayers := 0 }
        let s2 := s1.setJob c j2
        ({ s2 with frozenSkips := s2.frozenSkips.set c (s2.frozenSkips.get 0 c + BitVec.ofNat 64 frozen) }).dealLayers c

/-- Change a layer's record. -/
def State.mapLayer (s : State) (c i : Nat) (f : Layer → Layer) : State :=
  let j := s.job c
  let l : List Layer := j.layers.map fun x => if x.index = i then f x else x
  s.setJob c { j with layers := l }

/-! ### Arrays of a layer -/

/-- Read several arrays in turn, consuming poison. -/
def State.readArrays (s : State) (c : Nat) : List (Nat × Nat) → State × Except Stop (List (List Byte))
  | [] => (s, .ok [])
  | (va, n) :: t =>
    let s1 := s.vdemand c va n
    match s1.vuse c va n with
    | .error e => (s1, .error e)
    | .ok l =>
      match s1.readArrays c t with
      | (s2, .ok ls) => (s2, .ok (l :: ls))
      | (s2, .error e) => (s2, .error e)

/-- Write several arrays in turn. -/
def State.writeArrays (s : State) (c : Nat) : List (Nat × List Byte) → State × Option Stop
  | [] => (s, none)
  | (va, l) :: t =>
    match s.vwrite c va l false with
    | (s1, some e) => (s1, some e)
    | (s1, none) => s1.writeArrays c t

/-- The raw elements of an array, and their values as FP32 (R315). -/
def rawElems (size : Nat) (l : List Byte) : List Nat := (cutBytes size (l.length / size) l).map ofBytes
def widen (isBf16 : Bool) (v : Nat) : Word := if isBf16 then to32 (bf16.value v) else BitVec.ofNat 32 v

/-- The stored bits of a state value, and whether they would be an infinity or a NaN (R315, R331). -/
def narrow (isBf16 : Bool) (w : Word) : Nat × Bool :=
  if isBf16 then
    let r := bf16.convert true (of32 w)
    (r.bits, r.nonfinite || nonfinite32 w)
  else (w.toNat, nonfinite32 w)

/-- The left fold of a sum. -/
def foldSum : List Word → Word
  | [] => 0
  | x :: xs => xs.foldl fadd x

/-- A sum of squares in 16 lanes by row-major index, and then the tree over four levels (R324). -/
def laneSquares (l : List (Nat × Word)) : Word :=
  let lanes := (List.range 16).map fun k =>
    ((l.filter fun x => decide (x.1 % 16 = k)).map fun x => fmul x.2 x.2).foldl fadd 0
  (treeFold fadd 4 lanes).headD 0

/-! ### The recurrence (R315 to R320) -/

/-- A power of an FP32 base: bits of the exponent from bit 31 down (R317). -/
def power (c : Word) (t : Nat) : Word :=
  (List.range 32).foldl (fun p i => let q := fmul p p; if bitOf t (31 - i) then fmul q c else q) one32

/-- P(x) (R317). -/
def rootOf (c6 x : Word) : Word :=
  if isZero32 c6 then one32
  else if c6 = 0xBF800000 then fdiv one32 x
  else if c6 = 0xBF000000 then fdiv one32 (fsqrt x)
  else fdiv one32 (fsqrt (fsqrt x))

/-- t′ (R316, R343). -/
def nextCount (t : Nat) : Nat := min (t + 1) (2 ^ 32 - 1)

/-- κ of a slot (R320). -/
def kappaOf (c10 g : Word) : Word :=
  if isZero32 c10 || isZero32 g then one32
  else
    let k := fdiv c10 (fsqrt g)
    if below k one32 then k else one32

/-- What the recurrence holds constant for a row or layer: the slot's coefficients, b1, b2, f and h. -/
structure Coef where
  c : List Word
  b1 : Word
  b2 : Word
  f : Word
  h : Word
deriving DecidableEq, Repr

def Job.coefs (j : Job) (slot : Nat) : List Word := (List.range 16).map fun i => j.rule slot i

/-- The constants for a step count. -/
def coefAt (c : List Word) (t : Nat) (eta kappa : Word) : Coef :=
  let x (i : Nat) : Word := c.getD i 0
  { c := c, b1 := fsub one32 (power (x 8) (nextCount t)), b2 := fsub one32 (power (x 9) (nextCount t))
    f := fsub one32 (fmul (x 7) eta), h := fmul eta kappa }

/-- An element as it is read: its index, gradient, weight and states, the states' stored bits beside them. -/
structure Elem where
  i : Nat
  g : Word
  w : Word
  s1 : Word
  s2 : Word
  s1raw : Nat
  s2raw : Nat
deriving DecidableEq, Repr

/-- Its new states and direction (R316, orders 3 to 7). `v` is given where the statistics are factored. -/
structure Moved where
  s1 : Word
  s2 : Word
  d : Word
deriving DecidableEq, Repr

def Coef.move (k : Coef) (full : Bool) (v : Option Word) (e : Elem) : Moved :=
  let x (i : Nat) : Word := k.c.getD i 0
  let s1 := fadd (fmul (x 0) e.s1) (fmul (x 1) e.g)
  let s2 := if full then fadd (fmul (x 2) e.s2) (fmul (x 3) (fmul e.g e.g)) else 0
  let vh := fdiv (v.getD s2) k.b2
  let u := fadd (fdiv s1 k.b1) (fmul (x 4) e.g)
  ⟨s1, s2, fmul u (rootOf (x 6) (fadd vh (x 5)))⟩

/-- What an element is written as: weight, states and whether it was left unchanged (R331). -/
structure Stored where
  w : Nat
  s1 : Nat
  s2 : Nat
  left : Bool
deriving DecidableEq, Repr

def Coef.store (k : Coef) (sBf16 full : Bool) (e : Elem) (m : Moved) (d : Word) : Stored :=
  let w := fsub (fmul e.w k.f) (fmul k.h d)
  let a := narrow sBf16 m.s1
  let b := narrow sBf16 m.s2
  if nonfinite32 w || a.2 || (full && b.2) then ⟨e.w.toNat, e.s1raw, e.s2raw, true⟩ else ⟨w.toNat, a.1, b.1, false⟩

/-- The elements of arrays read for `n` elements from row-major index `first` on. -/
def LF.elems (l : LF) (first : Nat) (g w s1 s2 : List Byte) : List Elem :=
  let gs := rawElems l.gs g
  let ws := rawElems 4 w
  let s1s := rawElems l.ss s1
  let s2s := rawElems l.ss s2
  gs.zipIdx.map fun x =>
    let a := s1s.getD x.2 0
    let b := s2s.getD x.2 0
    { i := first + x.2, g := widen l.gBf16 x.1, w := BitVec.ofNat 32 (ws.getD x.2 0), s1 := widen l.sBf16 a
      s2 := widen l.sBf16 b, s1raw := a, s2raw := b }

def LF.full (l : LF) : Bool := l.stat == 1
def LF.factored (l : LF) : Bool := l.stat == 2

/-- The arrays of `n` elements from row-major index `first`, in the order g, w, s1, s2 (s2 only where it is full). -/
def LF.arrays (l : LF) (first n : Nat) : List (Nat × Nat) :=
  [(l.g + l.gs * first, l.gs * n), (l.w + 4 * first, 4 * n), (l.s1 + l.ss * first, l.ss * n)] ++
    (if l.full then [(l.s2 + l.ss * first, l.ss * n)] else [])

/-- Read elements of a layer. -/
def State.layerElems (s : State) (c : Nat) (l : LF) (first n : Nat) : State × Except Stop (List Elem) :=
  match s.readArrays c (l.arrays first n) with
  | (s1, .error e) => (s1, .error e)
  | (s1, .ok ls) => (s1, .ok (l.elems first (ls.getD 0 []) (ls.getD 1 []) (ls.getD 2 []) (ls.getD 3 [])))

/-- The writes of stored elements from row-major index `first` on. -/
def LF.writes (l : LF) (first : Nat) (xs : List Stored) : List (Nat × List Byte) :=
  [(l.w + 4 * first, xs.flatMap fun x => toBytes 4 x.w), (l.s1 + l.ss * first, xs.flatMap fun x => toBytes l.ss x.s1)] ++
    (if l.full then [(l.s2 + l.ss * first, xs.flatMap fun x => toBytes l.ss x.s2)] else [])

/-! ### Factored statistics (R318) -/

/-- The row and column means of a gradient: ρ, then γ. -/
def LF.means (l : LF) (g : List Word) : List Word × List Word :=
  let sq := g.map fun x => fmul x x
  let rho := (List.range l.rows).map fun i => fdiv (foldSum ((sq.drop (i * l.cols)).take l.cols)) (ofCount l.cols)
  let gamma := (List.range l.cols).map fun k =>
    fdiv (foldSum ((List.range l.rows).map fun i => sq.getD (i * l.cols + k) 0)) (ofCount l.rows)
  (rho, gamma)

/-- One statistic moved on: c2 and c3. -/
def Coef.stat (k : Coef) (old mean : Word) : Word := fadd (fmul (k.c.getD 2 0) old) (fmul (k.c.getD 3 0) mean)

/-- v of an element from r′, k′ and m. -/
def factoredV (r k : List Word) (m : Word) (cols i : Nat) : Word :=
  if isZero32 m then 0 else fdiv (fmul (r.getD (i / cols) 0) (k.getD (i % cols) 0)) m

/-! ### The matrix stage (R336 to R338) -/

/-- A matrix as rows. -/
abbrev Mat := List (List Word)

def Mat.flip (q : Nat) (a : Mat) : Mat := (List.range q).map fun k => a.map fun r => r.getD k 0

/-- A·Bᵀ, each element a left fold in ascending inner index. -/
def Mat.byRows (a b : Mat) : Mat := a.map fun r => b.map fun t => foldSum (List.zipWith fmul r t)

/-- A·B, with B of `q` columns. -/
def Mat.times (a b : Mat) (q : Nat) : Mat := Mat.byRows a (Mat.flip q b)

def Mat.map (f : Word → Word) (a : Mat) : Mat := List.map (fun r => List.map f r) a
def Mat.zip (f : Word → Word → Word) (a b : Mat) : Mat := List.zipWith (List.zipWith f) a b

/-- x × I of size n. -/
def Mat.diag (n : Nat) (x : Word) : Mat :=
  (List.range n).map fun i => (List.range n).map fun k => if i = k then x else fmul x 0

/-- The Frobenius norm. -/
def Mat.norm (a : Mat) : Word := fsqrt (foldSum ((List.flatten a).map fun x => fmul x x))

def Mat.bad (a : Mat) : Bool := List.any a fun r => r.any nonfinite32

/-- What a stage makes of a block: its output, or why it falls back: no residual formed, or a residual, with the output
that the stage still formed (R338). -/
inductive StageOut where
  | ok (x : Mat)
  | zeroNorm
  | residual (r : Word) (x : Mat)
deriving DecidableEq, Repr

/-- The end of a stage: every value finite and the residual not above c13. -/
def stageEnd (c13 r : Word) (ok : Bool) (out : Mat) : StageOut :=
  if !ok || nonfinite32 r || Mat.bad out || below c13 r then .residual r out else .ok out

/-- Newton–Schulz iterations: the iterate, and whether every value was finite. -/
def newtonSchulz (a b : Word) (n q : Nat) : Nat → Mat → Bool → Mat × Bool
  | 0, x, ok => (x, ok)
  | k + 1, x, ok =>
    let xt := Mat.flip q x
    let h := if n ≤ q then Mat.byRows x x else Mat.byRows xt xt
    let y := if n ≤ q then Mat.times h x q else Mat.times x h q
    let z := Mat.zip fadd (Mat.map (fmul a) x) (Mat.map (fmul b) y)
    newtonSchulz a b n q k z (ok && !Mat.bad h && !Mat.bad y && !Mat.bad z)

/-- The residual ‖H − I‖F / √size. -/
def residualOf (h : Mat) (size : Nat) : Word :=
  fdiv (Mat.norm (Mat.zip fsub h (Mat.diag size one32))) (fsqrt (ofCount size))

def stageNewton (c : List Word) (iter n q : Nat) (b : Mat) : StageOut :=
  let s := Mat.norm b
  if isZero32 s then .zeroNorm
  else
    let x0 := Mat.map (fun v => fdiv v s) b
    let r := newtonSchulz (c.getD 14 0) (c.getD 15 0) n q iter x0 (!nonfinite32 s && !Mat.bad x0)
    let h := if n ≤ q then Mat.byRows r.1 r.1 else Mat.byRows (Mat.flip q r.1) (Mat.flip q r.1)
    stageEnd (c.getD 13 0) (residualOf h (min n q)) (r.2 && !Mat.bad h) (Mat.map (fmul (c.getD 12 0)) r.1)

/-- T^ℓ for ℓ = 2 or 4. -/
def Mat.pow (t : Mat) (n order : Nat) : Mat :=
  let t2 := Mat.times t t n
  if order = 2 then t2 else Mat.times t2 t2 n

/-- Inverse-root iterations on X and M. -/
def inverseRoot (order n : Nat) : Nat → Mat → Mat → Bool → Mat × Mat × Bool
  | 0, x, m, ok => (x, m, ok)
  | k + 1, x, m, ok =>
    let l := ofCount order
    let t := Mat.map (fun v => fdiv v l) (Mat.zip fsub (Mat.diag n (ofCount (order + 1))) m)
    let x1 := Mat.times x t n
    let p := Mat.pow t n order
    let m1 := Mat.times p m n
    inverseRoot order n k x1 m1 (ok && !Mat.bad t && !Mat.bad x1 && !Mat.bad p && !Mat.bad m1)

def stageRoot (order : Nat) (c : List Word) (iter n q : Nat) (b : Mat) : StageOut :=
  let a0 := Mat.map (fun v => fdiv v (ofCount q)) (Mat.byRows b b)
  let a := Mat.zip fadd a0 (Mat.diag n (c.getD 5 0))
  let s := Mat.norm a
  if isZero32 s then .zeroNorm
  else
    let root := if order = 2 then fdiv one32 (fsqrt s) else fdiv one32 (fsqrt (fsqrt s))
    let m := Mat.map (fun v => fdiv v s) a
    let x := Mat.diag n root
    let r := inverseRoot order n iter x m (!Mat.bad a0 && !Mat.bad a && !nonfinite32 s && !Mat.bad m && !Mat.bad x)
    let out := Mat.times r.1 b q
    stageEnd (c.getD 13 0) (residualOf r.2.1 n) (r.2.2 && !Mat.bad out) (Mat.map (fmul (c.getD 12 0)) out)

/-- A block of d: first row and column, rows and columns. -/
structure BlockAt where
  r : Nat
  k : Nat
  n : Nat
  q : Nat
deriving DecidableEq, Repr

/-- The blocks of a layer, row-major (R336). -/
def LF.blocks (l : LF) : List BlockAt :=
  (List.range (ceilDiv l.rows l.block)).flatMap fun i => (List.range (ceilDiv l.cols l.block)).map fun k =>
    ⟨i * l.block, k * l.block, min l.block (l.rows - i * l.block), min l.block (l.cols - k * l.block)⟩

def LF.stage (l : LF) (c : List Word) (d : List Word) (b : BlockAt) : StageOut :=
  let m : Mat := (List.range b.n).map fun i => (d.drop ((b.r + i) * l.cols + b.k)).take b.q
  match l.mstage with
  | 1 => stageNewton c l.iter b.n b.q m
  | 2 => stageRoot 2 c l.iter b.n b.q m
  | _ => stageRoot 4 c l.iter b.n b.q m

/-- Put the output of a block into Q. -/
def putBlock (cols : Nat) (b : BlockAt) (x : Mat) (q : List Word) : List Word :=
  q.mapIdx fun i v =>
    let r := i / cols
    let k := i % cols
    if b.r ≤ r ∧ r < b.r + b.n ∧ b.k ≤ k ∧ k < b.k + b.q then (x.getD (r - b.r) []).getD (k - b.k) 0 else v

/-- What Q holds for a block that forms no output: free values. -/
def noOutput (id : Nat) (b : BlockAt) : Mat :=
  (List.range b.n).map fun i => (List.range b.q).map fun k => Config.stageOutput id (b.r + i) (b.k + k)

/-- The stage over every block: Q, and the first block that falls back (R329, R338). -/
def LF.stages (l : LF) (c : List Word) (d : List Word) : List Word × Option (Nat × StageOut) :=
  (l.blocks.zipIdx).foldl (fun (acc : List Word × Option (Nat × StageOut)) b =>
    match l.stage c d b.1 with
    | .ok x => (putBlock l.cols b.1 x acc.1, acc.2)
    | .residual r x => (putBlock l.cols b.1 x acc.1, acc.2.orElse fun _ => some (b.2, .residual r x))
    | .zeroNorm => (putBlock l.cols b.1 (noOutput l.id b.1) acc.1, acc.2.orElse fun _ => some (b.2, .zeroNorm))) (d, none)

/-! ### Pass one (R328, R332) -/

/-- The rows that a bitmap marks, ascending. -/
def touchedRows (rows : Nat) (l : List Byte) : List Nat := (List.range rows).filter fun r => (l.getD (r / 8) 0).getLsbD (r % 8)

/-- Build the touched-row list of a SPARSE entry. -/
def State.buildList (s : State) (c : Nat) (l : LF) : State × Except Stop (List Nat) :=
  match s.readArrays c [(l.bitmap, l.bitmapBytes)] with
  | (s1, .error e) => (s1, .error e)
  | (s1, .ok bs) =>
    let rows := touchedRows l.rows (bs.getD 0 [])
    match s1.vwrite c l.list (rows.flatMap fun r => toBytes 4 r) false with
    | (s2, some e) => (s2, .error e)
    | (s2, none) => (s2, .ok rows)

/-- The sums of a layer: g², and w² and d² where it uses the trust ratio. -/
structure Sums where
  g : Word
  w : Word
  d : Word
deriving DecidableEq, Repr

/-- The rows that an entry's passes read: the listed ones of a SPARSE entry, or all of them as one run. Each is a first
row-major index and a count of elements, with the row's own number. -/
def LF.spans (l : LF) (listed : List Nat) : List (Nat × Nat × Nat) :=
  if l.sparse then listed.map fun r => (r * l.cols, l.cols, r) else [(0, l.n, 0)]

/-- Read the spans of an entry. -/
def State.spanElems (s : State) (c : Nat) (l : LF) : List (Nat × Nat × Nat) → State × Except Stop (List (List Elem))
  | [] => (s, .ok [])
  | x :: xs =>
    match s.layerElems c l x.1 x.2.1 with
    | (s1, .error e) => (s1, .error e)
    | (s1, .ok es) =>
      match s1.spanElems c l xs with
      | (s2, .ok t) => (s2, .ok (es :: t))
      | (s2, .error e) => (s2, .error e)

/-- The gradients alone, with their row-major indices. -/
def State.spanGrads (s : State) (c : Nat) (l : LF) (xs : List (Nat × Nat × Nat)) : State × Except Stop (List (Nat × Word)) :=
  match s.readArrays c (xs.map fun x => (l.g + l.gs * x.1, l.gs * x.2.1)) with
  | (s1, .error e) => (s1, .error e)
  | (s1, .ok ls) => (s1, .ok ((List.zip xs ls).flatMap fun p =>
      (rawElems l.gs p.2).zipIdx.map fun v => (p.1.1 + v.2, widen l.gBf16 v.1)))

/-- The step count of each span: the layer's, or its row's (R333). -/
def State.spanCounts (s : State) (c : Nat) (l : LF) (xs : List (Nat × Nat × Nat)) : State × Except Stop (List Nat) :=
  if !l.sparse then (s, .ok (xs.map fun _ => l.step))
  else
    match s.readArrays c (xs.map fun x => (l.rowstep + 4 * x.2.2, 4)) with
    | (s1, .error e) => (s1, .error e)
    | (s1, .ok ls) => (s1, .ok (ls.map ofBytes))

/-- The sums that pass one forms for an entry; d under R316 with nothing written (R328). -/
def State.layerSums (s : State) (c : Nat) (l : LF) (listed : List Nat) : State × Except Stop Sums :=
  let xs := l.spans listed
  match s.spanGrads c l xs with
  | (s1, .error e) => (s1, .error e)
  | (s1, .ok gs) =>
    let j := s1.job c
    let g := laneSquares gs
    if isZero32 (j.rule l.slot 11) then (s1, .ok ⟨g, 0, 0⟩)
    else
      match s1.spanElems c l xs with
      | (s2, .error e) => (s2, .error e)
      | (s2, .ok es) =>
        match s2.spanCounts c l xs with
        | (s3, .error e) => (s3, .error e)
        | (s3, .ok ts) =>
          let all := List.zip es ts
          let ds := all.flatMap fun p => p.1.map fun e => (e.i, ((coefAt (j.coefs l.slot) p.2 0 0).move l.full none e).d)
          let ws := es.flatMap fun p => p.map fun e => (e.i, e.w)
          (s3, .ok ⟨g, laneSquares ws, laneSquares ds⟩)

/-- Pass one of an entry that is not frozen: means, sums and, for SPARSE, the list. -/
def State.passOneWork (s : State) (c : Nat) (l : LF) : State × Except Stop (Nat × Sums) :=
  let listed := if l.sparse then s.buildList c l else (s, .ok [])
  match listed with
  | (s1, .error e) => (s1, .error e)
  | (s1, .ok rows) =>
    if l.freeze then (s1, .ok (rows.length, ⟨0, 0, 0⟩))
    else
      match s1.layerSums c l rows with
      | (s2, .error e) => (s2, .error e)
      | (s2, .ok sums) =>
        if !l.factored then (s2, .ok (rows.length, sums))
        else
          match s2.spanGrads c l (l.spans []) with
          | (s3, .error e) => (s3, .error e)
          | (s3, .ok gs) =>
            let m := l.means (gs.map (·.2))
            match s3.vwrite c l.scratch ((m.1 ++ m.2).flatMap fun w => toBytes 4 w.toNat) false with
            | (s4, some e) => (s4, .error e)
            | (s4, none) => (s4, .ok (rows.length, sums))

/-! ### The superstep list (R479 to R483) -/

/-- Supersteps of a step, never zero. -/
def Job.len (j : Job) : Nat := max 1 j.listS

/-- Whether a job superstep ends a step (R480). -/
def Job.isFinal (j : Job) : Bool := j.superstep % j.len + 1 == j.len

/-- Fields of an action (R481). -/
def Action.kind (a : Action) : Nat := bitsOf a.raw.toNat 255 252
def Action.queueKey (a : Action) : Nat := bitsOf a.raw.toNat 251 248 + 16 * bitsOf a.raw.toNat 247 247
def Action.needAfter (a : Action) : Nat := bitsOf a.raw.toNat 239 224
def Action.count (a : Action) : Nat := bitsOf a.raw.toNat 223 208
def Action.cmdVA (a : Action) : Nat := bitsOf a.raw.toNat 175 128
def Action.descVA (a : Action) : Nat := bitsOf a.raw.toNat 127 80

/-- The actions in the record of job superstep `n`, read from memory (R486). -/
def State.actionsAt (s : State) (c n : Nat) : State × Except Stop (List Action) :=
  let j := s.job c
  match j.records[n % j.len]? with
  | none => (s, .ok [])
  | some r =>
    if r.count = 0 then (s, .ok [])
    else
      match s.readArrays c [(j.listActions.toNat + 32 * r.first.toNat, 32 * r.count.toNat)] with
      | (s1, .error e) => (s1, .error e)
      | (s1, .ok ls) =>
        (s1, .ok ((cutBytes 32 r.count.toNat (ls.getD 0 [])).zipIdx.map fun x =>
          ⟨4096 * n + x.2, BitVec.ofNat 256 (ofBytes x.1), n, 0, false, false⟩))

/-- The same without the effects of the read: none where it fails. -/
def State.peekActions (s : State) (c n : Nat) : List Action :=
  match (s.actionsAt c n).2 with
  | .ok l => l
  | .error _ => []

/-- Whether an action of the superstep list has completed: its descriptors and its command. -/
def Action.finished (a : Action) : Bool := a.descsLeft == 0 && !a.cmdDue && !a.cmdOpen

/-- Whether an action's LAYER range names a table index (R481). -/
def Action.names (a : Action) (i : Nat) : Bool :=
  let v := a.raw.toNat
  decide (bitsOf v 207 196 ≤ i) && decide (i < bitsOf v 207 196 + bitsOf v 195 183)

/-- The first superstep of the step that a job is in. -/
def Job.stepBase (j : Job) : Nat := j.superstep - j.superstep % j.len

/-- The actions of the list that fall to the step in force: what a release issues for the superstep it begins belongs to that
superstep's step, whichever record holds it (R482). -/
def State.stepActions (s : State) (c : Nat) : List Action :=
  let j := s.job c
  let b := j.stepBase
  ((List.range (j.len + 1)).flatMap fun k => if b + k = 0 then [] else s.peekActions c (b + k - 1)).filter (fun a =>
      a.kind == 2 && decide (a.superstep + 1 < b + j.len)) ++
    ((List.range j.len).flatMap fun k => s.peekActions c (b + k)).filter fun a => a.kind == 1

/-- Whether every action of the step that names an entry has completed, and one does (R483). -/
def State.namedDone (s : State) (c i : Nat) : Bool :=
  let named := (s.stepActions c).filter fun a => a.names i
  let done (a : Action) : Bool := (s.job c).actions.any fun x => x.id == a.id && x.finished
  !named.isEmpty && named.all done

/-- Whether a layer's gradient is ready for pass one: every action that names it has completed, and, where none does, the
tiles have arrived at the step's final Curfew (R328, R483). -/
def State.gradientReady (s : State) (c i : Nat) : Bool :=
  let j := s.job c
  (j.actions.all fun a => a.finished || !a.names i) && ((j.phase == .curfew && j.isFinal) || s.namedDone c i)

/-- Whether pass one of the step in force may begin: the gradient of an entry that an action names is ready (R483). -/
def State.passOneDue (s : State) (c : Nat) : Bool :=
  let j := s.job c
  j.running && j.step.isSome && !j.held && !j.passOneBegun && !j.evaluation &&
    j.actions.any fun a => a.finished && (List.range (bitsOf a.raw.toNat 195 183)).any fun k =>
      s.namedDone c (bitsOf a.raw.toNat 207 196 + k)

/-- Begin pass one for every context that may. -/
def State.beginDue (s : State) : State :=
  (List.range 8).foldl (fun s c => if s.passOneDue c then s.beginPassOne c else s) s

/-- Take the head of a micro-engine's queue. -/
def State.takeHead (s : State) (e : Nat) (pass : BitVec 2) : State :=
  let q := s.engine e
  s.setEngine e { q with queue := q.queue.tail, busy := true, pass := pass }

/-- The entry at the head of a micro-engine's queue, with its context. -/
def State.headLayer (s : State) (e : Nat) : Option (Nat × Layer) :=
  match (s.engine e).queue.head? with
  | none => none
  | some (c, i) => ((s.job c).layers.find? fun x => x.index == i).map fun x => (c, x)

/-- PASS_ONE_ENTRY: pass one of a step begins as soon as a named gradient is ready (R483), and a micro-engine runs pass one of
the entry at the head of its queue (R328, R332). -/
def execPassOneEntry (engine : Fin 16) (s : State) : Out :=
  let e := engine.val
  let s0 := s.beginDue
  match s0.headLayer e with
  | none => .next s0
  | some (c, x) =>
    if x.onePassed || !s0.gradientReady c x.index then .next s0
    else
      let l := layerFields x.raw
      let s1 := s0.takeHead e 1
      match s1.passOneWork c l with
      | (s2, .error why) => .next (s2.updStop c e why)
      | (s2, .ok (n, sums)) =>
        let f (y : Layer) : Layer := { y with onePassed := true, listed := n, sumG := sums.g, sumW := sums.w, sumD := sums.d }
        .next (s2.mapLayer c x.index f)

/-- UPDATE_ENTRY_STEAL: an idle micro-engine takes the entry at the tail of the longest queue (R341). -/
def execUpdateEntrySteal (engine : Fin 16) (s : State) : Out :=
  let e := engine.val
  let q := s.engine e
  if q.queue ≠ [] ∨ q.busy ∨ !s.updCtrl.getLsbD 31 then .next s
  else
    let victim := (List.range 16).foldl (fun best v =>
      if (s.engine best).queue.length < (s.engine v).queue.length then v else best) 0
    let y := s.engine victim
    match y.queue.getLast? with
    | none => .next s
    | some k => .next ((s.setEngine victim { y with queue := y.queue.dropLast }).setEngine e { q with queue := [k] })

/-! ### The norm vector (R323, R324) -/

/-- The module's own contribution: values that are not zero, ascending. -/
def Job.ownNorm (j : Job) : Tbl Word :=
  let mine := j.layers.filter fun x => (layerFields x.raw).owner && !(layerFields x.raw).freeze
  let base : Tbl Word := match mine with
    | [] => []
    | x :: xs => [(0, xs.foldl (fun a y => fadd a y.sumG) x.sumG)]
  mine.foldl (fun t x =>
    let l := layerFields x.raw
    if isZero32 (j.rule l.slot 11) then t else (t.set (1 + 2 * l.id) x.sumW).set (2 + 2 * l.id) x.sumD) base

/-- Combine the participants' vectors in the order given (R69). -/
def combineNorm (parts : List (Tbl Word)) : Tbl Word :=
  let keys := parts.foldl (fun ks p => p.foldl (fun ks e => addTo ks e.1) ks) []
  keys.map fun k => (k, foldSum (parts.map fun p => p.get 0 k))

/-- κ of the completion record (R444): the slot of the first entry that is valid and not frozen. -/
def Job.recordKappa (j : Job) (g : Word) : Word :=
  match j.layers.find? fun x => !(layerFields x.raw).freeze with
  | some x => kappaOf (j.rule (layerFields x.raw).slot 10) g
  | none => one32

/-! ### Pass two (R329 to R340) -/

/-- The trust ratio ρ (R319); one where the layer uses none. -/
def Job.trust (j : Job) (l : LF) : Word :=
  let c11 := j.rule l.slot 11
  if isZero32 c11 then one32
  else
    let w := j.norm.get 0 (1 + 2 * l.id)
    let d := j.norm.get 0 (2 + 2 * l.id)
    if isZero32 w || isZero32 d then one32 else fdiv (fmul c11 (fsqrt w)) (fsqrt d)

/-- d with the trust ratio applied, where the layer uses it. -/
def Job.trusted (j : Job) (l : LF) (d : Word) : Word := if isZero32 (j.rule l.slot 11) then d else fmul (j.trust l) d

/-- Raise UPDATE_NONFINITE where elements were left (R331). -/
def State.leftEvent (s : State) (c e : Nat) (l : LF) (n : Nat) : State :=
  if n = 0 then s else s.event 0x0502 kUpdate c e l.id n

/-- Write a layer's STEP as t′ (R330). -/
def State.writeStep (s : State) (c : Nat) (x : Layer) : State × Option Stop :=
  s.vwrite c ((s.job c).layerTable + 64 * x.index + 49) (toBytes 4 (nextCount (layerFields x.raw).step)) false

/-- Zero the gradient rows that a SPARSE entry's list names, and clear its bitmap (R333, R334). -/
def State.clearSparse (s : State) (c : Nat) (x : Layer) : State × Option Stop :=
  let l := layerFields x.raw
  match s.readArrays c [(l.list, 4 * x.listed)] with
  | (s1, .error e) => (s1, some e)
  | (s1, .ok ls) =>
    let rows := (rawElems 4 (ls.getD 0 []))
    let zeros := rows.map fun r => (l.g + 4 * (r * l.cols), List.replicate (4 * l.cols) (0 : Byte))
    s1.writeArrays c (zeros ++ [(l.bitmap, List.replicate l.bitmapBytes 0)])

/-- Pass two of a SPARSE entry: each listed row with its own count, then its gradient rows and the bitmap cleared. -/
def State.applySparse (s : State) (c e : Nat) (x : Layer) : State × Option Stop :=
  let l := layerFields x.raw
  match s.readArrays c [(l.list, 4 * x.listed)] with
  | (s0, .error why) => (s0, some why)
  | (s0, .ok ls) =>
    let xs := l.spans (rawElems 4 (ls.getD 0 []))
    match s0.spanElems c l xs with
    | (s1, .error why) => (s1, some why)
    | (s1, .ok es) =>
      match s1.spanCounts c l xs with
      | (s2, .error why) => (s2, some why)
      | (s2, .ok ts) =>
        let j := s2.job c
        let eta := match j.step with | some k => k.eta | none => 0
        let cs := j.coefs l.slot
        let kappa := kappaOf (cs.getD 10 0) j.g
        let outs : List (Nat × Nat × Nat × List Stored) := (List.zip xs (List.zip es ts)).map fun p =>
          let k := coefAt cs p.2.2 eta kappa
          (p.1.1, p.1.2.2, nextCount p.2.2, p.2.1.map fun el =>
            let m := k.move l.full none el
            k.store l.sBf16 l.full el m (j.trusted l m.d))
        let ws := outs.flatMap fun o => l.writes o.1 o.2.2.2 ++ [(l.rowstep + 4 * o.2.1, toBytes 4 o.2.2.1)]
        match s2.writeArrays c ws with
        | (s3, some why) => (s3, some why)
        | (s3, none) =>
          let n := (outs.map fun o => o.2.2.2.countP (·.left)).sum
          (s3.leftEvent c e l n).clearSparse c x

/-- The statistics of a factored entry moved on: r′, k′ and m, with the writes of r′ and k′; a value that would be an
infinity or a NaN is not written. -/
def LF.factor (l : LF) (k : Coef) (r0 k0 : List Nat) (rho gamma : List Word) :
    List Word × List Word × Word × List (Nat × List Byte) :=
  let r := List.zipWith (fun a b => k.stat (widen l.sBf16 a) b) r0 rho
  let q := List.zipWith (fun a b => k.stat (widen l.sBf16 a) b) k0 gamma
  let enc (old : Nat) (v : Word) : List Byte :=
    let x := narrow l.sBf16 v
    toBytes l.ss (if x.2 then old else x.1)
  (r, q, fdiv (foldSum r) (ofCount l.rows),
    [(l.s2, (List.zipWith enc r0 r).flatten), (l.kBase, (List.zipWith enc k0 q).flatten)])

/-- The factored statistics of an entry at pass two, with what to write of them; none for other entries. -/
def State.factored (s : State) (c : Nat) (l : LF) (k : Coef) :
    State × Except Stop (Option (List Word × List Word × Word × List (Nat × List Byte))) :=
  if !l.factored then (s, .ok none)
  else
    match s.readArrays c [(l.s2, l.ss * l.rows), (l.kBase, l.ss * l.cols), (l.scratch, 4 * (l.rows + l.cols))] with
    | (s1, .error e) => (s1, .error e)
    | (s1, .ok ls) =>
      let means := (rawElems 4 (ls.getD 2 [])).map fun v => BitVec.ofNat 32 v
      (s1, .ok (some (l.factor k (rawElems l.ss (ls.getD 0 [])) (rawElems l.ss (ls.getD 1 []))
        (means.take l.rows) (means.drop l.rows))))

/-- Count a layer that falls back, with its event (R338). -/
def State.fellBack (s : State) (c e : Nat) (l : LF) (b : Nat × StageOut) : State :=
  let r := match b.2 with | .residual r _ => r | _ => Config.stageResidual l.id b.1
  let s1 : State := { s with fallbacks := s.fallbacks.set c (s.fallbacks.get 0 c + 1) }
  let j := s1.job c
  (s1.setJob c { j with fellBackLayers := j.fellBackLayers + 1 }).event 0x0503 kUpdate c e (l.id + b.1 * 2 ^ 32) r.toNat

/-- Pass two of a dense entry (R329). -/
def State.applyDense (s : State) (c e : Nat) (x : Layer) : State × Option Stop :=
  let l := layerFields x.raw
  let j0 := s.job c
  let eta := match j0.step with | some k => k.eta | none => 0
  let cs := j0.coefs l.slot
  let k := coefAt cs l.step eta (kappaOf (cs.getD 10 0) j0.g)
  match s.layerElems c l 0 l.n with
  | (s1, .error why) => (s1, some why)
  | (s1, .ok es) =>
    match s1.factored c l k with
    | (s2, .error why) => (s2, some why)
    | (s2, .ok fac) =>
      let ms := es.map fun el => k.move l.full (fac.map fun q => factoredV q.1 q.2.1 q.2.2.1 l.cols el.i) el
      let ds := ms.map fun m => j0.trusted l m.d
      let st := if l.mstage = 0 then (ds, none) else l.stages cs ds
      let used := if st.2.isSome then ds else st.1
      let outs := List.zipWith (fun el (p : Moved × Word) => k.store l.sBf16 l.full el p.1 p.2) es (List.zip ms used)
      let word (w : Word) : List Byte := toBytes 4 w.toNat
      let stage : List (Nat × List Byte) :=
        if l.mstage = 0 then [] else [(l.dBase, ds.flatMap word), (l.qBase, st.1.flatMap word)]
      let stats := match fac with | some q => q.2.2.2 | none => []
      match s2.writeArrays c (stage ++ stats ++ l.writes 0 outs) with
      | (s3, some why) => (s3, some why)
      | (s3, none) =>
        let s4 := s3.leftEvent c e l (outs.countP (·.left))
        match st.2 with
        | some b => ((s4.mapLayer c x.index fun y => { y with fellBack := true }).fellBack c e l b, none)
        | none => (s4, none)

/-- Pass two of an entry: nothing for a frozen or host-run one, but that a frozen SPARSE one is cleared (R334, R335,
R340). -/
def State.passTwoWork (s : State) (c e : Nat) (x : Layer) : State × Option Stop :=
  let l := layerFields x.raw
  if l.freeze then (if l.sparse then s.clearSparse c x else (s, none))
  else if l.host then (s, none)
  else
    match if l.sparse then s.applySparse c e x else s.applyDense c e x with
    | (s1, some why) => (s1, some why)
    | (s1, none) => s1.writeStep c x

/-- PASS_TWO_ENTRY: a micro-engine runs pass two of the entry at the head of its queue (R329). -/
def execPassTwoEntry (engine : Fin 16) (s : State) : Out :=
  let e := engine.val
  match s.headLayer e with
  | none => .next s
  | some (c, x) =>
    if x.twoPassed || (s.job c).decision != .applied then .next s
    else
      match (s.takeHead e 2).passTwoWork c e x with
      | (s1, some why) => .next (s1.updStop c e why)
      | (s1, none) => .next (s1.mapLayer c x.index fun y => { y with twoPassed := true })

/-! ### WRITE_BACK (R340) -/

/-- The layer-table entry of the step in force that a command of the host names: as pass one read it, or, before any, as it
stands in memory; none where the table has no such valid entry (R340, R440). The read of memory may fail (R220, R232). -/
def State.layerRaw (s : State) (c i : Nat) : State × Except Stop (Option (BitVec 512)) :=
  let j := s.job c
  match j.layers.find? fun x => x.index == i with
  | some x => (s, .ok (some x.raw))
  | none =>
    match j.step with
    | none => (s, .ok none)
    | some k =>
      if k.entries ≤ i then (s, .ok none)
      else
        match s.readArrays c [(k.tableVA.toNat + 64 * i, 64)] with
        | (s1, .error e) => (s1, .error e)
        | (s1, .ok ls) =>
          let raw := BitVec.ofNat 512 (ofBytes (ls.getD 0 []))
          (s1, .ok (if (layerFields raw).valid then some raw else none))

/-- A command of the host that a failed access ends: its record, the event, and the stop of its job (R220, R232, R445). -/
def State.commandStop (s : State) (ring : Nat) (index : BitVec 16) (c : Nat) (kind : BitVec 4) (unit : Nat) (why : Stop) : State :=
  (s.complete ring index why.hostStatus 0 0 0).engineStop c kind unit (ringIndex ring index) why

/-- The pieces that WRITE_BACK carries: destination and bytes, each from a 64-byte boundary of the source. -/
def LF.pieces (l : LF) : List (Nat × Nat) :=
  [(l.w, 4 * l.n), (l.s1, l.ss * l.n)] ++
    (if l.full then [(l.s2, l.ss * l.n)]
     else if l.factored then [(l.s2, alignUp 64 (l.ss * l.rows) + l.ss * l.cols)] else [])

/-- Copy the pieces in turn. -/
def State.copyPieces (s : State) (c : Nat) (v : HostView) : Nat → Bool → List (Nat × Nat) → State × HostCopy
  | _, ep, [] => (s, .done ep)
  | src, ep, (va, n) :: t =>
    match s.fromHost c v src va n with
    | (s1, .done b) => s1.copyPieces c v (src + alignUp 64 n) (ep || b) t
    | r => r

/-- WRITE_BACK: W, S1, S2 and STEP of a layer as the host gives them; the layer's hold ends (R340, R452). -/
def execWriteBack (ring : Fin 64) (view : HostView) (s : State) : Out :=
  match s.hostEntryOf ring.val 0x21 (fun _ => true) with
  | none => .next s
  | some e =>
    let c := headerCtx e.raw
    let addr := bodyAt e.raw 0 8
    let i := bodyAt e.raw 12 2
    let j := s.job c
    let bad : Option Nat := match s.jobCommand ring.val e.raw 14 with
      | some b => some b
      | none => if addr % 64 ≠ 0 then some 0 else none
    match bad, s.layerRaw c i with
    | some b, _ => .next (s.reject ring.val e.index c b)
    | none, (sR, .error why) => .next (sR.commandStop ring.val e.index c kUpdate 0 why)
    | none, (sR, .ok none) => .next (sR.reject ring.val e.index c 12)
    | none, (sR, .ok (some x)) =>
      let l := layerFields x
      let m := match sR.translate c l.w false with | .ok pa => stackOfPA pa | _ => 0
      let n := 2 * m + i % 2
      let s0 := sR.setEngine n { sR.engine n with busy := true, pass := 3 }
      match s0.copyPieces c view addr false l.pieces with
      | (s1, .fail a) => .next (s1.readFailed ring.val e.index c a)
      | (s1, .stop why) => .next (s1.commandStop ring.val e.index c kUpdate n why)
      | (s1, .done ep) =>
        let table := match j.step with
          | some k => if j.layers.any fun y => y.index == i then j.layerTable else k.tableVA.toNat
          | none => j.layerTable
        match s1.vwrite c (table + 64 * i + 49) (toBytes 4 (bodyAt e.raw 8 4)) false with
        | (s2, some why) => .next (s2.commandStop ring.val e.index c kUpdate n why)
        | (s2, none) =>
          let j2 := s2.job c
          .next ((s2.setJob c { j2 with hostHold := j2.hostHold.filter (· ≠ i) }).complete ring.val e.index
            (if ep then 1 else 0) 0 0 0)

end Sys2Proof.Machine
end

