-- ==== Sys2Proof/Machine/StepEngine.lean ====
section
/-! DEFINITION. The Step Engine's supersteps (R155 to R161, R198, R199, R479 to R486): local arrival, tokens, the release
of a Curfew, the actions of the superstep list, and the step decision (R295 to R311). -/

namespace Sys2Proof.Machine

/-! ### The superstep list -/

/-- The command of an action as it stands in memory. -/
def State.peekCommand (s : State) (c : Nat) (a : Action) : CF :=
  match s.vuse c a.cmdVA 64 with
  | .ok l => courierFields (BitVec.ofNat 512 (ofBytes l))
  | .error _ => courierFields 0

/-- The peer cause of a command's AXIS0: 1 D to 4 P (R410, R421). -/
def CF.peerCause (f : CF) : Nat := max 1 (f.axes.headD 1)

/-- A field of a Courier command replaced. -/
def putWide (raw : BitVec 512) (lo n v : Nat) : BitVec 512 :=
  BitVec.ofNat 512 (raw.toNat - bitsOf raw.toNat (lo + n - 1) lo * 2 ^ lo + v % 2 ^ n * 2 ^ lo)

/-- The job superstep of a superstep that the list numbers within a step: the first such one not before `n`. -/
def jobSuperstep (len n k : Nat) : Nat :=
  let m := n - n % len + k
  if m < n then m + len else m

/-- COLLECT_AT and DELIVER_AT of a command issued in job superstep `n`, written in the job's numbering. -/
def renumber (len n : Nat) (raw : BitVec 512) : BitVec 512 :=
  let f := courierFields raw
  let r1 := if f.srcKind = 1 then putWide raw 108 32 (jobSuperstep len n f.collectAt) else raw
  if f.dstTiles then putWide r1 76 32 (jobSuperstep len n f.deliverAt) else r1

/-- A failed access of the Step Engine stops the job; no ring entry names it. -/
def State.stepStop (s : State) (c : Nat) (e : Stop) : State :=
  { s.engineStop c kStep 0 (Config.engineRef s.fresh c).toNat e with fresh := s.fresh + 1 }

/-- Queue the Courier command of an action. -/
def State.queueCommand (s : State) (c : Nat) (ctx : Fin 8) (a : Action) : State × Option Stop :=
  match s.readArrays c [(a.cmdVA, 64)] with
  | (s1, .error e) => (s1, some e)
  | (s1, .ok ls) =>
    let raw := renumber (s1.job c).len a.superstep (BitVec.ofNat 512 (ofBytes (ls.getD 0 [])))
    ({ s1 with engineCmds := s1.engineCmds ++ [(ctx, some a.id, raw)] }, none)

/-- Queue the Ostler descriptors of an action. -/
def State.queueDescs (s : State) (c : Nat) (ctx : Fin 8) (a : Action) : State × Option Stop :=
  if a.count = 0 then (s, none)
  else
    match s.readArrays c [(a.descVA, 64 * a.count)] with
    | (s1, .error e) => (s1, some e)
    | (s1, .ok ls) =>
      let ds : List (Fin 8 × Option Nat × BitVec 512) :=
        (cutBytes 64 a.count (ls.getD 0 [])).map fun l => (ctx, some a.id, BitVec.ofNat 512 (ofBytes l))
      ({ s1 with engineDescs := s1.engineDescs ++ ds }, none)

/-- Add an action to those in progress. -/
def State.addAction (s : State) (c : Nat) (a : Action) : State :=
  let j := s.job c
  s.setJob c { j with actions := j.actions ++ [a] }

/-- Take up an action: an ISSUE's command and conversions, a HANDOFF's point descriptors (R410, R482). -/
def State.takeAction (s : State) (c : Nat) (ctx : Fin 8) (a : Action) : State :=
  if a.kind = 1 then
    match s.queueCommand c ctx a with
    | (s1, some e) => s1.stepStop c e
    | (s1, none) =>
      match (s1.addAction c { a with descsLeft := a.count, cmdOpen := true }).queueDescs c ctx a with
      | (s2, some e) => s2.stepStop c e
      | (s2, none) => s2
  else if a.kind = 2 then
    match (s.addAction c { a with descsLeft := a.count, cmdDue := true }).queueDescs c ctx a with
    | (s1, some e) => s1.stepStop c e
    | (s1, none) => s1
  else s.addAction c a

/-- Free entries of a queue at a Curfew: the receiver returns credits (R416). -/
def State.releaseEntries (s : State) (c : Nat) (a : Action) : State :=
  match (s.job c).queues.find a.queueKey with
  | none => s
  | some q =>
    ((s.axisPorts c 3).filter (· == queuePort true q.dir)).foldl
      (fun s p => s.flitOut p false (ctrlFlit 3 0 (Config.ctrlPayload 3 q.tag a.count)))
      (s.setQueue c a.queueKey { q with released := q.released + a.count })

/-- Count the entries that a superstep reads. -/
def State.readEntries (s : State) (c : Nat) (a : Action) : State :=
  match (s.job c).queues.find a.queueKey with
  | none => s
  | some q => s.setQueue c a.queueKey { q with read := q.read + a.count }

/-- The actions of a list that a release takes up: `kinds` says which. -/
def State.runActions (s : State) (c : Nat) (ctx : Fin 8) (n : Nat) (kinds : List Nat) : State :=
  match s.actionsAt c n with
  | (s1, .error e) => s1.stepStop c e
  | (s1, .ok l) => (l.filter fun a => decide (a.kind ∈ kinds)).foldl (fun s a =>
      match a.kind with
      | 4 => s.readEntries c a
      | 5 => s.releaseEntries c a
      | _ => s.takeAction c ctx a) s1

/-! ### Arrival (R156, R198, R199) -/

/-- Whether a tile has arrived: no handler left, every enabled task at CURF, halted or ended (R156). -/
def Tile.atCurfew (x : Tile) : Bool :=
  x.handling.isNone && x.delivered.isEmpty && x.tasks.all fun e => !e.2.enabled || e.2.state != .running

/-- The budget of the superstep (R199). -/
def State.budget (s : State) (c : Nat) : Nat :=
  (s.job c).cfg.tiles.foldl (fun b t => max b (s.tile t).current.budget.toNat) 0

/-- A Curfew token (R382). -/
def tokenFlit (tag : Word) (number : Word) : TxFlit :=
  { type := 3, courier := 0, payload := toBytes 4 tag.toNat ++ toBytes 4 number.toNat ++ List.replicate 8 0, poison := 0
    nonfinite := false }

/-- Send this module's tokens. -/
def State.sendTokens (s : State) (c : Nat) : State :=
  let j := s.job c
  (s.tokenPorts c).foldl (fun s p => if (s.port p.1).joined then s.flitOut p.1 false (tokenFlit (j.cfg.tag.setWidth 32) j.curfew) else s) s

/-- DEADLINE_OVERRUN and what the policy makes of it (R199, R522). -/
def State.checkDeadline (s : State) (c : Nat) : State :=
  let j := s.job c
  let b := s.budget c
  if b = 0 ∨ j.measured * 128 ≤ b * (128 + j.cfg.deadlineMargin.toNat) then s
  else
    let s1 := s.event 0x0401 kStep c 0 j.superstep (b * 2 ^ 32 + j.measured % 2 ^ 32)
    match j.cfg.deadlinePolicy.toNat with
    | 1 => s1.setJob c { s1.job c with stop := true }
    | 2 =>
      let s2 := s1.event 0x0805 kStep c 0 0x0401 (Config.recoveryUnit s1.fresh).toNat
      { s2.holdJob c with fresh := s2.fresh + 1 }
    | _ => s1

/-- Send a tile's contract records of the superstep (R94). -/
def State.sendTileRecords (s : State) (c tile : Nat) : State :=
  let x := s.tile tile
  let s1 := s.sendRecords c tile x.records x.recordsOver
  s1.setTile tile { s1.tile tile with records := [], recordsOver := 0 }

/-- Apply every scatter-accumulate that waits for a region at a step's final Curfew, fetched or not (R108, R310). -/
def State.openRegions (s : State) (c : Nat) : State :=
  let left := ((s.descSources c).map fun x => match x with
    | .ring r => (s.ring r.val).entries.length
    | .engine _ => s.engineDescs.length).sum
  s.applyAdds c (s.descs.length + left + 1)

/-- The step flag word of a module: NONFINITE of its tiles and job, and POISON (R295). -/
def State.stepFlags (s : State) (c : Nat) : Bool × Bool :=
  let j := s.job c
  (j.nonfinite || j.cfg.tiles.any fun t => (s.tile t).nonfinite, j.poisonFlag)

/-- Read and clear the step flag word, every tile flag and the job's flag (R296). -/
def State.clearFlags (s : State) (c : Nat) : State :=
  let j := s.job c
  j.cfg.tiles.foldl (fun s t => s.setTile t { s.tile t with nonfinite := false })
    (s.setJob c { j with nonfinite := false, poisonFlag := false })

/-- The end of a step of an evaluation job, which has no decision: its flags are read, cleared and kept for the completion
record, and every slot's local amax and saturations are taken into the scale table (R54, R131, R306). Its κ is 1 and its G
0, since no pass one forms any (DESIGN CHOICE, log entry 138). -/
def State.endEvaluation (s : State) (c : Nat) : State :=
  let f := s.stepFlags c
  let s1 := s.clearFlags c
  let s2 := (List.range (s1.job c).cfg.scaleEntries.toNat).foldl (fun s t => s.readSlots c t) s1
  let j := s2.job c
  if !j.running then s2
  else
    s2.setJob c { j with decision := .applied, local_ := f.1, combinedPoison := f.2, kappa := one32, g := 0, layers := [] }

/-- What begins at the local arrival of a step's final Curfew: pass one, unless it has begun, or the end of an evaluation (R306,
R483). -/
def State.finalArrival (s : State) (c : Nat) : State :=
  let s1 := s.openRegions c
  let j := s1.job c
  if !j.running then s1 else if j.evaluation then s1.endEvaluation c else if j.passOneBegun then s1 else s1.beginPassOne c

/-- LOCAL_ARRIVAL_COMPLETE: the job's tiles have arrived (R156); the superstep's records and deadline are settled, and the
tokens go out, or the job stops (R159, R198, R199, R603). Pass one of the step begins at its final Curfew at the latest
(R483). -/
def execLocalArrivalComplete (ctx : Fin 8) (s : State) : Out :=
  let c := ctx.val
  let j := s.job c
  if j.phase ≠ .compute || !(j.cfg.tiles.all fun t => (s.tile t).atCurfew) then .next s
  else
    let s1 := j.cfg.tiles.foldl (fun s t => s.sendTileRecords c t) s
    let s2 := (s1.tallyAdd c 0 18).checkDeadline c
    if (s2.job c).stop then .next (s2.stopNow c)
    else
      let j2 := s2.job c
      let s3 := s2.setJob c { j2 with phase := .curfew, waited := 0, waitCycles := 0, lastMet := none }
      let s4 := if j2.held then s3 else s3.sendTokens c
      .next (if j.isFinal && !j2.held then s4.finalArrival c else s4)

/-! ### Tokens (R159, R160, R382, R383) -/

/-- Give a token to the job that its tag names. A second token of the same number from a port says nothing new (DESIGN CHOICE, log entry
149). -/
def State.takeToken (s : State) (c : Nat) (port : Fin 8) (number : Word) : State :=
  let j := s.job c
  if number = j.curfew ∨ number = j.curfew + 1 then
    s.setJob c { j with tokens := if (port, number) ∈ j.tokens then j.tokens else j.tokens ++ [(port, number)] }
  else (s.event 0x0301 kStep c 0 j.curfew.toNat number.toNat).stopAtCurfew c

/-- The context that a job of a tag is loaded in (R383). -/
def State.ctxOfTag (s : State) (tag : Word) : Option Nat :=
  let named (c : Nat) : Bool := (s.job c).cfg.tag.toNat == tag.toNat
  ((List.range 8).find? fun c => (s.job c).running && named c) <|> ((List.range 8).find? fun c => (s.job c).present && named c)

/-- CURFEW_TOKEN: a token received; one whose tag names no loaded job is held in the pending table of eight (R383). A job that has stopped
waits for none, and a token for it says nothing. -/
def execCurfewToken (port : Fin 8) (tag : Word) (number : Word) (s : State) : Out :=
  .next (s.fromPort port.val (tokenFlit tag number) fun s =>
    match s.ctxOfTag tag with
    | some c => if (s.job c).running then s.takeToken c port number else s
    | none =>
      let l := if 8 ≤ s.pendingTokens.length then s.pendingTokens.drop 1 else s.pendingTokens
      { s with pendingTokens := l ++ [(port, tag, number, s.tick)] })

/-- CURFEW_TIMEOUT: a partner whose port no longer carries, or whose token has not come in CURFEW_TIMEOUT, is lost, and
the job is held (R161). -/
def execCurfewTimeout (ctx : Fin 8) (port : Fin 8) (s : State) : Out :=
  let c := ctx.val
  let j := s.job c
  .next (if s.awaits c port.val && !((s.port port.val).joined && decide (j.waited < j.cfg.timeoutTicks)) then s.partnerLost c port.val
    else s)

/-! ### The conditions of a release -/

/-- Whether a throttle request waits for a release (R23, R577). -/
def Power.stepPending (p : Power) : Bool := p.step != p.requested

/-- Contexts whose loaded job has begun superstep 0. -/
def State.begun (s : State) : List Nat := (List.range 8).filter fun c =>
  match (s.job c).phase with
  | .compute | .curfew | .caravan | .stopped => true
  | _ => false

/-- The next STEP of a context, once the INPUTs that it names have completed (R447). -/
def Job.nextStep (j : Job) : Option StepCmd :=
  match j.waitingSteps.head? with
  | some k => if k.inputs ≤ j.inputs.get 0 k.number.toNat then some k else none
  | none => none

/-- QUEUE_READ and QUEUE_SEND conditions of a release: entries for superstep `m`, credits for Caravan `n`. -/
def State.queueBlocks (s : State) (c n m : Nat) : List Nat :=
  let q (a : Action) : PipeQueue := match (s.job c).queues.find a.queueKey with
    | some q => q
    | none => ⟨0, false, false, 0, 0, 0, 0, 0, 0, 0, 0, 0, 0, [], []⟩
  let sends := (s.peekActions c n).filter fun a => a.kind == 3 && decide ((q a).credits < a.count)
  let reads := (s.peekActions c m).filter fun a => a.kind == 4 && decide ((q a).landed < (q a).read + a.count)
  (if sends.isEmpty then [] else [10]) ++ (if reads.isEmpty then [] else [11])

/-- Ports whose token is missing, as peer causes (R159). -/
def State.tokenBlocks (s : State) (c : Nat) : List Nat :=
  let j := s.job c
  ((s.tokenPorts c).filter fun p => !(j.tokens.any fun t => t.1.val == p.1 && t.2 == j.curfew)).map fun p => p.2 + 1

/-- Commands whose result a delivery of Caravan `n` needs (R407). -/
def State.deliverBlocks (s : State) (c n : Nat) : List Nat :=
  (s.courier.cmds.filter fun k => decide (k.ctx.val = c) && k.f.gated && k.f.dstTiles && k.f.deliverAt == n &&
    k.status.isNone && !s.cmdLanded k).map fun k => k.f.peerCause

/-- ISSUE actions whose NEED_AT has come (R410, R482). -/
def State.issueBlocks (s : State) (c n : Nat) : List Nat :=
  ((s.job c).actions.filter fun a => a.kind == 1 && !a.finished && decide (a.superstep + a.needAfter ≤ n + 1)).map fun a =>
    (s.peekCommand c a).peerCause

/-- The staging range of a HANDOFF's command: its source (R294, R397). -/
def State.stagingOf (s : State) (c : Nat) (a : Action) : Nat × Nat :=
  let f := s.peekCommand c a
  let g := s.group c f.named
  let tbl := (s.vread c f.table (f.tableBytes g.size)).toOption.map (·.1)
  (f.src, (f.extents (tbl.getD []) g).1)

/-- HANDOFF actions of superstep `n` whose staging area meets one that an earlier reduce-scatter still uses (R294). -/
def State.handoffBlocks (s : State) (c n : Nat) : List Nat :=
  let busy := ((s.job c).actions.filter fun a => a.kind == 2 && !a.finished).map fun a => s.stagingOf c a
  let met (a : Action) : Bool :=
    let r := s.stagingOf c a
    busy.any fun b => b.1 == r.1 || meets b.1 b.2 r.1 r.2
  if (s.peekActions c n).any fun a => a.kind == 2 && met a then [1] else []

/-- Host-run layers whose WRITE_BACK an action of superstep `n` or `m` waits for: one that gathers their weights or
overwrites their gradients (R340). -/
def State.hostBlocks (s : State) (c n m : Nat) : List Nat :=
  let j := s.job c
  let touches (a : Action) : Bool := j.hostHold.any fun i => a.names i ||
    (match j.layers.find? fun x => x.index == i with
     | some x =>
       let l := layerFields x.raw
       let f := s.peekCommand c a
       meets f.src (max 1 (s.stagingOf c a).2) l.w (4 * l.n)
     | none => false)
  if j.hostHold.isEmpty then []
  else if ((s.peekActions c n).filter (·.kind == 2) ++ (s.peekActions c m).filter (·.kind == 1)).any touches then [6] else []

/-- The cause under which the Step Engine's own reduction over some axes is waited for: the peer cause of its first axis, or none of the
Tally's (99) where the module has nobody to wait for (R410, R411, R421). -/
def JobCtx.reduceCause (j : JobCtx) (axes : Nat) : Nat :=
  (((List.range 4).find? fun a => bitOf axes a && decide (1 < j.extentOf a)).map (· + 1)).getD 99

/-- What the end of a step waits for: the pass-one all-reduce and the amax combinations, under their axes; this module's own part of pass
one, the update and a snapshot's capture, which no cause of the Tally names (99); and the next STEP with its INPUTs (6) (R301, R411,
R447). -/
def State.stepBlocks (s : State) (c : Nat) : List Nat :=
  let j := s.job c
  let decision := if j.decision != .pending then []
    else if j.passOneBegun && j.layers.all (·.onePassed) then [j.cfg.reduceCause 15] else [99]
  let pushes := j.pushesLeft.map fun t =>
    match s.scaleRead c t.toNat with
    | .ok e => j.cfg.reduceCause e.axes
    | .error _ => 99
  let undone : Bool := (j.decision == .applied && j.layers.any fun x => !x.twoPassed) || (s.porter c).capturing
  decision ++ pushes ++ (if undone then [99] else []) ++ (if j.nextStep.isNone then [6] else [])

/-- Every condition of the next release that is not met, as a cause of the Tally (R421). -/
def State.blocks (s : State) (c : Nat) : List Nat :=
  let j := s.job c
  let n := j.superstep
  match j.phase with
  | .loaded =>
    if j.restored then (if j.nextStep.isNone then [6] else []) ++ s.queueBlocks c n (n + 1)
    else (if j.nextStep.isNone then [6] else []) ++ ((s.queueBlocks c n n).filter (· == 11))
  | .curfew =>
    s.tokenBlocks c ++ s.deliverBlocks c n ++ s.issueBlocks c n ++ s.handoffBlocks c n ++ s.queueBlocks c n (n + 1) ++
      s.hostBlocks c n (n + 1) ++ (if j.isFinal then s.stepBlocks c else []) ++
      (if s.power.stepPending then [8] else [])
  | _ => [99]

/-! ### The release (R155, R157, R301, R407, R482) -/

/-- The record of a STEP (R444). -/
def State.completeStep (s : State) (c : Nat) (k : StepCmd) : State :=
  let j := s.job c
  let status : Byte := if j.decision = .skipped then 6 else if j.combinedPoison then 1 else 0
  let a : Dword := j.kappa ++ k.number
  let b : Dword := BitVec.ofNat 64 (j.frozenLayers % 2 ^ 32 + j.fellBackLayers % 2 ^ 16 * 2 ^ 32 + bit j.combinedPoison 48 +
    bit j.local_ 49)
  s.complete k.ring.val k.index status a b ((s.porter c).recoveryStep ++ j.g)

/-- Take the next STEP into force. -/
def Job.takeStep (j : Job) : Job :=
  { j with
    step := j.waitingSteps.head?, waitingSteps := j.waitingSteps.drop 1, stepsBegun := j.stepsBegun + 1
    decision := .pending, passOneBegun := false, combinedPoison := false, local_ := false, deferNow := false }

/-- Charge the wait to the condition that was met last (R422); its first two cycles are among the 18 that local arrival charged
to CURFEW_LOCAL (R158). -/
def State.chargeWait (s : State) (c : Nat) : State :=
  let j := s.job c
  match j.lastMet with
  | some k => if k < 14 ∧ 2 < j.waitCycles then s.tallyAdd c k (j.waitCycles - 2) else s
  | none => s

/-- The gate deliveries of Caravan `n` (R407). -/
def State.openGates (s : State) (c n : Nat) : State :=
  let out : List GateOut := (s.courier.cmds.filter fun k => decide (k.ctx.val = c) && k.f.gated && k.f.dstTiles &&
      k.f.deliverAt == n && k.status.isNone && k.started).flatMap fun k =>
    ((k.f.gates k.table).filter (·.deliver)).map fun e =>
      ⟨k.tag, s.gateTileOf e.gate, e.tile, e.channel, e.handler, e.lines, k.f.dst + e.offset, e.start⟩
  s.setJob c { s.job c with gateOut := out }

/-- Begin Caravan `n` of a job: its actions, gate deliveries and images (R157, R191, R407, R482). -/
def State.beginCaravan (s : State) (c : Nat) (ctx : Fin 8) : State :=
  let j := s.job c
  let n := j.superstep
  let base := (n + 1) - (n + 1) % j.len
  let keep := j.actions.filter fun a => !a.finished || decide (base ≤ a.superstep + 1)
  let s1 := s.setJob c { j with
    phase := .caravan, curfew := BitVec.ofNat 32 (n + 1), tokens := j.tokens.filter fun t => t.2 != BitVec.ofNat 32 n
    clock := 0, frozen := if j.throttleFreeze then 32 else 0, throttleFreeze := false, thawed := j.throttleFreeze,
    flits := [], measured := 0, msgs := [], chainDone := [], actions := keep, restored := false }
  let s1 := if j.throttleFreeze then s1.tallyAdd c 8 32 else s1
  let s2 := ((s1.runActions c ctx n [2, 3, 5]).runActions c ctx (n + 1) [1, 4]).openGates c n
  j.cfg.tiles.foldl (fun s t => s.loadImage c t (j.imageOf (n + 1))) s2

/-- Enable the tasks of a job that has not begun: superstep 0 has no handler pass (R155, R482). -/
def State.beginJob (s : State) (c : Nat) (ctx : Fin 8) : State :=
  let j := s.job c
  let s1 := s.setJob c { j with phase := .compute, measured := 0, throttleFreeze := false }
  let s2 := (s1.runActions c ctx 0 [1, 4]).fillSlots c
  j.cfg.tiles.foldl (fun s t =>
    let x := s.tile t
    let ts : Tbl Task := x.tasks.mapAll fun k => if k.enabled then { k with state := .running, pc := k.entry } else k
    s.setTile t { x with tasks := ts }) s2

/-- CURFEW_RELEASE: every condition is met, and the Caravan begins; at a step's end its STEP completes and the next one
comes into force (R159, R301, R440, R447, R482). -/
def execCurfewRelease (ctx : Fin 8) (s : State) : Out :=
  let c := ctx.val
  let j := s.job c
  if !j.running || j.held || s.blocks c ≠ [] then .next s
  else
    match j.phase with
    | .loaded =>
      let s1 := s.setJob c j.takeStep
      .next (if j.restored then s1.beginCaravan c ctx else s1.beginJob c ctx)
    | _ =>
      let s0 := s.chargeWait c
      if !j.isFinal then .next (s0.beginCaravan c ctx)
      else
        let s1 := s0.openRegions c
        let s2 := match j.step with
          | some k => s1.completeStep c k
          | none => s1
        .next (if (s1.job c).running then (s2.setJob c (s2.job c).takeStep).beginCaravan c ctx else s1)

/-! ### HANDOFF_ISSUE (R293, R482) -/

/-- HANDOFF_ISSUE: the bucket's point descriptors have completed, and its reduce-scatter is issued. -/
def execHandoffIssue (ctx : Fin 8) (action : Nat) (s : State) : Out :=
  let c := ctx.val
  let j := s.job c
  match j.actions.find? fun a => a.id == action && a.kind == 2 && a.cmdDue with
  | none => .next s
  | some a =>
    if a.descsLeft ≠ 0 ∨ !j.running then .next s
    else
      match s.queueCommand c ctx a with
      | (s1, some e) => .next (s1.stepStop c e)
      | (s1, none) =>
        let j1 := s1.job c
        let l : List Action := j1.actions.map fun x => if x.id = action then { x with cmdDue := false, cmdOpen := true } else x
        .next (s1.setJob c { j1 with actions := l })

/-! ### The step decision (R295 to R301, R304) -/

/-- Whether a snapshot falls due at the final Curfew of a step (R304, R513, R520). -/
def State.snapshotDue (s : State) (c : Nat) (number : Word) : Bool :=
  let j := s.job c
  let p := s.porter c
  p.deferred || (j.cfg.snapInterval != 0 && number.toNat % j.cfg.snapInterval.toNat == 0) ||
    p.extra.any fun x => x.2.2 == number

/-- Whether this module must defer a due snapshot (R304, R521). -/
def Porter.defers (p : Porter) : Bool := p.shipping || p.copying || p.mirroring

/-- The norm vector's bytes (R323, R340). -/
def normBytes (v : Tbl Word) : List Byte := (List.range 8193).flatMap fun i => toBytes 4 (v.get 0 i).toNat

/-- Write the norm vector where the STEP names it, at VA 0 as anywhere else (R340, R440). -/
def State.writeNorm (s : State) (c : Nat) (va : Nat) (v : Tbl Word) : State :=
  match s.vwrite c va (normBytes v) false with
  | (s1, none) => s1
  | (s1, some e) => s1.engineStop c kStep 0 (s1.job c).stepRef e

/-- What a skipped step does to the scale table: CURRENT_AMAX discarded, gradient entries halved (R47, R288). -/
def State.skipScales (s : State) (c : Nat) : State :=
  (List.range (s.job c).cfg.scaleEntries.toNat).foldl (fun s t =>
    (s.discardAmax c t).scaleStep c t fun e => if e.gradient then e.halve else e) s

/-- What a skipped step does to the touched-row bitmaps (R298, R334). -/
def State.skipRows (s : State) (c : Nat) : State :=
  (s.job c).layers.foldl (fun s x =>
    if (layerFields x.raw).sparse then
      match s.clearSparse c x with
      | (s1, none) => s1
      | (s1, some e) => s1.updStop c 0 e
    else s) s

/-- Decide about a due snapshot: deferred on every module, or to be captured at this Curfew (R304). -/
def State.decideSnapshot (s : State) (c : Nat) (number : Word) (defer : Bool) : State :=
  if !s.snapshotDue c number then s
  else
    let p := s.porter c
    let first := if p.deferred then p.dueStep else number
    if defer then
      (s.setPorter c { p with deferred := true, ready := !p.defers, dueStep := first }).event 0x0804 kPorter c 0 first.toNat 0
    else
      let extra := p.extra.map fun x =>
        if p.deferred && decide (first.toNat ≤ x.2.2.toNat) && decide (x.2.2.toNat ≤ number.toNat) then (x.1, x.2.1, number) else x
      s.setPorter c { p with deferred := false, ready := false, due := true, dueStep := number, capturing := true, extra := extra }

/-- The contributions in the order in which they are combined: by module, or, with deterministic mode off, as they came (R69,
R71); the place of the module's own among those is free. -/
def inOrder (det : Bool) (n : Nat) (own : Contribution) (theirs : List Contribution) : List Contribution :=
  if det then (List.range n).filterMap fun i => if i = own.index then some own else theirs.find? fun o => o.index == i
  else
    let l := theirs.foldl (fun l o => if l.any (fun x => x.index == o.index) then l else l ++ [o]) []
    l.insertIdx (Config.ownPlace 0xF000 % (l.length + 1)) own

/-- STEP_DECISION: with pass one and every gradient reduce-scatter complete, the combined flag word applies the step or
skips it (R296 to R301). `others` are the other modules' contributions, in the order in which they came (R71). A step of an
evaluation job is never decided (R306), and a job that a failed write of the norm vector stops does nothing more (R220). -/
def execStepDecision (ctx : Fin 8) (others : List Contribution) (s : State) : Out :=
  let c := ctx.val
  let j := s.job c
  match j.step with
  | none => .next s
  | some k =>
    let me := (s.group c [0, 1, 2, 3]).me
    let wanted := (List.range j.cfg.modules).filter (· ≠ me)
    let ready := j.phase == .curfew && j.isFinal && !j.evaluation && !j.held && j.decision == .pending && j.passOneBegun &&
      j.layers.all (·.onePassed) && (j.actions.all fun a => a.finished || (a.kind != 2 && bitsOf a.raw.toNat 195 183 == 0))
    if !ready || !(wanted.all fun i => others.any fun o => o.index == i) then .next s
    else
      let s0 := s.openRegions c
      let mine := s0.stepFlags c
      let theirs := others.filter fun o => decide (o.index ∈ wanted)
      let due := s0.snapshotDue c k.number
      let own : Contribution := ⟨me, mine.1, mine.2, due && (s0.porter c).defers, (s0.job c).ownNorm⟩
      let parts := inOrder j.cfg.det j.cfg.modules own theirs
      let norm := combineNorm (parts.map (·.norm))
      let g := norm.get 0 0
      let nf := parts.any (·.nonfinite)
      let s1 := s0.clearFlags c
      let j1 := s1.job c
      let s2 := s1.setJob c { j1 with
        norm := norm, g := g, kappa := j1.recordKappa g, local_ := mine.1, combinedPoison := parts.any (·.poison)
        deferNow := parts.any (·.defer) }
      let sN := s2.writeNorm c k.normVA.toNat norm
      let s3 := sN.decideSnapshot c k.number (parts.any (·.defer))
      if !(s0.job c).running then .next s0
      else if !(sN.job c).running then .next sN
      else if nf then
        let s4 := s3.setJob c { s3.job c with decision := .skipped }
        .next (((s4.skipRows c).skipScales c).event 0x0501 kStep c 0 k.number.toNat (if mine.1 then 1 else 0))
      else
        let j3 := s3.job c
        let held : List Nat := (j3.layers.filter fun x => (layerFields x.raw).host && !(layerFields x.raw).freeze).map (·.index)
        let pushes : List (BitVec 16) := (List.range j3.cfg.scaleEntries.toNat).map fun i => BitVec.ofNat 16 i
        .next ((s3.setJob c { j3 with decision := .applied, pushesLeft := pushes, hostHold := held }).dealLayers c)

/-! ### STEP (R440, R459) -/

/-- STEP: accepted into the job's queue; a held job accepts none, and a stopped one abandons it (R445, R522). -/
def execStep (ring : Fin 64) (s : State) : Out :=
  match s.entryOf ring.val 0x03 with
  | none => .next s
  | some e =>
    let c := headerCtx e.raw
    let j := s.job c
    let va := bodyAt e.raw 8 8
    let n := bodyAt e.raw 16 2
    let norm := bodyAt e.raw 24 8
    let bad : Option Nat := match s.jobCommand ring.val e.raw 32 with
      | some b => some b
      | none => if bodyAt e.raw 20 4 ≠ 0 then some 20 else if va % 64 ≠ 0 then some 8
          else if n = 0 ∨ 4096 < n then some 16 else if norm % 64 ≠ 0 then some 24 else none
    match bad with
    | some b => .next (s.reject ring.val e.index c b)
    | none =>
      if j.phase = .stopped then .next (s.complete ring.val e.index 5 0 0 0)
      else if j.held then .next s
      else
        let k : StepCmd := { ring := ring, index := e.index, number := BitVec.ofNat 32 (bodyAt e.raw 0 4)
                             eta := BitVec.ofNat 32 (bodyAt e.raw 4 4), tableVA := BitVec.ofNat 64 va, entries := n
                             inputs := bodyAt e.raw 18 2, normVA := BitVec.ofNat 64 norm }
        .next ((s.startEntry ring.val e.index).setJob c { j with waitingSteps := j.waitingSteps ++ [k] })

/-! ### INPUT (R440, R447, R452) -/

/-- INPUT: the bytes land in the job's memory and count for their step. -/
def execInput (ring : Fin 64) (view : HostView) (s : State) : Out :=
  match s.hostEntryOf ring.val 0x02 (fun _ => true) with
  | none => .next s
  | some e =>
    let c := headerCtx e.raw
    let src := bodyAt e.raw 0 8
    let va := bodyAt e.raw 8 8
    let n := bodyAt e.raw 16 8
    let number := bodyAt e.raw 24 4
    let bad : Option Nat := match s.jobCommand ring.val e.raw 28 with
      | some b => some b
      | none => if src % 64 ≠ 0 then some 0 else if va % 64 ≠ 0 then some 8 else if n % 64 ≠ 0 then some 16 else none
    match bad with
    | some b => .next (s.reject ring.val e.index c b)
    | none =>
      if (s.job c).phase = .stopped then .next (s.complete ring.val e.index 5 0 0 0)
      else
        match s.fromHost c view src va n with
        | (s1, .fail a) => .next (s1.readFailed ring.val e.index c a)
        | (s1, .stop why) =>
          .next (s1.commandStop ring.val e.index c kStep 0 why)
        | (s1, .done ep) =>
          let j := s1.job c
          .next ((s1.setJob c { j with inputs := j.inputs.set number (j.inputs.get 0 number + 1) }).complete
            ring.val e.index (if ep then 1 else 0) 0 0 0)

end Sys2Proof.Machine
end

