-- ==== Sys2Proof/Machine/Loader.lean ====
section
/-! DEFINITION. Loading and ending a job (R84, R162, R441, R446, R457, R461 to R471, R479 to R486, R530, R531). -/

namespace Sys2Proof.Machine

/-! ### The job context (R441, R514) -/

/-- Read the 128-byte block. -/
def jobContext (l : List Byte) : JobCtx :=
  let w (lo n : Nat) : Nat := numAt l lo n
  let b20 := w 20 1
  let b21 := w 21 1
  let part := w 36 4
  { ptRoot := BitVec.ofNat 40 (w 0 8), scaleBase := BitVec.ofNat 48 (w 8 8), scaleEntries := BitVec.ofNat 16 (w 16 2)
    tag := BitVec.ofNat 16 (w 18 2), det := bitOf b20 7, margin := BitVec.ofNat 3 (bitsOf b20 6 4)
    curfewAxes := BitVec.ofNat 4 (bitsOf b20 3 0), wrap := BitVec.ofNat 4 (bitsOf b21 7 4)
    deadlinePolicy := BitVec.ofNat 2 (bitsOf b21 3 2), scrubPeriod := BitVec.ofNat 3 (w 22 1)
    deadlineMargin := BitVec.ofNat 8 (w 23 1), curfewTimeout := BitVec.ofNat 32 (w 24 4), origin := BitVec.ofNat 20 (w 28 4)
    extent := BitVec.ofNat 24 (w 32 4), row0 := BitVec.ofNat 7 (bitsOf part 6 0), col0 := BitVec.ofNat 7 (bitsOf part 13 7)
    rows := BitVec.ofNat 7 (bitsOf part 20 14), cols := BitVec.ofNat 7 (bitsOf part 27 21)
    eventRing := BitVec.ofNat 6 (w 40 1), snapInterval := BitVec.ofNat 16 (w 48 2), mirrors := BitVec.ofNat 8 (w 50 1)
    spares := BitVec.ofNat 8 (w 51 1), cover := BitVec.ofNat 16 (w 52 2), tileState := bitOf (w 54 1) 0
    shadowVA := BitVec.ofNat 64 (w 56 8), mirrorVA := BitVec.ofNat 64 (w 64 8), shadowSize := BitVec.ofNat 32 (w 72 4)
    listVA := BitVec.ofNat 48 (w 80 8) }

/-- Whether every bit of the block outside its fields is zero. -/
def contextZeros (l : List Byte) : Bool :=
  let w (lo n : Nat) : Nat := numAt l lo n
  decide (w 0 8 < 2 ^ 40) && w 0 8 % 4096 == 0 && decide (w 8 8 < 2 ^ 48) && w 21 1 % 4 == 0 && decide (w 22 1 < 8) &&
    decide (w 28 4 < 2 ^ 20) && decide (w 32 4 < 2 ^ 24) && decide (w 36 4 < 2 ^ 28) && decide (w 40 1 < 64) &&
    w 41 7 == 0 && decide (w 54 1 < 2) && w 55 1 == 0 && w 76 4 == 0 && decide (w 80 8 < 2 ^ 48) && w 88 40 == 0

/-- Whether two partition rectangles share a tile. -/
def JobCtx.meets (a b : JobCtx) : Bool :=
  linesMeet a.row0.toNat a.rows.toNat b.row0.toNat b.rows.toNat && linesMeet a.col0.toNat a.cols.toNat b.col0.toNat b.cols.toNat

/-- The ranges of the fields (R199, R223, R441). -/
def JobCtx.rangesOk (j : JobCtx) : Bool :=
  j.scaleBase.toNat % 128 == 0 && j.deadlinePolicy != 3 && decide (j.scrubPeriod.toNat ≤ 5) &&
    ((List.range 4).all fun a => decide (1 ≤ j.extentOf a) && decide (j.extentOf a ≤ 32)) &&
    decide (1 ≤ j.rows.toNat) && decide (1 ≤ j.cols.toNat) && decide (j.row0.toNat + j.rows.toNat ≤ 100) &&
    decide (j.col0.toNat + j.cols.toNat ≤ 100)

/-- The redundancy fields (R514, R515). -/
def JobCtx.redundancyOk (j : JobCtx) : Bool :=
  let n := j.modules
  let d := j.extentOf 0
  let m := j.mirrors.toNat
  decide (m ≤ 2) && decide (j.spares.toNat ≤ 2) && decide (j.cover.toNat ≤ 1024) && (decide (n < 256) || decide (103 ≤ j.cover.toNat)) &&
    (decide (n < 512) || j.cover.toNat == 1024) && (m == 0 || decide (2 ≤ d)) && (m != 2 || (j.isRing 0 && decide (3 ≤ d))) &&
    decide (j.shadowVA.toNat < 2 ^ 48) && j.shadowVA.toNat % 65536 == 0 && decide (j.mirrorVA.toNat < 2 ^ 48) &&
    j.mirrorVA.toNat % 65536 == 0

/-- The checks of a job context (R442). -/
def State.contextOk (s : State) (c : Nat) (l : List Byte) : Bool :=
  let j := jobContext l
  let others := ((List.range 8).filter fun k => (s.job k).present).map fun k => (s.job k).cfg
  let r := s.ring j.eventRing.toNat
  contextZeros l && j.rangesOk && j.redundancyOk && others.all (fun o => o.tag != j.tag && !o.meets j) && r.enabled &&
    r.kind == 6 && s.owns c (j.ptRoot.toNat / 65536)

/-! ### How a load fails (R452, R468) -/

/-- The first check that failed. -/
inductive LoadFail where
  | record
  | notInGrid (phys : Nat)
  | layout (tile task : Nat)
  | read (addr : Nat)
  | access (why : Stop)
  | program
  | reported
deriving DecidableEq, Repr

/-- Its event. A poisoned program line comes from the host and has no device address, so the address that POISON_CONSUMED carries
is a free value (log entry 15). -/
def State.loadEvent (s : State) (c ref : Nat) : LoadFail → State
  | .record => s.event 0x000E kHost c 0 ref 0xFFFFFFFF
  | .notInGrid p => s.event 0x010B kStep c 0 p 0
  | .layout t n => s.event 0x0102 kTile c t n 0
  | .read a => s.event 0x010E kHost c 0 ref a
  | .access e => s.stopEvent c kStep 0 ref e
  | .program => { s.event 0x0202 kStep c 0 ref (Config.consumedAddress s.fresh).toNat with fresh := s.fresh + 1 }
  | .reported => s

/-- A record of the host's: EP rejects it, a failed read ends the load. -/
def hostRecord (v : HostView) (a n : Nat) : Except LoadFail (List Byte) :=
  match HostView.read v a n with
  | .ok l => .ok l
  | .ep => .error .record
  | .fail x => .error (.read x)

/-! ### Memory segments and the superstep list (R463, R479, R485, R486) -/

/-- Copy the memory segments from record `i` on; `n` are left. -/
def State.memSegments (s : State) (c : Nat) (v : HostView) (base i : Nat) (ep : Bool) : Nat → State × Except LoadFail Bool
  | 0 => (s, .ok ep)
  | n + 1 =>
    match hostRecord v (base + 24 * i) 24 with
    | .error e => (s, .error e)
    | .ok l =>
      let src := numAt l 0 8
      let va := numAt l 8 8
      let len := numAt l 16 8
      if src % 64 ≠ 0 ∨ va % 64 ≠ 0 ∨ 2 ^ 48 ≤ va ∨ len % 64 ≠ 0 then (s, .error .record)
      else
        match s.fromHost c v src va len with
        | (s1, .fail a) => (s1, .error (.read a))
        | (s1, .stop e) => (s1, .error (.access e))
        | (s1, .done b) => s1.memSegments c v base (i + 1) (ep || b) n

/-- A superstep record (R479). -/
def superRec (l : List Byte) : SuperRec :=
  let v := ofBytes l
  ⟨BitVec.ofNat 10 (bitsOf v 63 54), BitVec.ofNat 12 (bitsOf v 53 42), BitVec.ofNat 22 (bitsOf v 41 20)⟩

/-- Whether an action is valid (R481, R485). -/
def actionOk (l : List Byte) : Bool :=
  let v := ofBytes l
  let k := bitsOf v 255 252
  decide (1 ≤ k) && decide (k ≤ 5) && bitsOf v 246 240 == 0 && bitsOf v 182 176 == 0 && bitsOf v 79 0 == 0 &&
    (k != 1 || bitsOf v 239 224 != 0)

/-- Read and check the superstep list; the Step Engine keeps its header and records (R486). -/
def State.readList (s : State) (c : Nat) : State × Except LoadFail Unit :=
  let va := (s.job c).cfg.listVA.toNat
  match s.readArrays c [(va, 64)] with
  | (s1, .error e) => (s1, .error (.access e))
  | (s1, .ok ls) =>
    let h := ls.getD 0 []
    let n := numAt h 0 4
    let a := numAt h 4 4
    let acts := numAt h 8 8
    if n = 0 ∨ 65535 < n ∨ 2 ^ 22 < a ∨ acts % 64 ≠ 0 ∨ 2 ^ 48 ≤ acts ∨ (h.drop 16).any (· ≠ 0) then (s1, .error .record)
    else
      match s1.readArrays c ((va + 64, 8 * n) :: (if a = 0 then [] else [(acts, 32 * a)])) with
      | (s2, .error e) => (s2, .error (.access e))
      | (s2, .ok ls) =>
        let raws := cutBytes 8 n (ls.getD 0 [])
        let recs := raws.map superRec
        let zeros := raws.all fun l => bitsOf (ofBytes l) 19 0 == 0
        let ranges := recs.all fun r => decide (r.first.toNat + r.count.toNat ≤ a)
        if !zeros || !ranges || !((cutBytes 32 a (ls.getD 1 [])).all actionOk) then (s2, .error .record)
        else
          let j := s2.job c
          (s2.setJob c { j with records := recs, listS := n, listA := a, listActions := BitVec.ofNat 64 acts }, .ok ())

/-! ### Tile records (R84, R162, R464 to R466, R468) -/

/-- A task of a task entry; reserved bits of its registers are not held. -/
def taskEntry (l : List Byte) : Task :=
  let w (lo : Nat) : Word := BitVec.ofNat 32 (numAt l lo 4)
  { Task.reset with
    sp := w 0 &&& 0x1FFF1FFF, is := w 4 &&& 0x03FF03FF, acc := w 8 &&& 0x07FF1FFF, ovf := w 12 &&& 0x07FF1FFF,
    ctrl := w 16 &&& 0x8000FFFC, slotMask := BitVec.ofNat 16 (numAt l 20 2),
    slotTensors := (List.range 16).filterMap fun i => if bitOf (numAt l 20 2) i then some (i, BitVec.ofNat 16 (numAt l (32 + 2 * i) 2)) else none }

/-- Whether a task entry is well formed (R465, R468). -/
def taskEntryOk (l : List Byte) (tensors : Nat) : Bool :=
  let ctl := numAt l 16 4
  bitsOf ctl 30 28 == 0 && numAt l 22 10 == 0 && (bitOf ctl 31 || l.all (· == 0)) &&
    (List.range 16).all fun i => !bitOf (numAt l 20 2) i || decide (numAt l (32 + 2 * i) 2 < tensors)

/-- Whether an enabled task's registers break a rule of R84. -/
def Tile.layoutBad (x : Tile) (n : Nat) : Bool :=
  let t := x.task n
  t.enabled &&
    (decide (6144 < t.spBase + t.spBound) || decide (768 < t.isBase + t.isBound) || t.spBase % 12 != 0 || t.spBound == 0 ||
      t.isBound == 0 || decide (1024 < t.accLines) || decide (t.spBound < t.accOffset + t.accLines) ||
      (t.ovfLines != 0 && (decide (t.ovfLines < 128) || decide (1024 < t.ovfLines))) || decide (t.spBound < t.ovfOffset + t.ovfLines) ||
      (t.ovfLines != 0 && t.accLines != 0 && linesMeet t.ovfOffset t.ovfLines t.accOffset t.accLines) ||
      (List.range 4).any fun m => m != n && (x.task m).enabled && linesMeet t.spBase t.spBound (x.task m).spBase (x.task m).spBound)

/-- Whether ROUTE_CFG places images as R162 asks; a tile with no enabled task may have none (R491). -/
def Tile.imagesOk (x : Tile) : Bool :=
  if x.routeCfg = 0 ∧ !(x.tasks.any fun t => t.2.enabled) then true
  else
    let t := x.task x.routeTask
    decide (2 ≤ x.imageLines) && decide (x.imageLines ≤ 65) && decide (1 ≤ x.imageCount) && decide (x.imageCount ≤ 1023) &&
      t.enabled && decide (x.imageOffset + x.imageCount * x.imageLines ≤ t.spBound)

/-- Copy the lines of a segment into a tile, `n` left. -/
def Tile.segmentLines (x : Tile) (t : Task) (toStore : Bool) (v : HostView) (src line : Nat) (ep : Bool) :
    Nat → Tile × Except LoadFail Bool
  | 0 => (x, .ok ep)
  | n + 1 =>
    if src / 64 ∈ v.fail then (x, .error (.read src))
    else
      let bad := decide (src / 64 ∈ v.ep)
      let l := HostView.bytes v src 64
      if toStore && bad then (x, .error .program)
      else
        let y : Tile := if toStore then { x with store := x.store.write (64 * (t.isBase + line)) l }
          else x.padWrite (t.padAddr (64 * line)) l bad true
        y.segmentLines t toStore v (src + 64) (line + 1) (ep || bad) n

/-- Copy a tile's segments from record `i` on; `n` are left (R466). -/
def Tile.segments (x : Tile) (tile : Nat) (v : HostView) (base i : Nat) (ep : Bool) : Nat → Tile × Except LoadFail Bool
  | 0 => (x, .ok ep)
  | n + 1 =>
    match hostRecord v (base + 16 * i) 16 with
    | .error e => (x, .error e)
    | .ok l =>
      let src := numAt l 0 8
      let w := numAt l 8 8
      let k := bitsOf w 62 61
      let line := bitsOf w 60 48
      let lines := bitsOf w 47 35
      let toStore := bitOf w 63
      let t := x.task k
      if src % 64 ≠ 0 ∨ bitsOf w 34 0 ≠ 0 ∨ lines = 0 ∨ 6144 < lines then (x, .error .record)
      else if !t.enabled ∨ (if toStore then t.isBound else t.spBound) < line + lines then (x, .error (.layout tile k))
      else
        match x.segmentLines t toStore v src line ep lines with
        | (y, .error e) => (y, .error e)
        | (y, .ok b) => y.segments tile v base (i + 1) b n

/-- The handler table of a record: 64 entries at an address, or none valid. -/
def handlerTable (v : HostView) (a : Nat) : Except LoadFail (Tbl Word) :=
  if a = 0 then .ok []
  else
    match hostRecord v a 256 with
    | .error e => .error e
    | .ok l => .ok ((List.range 64).map fun i => (i, BitVec.ofNat 32 (numAt l (4 * i) 4) &&& 0x8003FFFC))

/-- Fill a tile from its record: registers, segments, handlers and ROUTE_CFG (R467 step 4). -/
def State.fillTile (s : State) (tile : Nat) (tensors : Nat) (v : HostView) (r : List Byte) : State × Except LoadFail Bool :=
  match hostRecord v (numAt r 8 8) 256 with
  | .error e => (s, .error e)
  | .ok blk =>
    let ents := cutBytes 64 4 blk
    if !(ents.all fun l => taskEntryOk l tensors) then (s, .error .record)
    else
      let tasks : Tbl Task := ents.zipIdx.map fun e => (e.2, taskEntry e.1)
      let x : Tile := { Tile.reset with tasks := tasks, recorded := true }
      match (List.range 4).find? fun n => x.layoutBad n with
      | some n => (s.setTile tile x, .error (.layout tile n))
      | none =>
        match x.segments tile v (numAt r 16 8) 0 false (numAt r 2 2) with
        | (y, .error e) => (s.setTile tile y, .error e)
        | (y, .ok ep) =>
          match handlerTable v (numAt r 24 8) with
          | .error e => (s.setTile tile y, .error e)
          | .ok h =>
            let z : Tile := { y with handlers := h, routeCfg := BitVec.ofNat 32 (numAt r 4 4) }
            (s.setTile tile z, if z.imagesOk then .ok ep else .error (.layout tile z.routeTask))

/-- The physical index that TILE_NOT_IN_GRID carries: the tile's own where no physical tile holds it. -/
def State.gridIndex (s : State) (tile : Nat) : Nat := (s.physical tile).getD tile

/-- Take the tile records from record `i` on; `n` are left, `seen` have been named (R467, R468). -/
def State.tileRecords (s : State) (c : Nat) (v : HostView) (base i : Nat) (seen : List Nat) (ep : Bool) :
    Nat → State × Except LoadFail Bool
  | 0 => (s, .ok ep)
  | n + 1 =>
    match hostRecord v (base + 32 * i) 32 with
    | .error e => (s, .error e)
    | .ok r =>
      let tile := numAt r 0 2
      let j := (s.job c).cfg
      if !j.holds tile || decide (tile ∈ seen) || numAt r 8 8 % 64 != 0 || numAt r 16 8 % 64 != 0 || numAt r 24 8 % 64 != 0 then
        (s, .error .record)
      else if !s.isUsable tile then (s, .error (.notInGrid (s.gridIndex tile)))
      else
        match s.fillTile tile j.scaleEntries.toNat v r with
        | (s1, .error e) => (s1, .error e)
        | (s1, .ok b) => s1.tileRecords c v base (i + 1) (tile :: seen) (ep || b) n

/-- Load route image 0 of the list into every router (R467 step 5); a failed image has raised its event. -/
def State.firstImages (s : State) (c : Nat) : State × Except LoadFail Unit :=
  let j := s.job c
  let short := j.cfg.tiles.any fun t =>
    let x := s.tile t
    x.recorded && x.routeCfg != 0 && j.records.any fun r => decide (x.imageCount ≤ r.image.toNat)
  if short then (s, .error .record)
  else
    let s1 := j.cfg.tiles.foldl (fun s t =>
      if (s.job c).stop then s
      else
        let s1 := s.loadImage c t (j.imageOf 0)
        let x := s1.tile t
        s1.setTile t { x with current := x.next.getD RouteTable.empty, next := none }) s
    if (s1.job c).stop then (s1, .error .reported) else (s1, .ok ())

/-! ### JOB_LOAD (R442, R467 to R471, R477) -/

/-- The PCIe function's identity: its Device ID and class code, and its Revision ID, which is the stepping's code (R429, R475). -/
def pcieDeviceId : BitVec 16 := 0x0410
def pcieClassCode : BitVec 24 := 0x120000
def Stepping.revision : Stepping → Byte
  | .a1 => 0xA1
  | .b0 => 0xB0

/-- The array's result latency, the hop of a seam and the Update Engine's pipeline, in cycles (R14, R102, R339, R475). -/
def Stepping.latencies : Stepping → Byte × Byte × Byte
  | .a1 => (11, 6, 40)
  | .b0 => (13, 5, 48)

/-- ID_TIMING, of FORMAT 0x01 (R475). -/
def State.timing (s : State) : Dword :=
  let l := s.stepping.latencies
  s.stepping.revision ++ (1 : Byte) ++ l.1 ++ l.2.1 ++ l.2.2 ++ (0 : BitVec 24)

/-- Whether a binary-list header is well formed (R462). -/
def listHeaderOk (l : List Byte) : Bool :=
  let n := numAt l 4 4
  numAt l 0 4 == 1 && decide (1 ≤ n) && decide (n ≤ 10000) && numAt l 16 8 % 64 == 0 && decide (numAt l 24 4 ≤ 65535) &&
    (l.drop 28).all (· == 0) && bitsOf (numAt l 8 8) 55 48 == 1

/-- The registers of a context that a load clears: the Tally, the Update Engine's counters and the Porter's (R601); a port reports starved credit
once per job (R381). -/
def State.freshContext (s : State) (c : Nat) : State :=
  let p := s.porter c
  let s1 : State := { s with frozenSkips := s.frozenSkips.set c 0, fallbacks := s.fallbacks.set c 0 }
  let ports : Tbl Port := s1.ports.mapAll fun x => { x with starved := dropFrom x.starved c }
  ({ s1 with ports := ports }).setPorter c { Porter.reset with
    slots := p.slots, mirrors := p.mirrors, slotFrames := p.slotFrames, mirrorFrames := p.mirrorFrames }

/-- Mark every frame of a context written: both dirty bits are set for a new job (R518). -/
def State.allDirty (s : State) (c : Nat) : State :=
  let fs := (s.mem.owner.filter fun o => o.2 == BitVec.ofNat 8 c).map (·.1)
  fs.foldl (fun s f => s.markDirty f) s

/-- Check the scale table that the memory segments have brought, from entry `i` on, `n` left: an invalid FORMAT is rejected, and an
unseeded entry holds INIT_EXP in SCALE_EXP (R42, R52). -/
def State.takeScales (s : State) (c i : Nat) : Nat → State × Except LoadFail Unit
  | 0 => (s, .ok ())
  | n + 1 =>
    let s0 := s.vdemand c (s.scaleVA c i) 128
    match s0.scaleRead c i with
    | .error e => (s0, .error (.access e))
    | .ok e =>
      if 2 ≤ e.format then (s0, .error .record)
      else if e.settle = e then s0.takeScales c (i + 1) n
      else
        match s0.scaleWrite c i e.settle with
        | (s1, some w) => (s1, .error (.access w))
        | (s1, none) => s1.takeScales c (i + 1) n

/-- Copy everything that a list names into a context whose job is set: steps 3 to 5 of R467. -/
def State.loadJob (s : State) (c : Nat) (v : HostView) (list : Nat) (h : List Byte) : State × Except LoadFail Bool :=
  match s.memSegments c v (numAt h 16 8) 0 false (numAt h 24 4) with
  | (s1, .error e) => (s1, .error e)
  | (s1, .ok ep) =>
    match s1.readList c with
    | (s2, .error e) => (s2, .error e)
    | (s2, .ok ()) =>
     match s2.takeScales c 0 (s2.job c).cfg.scaleEntries.toNat with
     | (sT, .error e) => (sT, .error e)
     | (sT, .ok ()) =>
      match sT.tileRecords c v (list + 64) 0 [] ep (numAt h 4 4) with
      | (s3, .error e) => (s3, .error e)
      | (s3, .ok b) =>
        match s3.firstImages c with
        | (s4, .error e) => (s4, .error e)
        | (s4, .ok ()) => (s4, .ok b)

/-- Give a loaded job the tokens that wait for its tag (R383). -/
def State.heldTokens (s : State) (c : Nat) : State :=
  let tag := (s.job c).cfg.tag.toNat
  let mine := s.pendingTokens.filter fun t => t.2.1.toNat == tag
  let s1 : State := { s with pendingTokens := s.pendingTokens.filter fun t => t.2.1.toNat != tag }
  mine.foldl (fun s t => s.takeToken c t.1 t.2.2.1) s1

/-- Whether a load is held: a field test, a scrub of its context or of a tile of its partition (R510, R531). -/
def State.loadHeld (s : State) (c : Nat) (j : JobCtx) : Bool :=
  s.health.running.isSome || (s.job c).phase == .scrubbing ||
    (List.range 8).any fun k => (s.job k).phase == .scrubbing && (s.job k).cfg.meets j

/-- JOB_LOAD: whole or absent (R467, R468). -/
def execJobLoad (ring : Fin 64) (view : HostView) (s : State) : Out :=
  match s.hostEntryOf ring.val 0x01 (fun _ => true) with
  | none => .next s
  | some e =>
    let c := headerCtx e.raw
    let ctxAt := bodyAt e.raw 0 8
    let list := bodyAt e.raw 8 8
    let ref := ringIndex ring.val e.index
    let bad : Option Nat := match headerFault (s.ring ring.val) e.raw 16 with
      | some b => some b
      | none => if ctxAt % 64 ≠ 0 then some 0 else if list % 64 ≠ 0 then some 8
          else if (s.job c).present || (s.boot.straps.partition == 0 && c != 0) then some 62 else none
    let closed (s : State) (f : LoadFail) : Out := .next ((s.loadEvent c ref f).complete ring.val e.index 2 0 0 0)
    match bad with
    | some b => .next (s.reject ring.val e.index c b)
    | none =>
      if s.power.noLoads || s.boot.lifecycle == 3 || s.boot.running == .recovery then .next (s.complete ring.val e.index 2 0 0 0)
      else
        match hostRecord view ctxAt 128 with
        | .error f => closed s f
        | .ok l =>
          let cfg := jobContext l
          if s.loadHeld c cfg then .next s
          else
            let s0 := s.applyRepairs
            if !s0.contextOk c l then closed s0 .record
            else
              match hostRecord view list 64 with
              | .error f => closed s0 f
              | .ok h =>
                if !listHeaderOk h then closed s0 .record
                else
                  let stamp := numAt h 8 8
                  let s1 := if bitsOf stamp 47 24 = bitsOf s0.timing.toNat 47 24 then s0
                    else s0.event 0x000D kStep c 0 stamp s0.timing.toNat
                  let s2 := (s1.freshContext c).setJob c { Job.reset with
                    cfg := cfg, phase := .loaded, evaluation := Config.evaluationJob l }
                  match s2.loadJob c view list h with
                  | (s3, .ok ep) =>
                    .next (((s3.allDirty c).heldTokens c).complete ring.val e.index (if ep then 1 else 0) 0 0 0)
                  | (s3, .error f) =>
                    let s4 := s3.loadEvent c ref f
                    if cfg.tiles.any fun t => (s4.tile t).recorded then
                      let j := s4.job c
                      .next ((s4.startEntry ring.val e.index).setJob c
                        { j with phase := .scrubbing, stop := false, closing := [(ring, e.index, 2)] })
                    else .next ((s4.setJob c Job.reset).complete ring.val e.index 2 0 0 0)

/-! ### Ending a job (R440, R446, R457, R530, R531) -/

/-- Stop and halt every ring bound to a context (R446). -/
def State.haltRings (s : State) (c : Nat) : State :=
  (List.range 64).foldl (fun s n =>
    let r := s.ring n
    if r.context = c ∧ r.kind ≠ 6 ∧ r.active then s.setRing n { r with halted := true } else s) s

/-- Kill a context: its rings halt, its work is abandoned, and its scrub begins (R446, R530). A JOB_END in flight then
completes with status 5 (R457). -/
def State.killContext (s : State) (c : Nat) (by_ : List (Fin 64 × BitVec 16 × Byte)) : State :=
  let s1 := (s.haltRings c).abandon c
  let j := s1.job c
  let ends : List (Fin 64 × BitVec 16 × Byte) := j.closing.map fun x => if x.2.2 = 0 then (x.1, x.2.1, 5) else x
  s1.setJob c { j with phase := .scrubbing, stop := false, msgs := [], step := none, waitingSteps := [], closing := ends ++ by_ }

/-- KILL: at once complete for a context without a job; otherwise when the scrub has completed (R457). -/
def execKill (ring : Fin 64) (s : State) : Out :=
  match s.entryOf ring.val 0x05 with
  | none => .next s
  | some e =>
    let c := headerCtx e.raw
    match headerFault (s.ring ring.val) e.raw 0 with
    | some b => .next (s.reject ring.val e.index c b)
    | none =>
      match (s.job c).phase with
      | .empty => .next (s.complete ring.val e.index 0 0 0 0)
      | .scrubbing =>
        let j := s.job c
        .next ((s.startEntry ring.val e.index).setJob c { j with closing := j.closing ++ [(ring, e.index, 0)] })
      | _ => .next ((s.startEntry ring.val e.index).killContext c [(ring, e.index, 0)])

/-- JOB_END: the job stops at its next Curfew and is scrubbed; during a scrub it completes with status 5 (R440, R457). -/
def execJobEnd (ring : Fin 64) (s : State) : Out :=
  match s.entryOf ring.val 0x04 with
  | none => .next s
  | some e =>
    let c := headerCtx e.raw
    let j := s.job c
    match headerFault (s.ring ring.val) e.raw 0 with
    | some b => .next (s.reject ring.val e.index c b)
    | none =>
      match j.phase with
      | .empty => .next (s.reject ring.val e.index c 62)
      | .scrubbing =>
        .next ((s.startEntry ring.val e.index).setJob c { j with closing := j.closing ++ [(ring, e.index, 5)] })
      | .stopped =>
        .next ((s.startEntry ring.val e.index).setJob c { j with phase := .scrubbing, closing := j.closing ++ [(ring, e.index, 0)] })
      | _ =>
        .next (((s.startEntry ring.val e.index).setJob c { j with closing := j.closing ++ [(ring, e.index, 0)] }).stopAtCurfew c)

/-- Scrub a context's partition, rule slots and copies: everything that R530 lists, keeping the Tally (R532). -/
def State.scrub (s : State) (c : Nat) : State :=
  let j := s.job c
  let s1 := j.cfg.tiles.foldl (fun s t => s.setTile t Tile.reset) s
  s1.setJob c { Job.reset with tally := j.tally }

/-- SCRUB_COMPLETE: the job has gone, so the repair map's boundaries are looked for and the banks' counts recorded; the
commands that wait for the scrub complete (R18, R213, R531). -/
def execScrubComplete (ctx : Fin 8) (s : State) : Out :=
  let c := ctx.val
  let j := s.job c
  if j.phase ≠ .scrubbing then .next s
  else
    let s1 := (s.scrub c).applyRepairs.bankSummaries
    .next (j.closing.foldl (fun s x => s.complete x.1.val x.2.1 x.2.2 0 0 0) s1)

end Sys2Proof.Machine
end

