-- ==== Sys2Proof/Machine/Porter.lean ====
section
/-! DEFINITION. The Porter: snapshots, mirrors, shipments, layer reads and restores (R303, R304, R340, R513 to R521, R525,
R526, R540). -/

namespace Sys2Proof.Machine

/-! ### Snapshots (R513 to R521) -/

/-- SNAPSHOT: an extra snapshot at the final Curfew of a step; a stopped job takes none (R520). -/
def execSnapshot (ring : Fin 64) (s : State) : Out :=
  match s.entryOf ring.val 0x30 with
  | none => .next s
  | some e =>
    let c := headerCtx e.raw
    match s.jobCommand ring.val e.raw 4 with
    | some b => .next (s.reject ring.val e.index c b)
    | none =>
      if (s.job c).phase = .stopped then .next (s.complete ring.val e.index 5 0 0 0)
      else
        let p := s.porter c
        .next ((s.startEntry ring.val e.index).setPorter c
          { p with extra := p.extra ++ [(ring, e.index, BitVec.ofNat 32 (bodyAt e.raw 0 4))] })

/-- A tile record of a task: its region's contents move with it, relative to the region (R516). -/
def Tile.record (x : Tile) (tile : Nat) (n : Fin 4) : TileRec :=
  let t := x.task n.val
  let lo := 64 * t.spBase
  let hi := lo + 64 * t.spBound
  let pad : Mem := (x.pad.filter fun b => decide (lo ≤ b.1) && decide (b.1 < hi)).map fun b => (b.1 - lo, b.2)
  let marks : List Nat := (x.padPoison.filter fun l => decide (t.spBase ≤ l) && decide (l < t.spBase + t.spBound)).map (· - t.spBase)
  { tile := tile, task := n, regs := t, pad := pad, padPoison := marks, seqs := x.seqs, rings := x.rings, queued := x.queued }

/-- The tile records of a job (R516): one for each enabled task. -/
def State.tileRecs (s : State) (c : Nat) : List TileRec :=
  (s.job c).cfg.tiles.flatMap fun t =>
    ([0, 1, 2, 3] : List (Fin 4)).filterMap fun n =>
      if ((s.tile t).task n.val).enabled then some ((s.tile t).record t n) else none

/-- The rule slots as they stand at a step's end: a pending copy has taken its place (R314). -/
def Job.rulesNow (j : Job) : Tbl Word := j.pendingRules.foldl (fun t e => t.set e.1 e.2) j.rules

/-- The Step Engine record of a job (R516). -/
def Job.engineRec (j : Job) : EngineRec := ⟨j.superstep, j.queues, j.tally, j.rulesNow⟩

/-- The ranges of the directory at SHADOW_VA (R516). -/
def State.ranges (s : State) (c : Nat) : Except Stop (List (Nat × Nat)) :=
  let va := (s.job c).cfg.shadowVA.toNat
  match s.vuse c va 4096 with
  | .error e => .error e
  | .ok l => .ok ((List.range (min 255 (numAt l 0 4))).map fun i => (numAt l (16 * (i + 1)) 8, numAt l (16 * (i + 1) + 8) 8))

/-- The VAs of the 64 KiB frames of the ranges. -/
def frameVAs (rs : List (Nat × Nat)) : List Nat := rs.flatMap fun r => (List.range (r.2 / 65536)).map fun i => r.1 + 65536 * i

/-- The frames of the ranges, each with its VA. -/
def State.rangeFrames (s : State) (c : Nat) : List Nat → Except Stop (List (Nat × Nat))
  | [] => .ok []
  | va :: vs =>
    match s.translate c va false with
    | .fail code => .error (.page code va)
    | .poisoned pa => .error (.poison pa)
    | .ok pa =>
      match s.rangeFrames c vs with
      | .error e => .error e
      | .ok l => .ok ((va, pa / 65536) :: l)

/-- The frames over which bytes of a context's memory lie, as far as it has them. -/
def State.framesOf (s : State) (c va n : Nat) : List Nat := (s.pages c va n true).2.map fun p => p.1 / 65536

/-- The frames of a slot of the shadow region: each has half of what the directory leaves (R516). -/
def State.slotSpan (s : State) (c slot : Nat) : List Nat :=
  let j := (s.job c).cfg
  let half := (65536 * j.shadowSize.toNat - 4096) / 2
  s.framesOf c (j.shadowVA.toNat + 4096 + slot * half) half

/-- The frames of the mirror slot that copies from a port go to (R519). -/
def State.mirrorSpan (s : State) (c port : Nat) : List Nat :=
  let j := (s.job c).cfg
  let size := 65536 * j.shadowSize.toNat
  s.framesOf c (j.mirrorVA.toNat + port * size) size

/-- The poisoned lines of marked bytes, counted from the first byte. -/
def poisonLines (l : List MByte) : List Nat :=
  (List.range ((l.length + 63) / 64)).filter fun i => ((l.drop (64 * i)).take 64).any (·.poison)

/-- The ECC effects of reading the directory and translating the frames. -/
def State.demandRanges (s : State) (c : Nat) (frames : Except Stop (List (Nat × Nat))) : State :=
  if s.mem.errors = [] then s
  else
    let s1 := s.vdemand c (s.job c).cfg.shadowVA.toNat 4096
    match frames with
    | .ok fs => fs.foldl (fun s f => s.demandWalks c f.1 1 1) s1
    | .error _ => s1

/-- The ports by which a module mirrors: −D, and also +D with two mirrors; on a line, position 0 mirrors through +D
(R519). -/
def State.mirrorPorts (s : State) (c : Nat) : List Nat :=
  let j := (s.job c).cfg
  match j.mirrors.toNat with
  | 0 => []
  | 1 => if !j.isRing 0 && s.position c 0 == 0 then [0] else [1]
  | _ => [1, 0]

/-- A part of the snapshot that a porter is writing. -/
def Porter.part (p : Porter) (k : PartKind) (va : BitVec 48) (data : List HostCell) (poison : List Nat) : Part :=
  let t := p.slots.get Snap.empty p.target
  { kind := k, slot := p.target == 1, step := t.step, curfew := t.curfew, tag := t.tag, coord := t.coord, va := va
    data := data, poison := poison, crcOk := true }

/-- Send parts to every mirror holder whose port carries (R519). -/
def State.sendParts (s : State) (c : Nat) (parts : List Part) : State :=
  let p := s.porter c
  let ports := (s.mirrorPorts c).filter fun q => (s.port q).joined
  s.setPorter c { p with out := p.out ++ ports.flatMap fun q => parts.map fun x => (q, PorterMsg.part x) }

/-- A byte string as cells from address 0. -/
def asCells (l : List Byte) : List HostCell := l.zipIdx.map fun b => (b.2, b.1)

/-- Whether the job's engines are done for a capture (R518 step 1): the step's end is settled and no descriptor or command
of the job is left. -/
def State.captureReady (s : State) (c : Nat) : Bool :=
  let j := s.job c
  j.phase == .curfew && j.isFinal && j.decision != .pending && j.pushesLeft.isEmpty &&
    (j.decision != .applied || j.layers.all (·.twoPassed)) && (s.descs.all fun d => d.ctx.val != c) &&
    (s.engineDescs.all fun d => d.1.val != c) && (s.engineCmds.all fun d => d.1.val != c) &&
    s.courier.cmds.all fun k => k.ctx.val != c

/-- SNAPSHOT_CAPTURE: steps 2 and 3 of R518 at the due Curfew. -/
def execSnapshotCapture (ctx : Fin 8) (s : State) : Out :=
  let c := ctx.val
  let j := s.job c
  let p := s.porter c
  if !p.capturing || !s.captureReady c then .next s
  else
    let frames : Except Stop (List (Nat × Nat)) := match s.ranges c with
      | .error e => .error e
      | .ok rs => s.rangeFrames c (frameVAs rs)
    let n := 128 * j.cfg.scaleEntries.toNat
    let s0 := s.demandRanges c frames
    match frames, (s.vtake c j.cfg.scaleBase.toNat n).2 with
    | .error e, _ => .next (s0.engineStop c kPorter 0 j.stepRef e)
    | _, .error e => .next (s0.engineStop c kPorter 0 j.stepRef e)
    | .ok fs, .ok marked =>
      let scale := marked.map (·.val)
      let marks := poisonLines marked
      let slot := p.target
      let old := p.slots.get Snap.empty slot
      let tiles := if j.cfg.tileState then s.tileRecs c else []
      let vas := fs.map fun f => BitVec.ofNat 48 f.1
      let coord : BitVec 20 := s.selfCoord.extractLsb' 0 20
      let snap : Snap := { valid := false, step := p.dueStep, curfew := j.curfew, tag := j.cfg.tag, coord := coord
                           engine := j.engineRec, scale := scale, scalePoison := marks, tiles := tiles
                           blocks := old.blocks.filter fun b => decide (b.va ∈ vas) }
      let left := fs.filter fun f => decide ((f.2, slot) ∈ s.mem.dirty)
      let p1 : Porter := { p with slots := p.slots.set slot snap, capturing := false, due := false, copying := true
                                  framesLeft := left, slotFrames := p.slotFrames.set slot (s.slotSpan c slot) }
      let parts : List Part := [p1.part (.header false) 0 [] [], p1.part (.engine snap.engine) 0 [] [],
        p1.part .scale 0 (asCells scale) marks] ++ tiles.map fun r => p1.part (.tile r) 0 [] []
      .next (((s0.vdemand c j.cfg.scaleBase.toNat n).setPorter c p1).sendParts c parts)

/-- SNAPSHOT_FRAME_COPY: step 5 of R518 for one frame, found by a walk of its own (R238); its dirty bit of the slot is cleared, and
holders get the block. A frame that the context no longer has ends the copy and stops the job (R232). -/
def execSnapshotFrameCopy (ctx : Fin 8) (s : State) : Out :=
  let c := ctx.val
  let p := s.porter c
  match p.framesLeft with
  | [] => .next s
  | f :: _ =>
    if !p.copying then .next s
    else
      let stopWith (e : Stop) : Out := .next ((s.setPorter c { p with copying := false, framesLeft := [] }).engineStop c kPorter 0
        (s.job c).stepRef e)
      match s.translate c f.1 false with
      | .fail code => stopWith (.page code f.1)
      | .poisoned pa => stopWith (.poison pa)
      | .ok pa =>
        let frame := pa / 65536
        let s0 := (s.demandWalks c f.1 1 1).demand (65536 * frame) 65536
        let b := s0.frameImage f.1 frame
        let s1 : State := { s0 with mem := { s0.mem with dirty := s0.mem.dirty.filter fun d => d ≠ (frame, p.target) } }
        let s2 := s1.setPorter c (p.copyFrame b f.2)
        .next (s2.sendParts c [p.part .block b.va b.data b.poison])

/-- A snapshot is complete: the recovery point moves, and the commands that asked for it complete (R519, R520). -/
def State.snapshotDone (s : State) (c : Nat) : State :=
  let p := s.porter c
  let mine := p.extra.filter fun x => x.2.2 == p.dueStep
  let left := p.extra.filter fun x => x.2.2 != p.dueStep
  let s1 := s.setPorter c { p with mirroring := false, recoveryStep := p.dueStep, extra := left }
  mine.foldl (fun s x => s.complete x.1.val x.2.1 0 0 0 0) s1

/-- SNAPSHOT_COMMIT: step 6 of R518; the mirror holders' acknowledgements are then awaited (R519). -/
def execSnapshotCommit (ctx : Fin 8) (s : State) : Out :=
  let c := ctx.val
  let p := s.porter c
  if !p.copying || !p.framesLeft.isEmpty then .next s
  else
    let slot := p.target
    let t := p.slots.get Snap.empty slot
    let holders := s.mirrorPorts c
    let s1 := (s.setPorter c p).sendParts c [p.part (.header true) 0 [] []]
    let p1 := s1.porter c
    let s2 := s1.setPorter c { p1 with
      slots := p1.slots.set slot { t with valid := true }, copying := false, newestValid := true, newestSlot := slot == 1
      mirroring := !holders.isEmpty, acksLeft := holders }
    .next (if holders.isEmpty then s2.snapshotDone c else s2)

/-! ### Mirrors (R519, R525) -/

/-- Write a part into a slot (R519). A new job's header ends what another job left there. -/
def Snap.take (t : Snap) (p : Part) : Snap :=
  match p.kind with
  | .header v =>
    { t with valid := v, step := p.step, curfew := p.curfew, tag := p.tag, coord := p.coord
             blocks := if v || t.tag == p.tag then t.blocks else [], tiles := if v then t.tiles else [] }
  | .engine r => { t with engine := r }
  | .scale => { t with scale := p.data.map (·.2), scalePoison := p.poison }
  | .block => { t with blocks := t.blocks.filter (fun b => b.va != p.va) ++ [⟨p.va, p.data, p.poison, p.crcOk⟩] }
  | .tile r => { t with tiles := t.tiles.filter (fun x => x.tile != r.tile || x.task != r.task) ++ [r] }

/-- MIRROR_PART_RECEIVE: copies on +D go to mirror slot 0 and on −D to slot 1; a commit is acknowledged (R519). -/
def execMirrorPartReceive (port : Fin 8) (ctx : Fin 8) (part : Part) (s : State) : Out :=
  let c := ctx.val
  let j := s.job c
  if 1 < port.val || !(s.port port.val).carries || !j.present || j.cfg.tag != part.tag then .next s
  else
    let p := s.porter c
    let k := 2 * port.val + (if part.slot then 1 else 0)
    let acks : List (Nat × PorterMsg) := match part.kind with
      | .header true => [(port.val, PorterMsg.ack part.step)]
      | _ => []
    let frames := match part.kind with
      | .header false => p.mirrorFrames.set k (s.mirrorSpan c port.val)
      | _ => p.mirrorFrames
    .next (s.setPorter c { p with mirrorFrames := frames, mirrors := p.mirrors.set k ((p.mirrors.get Snap.empty k).take part), out := p.out ++ acks })

/-- MIRROR_ACK: a holder has committed; with the last of them the snapshot is complete (R519). -/
def execMirrorAck (ctx : Fin 8) (port : Fin 8) (s : State) : Out :=
  let c := ctx.val
  let p := s.porter c
  if !p.mirroring || !decide (port.val ∈ p.acksLeft) then .next s
  else
    let left := p.acksLeft.filter (· ≠ port.val)
    let s1 := s.setPorter c { p with acksLeft := left }
    .next (if left.isEmpty then s1.snapshotDone c else s1)

/-- Every part of a slot, its commit last (R516, R519). -/
def Snap.parts (t : Snap) (slot : Bool) : List Part :=
  let f (k : PartKind) : Part :=
    { kind := k, slot := slot, step := t.step, curfew := t.curfew, tag := t.tag, coord := t.coord, va := 0, data := []
      poison := [], crcOk := true }
  let blocks : List Part := t.blocks.map fun b =>
    { kind := .block, slot := slot, step := t.step, curfew := t.curfew, tag := t.tag, coord := t.coord, va := b.va
      data := b.data, poison := b.poison, crcOk := b.crcOk }
  let sc : Part := f .scale
  [f (.header false), f (.engine t.engine), { sc with data := asCells t.scale, poison := t.scalePoison }] ++ blocks ++
    (t.tiles.map fun r => f (.tile r)) ++ [f (.header true)]

/-- The committed snapshot of a step in a pair of slots: which of the two, and its contents. -/
def pickSnap (t : Tbl Snap) (base : Nat) (step : Word) : Option (Nat × Snap) :=
  ([0, 1].map fun i => (i, t.get Snap.empty (base + i))).find? fun x => x.2.valid && x.2.step == step

/-- MIRROR_SERVE: the copy held for the neighbour on a port goes back to it, without a command (R525). -/
def execMirrorServe (port : Fin 8) (ctx : Fin 8) (step : Word) (s : State) : Out :=
  let c := ctx.val
  let p := s.porter c
  if 1 < port.val || !(s.port port.val).carries then .next s
  else
    match pickSnap p.mirrors (2 * port.val) step with
    | none => .next s
    | some (i, t) =>
      .next (s.setPorter c { p with out := p.out ++ (t.parts (i == 1)).map fun x => (port.val, PorterMsg.part x) })

/-! ### Delivery to the host or to another module (R303, R304, R340, R440) -/

/-- Lines of at most 64 bytes with their poison. -/
def linesFrom : Nat → List MByte → List (List Byte × Bool)
  | 0, _ => []
  | k + 1, l => if l.isEmpty then [] else (((l.take 64).map (·.val)), (l.take 64).any (·.poison)) :: linesFrom k (l.drop 64)

/-- A byte string without poison. -/
def cleanBytes (l : List Byte) : List MByte := l.map fun b => ⟨b, false, false⟩

/-- Write lines on the host bus; a poisoned one goes with EP set. -/
def State.emitLines (s : State) (a : Nat) (ls : List (List Byte × Bool)) : State :=
  ls.zipIdx.foldl (fun s x => s.emit (.data (BitVec.ofNat 64 (a + 64 * x.2)) x.1.1 x.1.2)) s

/-- A memory block as it lies in a slot: its 256-byte header and its data (R517). -/
def Block.bytes (b : Block) : List MByte :=
  let data := Mem.read b.data 0 65536
  let mask := (List.range 128).map fun i => BitVec.ofNat 8 ((List.range 8).foldl (fun v k => v + (if 8 * i + k ∈ b.poison then 2 ^ k else 0)) 0)
  cleanBytes (toBytes 8 b.va.toNat ++ toBytes 4 (crc32c data).toNat ++ [0, 0, 0, 0] ++ mask ++ List.replicate 112 0) ++
    data.mapIdx fun i v => ⟨v, decide (i / 64 ∈ b.poison), false⟩

/-- Bytes with the poison of their lines. -/
def markBytes (l : List Byte) (poison : List Nat) : List MByte := l.mapIdx fun i v => ⟨v, decide (i / 64 ∈ poison), false⟩

/-- A tile record in a shipment: the contents of its scratchpad region come last, with their poison (R216, R516). -/
def TileRec.bytes (r : TileRec) : List MByte :=
  cleanBytes (Config.tileRecord r) ++ markBytes (Mem.read r.pad 0 (64 * r.regs.spBound)) r.padPoison

/-- A slot's parts in the order of R516, with their poison (R216). -/
def Snap.bytes (t : Snap) : List MByte :=
  cleanBytes (fitBytes 4096 (Config.slotHeader t.step t.curfew t.tag t.coord t.blocks.length t.tiles.length) ++
    (Config.engineRecord t.engine).take 65536) ++ markBytes t.scale t.scalePoison ++ (t.blocks.flatMap Block.bytes) ++
    t.tiles.flatMap TileRec.bytes

/-- SHIP: the latest completed snapshot, from the shadow region; held while a due snapshot is being captured, or is deferred by others
(R303, R304).
With no completed snapshot, or one larger than the capacity, nothing is delivered. -/
def execShip (ring : Fin 64) (s : State) : Out :=
  match s.entryOf ring.val 0x31 with
  | none => .next s
  | some e =>
    let c := headerCtx e.raw
    let dst := bodyAt e.raw 0 8
    let kind := bodyAt e.raw 8 1
    let port := bodyAt e.raw 9 1
    let rctx := bodyAt e.raw 10 1
    let p := s.porter c
    let bad : Option Nat := match s.jobCommand ring.val e.raw 24 with
      | some b => some b
      | none => if dst % 64 ≠ 0 then some 0 else if 1 < kind then some 8 else if 7 < port then some 9
          else if 7 < rctx then some 10 else if bodyAt e.raw 11 5 ≠ 0 then some 11 else none
    match bad with
    | some b => .next (s.reject ring.val e.index c b)
    | none =>
      if p.capturing || (p.deferred && p.ready) then .next s
      else
        match pickSnap p.slots 0 p.recoveryStep with
        | none => .next (s.complete ring.val e.index 2 0 0 0)
        | some (_, t) =>
          let l := t.bytes
          let n := l.length
          if bodyAt e.raw 16 8 < n then .next (s.complete ring.val e.index 2 0 0 0)
          else if kind = 1 ∧ !(s.port port).joined then .next (s.complete ring.val e.index 5 0 0 0)
          else
            let ls := linesFrom (n / 64 + 1) l
            let status : Byte := if ls.any (·.2) then 1 else 0
            let s1 := s.setPorter c { p with
              shipping := true
              out := if kind = 1 then p.out ++ [(port, PorterMsg.ship (BitVec.ofNat 8 rctx) (BitVec.ofNat 64 dst) ls)] else p.out }
            let s2 := if kind = 0 then s1.emitLines dst ls else s1
            .next (s2.complete ring.val e.index status (BitVec.ofNat 64 n) (t.step.setWidth 64) 0)

/-- The arrays that LAYER_READ delivers, each with its length: W, S1, S2 and G (R321, R440). -/
def LF.shipped (l : LF) : List (Nat × Nat) := l.pieces ++ [(l.g, l.gs * l.n)]

/-- Read arrays with their poison. -/
def State.takeArrays (s : State) (c : Nat) : List (Nat × Nat) → State × Except Stop (List (List MByte))
  | [] => (s, .ok [])
  | (va, n) :: t =>
    match s.vtake c va n with
    | (s1, .error e) => (s1, .error e)
    | (s1, .ok l) =>
      match s1.takeArrays c t with
      | (s2, .error e) => (s2, .error e)
      | (s2, .ok ls) => (s2, .ok (l :: ls))

/-- Deliver arrays one after another, each from a 64-byte boundary. -/
def State.emitArrays (s : State) (a : Nat) : List (List MByte) → State × Nat
  | [] => (s, a)
  | l :: t => (s.emitLines a (linesFrom (l.length / 64 + 1) l)).emitArrays (a + alignUp 64 l.length) t

/-- The norm line of R340. -/
def Job.normLine (j : Job) (l : LF) : List Byte :=
  toBytes 4 (kappaOf (j.rule l.slot 10) j.g).toNat ++ toBytes 4 j.g.toNat ++ toBytes 4 (j.norm.get 0 (2 * l.id + 1)).toNat ++
    toBytes 4 (j.norm.get 0 (2 * l.id + 2)).toNat ++ List.replicate 48 0

/-- LAYER_READ: W, S1, S2 and G of an entry of the step in force, then the norm line (R340, R440). -/
def execLayerRead (ring : Fin 64) (s : State) : Out :=
  match s.entryOf ring.val 0x32 with
  | none => .next s
  | some e =>
    let c := headerCtx e.raw
    let dst := bodyAt e.raw 0 8
    let i := bodyAt e.raw 8 2
    let j := s.job c
    let bad : Option Nat := match s.jobCommand ring.val e.raw 10 with
      | some b => some b
      | none => if dst % 64 ≠ 0 then some 0 else none
    match bad, s.layerRaw c i with
    | some b, _ => .next (s.reject ring.val e.index c b)
    | none, (sR, .error why) => .next (sR.commandStop ring.val e.index c kPorter 0 why)
    | none, (sR, .ok none) => .next (sR.reject ring.val e.index c 8)
    | none, (sR, .ok (some x)) =>
      let l := layerFields x
      match sR.takeArrays c l.shipped with
      | (s1, .error why) => .next (s1.commandStop ring.val e.index c kPorter 0 why)
      | (s1, .ok ls) =>
        let s2 := s1.emitArrays dst (ls ++ [cleanBytes (j.normLine l)])
        let status : Byte := if ls.any fun l => l.any (·.poison) then 1 else 0
        let n := (ls.map (·.length)).sum + 64
        .next (s2.1.complete ring.val e.index status (BitVec.ofNat 64 n) (j.stepNumber.setWidth 64) 0)

/-! ### RESTORE (R526, R540) -/

/-- Write lines back with their poison marks. -/
def State.restoreLines (s : State) (c va n : Nat) (line : Nat → List Byte) (poison : List Nat) : State × Option Stop :=
  (List.range n).foldl (fun r i =>
    match r.2 with
    | some _ => r
    | none => r.1.vwrite c (va + 64 * i) (line i) (decide (i ∈ poison))) (s, none)

/-- Write a block back with its poison marks (R517). -/
def State.restoreBlock (s : State) (c : Nat) (va : Nat) (b : Block) : State × Option Stop :=
  s.restoreLines c va 1024 (fun i => Mem.read b.data (64 * i) 64) b.poison

/-- Write the blocks of a snapshot. -/
def State.restoreBlocks (s : State) (c : Nat) (disp : Int) (l : List Block) : State × Option Stop :=
  l.foldl (fun r b =>
    match r.2 with
    | some _ => r
    | none => r.1.restoreBlock c (vaBits (b.va.toNat + disp)) b) (s, none)

/-- The tile that a column map sends a tile to. -/
def mapTile (m : List Byte) (tile : Nat) : Nat := tile / 100 * 100 + (m.getD (tile % 100) 0).toNat

/-- Whether a tile record fits a tile that the job has loaded: the same task layout (R526). -/
def State.recordFits (s : State) (c : Nat) (m : List Byte) (r : TileRec) : Bool :=
  let n := mapTile m r.tile
  let x := s.tile n
  let t := x.task r.task.val
  decide ((m.getD (r.tile % 100) 0).toNat < 100) && (s.job c).cfg.holds n && x.recorded && t.enabled && t.sp == r.regs.sp &&
    t.is == r.regs.is && t.acc == r.regs.acc &&
    t.ovf == r.regs.ovf

/-- Write a tile record to its tile: the task resumes at its captured PC, and its SENDs are queued again. -/
def Tile.restoreRec (x : Tile) (r : TileRec) : Tile :=
  let t := x.task r.task.val
  let lo := 64 * t.spBase
  let pad : Mem := r.pad.foldl (fun m b => Mem.put m (lo + b.1) b.2) (x.pad.clear lo (64 * t.spBound))
  let marks := x.padPoison.filter fun l => decide (l < t.spBase) || decide (t.spBase + t.spBound ≤ l)
  let y := x.setTask r.task.val { r.regs with ctrl := t.ctrl, hold := .none, loads := [] }
  { y with pad := pad, padPoison := r.padPoison.foldl (fun m l => addTo m (t.spBase + l)) marks, seqs := r.seqs
           rings := r.rings, queued := r.queued }

/-- A task that no record restores starts at its entry after the Caravan. -/
def Tile.awaiting (x : Tile) : Tile :=
  let ts : Tbl Task := x.tasks.mapAll fun t => if t.enabled then { t with state := .atCurfew, pc := t.entry } else t
  { x with tasks := ts }

/-- Load the image of superstep `n` into every router. -/
def State.restoreImages (s : State) (c n : Nat) : State :=
  let j := s.job c
  j.cfg.tiles.foldl (fun s t =>
    let s1 := s.loadImage c t (j.imageOf n)
    let x := s1.tile t
    s1.setTile t { x with current := x.next.getD RouteTable.empty, next := none }) s

/-- The tiles of a restore that carries tile records. -/
def State.restoreTiles (s : State) (c : Nat) (m : List Byte) (l : List TileRec) : State :=
  let s1 := (s.job c).cfg.tiles.foldl (fun s t => s.setTile t (s.tile t).awaiting) s
  l.foldl (fun s r => let n := mapTile m r.tile; s.setTile n ((s.tile n).restoreRec r)) s1

/-- Write a snapshot into a loaded job (R526). -/
def State.restoreFrom (s : State) (c : Nat) (t : Snap) (only : Bool) (disp : Int) (m : List Byte) (held : Nat) :
    State × Option Stop :=
  match s.restoreBlocks c disp t.blocks with
  | (s1, some e) => (s1, some e)
  | (s1, none) =>
    let n := 2 * (s1.job c).cfg.scaleEntries.toNat
    match s1.restoreLines c (s1.job c).cfg.scaleBase.toNat n (fun i => fitBytes 64 (t.scale.drop (64 * i))) t.scalePoison with
    | (s2, some e) => (s2, some e)
    | (s2, none) =>
      let j := s2.job c
      let tally := t.engine.tally.set 13 (t.engine.tally.get 0 13 + BitVec.ofNat 64 held)
      let s3 := s2.setJob c { j with
        rules := t.engine.rules, pendingRules := [], queues := t.engine.queues, tally := tally
        superstep := if only then 0 else t.engine.superstep, restored := !only }
      (if only then s3 else (s3.restoreTiles c m t.tiles).restoreImages c t.engine.superstep, none)

/-- The snapshot that a RESTORE names, and, for the own shadow, its slot. -/
def Porter.source (p : Porter) (source slot : Nat) (step : Word) (remote : List Part) : Option (Nat × Snap) :=
  match source with
  | 0 => pickSnap p.slots 0 step
  | 1 =>
    let t := remote.foldl Snap.take Snap.empty
    if t.valid && t.step == step then some (0, t) else none
  | _ => pickSnap p.mirrors (2 * slot) step

/-- RESTORE: after JOB_LOAD and before the context's first STEP (R526). `remote` is what the D neighbour serves. -/
def execRestore (ring : Fin 64) (view : HostView) (remote : List Part) (s : State) : Out :=
  match s.hostEntryOf ring.val 0x33 (fun raw => bodyAt raw 16 8 != 0) with
  | none => .next s
  | some e =>
    let c := headerCtx e.raw
    let source := bodyAt e.raw 0 1
    let port := bodyAt e.raw 1 1
    let slot := bodyAt e.raw 2 1
    let flags := bodyAt e.raw 3 1
    let step : Word := BitVec.ofNat 32 (bodyAt e.raw 4 4)
    let disp := signedOf 64 (bodyAt e.raw 8 8)
    let map := bodyAt e.raw 16 8
    let held := bodyAt e.raw 24 8
    let only := bitOf flags 0
    let j := s.job c
    let bad : Option Nat := match s.jobCommand ring.val e.raw 32 with
      | some b => some b
      | none => if 2 < source then some 0 else if source = 1 ∧ 1 < port then some 1 else if source = 2 ∧ 1 < slot then some 2
          else if 1 < flags then some 3 else if source ≠ 2 ∧ disp ≠ 0 then some 8 else if map % 64 ≠ 0 then some 16
          else if j.phase ≠ .loaded ∨ j.stepsBegun ≠ 0 ∨ j.waitingSteps ≠ [] then some 0xFFFFFFFF else none
    match bad with
    | some b => .next (s.reject ring.val e.index c b)
    | none =>
      if source = 1 ∧ !(s.port port).joined then .next (s.complete ring.val e.index 5 0 0 0)
      else
        let p := s.porter c
        match p.source source slot step remote with
        | none => .next (s.reject ring.val e.index c 4)
        | some (i, t) =>
          let col : HostRead := if map = 0 then .ok ((List.range 100).map fun k => BitVec.ofNat 8 k) else HostView.read view map 100
          match col with
          | .ep => .next (s.reject ring.val e.index c 0xFFFFFFFF)
          | .fail a => .next (s.readFailed ring.val e.index c a)
          | .ok m =>
            let coordBad := source == 1 && t.coord != s.selfCoord.extractLsb' 0 20
            if t.tag != j.cfg.tag || coordBad || t.blocks.any (fun b => !b.crcOk) ||
                (!only && !(t.tiles.all fun r => s.recordFits c m r)) then .next (s.reject ring.val e.index c 0xFFFFFFFF)
            else
              match s.restoreFrom c t only disp m held with
              | (s1, some why) => .next (s1.commandStop ring.val e.index c kPorter 0 why)
              | (s1, none) =>
                let p1 := s1.porter c
                let p2 : Porter := if source = 0 then { p1 with newestValid := true, newestSlot := i == 1, recoveryStep := step }
                  else if source = 1 then { p1 with out := p1.out ++ [(port, PorterMsg.request step)] } else p1
                let status : Byte := if t.blocks.any (fun b => !b.poison.isEmpty) || !t.scalePoison.isEmpty ||
                    (!only && t.tiles.any (fun r => !r.padPoison.isEmpty)) then 1 else 0
                .next (((s1.setPorter c p2).event 0x0806 kPorter c 0 step.toNat held).complete ring.val e.index status 0 0 0)

end Sys2Proof.Machine
end

