-- ==== Sys2Proof/Machine/Health.lean ====
section
/-! DEFINITION. The Logbook and the Health Engine (R504 to R512, R538, R539). -/

namespace Sys2Proof.Machine

/-! ### The Logbook (R504 to R509) -/

/-- An erased sector. -/
def Sector.erased : Sector := ⟨none, []⟩

/-- Records that a sector holds. -/
def sectorRoom : Nat := 2047

/-- TILE_RETIRED. -/
def tileRetired : BitVec 16 := 0x0705

/-- FIELD_TEST_FAILED. -/
def testFailed : BitVec 16 := 0x0706

/-- Whether compaction keeps a record whatever its age: a retirement, of a tile or of frames. -/
def LogRec.retires (r : LogRec) : Bool := r.code == tileRetired || r.kind == 0x05

/-- Whether a record lies inside the window, the last 720 powered hours (R506). -/
def LogRec.inWindow (r : LogRec) (now : Nat) : Bool := decide (now ≤ r.minutes.toNat + 43200)

/-- The sectors in use, with their sequence numbers. -/
def Health.used (h : Health) : List (Nat × Nat) :=
  (List.range 64).filterMap fun i => match (h.sectors.get Sector.erased i).seq with
    | some q => some (i, q)
    | none => none

/-- Erased sectors. -/
def Health.erased (h : Health) : Nat := 64 - h.used.length

/-- The sector in use with the highest, or the lowest, sequence number. -/
def Health.newest (h : Health) : Option Nat :=
  (h.used.foldl (fun b x => match b with
    | some y => if y.2 < x.2 then some x else some y
    | none => some x) none).map (·.1)
def Health.oldest (h : Health) : Option Nat :=
  (h.used.foldl (fun b x => match b with
    | some y => if x.2 < y.2 then some x else some y
    | none => some x) none).map (·.1)

/-- The sector that takes the next record, opened if need be; none when no sector is left. -/
def Health.place (h : Health) : Health × Option Nat :=
  let full : Option Nat := match h.newest with
    | some i => if (h.sectors.get Sector.erased i).records.length < sectorRoom then some i else none
    | none => none
  match full with
  | some i => (h, some i)
  | none =>
    match (List.range 64).find? fun i => (h.sectors.get Sector.erased i).seq.isNone with
    | none => (h, none)
    | some i => ({ h with sectors := h.sectors.set i ⟨some h.nextSeq, []⟩, nextSeq := h.nextSeq + 1 }, some i)

/-- Write a record into the sector that takes it. -/
def Health.put (h : Health) (r : LogRec) : Health :=
  match h.place with
  | (h1, none) => h1
  | (h1, some i) =>
    let x := h1.sectors.get Sector.erased i
    { h1 with sectors := h1.sectors.set i { x with records := x.records ++ [r] } }

/-- Records still to be written before no sector is left. -/
def Health.room (h : Health) : Nat :=
  let last : Nat := match h.newest with
    | some i => sectorRoom - (h.sectors.get Sector.erased i).records.length
    | none => 0
  last + sectorRoom * h.erased

/-- Drop the oldest records other than retirements until at most `n` are left. -/
def trimRecords : Nat → List LogRec → List LogRec
  | _, [] => []
  | n, r :: t => if (r :: t).length ≤ n then r :: t else if r.retires then r :: trimRecords (n - 1) t else trimRecords n t

/-- Compact: the oldest sector's records that count are appended again, and it is erased (R506). -/
def Health.compact (h : Health) (now : Nat) : Health :=
  if 4 ≤ h.erased then h
  else
    match h.oldest with
    | none => h
    | some i =>
      let keep := (h.sectors.get Sector.erased i).records.filter fun r => r.retires || r.inWindow now
      let h1 := (trimRecords (h.room - 1) keep).foldl Health.put h
      { h1 with sectors := h1.sectors.set i Sector.erased }

/-- Every record of a unit, written or waiting, that the window holds. -/
def Health.history (h : Health) (kind : Byte) (unit : BitVec 24) (now : Nat) : List LogRec :=
  ((h.used.flatMap fun u => (h.sectors.get Sector.erased u.1).records) ++ h.pendingRecs).filter fun r =>
    r.kind == kind && r.unit == unit && r.inWindow now

/-- PERSISTENT_SUSPECTs of a history; each eighth TRANSIENT counts as one (R507). -/
def suspectsIn (l : List LogRec) : Nat :=
  l.countP (·.code == 0x0704) + (l.countP (·.code == 0x0703)) / 8

/-- Retire a tile for a cause, unless it is retired already: its bit goes at once, a record and an event follow, a job whose
COVER is below 1,024 is held, and a pending confirmation is closed (R508, R522, R524, R539). -/
def State.retire_ (s : State) (phys : Nat) (cause : BitVec 16) : State :=
  if phys ∈ s.retired then s
  else
    let tile := s.logical phys
    let c : Option Nat := match tile with
      | some t => s.ctxOf t
      | none => none
    let step : Word := match c with
      | some c => (s.job c).stepNumber
      | none => 0
    let s1 := s.retireTile phys
    let s2 : State := { s1 with health := { s1.health with confirm := dropFrom s1.health.confirm phys } }
    let s3 := s2.record ⟨0x01, tileRetired, BitVec.ofNat 24 phys, s.minutes, step, 1, BitVec.ofNat 96 cause.toNat⟩
    let s4 := s3.event tileRetired kHealth (c.getD 0xF) 0 phys cause.toNat
    match c, tile with
    | some c, some t =>
      if (s4.job c).cfg.cover.toNat < 1024 then
        ((s4.event 0x0805 kStep c 0 tileRetired.toNat t).holdJob c).checkSpares c t
      else s4
    | _, _ => s4

/-- What the history of a tile brings when a record of it has been appended (R507). -/
def State.judge (s : State) (r : LogRec) : State :=
  if r.kind ≠ 0x01 then s
  else
    let phys := r.unit.toNat
    let h := s.health
    let l := h.history 0x01 r.unit s.minutes.toNat
    let n := suspectsIn l
    let s1 : State := { s with health := { h with suspects := h.suspects.set phys n, known := addTo h.known phys } }
    if r.code = 0x0704 ∨ r.code = 0x0703 then (if 3 ≤ n then s1.retire_ phys r.code else s1)
    else if r.code = 0x0702 then
      if 2 ≤ l.countP (·.code == 0x0702) then s1.retire_ phys r.code
      else { s1 with health := { s1.health with confirm := addTo s1.health.confirm phys } }
    else s1

/-- LOGBOOK_APPEND: the management core appends the oldest waiting record, compacts, and judges the unit (R506, R507). -/
def execLogbookAppend (s : State) : Out :=
  match s.health.pendingRecs with
  | [] => .next s
  | r :: rest =>
    let h := (({ s.health with pendingRecs := rest } : Health).put r).compact s.minutes.toNat
    .next (({ s with health := h }).judge r)

/-- A record's bits [255:32] (R505). -/
def LogRec.upper (r : LogRec) : BitVec 224 :=
  r.kind ++ r.code ++ r.unit ++ r.minutes ++ r.step ++ r.count ++ r.detail

/-- A record as it lies in the flash: its CRC over bits [255:32] in bytes 0–3 (R505). -/
def LogRec.bytes (r : LogRec) : List Byte :=
  let up := toBytes 28 r.upper.toNat
  toBytes 4 (crc32c up).toNat ++ up

/-- A sector's header (R504). -/
def sectorHeader (seq : Nat) : List Byte := toBytes 4 0x4C470001 ++ toBytes 4 seq ++ List.replicate 24 0xFF

/-- The 32 bytes at 32 n of the Logbook; erased flash reads as ones. -/
def Health.flash (h : Health) (n : Nat) : List Byte :=
  let x := h.sectors.get Sector.erased (n / 2048)
  match x.seq with
  | none => List.replicate 32 0xFF
  | some q =>
    if n % 2048 = 0 then sectorHeader q
    else match x.records[n % 2048 - 1]? with
      | some r => r.bytes
      | none => List.replicate 32 0xFF

/-- Bytes of the Logbook. -/
def Health.flashBytes (h : Health) (off n : Nat) : List Byte :=
  (((List.range (n / 32 + 2)).flatMap fun i => h.flash (off / 32 + i)).drop (off % 32)).take n

/-- LOGBOOK_READ: the raw region, whether or not jobs are loaded (R509). -/
def execLogbookRead (ring : Fin 64) (s : State) : Out :=
  match s.entryOf ring.val 0x41 with
  | none => .next s
  | some e =>
    let c := headerCtx e.raw
    let dst := bodyAt e.raw 0 8
    let off := bodyAt e.raw 8 4
    let n := bodyAt e.raw 12 4
    let bad : Option Nat := match headerFault (s.ring ring.val) e.raw 16 with
      | some b => some b
      | none => if dst % 64 ≠ 0 then some 0 else if n % 64 ≠ 0 ∨ 2 ^ 22 < off + n then some 12 else none
    match bad with
    | some b => .next (s.reject ring.val e.index c b)
    | none =>
      let ls := linesFrom (n / 64 + 1) (cleanBytes (s.health.flashBytes off n))
      .next ((s.emitLines dst ls).complete ring.val e.index 0 0 0 0)

/-! ### Field tests (R510 to R512) -/

/-- FIELD_TEST: rejected while a job is loaded; one test runs at a time (R20, R510). -/
def execFieldTest (ring : Fin 64) (s : State) : Out :=
  match s.entryOf ring.val 0x40 with
  | none => .next s
  | some e =>
    let c := headerCtx e.raw
    let ms := bodyAt e.raw 4 4
    let bad : Option Nat := match headerFault (s.ring ring.val) e.raw 8 with
      | some b => some b
      | none => if 32 ≤ bodyAt e.raw 0 1 then some 0 else if 16 ≤ bodyAt e.raw 1 1 then some 1
          else if ms = 0 ∨ 60000 < ms then some 4 else none
    match bad with
    | some b => .next (s.reject ring.val e.index c b)
    | none =>
      if s.anyJob then .next (s.complete ring.val e.index 2 0 0 0)
      else if s.health.running.isSome then .next s
      else
        let s1 := s.startEntry ring.val e.index
        let mask : BitVec 5 := e.raw.extractLsb' 0 5
        .next { s1 with health := { s1.health with running := some (ring, e.index), tests := mask, body := e.raw } }

/-- The free frames of the selected stacks after a march: zero data, valid check symbols, clean poison (R511). The march's first
write of a line takes an injection armed for it (R233), and its later writes put the line right. -/
def State.march (s : State) (which : Nat) : State :=
  let free (f : Nat) : Bool := bitOf which (stackOfPA (f * 65536)) && s.ownerOf f == 0xF
  let data : Mem := s.mem.data.filter fun b => !free (b.1 / 65536)
  let errors : Tbl (List (Nat × Byte)) := s.mem.errors.filter fun e => !free (e.1 / 1024)
  let s1 : State := if free ((s.mem.inject.extractLsb' 6 34).toNat / 1024) then s.applyInjection (s.mem.inject.extractLsb' 6 34).toNat
    else s
  { s1 with mem := { s1.mem with data := data, poison := s1.mem.poison.filter fun l => !free (l / 1024), errors := errors } }

/-- FIELD_TEST_FAILED of a unit, its record and what R507 makes of it (R512). -/
def State.failUnit (s : State) (f : TestFailure) : State :=
  let bit := f.test.val
  let arg0 := f.kind.toNat * 2 ^ 56 + f.unit.toNat
  let arg1 := bit + f.count.toNat * 2 ^ 32
  let occurrences : BitVec 16 := if f.kind = 0x05 then BitVec.ofNat 16 f.count.toNat else 1
  let s1 := (s.event testFailed kHealth 0xF 0 arg0 arg1).record
    ⟨f.kind, testFailed, f.unit, s.minutes, 0, occurrences, BitVec.ofNat 96 (bit + f.count.toNat * 2 ^ 8)⟩
  match f.kind.toNat with
  | 1 => if bit < 3 then s1.retire_ f.unit.toNat testFailed else s1
  | 3 =>
    let l := s1.health.history 0x03 f.unit s1.minutes.toNat
    if 2 ≤ l.countP (·.code == testFailed) then
      { s1 with health := { s1.health with lanesFailed := addTo s1.health.lanesFailed f.unit.toNat } }
    else s1
  | 5 => (List.range occurrences.toNat).foldl (fun s i => s.setOwner (f.unit.toNat + i) 0xE) s1
  | _ => s1

/-- The die of a physical tile: C0 to C3 by quadrant (R9). -/
def dieOf (phys : Nat) : Nat := 2 * (phys / 104 / 50) + phys % 104 / 52

/-- The lane tests are over: a loopback is accepted no longer, and its port detects a partner anew (R390; DESIGN CHOICE, log entry 164). -/
def State.endLoopbacks (s : State) : State :=
  (List.range 8).foldl (fun s p => if (s.port p).loopback then s.setPort p ((s.port p).erase .detect) else s) s

/-- FIELD_TEST_COMPLETE: the selected tests have run; failures are raised, recorded and acted on, confirmations of the tiles
that CHECKER covered are closed, and the command completes (R507, R510, R512, R538). -/
def execFieldTestComplete (failures : List TestFailure) (s : State) : Out :=
  match s.health.running with
  | none => .next s
  | some (ring, index) =>
    let body := s.health.body
    let mask := s.health.tests
    let s1 := if mask.getLsbD 3 then s.march (bodyAt body 2 1) else s
    let s2 := (failures.filter fun f => mask.getLsbD f.test.val).foldl State.failUnit s1
    let covered (p : Nat) : Bool := mask.getLsbD 1 && bitOf (bodyAt body 1 1) (dieOf p)
    let h := s2.health
    let s3 : State := { s2 with health := { h with
      running := none, tests := 0, body := 0, confirm := h.confirm.filter fun p => !covered p } }
    .next ((s3.endLoopbacks).complete ring.val index 0 0 0 0)

end Sys2Proof.Machine
end

