-- ==== Sys2Proof/Machine/Link.lean ====
section
/-! DEFINITION. The optical ports (R349 to R391): link states, training and lanes, the flit layer, authentication, and the
hold-offs. -/

namespace Sys2Proof.Machine

/-! ### Lanes (R353, R354, R369, R370) -/

/-- The lanes of a mask, ascending. -/
def lanesOf (m : BitVec 34) : List Nat := (List.range 34).filter m.getLsbD

/-- The mask of some lanes. -/
def laneMask (l : List Nat) : BitVec 34 := BitVec.ofNat 34 ((l.map fun i => 2 ^ i).sum)

/-- Active lanes for a number of good ones: an even number from 16 to 32 (R370). -/
def activeLanes (good : Nat) : Nat := if 32 ≤ good then 32 else if good < 16 then 0 else good / 2 * 2

/-- Good receive lanes that may carry traffic: those that the Logbook has not recorded failed (R369, R507). -/
def State.goodLanes (s : State) (p : Nat) (good : BitVec 34) : List Nat :=
  (lanesOf good).filter fun l => decide (p * 64 + l ∉ s.health.lanesFailed)

/-- An event of a port. -/
def State.portEvent (s : State) (p : Nat) (code : BitVec 16) (arg1 : Nat) : State := s.event code kPort 0xF p p arg1

/-- The partner state (R377): 0 absent, 1 training, 2 authenticated, 3 degraded, 4 faulty, 5 quarantined. -/
def Port.partner (x : Port) : Nat :=
  match x.link with
  | .off | .detect => 0
  | .train | .auth => 1
  | .run => if (lanesOf x.activeRx).length = 32 then 2 else 3
  | .holdoff => 4
  | .quarantine => 5

/-! ### Flits and frames as transmitted (R355 to R359, R374) -/

/-- Slots of a frame and of a superframe (R353, R355). -/
def frameSlots : Nat := 257
def superSlots : Nat := 5 * frameSlots

/-- Whether flits pass on a port: in AUTH, in RUN and after the training of a retrain. -/
def Port.live (x : Port) : Bool := x.link == .run || x.link == .auth || (x.link == .train && x.retrained)

/-- A LINKCTL flit of a kind (R358, R370). -/
def linkFlit (kind a b : Nat) : TxFlit :=
  { type := 4, courier := 0, payload := Config.linkControl kind a b, poison := 0, nonfinite := false }

/-- The 12 header bytes of a flit (R356, R357). -/
def headerBytes (f : Flit) : List Byte :=
  let bits : BitVec 96 := f.type ++ f.seq ++ f.ack ++ BitVec.ofBool f.nak ++ f.credit1 ++ f.credit0 ++ f.poison ++
    BitVec.ofBool f.nonfinite ++ f.granules ++ f.courier
  toBytes 12 bits.toNat

/-- A block with its CRC-32C behind it (R356, R359). -/
def withCrc (l : List Byte) : List Byte := l ++ toBytes 4 (crc32c l).toNat

/-- Bytes combined with a keystream. -/
def cipherBytes (l key : List Byte) : List Byte := List.zipWith (fun a b => a ^^^ b) l (fitBytes l.length key)

/-- The payload of a slot under the key of its direction, if any; the same both ways (R374). -/
def cipherSlot (key : Option (List Byte)) (frame : Word) (slot : Nat) (l : List Byte) : List Byte :=
  match key with
  | none => l
  | some k => cipherBytes l (Config.gcmStream k frame slot)

/-- Put a flit in the current slot: what its header reports is reported (R357, R374). -/
def Port.emitFlit (x : Port) (seq : BitVec 16) (f : TxFlit) : Port :=
  let h : Flit :=
    { type := f.type, seq := seq, ack := x.rxSeq, nak := x.nakOut, credit1 := BitVec.ofNat 8 (min x.owe1 255)
      credit0 := BitVec.ofNat 3 (min x.owe0 7), poison := f.poison, nonfinite := f.nonfinite
      granules := BitVec.ofNat 4 (min 15 (ceilDiv f.payload.length 16)), courier := f.courier, payload := f.payload }
  let body := cipherSlot x.txKey x.txFrame (x.txSlot % frameSlots - 1) (fitBytes 240 f.payload)
  { x with
    sent := x.sent ++ [⟨some h, withCrc (headerBytes h ++ body)⟩], txHeads := x.txHeads ++ headerBytes h, txCipher := x.txCipher ++ body
    nakOut := false, owe1 := x.owe1 - 255, owe0 := x.owe0 - 7 }

/-- Send a new sequenced flit, which is held for a resend. -/
def Port.emitNew (x : Port) (f : TxFlit) : Port :=
  { x.emitFlit x.txSeq f with txSeq := x.txSeq + 1, retry := x.retry ++ [(x.txSeq, f)] }

/-- An IDLE flit. -/
def idleTx : TxFlit := { type := 0, courier := 0, payload := [], poison := 0, nonfinite := false }

/-- Put the marker in slot 0 (R359): a lane map that waits is announced in it (R370). -/
def Port.emitMarker (x : Port) : Port :=
  let next := x.txPending.getD (x.txVersion, x.activeTx)
  let map : BitVec 8 := x.txVersion ++ next.1
  let mark := toBytes 4 x.txFrame.toNat ++ toBytes 2 x.txEpoch.toNat ++ [map, BitVec.ofNat 8 (x.txSlot / frameSlots)]
  let body := mark ++ toBytes 16 x.txTag.toNat ++ toBytes 5 next.2.toNat ++ List.replicate 223 0
  { x with sent := x.sent ++ [⟨none, withCrc body⟩], txMark := mark, txAnnounced := x.txPending.isSome }

/-- The keys of a session in the two directions: bytes 0 to 31 key the direction from the side with the lower serial, and on loopback
both (R373, R390). -/
def sessionHalf (key : BitVec 512) (first : Bool) : List Byte :=
  let l := toBytes 64 key.toNat
  if first then l.take 32 else l.drop 32
def Port.txHalf (x : Port) (key : BitVec 512) : List Byte := sessionHalf key (x.lower || x.loopback)
def Port.rxHalf (x : Port) (key : BitVec 512) : List Byte := sessionHalf key (!x.lower || x.loopback)

/-- ZIOSKUL LINK and ZIOSKUL EPOCH, the labels of R373. -/
def linkLabel : List Byte := [0x5A, 0x49, 0x4F, 0x53, 0x4B, 0x55, 0x4C, 0x20, 0x4C, 0x49, 0x4E, 0x4B]
def epochLabel : List Byte := [0x5A, 0x49, 0x4F, 0x53, 0x4B, 0x55, 0x4C, 0x20, 0x45, 0x50, 0x4F, 0x43, 0x48]

/-- The key of an epoch from that of the epoch before (R373). -/
def epochKey (key : List Byte) (epoch : BitVec 16) : List Byte :=
  sessionHalf (Config.oneStepKdf key epochLabel (toBytes 2 epoch.toNat)) true

/-- New keys are in force in both directions: the exchange of R375 is over. -/
def Port.settle (x : Port) : Port :=
  if x.txFresh && x.rxFresh then { x with session := x.nextSession, nextSession := none, txFresh := false, rxFresh := false } else x

/-- The next frame of a keyed direction: its number, epoch and key; the keys of R375 take effect at a FRAME wrap (R373 to R375). -/
def Port.nextTxFrame (x : Port) : Port :=
  if x.txFrame ≠ 0xFFFFFFFF then { x with txFrame := x.txFrame + 1 }
  else
    match x.nextSession, x.txFresh with
    | some k, false => ({ x with txFrame := 0, txEpoch := 0, txKey := some (x.txHalf k), txFresh := true }).settle
    | _, _ => { x with txFrame := 0, txEpoch := x.txEpoch + 1, txKey := x.txKey.map fun k => epochKey k (x.txEpoch + 1) }

/-- Whether the first encrypted frame may follow: the session is derived and the partner has every AUTH flit of this side (R361, R372). -/
def Port.keyable (x : Port) : Bool :=
  x.txKey.isNone && x.session.isSome && x.class0.all (fun f => f.type != 5) && x.retry.isEmpty && x.resend.isEmpty

/-- End a frame: its batch's tag is what the next marker carries, and the next frame's keys and lane map come into force (R361, R370,
R374). -/
def Port.endFrame (x : Port) (next : Nat) : Port :=
  let tag := match x.txKey with
    | some k => Config.gcmTag k x.txFrame (x.txMark ++ x.txHeads) x.txCipher
    | none => 0
  let y : Port := { x with txTag := tag, txHeads := [], txCipher := [] }
  let z : Port := match y.session, y.keyable with
    | some k, true => { y with txKey := some (y.txHalf k), txFrame := 0, txEpoch := 0, txOld := some y.txSeq, txSeq := 0 }
    | _, _ => if y.txKey.isSome then y.nextTxFrame else y
  match z.txPending, next == 0 && z.txAnnounced with
  | some m, true => { z with txVersion := m.1, activeTx := m.2, txPending := none, txAnnounced := false }
  | _, _ => z

/-- Advance a slot. -/
def Port.nextSlot (x : Port) : Port :=
  let n := (x.txSlot + 1) % superSlots
  { (if n % frameSlots = 0 then x.endFrame n else x) with txSlot := n }

/-- One slot without a flit to send: the marker, or IDLE. -/
def Port.idleSlot (x : Port) : Port := (if x.txSlot % frameSlots = 0 then x.emitMarker else x.emitFlit 0 idleTx).nextSlot

/-- Send IDLE to the end of the frame, with the marker that closes it; `n` slots at most. -/
def Port.finishFrame (x : Port) : Nat → Port
  | 0 => x
  | n + 1 => if x.txSlot % frameSlots = 1 then x else x.idleSlot.finishFrame n

/-- Send a LINKCTL notice that the port is leaving: a sequenced class 0 flit, if it has a credit, in the present frame, which is finished so
that the partner can accept it (R358, R362, R364; DESIGN CHOICE, log entry 160). -/
def Port.sendNotice (x : Port) (kind : Nat) : Port :=
  if !x.live || x.credit0 = 0 || decide (4096 ≤ x.retry.length) then x
  else
    let y := if x.txSlot % frameSlots = 0 then x.idleSlot else x
    (({ y with credit0 := y.credit0 - 1 }).emitNew (linkFlit kind 0 0)).nextSlot.finishFrame frameSlots

/-! ### Leaving a session (R161, R366, R376, R380) -/

/-- Tell the Courier that a port has gone: every command that needs it ends (R380, R420). -/
def State.courierLost (s : State) (p : Nat) : State :=
  let hit := s.courier.cmds.filter fun k => k.status.isNone && decide (p ∈ s.needPorts k.ctx.val k.f)
  let co := { s.courier with
    streams := s.courier.streams.filter (fun e => e.1 / 64 != p), held := s.courier.held.filter (fun h => h.port != p) }
  hit.foldl (fun s k => s.onCmd k.ctx.val k.tag fun q s => s.cmdLost q 0x0802 p) { s with courier := co }

/-- Tell the Step Engine that a port has gone: a job that waits for its token stops waiting (R161, R380). -/
def State.curfewLost (s : State) (p : Nat) : State :=
  (List.range 8).foldl (fun s c => if s.awaits c p then s.partnerLost c p else s) s

/-- Take a port to a state that keeps no session. -/
def State.dropPort (s : State) (p : Nat) (st : Link) : State :=
  let was := (s.port p).joined
  let s1 := s.setPort p ((s.port p).erase st)
  if was then (s1.courierLost p).curfewLost p else s1

/-- Ticks in 10 minutes of RUN. -/
def settledTicks : Nat := 10 * minuteTicks

/-- The hold-offs that count as consecutive: none once the port has stayed in RUN for 10 minutes (R378). -/
def Port.counted (x : Port) (tick : Nat) : Nat :=
  if x.link == .run && decide (x.runSince + settledTicks ≤ tick) then 0 else x.holdoffs

/-- A faulty port: notice, hold-off and LINK_FAULTY with the NAKs of the window (R378). -/
def State.faulty (s : State) (p : Nat) : State :=
  let x := s.port p
  let s1 := s.setPort p { x.sendNotice 3 with holdoffs := x.counted s.tick + 1 }
  (s1.dropPort p .holdoff).portEvent p 0x0604 x.naks

/-- A port whose NAKs of the window exceed LNK_RETRY_CFG.LIMIT is faulty (R378). -/
def State.judgeNaks (s : State) (p : Nat) : State :=
  let x := s.port p
  if x.live && decide ((x.retryCfg.extractLsb' 16 16).toNat < x.naks) then s.faulty p else s

/-- QUARANTINE with its SECURITY event (R379). -/
def State.quarantine (s : State) (p : Nat) (code : BitVec 16) : State :=
  let serial := (s.port p).partnerSerial.toNat % 2 ^ 64
  (s.dropPort p .quarantine).portEvent p code serial

/-- Retrain both directions (R371, R376). The session is kept, with the sequence and the retry buffer; a frame that is cut short keeps its
FRAME from being used again, and LINKCTL requests not yet sent fall away. Before there is a session, the exchange begins anew after it
(R361). -/
def State.retrain (s : State) (p : Nat) (ask : Bool) : State :=
  let x := if ask then (s.port p).sendNotice 2 else s.port p
  let cut := if x.txKey.isSome && decide (x.txSlot % frameSlots ≠ 0) then x.nextTxFrame else x
  let y : Port :=
    if x.session.isNone then x.erase .train
    else { cut with
      link := .train, retrained := false, erased := none, mapAsked := [], rxNext := none, txPending := none, txAnnounced := false
      class0 := cut.class0.filter fun f => f.type != 4, txSlot := 0, txHeads := [], txCipher := [], txTag := 0, rxMark := none
      dropNext := false, berCount := [] }
  s.setPort p { y with holdoffs := x.counted s.tick }

/-! ### Bringing a port up and down (R351, R377, R391) -/

/-- Write 1 to ENABLE: from OFF the port goes to DETECT when its laser source works; a hot port ignores it (R351, R579).
Hold-offs count anew from there. -/
def State.enablePort (s : State) (p : Nat) : State :=
  let x := s.port p
  if x.hot then s
  else if x.link != .off then s.setPort p { x with enable := true }
  else if !x.laser then (s.setPort p { x with enable := true }).portEvent p 0x0601 0
  else s.setPort p { x with enable := true, link := .detect, holdoffs := 0 }

/-- Write 0 to ENABLE: OFF at once, without notice (R391). -/
def State.disablePort (s : State) (p : Nat) : State :=
  let s1 := s.dropPort p .off
  s1.setPort p { s1.port p with enable := false }

/-- The pieces of an authentication message, one AUTH flit's payload each: at most 240 bytes, the last padded to whole granules (R355,
R372; DESIGN CHOICE, log entry 161). -/
def authPieces (step : Nat) (content : List Byte) : List (List Byte) :=
  let l := Config.authMessage step content
  let n := ceilDiv l.length 240
  (List.range n).map fun i =>
    let q := (l.drop (240 * i)).take 240
    fitBytes (16 * ceilDiv q.length 16) q

/-- The AUTH flits of a message. -/
def authFlits (step : Nat) (content : List Byte) : List TxFlit :=
  (authPieces step content).map fun q => { type := 5, courier := 0, payload := q, poison := 0, nonfinite := false }

/-- What a HELLO holds (R372). -/
def helloBytes (h : Hello) : List Byte :=
  [h.version] ++ toBytes 32 h.nonce.toNat ++ toBytes 16 h.serial.toNat ++ toBytes 1 h.port.toNat ++ toBytes 3 h.coord.toNat

/-- The label of CDI0 (R544): KY410 DICE L0. -/
def diceLabel : List Byte := [0x4B, 0x59, 0x34, 0x31, 0x30, 0x20, 0x44, 0x49, 0x43, 0x45, 0x20, 0x4C, 0x30]

/-- The Unique Device Secret. -/
def Boot.secret (x : Boot) : BitVec 384 := x.uds.getD Config.manufacturedSecret

/-- CDI0, from the UDS and its label, the seed of the DeviceID (R544). -/
def Boot.cdi0 (x : Boot) : BitVec 384 := Config.kdf x.secret diceLabel []
def Boot.deviceSeed (x : Boot) : BitVec 384 := x.cdi0

/-- The seed of a port's link key: from CDI2, the label LINK and the port (R544). -/
def Boot.linkSeed (x : Boot) (p : Nat) : BitVec 384 := Config.kdf x.cdi2 [0x4C, 0x49, 0x4E, 0x4B] [BitVec.ofNat 8 p]

/-- What runs. -/
def Boot.image (x : Boot) : Image :=
  match x.running with
  | .slotA => x.slotA
  | .slotB => x.slotB
  | .recovery => x.recovery
  | .hostload => x.hostload

/-- The device certificate, issued by the root, and a port's link certificate, issued by the DeviceID, which names the port and the
measured firmware (R543, R544). -/
def Boot.deviceCert (x : Boot) : List Byte := Config.certificate 0 (Config.publicKey x.deviceSeed) []
def Boot.linkCert (x : Boot) (p : Nat) : List Byte :=
  Config.certificate x.deviceSeed (Config.publicKey (x.linkSeed p))
    [BitVec.ofNat 384 p, x.image.digestMgmt, x.image.digestCourier, x.image.digestUpdate]

/-- Send steps 1 to 3 of an exchange, with a new nonce and ephemeral key; without a usable identity no CERTS, and so nothing after it,
goes out (R372, R545). -/
def State.beginAuth (s : State) (p : Nat) : State :=
  let x := s.port p
  let nonce := Config.portNonce p s.fresh
  let secret := Config.portSecret p s.fresh
  let hello := helloBytes ⟨1, nonce, s.boot.serial, BitVec.ofNat 3 p, s.selfCoord.setWidth 20⟩
  let certs := s.boot.deviceCert ++ s.boot.linkCert p
  let share := toBytes 97 (Config.publicKey secret).toNat
  let rest := if s.boot.identity then authFlits 2 certs ++ authFlits 3 share else []
  { s.setPort p { x with
      authStep := 0, mySteps := if s.boot.identity then 3 else 1, nonce := nonce, secret := secret, peerMsgs := []
      myMsgs := [Config.authMessage 1 hello, Config.authMessage 2 certs, Config.authMessage 3 share]
      class0 := x.class0 ++ authFlits 1 hello ++ rest } with fresh := s.fresh + 1 }

/-- Write of LNK_PORT_CTRL: EXPECT_EN, ENABLE and REAUTH (R375, R377). -/
def State.writePortCtrl (s : State) (p : Nat) (v : Word) : State :=
  let s1 := s.setPort p { s.port p with expectEn := v.getLsbD 29 }
  let s2 := if v.getLsbD 31 then s1.enablePort p else s1.disablePort p
  let x := s2.port p
  if v.getLsbD 30 && x.link == .run && x.session.isSome && !x.reauth then
    (s2.setPort p { x with reauth := true }).beginAuth p
  else s2

/-- PORT_ENABLE: a write of LNK_PORT_CTRL with ENABLE 1. -/
def execPortEnable (port : Fin 8) (value : Word) (s : State) : Out :=
  .next (if s.blocksOpen && value.getLsbD 31 then s.writePortCtrl port.val value else s)

/-- PORT_DISABLE: a write of LNK_PORT_CTRL with ENABLE 0. -/
def execPortDisable (port : Fin 8) (value : Word) (s : State) : Out :=
  .next (if s.blocksOpen && !value.getLsbD 31 then s.writePortCtrl port.val value else s)

/-- REAUTH: a write of LNK_PORT_CTRL with REAUTH 1 (R375). -/
def execReauth (port : Fin 8) (value : Word) (s : State) : Out :=
  .next (if s.blocksOpen && value.getLsbD 30 then s.writePortCtrl port.val value else s)

/-- LASER_SOURCE_INSERT: a source works; the port waits for ENABLE (R351). -/
def execLaserSourceInsert (port : Fin 8) (s : State) : Out := .next (s.setPort port.val { s.port port.val with laser := true })

/-- LASER_SOURCE_ABSENT: a port that is up goes to OFF and reports it; a quarantined one stays quarantined (R351, R377, R379). -/
def execLaserSourceAbsent (port : Fin 8) (s : State) : Out :=
  let p := port.val
  let s1 := s.setPort p { s.port p with laser := false }
  .next (if !(s.port p).enable || (s.port p).link == .off then s1
    else (if (s.port p).link == .quarantine then s1 else s1.dropPort p .off).portEvent p 0x0601 0)

/-- DETECT_RETRY: 100 ms without light. The port stays in DETECT and tries again; from a link that was up, the partner is absent
(R377, R391). -/
def execDetectRetry (port : Fin 8) (s : State) : Out :=
  let p := port.val
  .next (match (s.port p).link with
    | .detect => s.setPort p { s.port p with goodRx := 0 }
    | .train | .auth | .run => s.dropPort p .detect
    | _ => s)

/-- LIGHT_DETECTED: 16 or more lanes show light (R377). -/
def execLightDetected (port : Fin 8) (lanes : BitVec 34) (s : State) : Out :=
  let x := s.port port.val
  .next (if x.link == .detect && decide (16 ≤ (lanesOf lanes).length) then s.setPort port.val { x with link := .train } else s)

/-! ### Training and lanes (R369 to R371) -/

/-- Report a step down of the active lanes. -/
def State.degraded (s : State) (p old new : Nat) : State := if new < old then s.portEvent p 0x0603 new else s

/-- The transmit lanes after a training: those that the partner's receiver chose, an even number from 16 to 32 (R369, R370; DESIGN
CHOICE, log entry 162). -/
def partnerMask (m : BitVec 34) : BitVec 34 :=
  let n := activeLanes (lanesOf m).length
  if n = 0 then laneMask (List.range 32) else laneMask ((lanesOf m).take n)

/-- TRAINING_COMPLETE: the lanes are judged and the active ones chosen. A first training goes on to authentication; after a retrain the
port is in RUN again once a frame has verified under the kept key (R369, R370, R376, R377). -/
def execTrainingComplete (port : Fin 8) (good : BitVec 34) (s : State) : Out :=
  let p := port.val
  let x := s.port p
  if x.link != .train || x.retrained then .next s
  else
    let l := s.goodLanes p good
    let n := activeLanes l.length
    let s1 := s.setPort p { x with goodRx := good, failedRx := 0 }
    if n = 0 then .next (s1.faulty p)
    else
      let old := if x.activeRx = 0 then 32 else (lanesOf x.activeRx).length
      let y : Port := { s1.port p with
        activeRx := laneMask (l.take n), activeTx := partnerMask (Config.partnerLanes s.fresh), txSlot := 0, rxMark := none
        dropNext := false }
      let z : Port := if x.session.isSome then { y with retrained := true } else { y with link := .auth }
      let s2 : State := { s1.setPort p z with fresh := s.fresh + 1 }
      .next ((if x.session.isSome then s2 else s2.beginAuth p).degraded p old n)

/-- The map that a receiver has asked for last, or the one in force. -/
def Port.wanted (x : Port) : BitVec 4 × BitVec 34 := x.mapAsked.headD (x.mapVersion, x.activeRx)

/-- Ask the partner for a lane map (R370). -/
def State.askMap (s : State) (p : Nat) (mask : BitVec 34) : State :=
  let x := s.port p
  let v := x.wanted.1 + 1
  s.setPort p { x with mapAsked := (v, mask) :: x.mapAsked, class0 := x.class0 ++ [linkFlit 1 v.toNat mask.toNat] }

/-- Mark a receive lane failed (R354, R369 to R371). A lane of the map that is in force or asked for is replaced by the lowest good spare,
or by fewer lanes, in a new map. An active lane is erased until then; a second one, or one of fewer than 20, makes the port retrain.
With too few good lanes the port is faulty. -/
def State.failLane (s : State) (p lane : Nat) : State :=
  let x := s.port p
  let good := x.goodRx &&& ~~~(laneMask [lane])
  let s1 := s.setPort p { x with goodRx := good, failedRx := x.failedRx ||| laneMask [lane], berCount := x.berCount.set lane 0 }
  if !x.activeRx.getLsbD lane && !x.wanted.2.getLsbD lane then s1
  else
    let l := s1.goodLanes p good
    let n := activeLanes l.length
    if n = 0 then s1.faulty p
    else if x.activeRx.getLsbD lane && (x.erased.isSome || decide ((lanesOf x.activeRx).length < 20)) then s1.retrain p true
    else
      let left := (lanesOf x.wanted.2).filter (· ≠ lane)
      let spare := l.filter fun i => decide (i ∉ left)
      let next := match spare with
        | q :: _ => laneMask (q :: left)
        | [] => laneMask (l.take n)
      let s2 := if x.activeRx.getLsbD lane then s1.setPort p { s1.port p with erased := some lane } else s1
      s2.askMap p next

/-- LANE_LOSS_OF_LOCK (R369). -/
def execLaneLossOfLock (port : Fin 8) (lane : Fin 34) (s : State) : Out :=
  let x := s.port port.val
  .next (if x.live && x.goodRx.getLsbD lane.val then s.failLane port.val lane.val else s)

/-- LANE_BER_WINDOW: sixteen bad windows in a row fail a lane (R369). -/
def execLaneBerWindow (port : Fin 8) (lane : Fin 34) (bad : Bool) (s : State) : Out :=
  let p := port.val
  let x := s.port p
  if !x.live || !x.goodRx.getLsbD lane.val then .next s
  else
    let n := if bad then x.berCount.get 0 lane.val + 1 else 0
    .next (if 16 ≤ n then s.failLane p lane.val else s.setPort p { x with berCount := x.berCount.set lane.val n })

/-- NO_FRAME_TIMEOUT: 64 µs without an accepted frame (R371). -/
def execNoFrameTimeout (port : Fin 8) (s : State) : Out :=
  .next (if (s.port port.val).live then s.retrain port.val true else s)

/-! ### Sending (R361 to R366) -/

/-- Whether a flit type may go out in the port's state (R379, R380, R390). -/
def Port.sends (x : Port) (type : BitVec 4) : Bool := (x.carries && x.txKey.isSome) || type == 4 || type == 5

/-- The oldest flit of a class that may go out, and the class without it. -/
def Port.pick (x : Port) (l : List TxFlit) : Option (TxFlit × List TxFlit) :=
  match l.find? fun f => x.sends f.type with
  | some f => some (f, l.eraseP fun f => x.sends f.type)
  | none => none

/-- What fills a flit's slot: a resend, class 0, class 1 or IDLE (R363, R366). -/
def Port.fillSlot (x : Port) : Port :=
  match x.resend with
  | r :: rs => { x.emitFlit r.1 r.2 with resend := rs }
  | [] =>
    if 4096 ≤ x.retry.length then x.emitFlit 0 idleTx
    else
      match x.pick x.class0, x.pick x.class1, decide (0 < x.credit0), decide (0 < x.credit1) with
      | some (f, l), _, true, _ => { x.emitNew f with class0 := l, credit0 := x.credit0 - 1 }
      | _, some (f, l), _, true => { x.emitNew f with class1 := l, credit1 := x.credit1 - 1 }
      | _, _, _, _ => x.emitFlit 0 idleTx

/-- After 65,536 epochs the exchange of R375 begins by itself. -/
def State.renewKeys (s : State) (p : Nat) (was : BitVec 16) : State :=
  let y := s.port p
  if was = 0xFFFF ∧ y.txEpoch = 0 ∧ !y.txFresh ∧ !y.reauth then (s.setPort p { y with reauth := true }).beginAuth p else s

/-- FLIT_SLOT_SEND: the sender fills the next slot, slot 0 of a frame with its marker (R355, R363). Segments that waited for a stream
number follow (R405). -/
def execFlitSlotSend (port : Fin 8) (s : State) : Out :=
  let p := port.val
  let x := s.port p
  if !x.live then .next s
  else
    let y := (if x.txSlot % frameSlots = 0 then x.emitMarker else x.fillSlot).nextSlot
    .next (((s.setPort p y).sendHeld p 64).renewKeys p x.txEpoch)

/-! ### Receiving (R357 to R365, R374, R379, R389) -/

/-- Whether an ACK is the sequence that a partner expects who has not seen this side's first encrypted frame yet (R361). -/
def Port.oldAck (x : Port) (ack : BitVec 16) : Bool := x.txOld == some ack

/-- Whether an ACK lies beyond what was sent (R379): the sequences in the retry buffer end at `txSeq`. -/
def Port.ackBeyond (x : Port) (ack : BitVec 16) : Bool :=
  let d := (x.txSeq - ack).toNat
  !x.oldAck ack && decide (x.retry.length < d) && decide (0x8000 ≤ d)

/-- Apply the ACK, NAK and credits of a header (R357, R362, R365, R366). -/
def Port.applyHeader (x : Port) (ack : BitVec 16) (nak : Bool) (credit1 credit0 : Nat) : Port :=
  let d := (x.txSeq - ack).toNat
  let n := x.retry.length
  let gone := if d ≤ n && !x.oldAck ack then n - d else 0
  let left := x.retry.drop gone
  let y : Port := { x with
    retry := left, resend := x.resend.filter fun r => decide (r.1 ∈ left.map (·.1)), credit1 := x.credit1 + credit1
    credit0 := x.credit0 + credit0, txOld := if x.oldAck ack then x.txOld else none }
  if nak then { y with resend := y.retry, naks := y.naks + 1, retries := y.retries + 1 } else y

/-- Whether a flit is malformed (R357, R358, R379, R382, R405). -/
def Port.malformed (x : Port) (f : Flit) : Bool :=
  let idle := f.type == 0
  let d := (f.seq - x.rxSeq + 4096).toNat
  let kind := bitsOf f.courier.toNat 27 24
  decide (5 < f.type.toNat) || (idle != (f.granules == 0)) || (idle && f.seq != 0) ||
    (f.type != 1 && f.type != 2 && f.courier != 0) || (f.type == 2 && (decide (5 < kind) || bitsOf f.courier.toNat 17 0 != 0)) ||
    (f.type == 3 && (f.granules != 1 || (f.payload.drop 8).any (· != 0))) || x.ackBeyond f.ack || (!idle && decide (8192 ≤ d)) ||
    (x.rxKey.isNone && !idle && f.type != 4 && f.type != 5)

/-- Accept a flit. An IDLE flit waits for its header to be applied; the header of another is applied, and when the flit is the next of the
sequence it goes to the receive buffer, an AUTH flit to the exchange (R357, R364, R365, R372). -/
def Port.accept (x : Port) (f : Flit) : Port :=
  if f.type = 0 then { x with rx := x.rx ++ [f] }
  else
    let y := x.applyHeader f.ack f.nak f.credit1.toNat f.credit0.toNat
    if f.seq ≠ y.rxSeq then y
    else if f.type = 5 then { y with authIn := y.authIn ++ [f.payload], rxSeq := y.rxSeq + 1, owe0 := y.owe0 + 1 }
    else { y with rx := y.rx ++ [f], rxSeq := y.rxSeq + 1 }

/-- Accept the flits of a frame in turn, up to a malformed one. -/
def Port.acceptAll (x : Port) : List Flit → Port × Bool
  | [] => (x, true)
  | f :: fs => if x.malformed f then (x, false) else (x.accept f).acceptAll fs

/-- A dropped frame: one NAK goes out (R365). -/
def Port.dropFrame (x : Port) : Port := { x with nakOut := true, naks := x.naks + 1, retries := x.retries + 1 }

/-- Whether a block passed the decoder and its CRC-32C (R354, R356, R359). -/
def RxSlot.good (x : RxSlot) : Bool :=
  x.decoded && x.bytes.length == 256 && x.bytes.drop 252 == toBytes 4 (crc32c (x.bytes.take 252)).toNat

/-- The fields of a received marker (R359): FRAME, EPOCH, the versions and POSITION, the TAG and NEXT_MASK. -/
def RxSlot.frame (x : RxSlot) : Word := BitVec.ofNat 32 (ofBytes (bytesAt x.bytes 0 4))
def RxSlot.epoch (x : RxSlot) : BitVec 16 := BitVec.ofNat 16 (ofBytes (bytesAt x.bytes 4 2))
def RxSlot.mapNow (x : RxSlot) : BitVec 4 := BitVec.ofNat 4 (ofBytes (bytesAt x.bytes 6 1) / 16)
def RxSlot.mapNext (x : RxSlot) : BitVec 4 := BitVec.ofNat 4 (ofBytes (bytesAt x.bytes 6 1))
def RxSlot.tag (x : RxSlot) : BitVec 128 := BitVec.ofNat 128 (ofBytes (bytesAt x.bytes 8 16))
def RxSlot.nextMask (x : RxSlot) : BitVec 34 := BitVec.ofNat 34 (ofBytes (bytesAt x.bytes 24 5))

/-- Whether a marker's POSITION is out of range or a reserved field of it is not zero (R359, R379). -/
def RxSlot.badMarker (x : RxSlot) : Bool :=
  decide (4 < ofBytes (bytesAt x.bytes 7 1)) || decide (2 ^ 34 ≤ ofBytes (bytesAt x.bytes 24 5)) || (bytesAt x.bytes 29 223).any (· != 0)

/-- The flit of a received slot under a key (R356, R357, R374). -/
def RxSlot.flit (x : RxSlot) (key : Option (List Byte)) (frame : Word) (slot : Nat) : Flit :=
  let h := ofBytes (x.bytes.take 12)
  let n := bitsOf h 31 28
  { type := BitVec.ofNat 4 (bitsOf h 95 92), seq := BitVec.ofNat 16 (bitsOf h 91 76), ack := BitVec.ofNat 16 (bitsOf h 75 60)
    nak := bitOf h 59
    credit1 := BitVec.ofNat 8 (bitsOf h 58 51), credit0 := BitVec.ofNat 3 (bitsOf h 50 48), poison := BitVec.ofNat 15 (bitsOf h 47 33)
    nonfinite := bitOf h 32, granules := BitVec.ofNat 4 n, courier := BitVec.ofNat 28 (bitsOf h 27 0)
    payload := (cipherSlot key frame slot (bytesAt x.bytes 12 240)).take (16 * n) }

/-- Accept a frame's slots under a key, or none; a malformed flit ends the partner's session (R364, R379). -/
def State.acceptFrame (s : State) (p : Nat) (key : Option (List Byte)) (frame : Word) (slots : List RxSlot) : State :=
  match (s.port p).acceptAll (slots.mapIdx fun i x => x.flit key frame i) with
  | (y, true) => s.setPort p y
  | (y, false) => (s.setPort p y).quarantine p 0x0904

/-- The key under which a frame's batch is verified, if it is encrypted. Until the first encrypted frame has verified, one whose next marker
carries a TAG of zero is in plaintext (R359, R364, R374; DESIGN CHOICE, log entry 163). -/
def Port.frameKey (x : Port) (tag : BitVec 128) : Option (List Byte) :=
  match x.rxKey, x.session with
  | some k, _ => some k
  | none, some k => if tag = 0 then none else some (x.rxHalf k)
  | none, none => none

/-- A batch has verified: after the first of a session, or of a retrain, the partner is authenticated (R361, R372, R376, R377). -/
def Port.verified (x : Port) (key : List Byte) (tick : Nat) : Port :=
  let y : Port := if x.rxKey.isNone then { x with rxKey := some key, rxSeq := 0 } else x
  if x.link == .run then y else { y with link := .run, retrained := false, runSince := tick }

/-- Close the frame in progress with its slots and the TAG that the next marker carries, none when that marker failed (R364, R365, R374,
R389): it is dropped when a slot failed or its batch cannot be verified, and accepted otherwise. -/
def State.closeFrame (s : State) (p : Nat) (slots : List RxSlot) (tag : Option (BitVec 128)) : State :=
  let x := s.port p
  let drop := s.setPort p { x.dropFrame with dropNext := false }
  match x.dropNext, x.rxMark with
  | true, _ => drop
  | false, none => s
  | false, some mark =>
    let frame := BitVec.ofNat 32 (ofBytes (mark.take 4))
    if !slots.all RxSlot.good then drop
    else
      match tag with
      | none => if x.session.isSome then drop else s.acceptFrame p none frame slots
      | some t =>
        match x.frameKey t with
        | some k =>
          let heads := slots.flatMap fun y => y.bytes.take 12
          let cipher := slots.flatMap fun y => bytesAt y.bytes 12 240
          if Config.gcmTag k frame (mark ++ heads) cipher ≠ t then s.quarantine p 0x0902
          else (s.setPort p (x.verified k s.tick)).acceptFrame p (some k) frame slots
        | none => if x.session.isNone && t != 0 then drop else s.acceptFrame p none frame slots

/-- Whether a marker's FRAME and EPOCH are the next ones (R374, R379). New keys take effect at a FRAME wrap (R375); before the first
encrypted frame has verified, plaintext frames have FRAME 0; and after a retrain the first frame may be a later one of the epoch, since
frames may have been lost (DESIGN CHOICE, log entry 163). -/
def Port.inOrder (x : Port) (m : RxSlot) : Bool :=
  if x.rxKey.isNone then m.epoch == 0 && decide (m.frame.toNat ≤ x.rxFrame.toNat)
  else if x.rxFrame = 0 then m.frame == 0 && (m.epoch == x.rxEpoch + 1 || (x.nextSession.isSome && !x.rxFresh && m.epoch == 0))
  else m.epoch == x.rxEpoch && (m.frame == x.rxFrame || (x.retrained && x.rxMark.isNone && decide (x.rxFrame.toNat ≤ m.frame.toNat)))

/-- A frame opens with a FRAME and an EPOCH: its key comes into force, and the next FRAME is expected (R373 to R375). -/
def Port.openFrame (x : Port) (frame : Word) (epoch : BitVec 16) : Port :=
  let y : Port :=
    match x.rxKey, x.nextSession, x.rxFresh with
    | some k, next, fresh =>
      if x.rxFrame ≠ 0 then x
      else
        match next, fresh, epoch == 0 with
        | some n, false, true => ({ x with rxKey := some (x.rxHalf n), rxFresh := true }).settle
        | _, _, _ => { x with rxKey := some (epochKey k epoch) }
    | none, _, _ => x
  { y with rxFrame := frame + 1, rxEpoch := epoch }

/-- What is expected of a frame whose marker failed. -/
def Port.guessFrame (x : Port) : Port :=
  if x.rxKey.isSome && x.rxFrame = 0 then x.openFrame 0 (if x.nextSession.isSome && !x.rxFresh then 0 else x.rxEpoch + 1)
  else x.openFrame x.rxFrame x.rxEpoch

/-- The first frame of a new lane map has come: the erasure ends, unless a lane of that map has failed meanwhile (R354, R370). The map is
the one that the marker before announced. -/
def State.switchMap (s : State) (p : Nat) (now : BitVec 4) : State :=
  let x := s.port p
  match (x.rxNext.toList ++ x.mapAsked).find? fun m => m.1 == now with
  | none => s
  | some m =>
    if now = x.mapVersion then s
    else
      let old := (lanesOf x.activeRx).length
      let n := (lanesOf m.2).length
      let s1 := s.setPort p { x with
        activeRx := m.2, mapVersion := now, mapAsked := x.mapAsked.takeWhile fun a => a.1 != now, rxNext := none
        erased := (lanesOf m.2).find? fun l => x.failedRx.getLsbD l }
      if n < old then s1.portEvent p 0x0603 n
      else
        match (lanesOf x.activeRx).find? (fun l => !m.2.getLsbD l), (lanesOf m.2).find? (fun l => !x.activeRx.getLsbD l) with
        | some f, some q => s1.portEvent p 0x0602 (f + 256 * q)
        | _, _ => s1

/-- Open the frame of a good marker, with the lane map in force and the one announced (R359, R370). -/
def State.openMarker (s : State) (p : Nat) (m : RxSlot) : State :=
  let x := s.port p
  if !x.live then s
  else
    let s1 := (s.setPort p { x.openFrame m.frame m.epoch with rxMark := some (m.bytes.take 8) }).switchMap p m.mapNow
    s1.setPort p { s1.port p with rxNext := if m.mapNext = m.mapNow then none else some (m.mapNext, m.nextMask) }

/-- MARKER_RECEIVE: a marker, with the 256 slots of the frame that it closes, and the FEC symbols corrected and the codewords not decodable
since the one before (R352, R354). A marker that fails its CRC drops that frame, once a session is set, and its own (R364, R389);
otherwise its FRAME and EPOCH must be the next ones, and its frame opens. -/
def execMarkerReceive (port : Fin 8) (marker : RxSlot) (frame : RxFrame) (s : State) : Out :=
  let p := port.val
  let x := s.port p
  if !x.live then .next s
  else
    let s1 := s.setPort p { x with
      corrected := x.corrected + BitVec.ofNat 64 frame.corrected, uncorrectable := x.uncorrectable + BitVec.ofNat 64 frame.undecodable }
    if !marker.good then
      let s2 := s1.closeFrame p frame.slots none
      .next ((s2.setPort p { (s2.port p).guessFrame with rxMark := none, dropNext := (s2.port p).live }).judgeNaks p)
    else if marker.badMarker then .next (s1.quarantine p 0x0904)
    else if !x.inOrder marker then .next (s1.quarantine p 0x0903)
    else .next (((s1.closeFrame p frame.slots (some marker.tag)).openMarker p marker).judgeNaks p)

/-- The accepted IDLE flit that a header belongs to (R358). -/
def isIdle (ack : BitVec 16) (nak : Bool) (credit1 : BitVec 8) (credit0 : BitVec 3) (f : Flit) : Bool :=
  f.type == 0 && f.ack == ack && f.nak == nak && f.credit1 == credit1 && f.credit0 == credit0

/-- IDLE_FLIT: an accepted IDLE flit's ACK, NAK and credits (R357, R358). -/
def execIdleFlit (port : Fin 8) (ack : BitVec 16) (nak : Bool) (credit1 : BitVec 8) (credit0 : BitVec 3) (s : State) : Out :=
  let p := port.val
  let x := s.port p
  if !x.live || !x.rx.any (isIdle ack nak credit1 credit0) then .next s
  else
    let y : Port := { x with rx := x.rx.eraseP (isIdle ack nak credit1 credit0) }
    .next ((s.setPort p (y.applyHeader ack nak credit1.toNat credit0.toNat)).judgeNaks p)

/-- MAP_REQUEST: the newest version replaces one that waits (R370, R387). -/
def execMapRequest (port : Fin 8) (version : BitVec 4) (mask : BitVec 34) (s : State) : Out :=
  let p := port.val
  let x := s.port p
  let f := linkFlit 1 version.toNat mask.toNat
  .next (if x.live && x.hasFlit f then s.setPort p { x.takeFlit f with txPending := some (version, mask), txAnnounced := false } else s)

/-- RETRAIN_REQUEST: the partner asks for a retrain (R371). -/
def execRetrainRequest (port : Fin 8) (s : State) : Out :=
  let p := port.val
  let x := s.port p
  let f := linkFlit 2 0 0
  .next (if x.live && x.hasFlit f then (s.setPort p (x.takeFlit f)).retrain p false else s)

/-- FAULTY_NOTICE: the partner has found the link faulty; this side holds off too (R377, R378). -/
def execFaultyNotice (port : Fin 8) (s : State) : Out :=
  let p := port.val
  .next (if (s.port p).live && (s.port p).hasFlit (linkFlit 3 0 0) then s.faulty p else s)

/-! ### Authentication (R372, R373, R375, R379, R390) -/

/-- Whether an exchange is open on a port. -/
def Port.authing (x : Port) : Bool := (x.link == .auth && x.session.isNone) || (x.link == .run && x.reauth)

/-- Whether the Health Engine owns a port: a lane test of it runs (R390). -/
def State.healthOwns (s : State) (p : Nat) : Bool :=
  s.health.running.isSome && s.health.tests.getLsbD 4 && bitOf (bodyAt s.health.body 3 1) p

/-- The port number that a partner must show. -/
def Port.peerNumber (x : Port) (p : Nat) : Nat := if x.loopback then p else p ^^^ 1

/-- Whether a whole message of a step has been accepted and stands first in what the exchange has received (R364, R372). -/
def Port.heard (x : Port) (step : Nat) (content : List Byte) : Bool :=
  x.authIn.take (authPieces step content).length == authPieces step content

/-- Take that message; those of steps 1 to 3 belong to the transcript. -/
def Port.hear (x : Port) (step : Nat) (content : List Byte) : Port :=
  { x with
    authIn := x.authIn.drop (authPieces step content).length
    peerMsgs := if step ≤ 3 then x.peerMsgs ++ [Config.authMessage step content] else x.peerMsgs }

/-- A pair taken lower serial first. -/
def Port.ordered {α : Type} (x : Port) (mine theirs : List α) : List α := if x.lower then mine ++ theirs else theirs ++ mine

/-- The transcript: steps 1 to 3 of the side with the lower serial, then those of the other; on loopback the port's own, once (R372,
R390). -/
def Port.transcript (x : Port) : List Byte := (if x.loopback then x.myMsgs else x.ordered x.myMsgs x.peerMsgs).flatten

/-- The session key material (R373): from Z, the label, both nonces and both serials. -/
def State.sessionKey (s : State) (p : Nat) : BitVec 512 :=
  let x := s.port p
  let z := toBytes 48 (Config.sharedPoint x.secret x.peerPoint).toNat
  Config.oneStepKdf z linkLabel (x.ordered (toBytes 32 x.nonce.toNat) (toBytes 32 x.peerNonce.toNat) ++
    x.ordered (toBytes 16 s.boot.serial.toNat) (toBytes 16 x.partnerSerial.toNat))

/-- HELLO: step 1, with the loopback and peer checks (R372, R379, R390). One that comes in RUN begins this side's part of a
re-authentication (R375). -/
def execHello (port : Fin 8) (h : Hello) (s : State) : Out :=
  let p := port.val
  let x0 := s.port p
  if !(x0.authing || x0.carries) || x0.authStep % 4 != 0 || !x0.heard 1 (helloBytes h) then .next s
  else
    let s0 := if x0.authing then s else (s.setPort p { x0 with reauth := true }).beginAuth p
    let x := (s0.port p).hear 1 (helloBytes h)
    let own := h.serial == s.boot.serial
    let y : Port := { x with
      partnerSerial := h.serial, peerNonce := h.nonce, loopback := own && h.nonce == x.nonce && s.healthOwns p
      lower := decide (s.boot.serial.toNat ≤ h.serial.toNat) }
    let s1 := s0.setPort p y
    if own && !s.healthOwns p then .next (s1.quarantine p 0x0905)
    else if h.version != 1 || h.port.toNat != y.peerNumber p then .next (s1.quarantine p 0x0901)
    else if x.expectEn && x.peerExpect.extractLsb' 0 20 != h.coord then .next (s1.quarantine p 0x0905)
    else .next (s0.setPort p { y with authStep := 1 })

/-- CERTS: step 2; the verdict on the chain and the port that the link certificate names are the security block's (R372). -/
def execCerts (port : Fin 8) (content : List Byte) (verdict : ChainVerdict) (s : State) : Out :=
  let p := port.val
  let x := s.port p
  if !x.authing || x.authStep != 1 || !x.heard 2 content then .next s
  else
    let y := x.hear 2 content
    if !verdict.ok || verdict.port.toNat != x.peerNumber p then .next ((s.setPort p y).quarantine p 0x0901)
    else .next (s.setPort p { y with authStep := 2 })

/-- KEY_SHARE: step 3; the module's FINISHED, which waits for it, goes out, signed by the port's link key (R372). -/
def execKeyShare (port : Fin 8) (share : PeerShare) (s : State) : Out :=
  let p := port.val
  let x := s.port p
  let content := toBytes 97 share.point.toNat
  if !x.authing || x.authStep != 2 || !x.heard 3 content then .next s
  else
    let y : Port := { x.hear 3 content with peerPoint := share.point }
    if !share.ok then .next ((s.setPort p y).quarantine p 0x0901)
    else
      let z : Port := { y with authStep := 3 }
      let sign := toBytes 96 (Config.signature (s.boot.linkSeed p) z.transcript).toNat
      .next (s.setPort p (if x.mySteps = 3 then { z with mySteps := 4, class0 := z.class0 ++ authFlits 4 sign } else z))

/-- FINISHED: step 4; the keys are derived. At first they come into force with the first encrypted frame of each direction; in a
re-authentication at the next FRAME wrap (R361, R372, R373, R375). -/
def execFinished (port : Fin 8) (sign : PeerSign) (s : State) : Out :=
  let p := port.val
  let x := s.port p
  let content := toBytes 96 sign.signature.toNat
  if !x.authing || x.authStep != 3 || x.mySteps != 4 || !x.heard 4 content then .next s
  else
    let y := x.hear 4 content
    if !sign.ok then .next ((s.setPort p y).quarantine p 0x0901)
    else
      let key := s.sessionKey p
      .next (s.setPort p (if x.reauth then { y with authStep := 4, reauth := false, nextSession := some key }
        else { y with authStep := 4, session := some key }))

/-- AUTH_STEP_TIMEOUT: a step not complete in 10 ms restarts training (R372); in a re-authentication the retrain keeps the session
(R376). -/
def execAuthStepTimeout (port : Fin 8) (s : State) : Out :=
  let p := port.val
  let x := s.port p
  if !x.authing && !(x.link == .auth) then .next s
  else if x.link == .run then .next ((s.setPort p { x with reauth := false, authStep := 0, mySteps := 0, authIn := [] }).retrain p true)
  else .next (s.dropPort p .train)

/-! ### Windows and hold-offs (R377, R378, R381, R383) -/

/-- RETRY_WINDOW_END: the NAKs are counted anew, and a new LNK_RETRY_CFG takes effect (R378). An excess has been judged as it arose; the
count of a port in HOLDOFF stays, for its LINK_DOWN. -/
def execRetryWindowEnd (port : Fin 8) (s : State) : Out :=
  let p := port.val
  let s1 := s.judgeNaks p
  let y := s1.port p
  .next (s1.setPort p { y with naks := if y.link == .holdoff then y.naks else 0, retryCfg := y.retryCfgNext })

/-- HOLDOFF_EXPIRY: back to DETECT, or LINK_DOWN after the fourth hold-off in a row, with the NAKs of the window (R377, R378). -/
def execHoldoffExpiry (port : Fin 8) (s : State) : Out :=
  let p := port.val
  let x := s.port p
  if x.link != .holdoff then .next s
  else if 4 ≤ x.holdoffs then .next ((s.setPort p { x with link := .off }).portEvent p 0x0605 x.naks)
  else .next (s.setPort p { x with link := .detect, naks := 0 })

/-- LINK_CREDIT_STARVED: class 1 credit withheld while flits wait, once per job and port (R381). -/
def execLinkCreditStarved (port : Fin 8) (ctx : Fin 8) (s : State) : Out :=
  let p := port.val
  let c := ctx.val
  let x := s.port p
  if !x.carries || x.class1.isEmpty || x.credit1 != 0 || !(s.job c).present || decide (c ∈ x.starved) then .next s
  else .next ((s.setPort p { x with starved := addTo x.starved c }).event 0x0606 kPort c p p (s.job c).cfg.tag.toNat)

/-- CURFEW_TAG_UNKNOWN: a token held for 1 s whose job has not loaded is discarded (R383). -/
def execCurfewTagUnknown (entry : Nat) (s : State) : Out :=
  match s.pendingTokens[entry]? with
  | none => .next s
  | some t =>
    if s.tick < t.2.2.2 + minuteTicks / 60 then .next s
    else
      let s1 : State := { s with pendingTokens := s.pendingTokens.eraseIdx entry }
      .next (s1.event 0x0607 kPort 0xF t.1.val t.1.val t.2.1.toNat)

end Sys2Proof.Machine
end

