-- ==== Sys2Proof/Machine/Boot.lean ====
section
/-! DEFINITION. Identity, boot, straps and persistent settings (R541 to R573), with the sideband's answers to SPDM and firmware
update, and the test port (R590). -/

namespace Sys2Proof.Machine

/-! ### Images and the choice of what runs (R549 to R552, R556, R557) -/

/-- SVN below MIN_SVN. -/
def Boot.oldSvn (x : Boot) (i : Image) : Bool := decide (i.svn.toNat < x.minSvn)

/-- The first failing reason of an image; 0 when it is valid (R550, R567). Without a root-key hash no image is valid. -/
def Boot.reason (x : Boot) (i : Image) (svnToo : Bool) : Byte :=
  if i.blank then 0xFF
  else if i.reason = 1 then 1
  else if (x.live 3).isNone then 2
  else if i.reason ≠ 0 then i.reason
  else if svnToo && x.oldSvn i then 6 else 0

/-- IMAGE_AUTH_FAILED, 0x0906, found during boot (R567). -/
def authFailed (subject : Nat) (reason : Byte) : BitVec 16 × Dword × Dword :=
  (0x0906, BitVec.ofNat 64 subject, BitVec.ofNat 64 reason.toNat)

/-- The event of a slot that fails; a blank slot raises none. -/
def slotEvent (subject : Nat) (reason : Byte) : List (BitVec 16 × Dword × Dword) :=
  if reason = 0 ∨ reason = 0xFF then [] else [authFailed subject reason]

/-- STRAP_BOOT as it acts: 1 host-load unless the policy denies it, 2 recovery, 0 flash (R558). -/
def Boot.source (x : Boot) : Nat :=
  match x.straps.boot.toNat with
  | 0 => 0
  | 1 => if x.hostloadDeny then 0 else 1
  | _ => 2

/-- Measure an image and derive the layers of R544; the identity is usable in PRODUCTION with debug closed and a device
certificate that verifies (R545). -/
def Boot.measure (x : Boot) (i : Image) : Boot :=
  let d (v : BitVec 384) : List Byte := toBytes 48 v.toNat
  let c1 := Config.kdf x.cdi0 [] (d i.digestMgmt)
  let c2 := Config.kdf (Config.kdf c1 [] (d i.digestCourier)) [] (d i.digestUpdate)
  { x with cdi1 := c1, cdi2 := c2, phase := .firmware, identity := x.lifecycle == 1 && !x.debugOpen && x.certOk }

/-- Run the recovery image, or stay in the ROM state (R551, R557). -/
def Boot.runRecovery (x : Boot) : Boot :=
  let r := x.reason x.recovery false
  if r = 0 then ({ x with running := .recovery }).measure x.recovery
  else { x with phase := .romState, bootEvents := x.bootEvents ++ slotEvent 2 r }

/-- Whether slot B is newer (R551). -/
def newerB (a b : Word) : Bool := decide (1 ≤ (b - a).toNat) && decide ((b - a).toNat < 2 ^ 31)

/-- Choose the slot that runs (R551, R552). -/
def Boot.select (x : Boot) : Boot :=
  let a := x.aValid && !x.aBad
  let b := x.bValid && !x.bBad
  let runB := b && (!a || newerB x.slotA.sequence x.slotB.sequence)
  if runB then ({ x with running := .slotB }).measure x.slotB
  else if a then ({ x with running := .slotA }).measure x.slotA
  else x.runRecovery

/-- Verify both slots' manifests (R550, R553 step 3). -/
def Boot.verify (x : Boot) : Boot :=
  let ra := x.reason x.slotA true
  let rb := x.reason x.slotB true
  { x with aReason := ra, bReason := rb, aValid := ra == 0, bValid := rb == 0, bootEvents := x.bootEvents ++ slotEvent 0 ra ++ slotEvent 1 rb }

/-- Resolve the lifecycle and STRAP_DEBUG (R565, R566, R553 step 2). -/
def Boot.resolve (x : Boot) : Boot :=
  let life := x.lifecycle
  let asked := x.straps.debug == 1
  let open_ := asked && life != 1
  let ones : BitVec 384 := ~~~0
  { x with
    debugOpen := open_, debugRefused := asked && life == 1, uds := if life = 3 then some ones else x.uds
    bootEvents := if open_ then [(0x0907, BitVec.ofNat 64 life, 0)] else [] }

/-- Steps 1 to 4 of R553 from the latched straps. -/
def Boot.start (x : Boot) : Boot :=
  let y := x.resolve
  if (List.range 6).any y.damaged then { y with phase := .romState }
  else
    match y.source with
    | 1 => { y with phase := .hostWait }
    | 0 => y.verify.select
    | _ => y.verify.runRecovery

/-! ### Power-on (R553, R558) -/

/-- What a power cycle leaves: the flash, the one-time-programmable areas and what the Logbook keeps (R504, R541, R561). -/
def State.powerCycle (s : State) : State :=
  let h := s.health
  let b := s.boot
  { State.reset with
    pending := s.pending, fresh := s.fresh, stepping := s.stepping, retired := s.retired
    health := { Health.reset with
      sectors := h.sectors, nextSeq := h.nextSeq, confirm := h.confirm, bankDays := h.bankDays, lanesFailed := h.lanesFailed
      poweredBefore := h.poweredBefore + s.tick / minuteTicks }
    boot := { Boot.reset with
      uds := b.uds, serial := b.serial, otp := b.otp, otpBoot := b.otp, straps := b.straps, strapsLatched := b.strapsLatched
      slotA := b.slotA, slotB := b.slotB, recovery := b.recovery, certOk := b.certOk }
    host := { HostIf.reset with perst := s.host.perst } }

/-- The core-rail target of a die, in units of 2.5 mV: 0.650 V and the trim, within 0.600 to 0.720 V (R586). -/
def coreTarget (trim : Int) : Nat := (max 240 (min 288 (260 + trim))).toNat

/-- POWER_ON_RESET: the straps are latched, unless they have been since standby power came, the settings are read, and the
boot ROM chooses what runs. The images are what it finds in the flash (R553, R558). -/
def execPowerOnReset (straps : Straps) (slotA slotB recovery : Image) (s : State) : Out :=
  let s1 := s.powerCycle
  let x : Boot := { s1.boot with
    straps := if s.boot.strapsLatched then s.boot.straps else straps, strapsLatched := true, slotA := slotA, slotB := slotB
    recovery := recovery }
  let y := x.start
  let cores : Tbl Nat := (List.range 4).map fun d => (d, coreTarget (y.trim d))
  let p : Power := { s1.power with sideAddr := BitVec.ofNat 7 y.smbusAddr, vcore := cores, requested := y.clockLimit }
  .next { s1 with boot := y, power := p }

/-- STANDBY_POWER_LOSS: everything but the flash and the one-time-programmable areas is lost; the straps will be sampled
again (R504, R558). -/
def execStandbyPowerLoss (s : State) : Out :=
  let s1 := s.powerCycle
  .next { s1 with boot := { s1.boot with standby := false, strapsLatched := false } }

/-- STARTUP_COMPLETE: the firmware reports in time (R552). -/
def execStartupComplete (s : State) : Out :=
  .next (if s.boot.phase = .firmware then { s with boot := { s.boot with phase := .rails } } else s)

/-- STARTUP_WATCHDOG: the slot is abandoned for this power cycle, and the ROM selects again (R552). -/
def execStartupWatchdog (s : State) : Out :=
  let x := s.boot
  if x.phase ≠ .firmware then .next s
  else
    let y : Boot := match x.running with
      | .slotA => ({ x with aBad := true, fallback := true }).select
      | .slotB => ({ x with bBad := true, fallback := true }).select
      | .recovery => { x with phase := .romState }
      | .hostload => { x with phase := .hostWait }
    .next { s with boot := y }

/-- GO: the staged image is verified, SEQUENCE ignored; an invalid one leaves the ROM waiting (R556). -/
def execGo (image : Image) (s : State) : Out :=
  let x := s.boot
  if x.phase ≠ .hostWait then .next s
  else
    let r := x.reason image true
    let y : Boot := if r = 0 then ({ x with hostload := image, running := .hostload }).measure image
      else { x with bootEvents := x.bootEvents ++ slotEvent 3 r }
    .next { s with boot := y }

/-- Raise the events of the boot (R553 step 8, R567). -/
def State.bootReport (s : State) : State :=
  let s1 := s.boot.bootEvents.foldl (fun s e => s.raise ⟨e.1, kSecurity, 0xF, 0, e.2.1, e.2.2, 1⟩) s
  { s1 with boot := { s1.boot with bootEvents := [] } }

/-- A stack that failed to train is recorded in the Logbook (R210). -/
def State.stackFailure (s : State) (m : Nat) : State :=
  s.record ⟨0x04, Config.stackFailureCode, BitVec.ofNat 24 m, s.minutes, 0, 1, Config.recordDetail Config.stackFailureCode m⟩

/-- What the management core reads from the Logbook at boot: the tiles with history (R502). -/
def State.loadHistory (s : State) : State :=
  let h := s.health
  let now := s.minutes.toNat
  let all := (h.used.flatMap fun u => (h.sectors.get Sector.erased u.1).records).filter fun r => r.kind == 0x01
  let units := all.foldl (fun l r => addTo l r.unit.toNat) []
  let counts : Tbl Nat := units.map fun u => (u, suspectsIn (h.history 0x01 (BitVec.ofNat 24 u) now))
  { s with health := { h with known := units, suspects := counts } }

/-- BOOT_DONE: steps 6 to 8 of R553. -/
def execBootDone (trained : BitVec 8) (s : State) : Out :=
  if s.boot.phase ≠ .rails || !s.power.mainGood || !s.power.rootLock then .next s
  else
    let s1 := (List.range 8).foldl (fun s m =>
      let s1 := s.setStack m { s.stack m with trained := trained.getLsbD m }
      if trained.getLsbD m then s1 else s1.stackFailure m) s
    let s2 := (List.range 200).foldl (fun s row => s.applyRow row) s1.loadHistory
    let x := s2.boot
    let up := x.straps.ports == 0 && !x.portsForceDown && x.lifecycle == 1
    let s3 := if up then (List.range 8).foldl (fun s p => s.enablePort p) s2 else s2
    .next ({ s3 with boot := { s3.boot with phase := .done, done := true, staging := [] } }).bootReport

/-! ### Persistent settings and firmware update (R555, R561 to R572) -/

/-- An event of R567 while running. -/
def State.authEvent (s : State) (subject reason : Nat) : State := s.event 0x0906 kSecurity 0xF 0 subject reason

/-- Bytes of a block's payload (R561). -/
def blockBytes (b : Nat) : Nat := [800, 8, 8, 48, 8, 8].getD b 8

/-- The highest generation of a block that is not blank, and one above it. -/
def Boot.nextGen (x : Boot) (b : Nat) : Nat :=
  match [3, 2, 1, 0].find? fun g => (x.gen b g).nonblank with
  | some g => g + 1
  | none => 0

/-- The first reason a settings package is rejected for; 0 when it may be written (R564, R565, R567). -/
def Boot.packageReason (x : Boot) (p : Package) : Nat :=
  let n := x.now
  let b := p.block.val
  let live : Byte := match n.live b with
    | some g => BitVec.ofNat 8 g
    | none => 0xFF
  if !p.sigOk then 4
  else if p.serial != x.serial then 7
  else if p.expected != live then 8
  else if 4 ≤ n.nextGen b then 9
  else if x.lifecycle = 3 then 9
  else if b = 4 ∧ numAt p.payload 0 1 ≤ n.lifecycle then 9
  else 0

/-- Program the next generation of a block. `progress` counts the parts of R563 that were written: it is committed once copy A's
COMMIT is, and spent before that. -/
def Boot.program (x : Boot) (p : Package) (progress : WriteProgress) : Boot :=
  let b := p.block.val
  let g := x.now.nextGen b
  let ok := decide (3 ≤ progress.val)
  { x with otp := x.otp.set (4 * b + g) ⟨true, ok, ok, fitBytes (blockBytes b) p.payload⟩ }

/-- Apply a settings package of an update (R564). -/
def State.settings (s : State) (p : Package) (progress : WriteProgress) : State :=
  let r := s.boot.packageReason p
  if r = 0 then { s with boot := s.boot.program p progress } else s.authEvent 5 r

/-- The slot that an update writes: the one that is not running, and slot A when neither runs (R555, R557, R570). -/
def Boot.targetB (x : Boot) : Bool := x.phase != .romState && x.running == .slotA

/-- Write an image into the slot that is not running; cut short, it leaves that slot invalid (R555, R573). -/
def State.update (s : State) (i : Image) (progress : WriteProgress) : State :=
  let x := s.boot
  let r := x.reason i true
  let put (i : Image) : Boot := if x.targetB then { x with slotB := i } else { x with slotA := i }
  if r = 0xFF then s.authEvent 4 1
  else if r ≠ 0 then s.authEvent 4 r.toNat
  else if x.phase != .romState && i.sequence != x.image.sequence + 1 then
    { s.authEvent 4 (Config.sequenceReason s.fresh) with fresh := s.fresh + 1 }
  else { s with boot := put (if progress.val = 4 then i else blankImage) }

/-- Whether the sideband answers: from the firmware's entry on, and in the ROM state (R456, R553, R557). -/
def State.sideband (s : State) : Bool :=
  s.boot.standby && (match s.boot.phase with
    | .rom | .hostWait => false
    | _ => true)

/-- Whether the firmware answers the sideband. -/
def State.sidebandFull (s : State) : Bool := s.sideband && s.boot.phase != .romState

/-- Record an answer of the sideband. -/
def State.answer (s : State) (kind : Nat) (l : List Byte) : State :=
  { s with power := { s.power with answers := s.power.answers ++ [(kind, l)] } }

/-- PLDM_FIRMWARE_UPDATE: settings first, checked against the live settings; then the image. The ROM state takes an image
only (R455, R555, R557, R571). -/
def execPldmFirmwareUpdate (image : Option Image) (package : Option Package) (progress : WriteProgress) (s : State) : Out :=
  if !s.sideband then .next s
  else
    let s1 := match package with
      | some p => if s.sidebandFull then s.settings p progress else s
      | none => s
    .next (match image with
      | some i => s1.update i progress
      | none => s1)

/-! ### Attestation (R543 to R547) -/

/-- The seed of the alias key (R542, R544). -/
def Boot.aliasSeed (x : Boot) : BitVec 384 := x.cdi1

/-- The chain of slot 0: root, device and alias certificates (R546). -/
def Boot.chain (x : Boot) : List Byte :=
  Config.certificate 0 (Config.publicKey 0) [] ++ x.deviceCert ++
    Config.certificate x.deviceSeed (Config.publicKey x.aliasSeed) [x.image.digestMgmt]

/-- SPDM response codes, from the request: the standard's. -/
def spdmVersion : Nat := 0x04
def spdmCapabilities : Nat := 0x61
def spdmAlgorithms : Nat := 0x63
def spdmDigests : Nat := 0x01
def spdmCertificate : Nat := 0x02
def spdmChallengeAuth : Nat := 0x03
def spdmMeasurements : Nat := 0x60
def spdmError : Nat := 0x7F

/-- An SPDM answer whose layout the standard gives (R546). -/
def State.spdm (s : State) (code : Nat) (content : List Byte) : Out :=
  .next (if s.sidebandFull then s.answer code (Config.standardAnswer code content) else s)

/-- The ERROR response of code Unspecified, 0x05 in SPDM (R545). -/
def State.spdmUnspecified (s : State) : Out := .next (if s.sidebandFull then s.answer spdmError [0x05] else s)

/-- GET_VERSION. -/
def execGetVersion (s : State) : Out := s.spdm spdmVersion []
/-- GET_CAPABILITIES. -/
def execGetCapabilities (s : State) : Out := s.spdm spdmCapabilities []
/-- NEGOTIATE_ALGORITHMS: ECDSA P-384 and SHA-384. -/
def execNegotiateAlgorithms (s : State) : Out := s.spdm spdmAlgorithms []
/-- GET_DIGESTS: the digest of the chain of slot 0. -/
def execGetDigests (s : State) : Out := s.spdm spdmDigests (toBytes 48 (Config.sha384 s.boot.chain).toNat)
/-- GET_CERTIFICATE: a portion of the chain of slot 0. -/
def execGetCertificate (offset length : Nat) (s : State) : Out := s.spdm spdmCertificate (bytesAt s.boot.chain offset length)

/-- CHALLENGE: signed by the alias key, or an ERROR without a usable identity (R545, R546). -/
def execChallenge (nonce : BitVec 256) (s : State) : Out :=
  if s.boot.identity then s.spdm spdmChallengeAuth (toBytes 96 (Config.signature s.boot.aliasSeed (toBytes 32 nonce.toNat)).toNat)
  else s.spdmUnspecified

/-- SEC_STRAPS bits [7:0] (R558). -/
def strapBits (x : Straps) : Nat :=
  x.boot.toNat * 32 + x.linkgen.toNat * 8 + x.ports.toNat * 4 + x.partition.toNat * 2 + (x.debug : BitVec 1).toNat

/-- The measurement of an index; none where R547 lists no such index. -/
def Boot.measurement (x : Boot) (index : Nat) : Option (List Byte) :=
  let d (v : BitVec 384) : List Byte := toBytes 48 v.toNat
  match index with
  | 1 => some (d x.image.digestMgmt)
  | 2 => some (d x.image.digestCourier)
  | 3 => some (d x.image.digestUpdate)
  | 4 => some (d x.image.digestManifest)
  | 5 => some ([BitVec.ofNat 8 x.lifecycle, BitVec.ofNat 8 (strapBits x.straps)] ++ (List.range 6).map fun b =>
      match x.live b with
      | some g => BitVec.ofNat 8 g
      | none => 0xFF)
  | 6 => some x.rootHash
  | _ => none

/-- GET_MEASUREMENTS: one index; a signed answer needs the identity (R545, R547). -/
def execGetMeasurements (index : Byte) (signed : Bool) (s : State) : Out :=
  let x := s.boot
  if signed && !x.identity then s.spdmUnspecified
  else
    match x.measurement index.toNat with
    | none => s.spdm spdmError [index]
    | some l =>
      let sig := if signed then toBytes 96 (Config.signature x.aliasSeed l).toNat else []
      s.spdm spdmMeasurements (l ++ sig)

/-! ### The test port (R566, R590) -/

/-- Instructions of the test port, as `Power.jtag` holds them. -/
def jtagBypass : BitVec 3 := 0
def jtagIdcode : BitVec 3 := 1
def jtagSample : BitVec 3 := 2
def jtagExtest : BitVec 3 := 3

/-- BYPASS. -/
def execBypass (s : State) : Out := .next { s with power := { s.power with jtag := jtagBypass } }

/-- IDCODE: the stepping's code (R590). -/
def execIdcode (s : State) : Out :=
  let code : Word := match s.stepping with
    | .a1 => 0x10410B47
    | .b0 => 0x20410B47
  .next { s with power := { s.power with jtag := jtagIdcode, idcodeOut := code } }

/-- SAMPLE/PRELOAD: the boundary register takes the pins. -/
def execSamplePreload (pins : BitVec 64) (s : State) : Out :=
  .next { s with power := { s.power with jtag := jtagSample, boundary := pins } }

/-- EXTEST: only while no partition holds a job and PERST_N is asserted; otherwise BYPASS (R590). -/
def execExtest (s : State) : Out :=
  .next { s with power := { s.power with jtag := if !s.anyJob && s.host.perst then jtagExtest else jtagBypass } }

/-- MANAGEMENT_DEBUG: with debug closed the port has no such instruction, and the register bypasses; with debug open the manual
does not say what it does (R566, R590). -/
def execManagementDebug (_opcode : Word) (s : State) : Out :=
  if s.boot.debugOpen then .refused .debugUnit else .next { s with power := { s.power with jtag := jtagBypass } }

end Sys2Proof.Machine
end

