-- ==== Sys2Proof/Machine/Branch.lean ====
section
/-! DEFINITION. Branches (R128, R148). -/

namespace Sys2Proof.Machine

/-- A task after a branch to a byte offset: the low 16 bits stand in the program counter. -/
def Task.branchTo (t : Task) (target : Int) : Task := { t with pc := BitVec.ofInt 16 target }

/-- Complete a branch. A target that 16 bits cannot hold lies outside every instruction-store region, and its fetch
faults at once (R85, R128). -/
def State.branch (s : State) (w : Site) (t : Task) (target : Int) : Out :=
  let s1 := s.retire w (t.branchTo target)
  if target < 0 ∨ 65536 ≤ target then .next (s1.haltTask w 0x0104 (s1.where_ w) 0) else .next s1

/-- PC + 4 × OFF14. -/
def Task.relative (t : Task) (off : BitVec 14) : Int := t.pc.toNat + 4 * off.toInt

/-- The link of a branch: PC + 4. -/
def Task.link (t : Task) (f : FB) : Task :=
  if f.l = 1 then t.setS f.s (BitVec.ofNat 32 (t.pc.toNat + 4)) false else t

/-- BR (R128): S is zero where L is 0. -/
def execBr (w : Site) (f : FB) (s : State) : Out :=
  s.issue (.br w f) w fun s =>
    let t := s.taskAt w
    if f.rsv ≠ 0 ∨ (f.l = 0 ∧ f.s ≠ 0) then .next (s.invalid (.br w f) w)
    else if t.waits (if f.l = 1 then [f.s] else []) [] then .next (s.holdTask w .interlock)
    else s.branch w (t.link f) (t.relative f.off)

/-- T of JR: bits [13:9] of the word (R120). -/
def jrT (f : FB) : BitVec 5 := f.off.extractLsb' 9 5

/-- JR: the target is in the low half and a multiple of 4 (R128). -/
def execJr (w : Site) (f : FB) (s : State) : Out :=
  s.issue (.jr w f) w fun s =>
    let t := s.taskAt w
    let v := t.getS (jrT f)
    if f.rsv ≠ 0 ∨ f.off.extractLsb' 0 9 ≠ 0 ∨ (f.l = 0 ∧ f.s ≠ 0) then .next (s.invalid (.jr w f) w)
    else if t.waits (jrT f :: if f.l = 1 then [f.s] else []) [] then .next (s.holdTask w .interlock)
    else if t.tagS (jrT f) then .next (s.eatTag w)
    else if v.extractLsb' 0 2 ≠ 0 ∨ v.extractLsb' 16 16 ≠ 0 then .next (s.operandBad (.jr w f) w)
    else s.branch w (t.link f) v.toNat

/-- LOOP: count down, branch while the count is not zero; L is 0 (R128). -/
def execLoop (w : Site) (f : FB) (s : State) : Out :=
  s.issue (.loop w f) w fun s =>
    let t := s.taskAt w
    let n := t.getS f.s - 1
    if f.rsv ≠ 0 ∨ f.l ≠ 0 then .next (s.invalid (.loop w f) w)
    else if t.waits [f.s] [] then .next (s.holdTask w .interlock)
    else if t.tagS f.s then .next (s.eatTag w)
    else if n = 0 then .next (s.retire w ((t.setS f.s n false).advance 4))
    else s.branch w (t.setS f.s n false) (t.relative f.off)

end Sys2Proof.Machine
end

