-- ==== Sys2Proof/Machine/Power.lean ====
section
/-! DEFINITION. Clocks, power and temperature (R574 to R594), refresh (R222), and the sideband's sensors and addresses
(R455). -/

namespace Sys2Proof.Machine

/-! ### Requests for a step (R576) -/

/-- One of several that the manual does not rank. -/
def State.choose (s : State) (l : List Nat) : Nat × State :=
  match l with
  | [] => (0, s)
  | [a] => (a, s)
  | _ => (l.getD (Config.tieBreak s.fresh % l.length) 0, { s with fresh := s.fresh + 1 })

/-- The step that each source asks: limit, thermal, power, alert, critical. -/
def State.asked (s : State) : List Nat :=
  let p := s.power
  [s.boot.clockLimit.toNat, p.thermalReq.toNat, p.powerReq.toNat, if p.alertReq then 3 else 0, if p.criticalReq then 3 else 0]

/-- The requested step and its source: the slowest of the requests; a source that asks for 1.6 GHz asks for nothing, the limit
apart (R576, R594). -/
def State.request (s : State) : State :=
  let l := s.asked
  let m := l.foldl max 0
  let from_ := (List.range 5).filter fun i => l.getD i 0 == m && (i == 0 || m != 0)
  let (k, s1) := s.choose from_
  { s1 with power := { s1.power with requested := BitVec.ofNat 2 m, source := BitVec.ofNat 3 k } }

/-! ### Sensors (R578) -/

/-- Set points of a die or a stack sensor for the steps 1, 2 and 3, and the critical point, in units of 0.0625 °C. -/
def setPoints (sensor : Nat) : List Int := if sensor < 64 then [1520, 1600, 1680, 1760] else [1408, 1456, 1504, 1552]

/-- Die and stack sensors, and the optical engines'. -/
def coreSensors : List Nat := List.range 72

/-- The reading of a sensor, once it has been read. -/
def Power.reading (p : Power) (n : Nat) : Option Int :=
  let w := p.temp.get 0 n
  if w.getLsbD 31 then some (w.extractLsb' 0 16).toInt else none

/-- Whether a reading of a die or stack sensor satisfies a test. -/
def Power.anyCore (p : Power) (f : Nat → Int → Bool) : Bool := coreSensors.any fun n =>
  match p.reading n with
  | some x => f n x
  | none => false

/-- The threshold of a sensor for a step from 1 to 3; 4 is the critical point. -/
def threshold (sensor step : Nat) : Int := (setPoints sensor).getD (step - 1) 0

/-- The step of the highest threshold reached. -/
def Power.level (p : Power) : Nat :=
  match [3, 2, 1].find? fun k => p.anyCore fun n x => decide (threshold n k ≤ x) with
  | some k => k
  | none => 0

/-- Whether every sensor is at least 5 °C below a step's threshold. -/
def Power.cool (p : Power) (step : Nat) : Bool := !p.anyCore fun n x => decide (threshold n step - 80 < x)

/-- A second, in ticks. -/
def secondTicks : Nat := 1600000000

/-- The thermal control after a reading: down at once, up one step after a second below (R578). -/
def Power.thermal (p : Power) (tick : Nat) : Power :=
  let since : Tbl Nat := ([1, 2, 3].filter p.cool).map fun k => (k, p.coolSince.get tick k)
  let q : Power := { p with coolSince := since }
  let r := p.thermalReq.toNat
  let n := p.level
  let rested : Bool := match since.find r with
    | some t => decide (t + secondTicks ≤ tick)
    | none => false
  if r < n then { q with thermalReq := BitVec.ofNat 2 n }
  else if 0 < r && rested then { q with thermalReq := BitVec.ofNat 2 (r - 1) }
  else q

/-- Whole degrees, as MEM_STATUS.TEMP reports them. -/
def wholeDegrees (x : BitVec 16) : Byte := if x.extractLsb' 0 4 = 0 then x.extractLsb' 4 8 else Config.wholeDegrees x

/-- The sensors that read hottest. -/
def Power.hottest (p : Power) : List Nat :=
  let r (n : Nat) : Int := ((p.temp.get 0 n).extractLsb' 0 16).toInt
  let m := (List.range 80).foldl (fun m n => max m (r n)) (r 0)
  (List.range 80).filter fun n => r n == m

/-- A sensor's reading as an event carries it. -/
def Power.raw (p : Power) (n : Nat) : Nat := (p.temp.get 0 n).toNat % 2 ^ 16

/-- A THERMAL event (R584). -/
def State.thermalEvent (s : State) (code : BitVec 16) (arg0 arg1 : Nat) : State := s.event code kManagement 0xF 0 arg0 arg1

/-- THERMAL_CRITICAL of a sensor. -/
def State.criticalEvent (s : State) (sensor killed : Nat) : State :=
  s.thermalEvent 0x0A02 sensor (s.power.raw sensor * 2 ^ 16 + killed * 2 ^ 32)

/-- Store one reading: 0 to 79 temperatures, 80 to 90 rail voltages, 91 to 101 rail currents, 102 VIN. -/
def State.take (s : State) (r : Nat × BitVec 16) : State :=
  let p := s.power
  let n := r.1
  if n < 80 then
    let w : Word := (1#1 ++ (0 : BitVec 15)) ++ r.2
    let s1 : State := { s with power := { p with temp := p.temp.set n w } }
    if 64 ≤ n ∧ n < 72 then
      s1.setStack (n - 64) { s1.stack (n - 64) with temp := wholeDegrees r.2, hot := decide (1360 ≤ r.2.toInt) }
    else s1
  else if n < 91 then
    let w : Word := r.2 ++ (p.rail.get 0 (n - 80)).extractLsb' 0 16
    { s with power := { p with rail := p.rail.set (n - 80) w } }
  else if n < 102 then
    let w : Word := (p.rail.get 0 (n - 91)).extractLsb' 16 16 ++ r.2
    { s with power := { p with rail := p.rail.set (n - 91) w } }
  else { s with power := { p with voltage := r.2 } }

/-- An optical engine at 80 °C or more takes its port to OFF; below 70 °C the port may be enabled again (R579). -/
def State.opticalCheck (s : State) (p : Nat) : State :=
  match s.power.reading (72 + p) with
  | none => s
  | some x =>
    if 1280 ≤ x ∧ !(s.port p).hot then
      let s1 := s.disablePort p
      (s1.setPort p { s1.port p with hot := true }).criticalEvent (72 + p) 0
    else if x < 1120 ∧ (s.port p).hot then s.setPort p { s.port p with hot := false }
    else s

/-- SENSOR_READ: the readings are taken, the thermal control acts, and readings that have become critical are reported
(R222, R578, R579). -/
def execSensorRead (readings : List (Nat × BitVec 16)) (s : State) : Out :=
  let s1 := readings.foldl State.take s
  let p := s1.power.thermal s1.tick
  let now := coreSensors.filter fun n =>
    match p.reading n with
    | some x => decide (threshold n 4 ≤ x)
    | none => false
  let cooled := !p.anyCore fun n x => decide (threshold n 3 ≤ x)
  let q : Power := { p with critical := now, criticalReq := !now.isEmpty, noLoads := p.noLoads && !cooled }
  let s2 : State := { s1 with power := q }
  let s3 := (now.filter fun n => decide (n ∉ s.power.critical)).foldl (fun s n => s.criticalEvent n 0) s2
  let s4 := (List.range 8).foldl State.opticalCheck s3
  .next s4.request

/-- Kill every job that is loaded, with the scrub of a KILL (R575, R579). -/
def State.killAll (s : State) : State :=
  (List.range 8).foldl (fun s c => if (s.job c).present then s.killContext c [] else s) s

/-- CRITICAL_KILL: still critical 200 ms later, every loaded job is killed and JOB_LOAD is refused (R579, R593). -/
def execCriticalKill (s : State) : Out :=
  let p := s.power
  if p.critical = [] then .next s
  else
    let hot := p.critical.filter fun n => p.critical.all fun m => decide ((p.reading m).getD 0 ≤ (p.reading n).getD 0)
    let (n, s1) := s.killAll.choose hot
    .next (({ s1 with power := { s1.power with noLoads := true } } : State).criticalEvent n 1)

/-! ### Rails (R583, R585, R587) -/

/-- The main rails turn off until the next power-on reset: the standby domain and the flash stay (R580, R583). -/
def State.mainLost (s : State) : State :=
  let p := s.power
  { State.reset with
    pending := s.pending, tick := s.tick, fresh := s.fresh, stepping := s.stepping, retired := s.retired, boot := s.boot
    health := { s.health with running := none, tests := 0, body := 0 }
    host := { HostIf.reset with perst := s.host.perst, eventsLost := s.host.eventsLost }
    power := { p with rootLock := false, lossHandling := false, mainGood := false, railsUp := [], mainOff := true, jtag := p.jtag } }

/-- POWER_ALERT (R583, R584), appended to the Logbook in every case. -/
def State.powerAlert (s : State) (cause arg1 : Nat) (delivered : Bool) : State :=
  let s1 := if delivered then s.thermalEvent 0x0A03 cause arg1 else s
  s1.record ⟨Config.recordKind 0x0A03, 0x0A03, Config.powerUnit cause, s.minutes, 0, 1, Config.recordDetail 0x0A03 cause⟩

/-- VIN_GOOD: VIN has been within range for 10 ms; the rails may start (R587). -/
def execVinGood (s : State) : Out := .next { s with power := { s.power with vinGood := true } }

/-- The rails in their order (R587): those of a group start together. -/
def railGroups : List (List Nat) := [[4], [0, 1, 2, 3], [7], [5], [6], [8], [9]]

/-- The rails that are coming up: those of the first group that is not complete. -/
def Power.rising (p : Power) : List Nat :=
  match railGroups.find? fun g => g.any fun r => decide (r ∉ p.railsUp) with
  | some g => g.filter fun r => decide (r ∉ p.railsUp)
  | none => []

/-- RAIL_UP: a rail of the present group reaches 95% (R553 step 5, R587). -/
def execRailUp (rail : Nat) (s : State) : Out :=
  let p := s.power
  if s.boot.phase ≠ .rails || !p.vinGood || p.mainOff || decide (rail ∉ p.rising) then .next s
  else
    let up := addTo p.railsUp rail
    .next { s with power := { p with railsUp := up, mainGood := decide (up.length = 10) } }

/-- RAIL_FAULT: a rail that fails to come up stops the sequence; a main rail that fails later raises cause 3, and the main rails
turn off (R583, R587). -/
def execRailFault (rail : Nat) (s : State) : Out :=
  let p := s.power
  if 10 ≤ rail || p.mainOff then .next s
  else if p.mainGood then .next (s.powerAlert 3 rail true).mainLost
  else if s.boot.phase = .rails ∧ (rail ∈ p.rising ∨ rail ∈ p.railsUp) then
    .next { s with power := { p with railsUp := [], failedRail := some rail, mainOff := true } }
  else .next s

/-- VIN_OUT_OF_RANGE: cause 2; beyond 38 to 62 V the main rails turn off (R583). -/
def execVinOutOfRange (mV : BitVec 16) (s : State) : Out :=
  let v := mV.toNat
  if 40000 ≤ v ∧ v ≤ 60000 then .next s
  else
    let s1 : State := { s with power := { s.power with voltage := mV, vinGood := false } }
    if !s.power.mainGood then .next s1
    else
      let s2 := s1.powerAlert 2 v true
      .next (if v < 38000 ∨ 62000 < v then s2.mainLost else s2)

/-- THERMTRIP: the carrier's comparators trip; the management core records it, and the main rails turn off (R580). Optical
engines have no trip point. -/
def execThermtrip (sensor : Nat) (s : State) : Out :=
  if 72 ≤ sensor then .next s
  else
    let s1 := s.record ⟨Config.recordKind 0x0A02, 0x0A02, BitVec.ofNat 24 sensor, s.minutes, 0, 1, Config.recordDetail 0x0A02 sensor⟩
    .next ({ s1 with power := { s1.power with thermtripN := false } }).mainLost

/-! ### The root PLL (R575) -/

/-- ROOT_PLL_UNLOCK: the derived clocks stop, and the loss is counted (R575). -/
def execRootPllUnlock (s : State) : Out :=
  let p := s.power
  if !p.rootLock then .next s
  else
    let n : Byte := if p.unlocks = 0xFF then 0xFF else p.unlocks + 1
    .next { s with power := { p with rootLock := false, lossHandling := true, relockTries := 0, unlocks := n } }

/-- ROOT_PLL_LOCK: an attempt to lock. At boot the core clock starts at the highest step allowed; after a loss every job ends as if
killed, and cause 5 is raised; after three failures the main rails turn off (R575, R587 order 8). -/
def execRootPllLock (ok : Bool) (s : State) : Out :=
  let p := s.power
  if p.rootLock || !p.mainGood then .next s
  else if p.lossHandling then
    if ok then
      let s1 := ({ s with power := { p with rootLock := true, lossHandling := false, relockTries := 0 } } : State).killAll
      .next (s1.powerAlert 5 0 true)
    else if p.relockTries + 1 < 3 then .next { s with power := { p with relockTries := p.relockTries + 1 } }
    else .next (s.powerAlert 3 0 false).mainLost
  else if ok then .next { s with power := { p with rootLock := true, step := s.boot.clockLimit } }
  else .next s

/-! ### The power limit and PWR_ALERT_N (R581, R582) -/

/-- One step down from the step in force; a slower request stands. -/
def Power.slower (p : Power) : BitVec 2 := BitVec.ofNat 2 (max p.powerReq.toNat (min 3 (p.step.toNat + 1)))

/-- POWER_WINDOW: the end of a window of 100 ms (R581). -/
def execPowerWindow (watts : BitVec 16) (s : State) : Out :=
  let p := s.power
  let above := decide (p.limit.toNat < watts.toNat)
  let below := decide (watts.toNat * 10 < p.limit.toNat * 9)
  let nOver := if above then p.overRun + 1 else 0
  let nUnder := if below then p.underRun + 1 else 0
  let slow := if p.step = 3 then p.slowRun + 1 else 0
  let up := decide (10 ≤ nUnder)
  let req : BitVec 2 := if 2 ≤ nOver then p.slower else if up && p.powerReq != 0 then p.powerReq - 1 else p.powerReq
  let said := p.reported4 && !decide (watts.toNat < p.limit.toNat)
  let say := above && decide (10 ≤ slow) && !said
  let q : Power := { p with
    powerAvg := watts, overRun := nOver, underRun := if up then 0 else nUnder, slowRun := slow, powerReq := req, reported4 := said || say }
  let s1 : State := { s with power := q }
  .next (if say then s1.powerAlert 4 watts.toNat true else s1).request

/-- PWR_ALERT_N_ASSERT: cause 1, once per assertion, and 0.8 GHz (R582, R583). -/
def execPwrAlertNAssert (s : State) : Out :=
  let p := s.power
  if p.alertIn then .next s
  else .next (({ s with power := { p with alertIn := true, alertReq := true } } : State).powerAlert 1 0 true).request

/-- PWR_ALERT_N_DEASSERT: the hold of 1 s begins (R582). -/
def execPwrAlertNDeassert (s : State) : Out := .next { s with power := { s.power with alertIn := false } }

/-- PWR_ALERT_HOLD_EXPIRY: 1 s after the deassertion (R582, R594). -/
def execPwrAlertHoldExpiry (s : State) : Out :=
  let p := s.power
  if p.alertIn then .next s else .next ({ s with power := { p with alertReq := false } } : State).request

/-- VOLTAGE_ADJUST: one step of 2.5 mV, clamped to 0.600 to 0.720 V (R586). -/
def execVoltageAdjust (die : Fin 4) (up : Bool) (s : State) : Out :=
  let p := s.power
  let v := p.vcore.get 260 die.val
  let w := if up then min 288 (v + 1) else max 240 (v - 1)
  .next { s with power := { p with vcore := p.vcore.set die.val w } }

/-! ### Applying a step (R577) -/

/-- Whether a job that has begun is held at a Curfew: its local arrival is complete, or it is stopped. -/
def Job.atCurfew (j : Job) : Bool := j.phase == .stopped || j.phase == .curfew

/-- Whether a pending step may take effect: at once with no job in a superstep; for one job at its release; for several when every
job that has begun is held (R23, R577, R592). -/
def State.stepMay (s : State) : Bool :=
  let loaded := (List.range 8).filter fun c => (s.job c).present
  match loaded with
  | [c] =>
    let j := s.job c
    j.phase == .loaded || j.phase == .stopped ||
      (j.phase == .curfew && (j.held || (s.blocks c).all (· == 8)))
  | _ => s.begun.all fun c => (s.job c).atCurfew

/-- THROTTLE_STEP_APPLY: the requested step takes effect, window 0 of each job's next Caravan is frozen, and THROTTLE_STEP is raised
(R194, R577, R591). -/
def execThrottleStepApply (s : State) : Out :=
  let p := s.power
  if !p.stepPending || !p.rootLock || !s.stepMay then .next s
  else
    let s1 := (List.range 8).foldl (fun s c =>
      if (s.job c).present then s.setJob c { s.job c with throttleFreeze := true } else s) s
    let s2 : State := { s1 with power := { s1.power with step := p.requested } }
    let (n, s3) := s2.choose p.hottest
    .next (s3.thermalEvent 0x0A01 (p.requested.toNat + p.step.toNat * 2 ^ 8 + p.source.toNat * 2 ^ 16)
      (n + p.raw n * 2 ^ 16))

/-! ### The sideband (R455, R456) -/

/-- Kinds of a sideband answer whose bytes the standards lay out. -/
def mctpAnswer : Nat := 0x100
def pldmBase : Nat := 0x200
def pldmSensor : Nat := 0x210

/-- MCTP_CONTROL (R455): answered in the ROM state too (R557). -/
def execMctpControl (request : List Byte) (s : State) : Out :=
  .next (if s.sideband then s.answer mctpAnswer (Config.standardAnswer mctpAnswer request) else s)

/-- PLDM_BASE_DISCOVERY (R455): answered in the ROM state too (R557). -/
def execPldmBaseDiscovery (request : List Byte) (s : State) : Out :=
  .next (if s.sideband then s.answer pldmBase (Config.standardAnswer pldmBase request) else s)

/-- The value of a sensor of the sideband: PWR_TEMP 0 to 79, PWR_RAIL voltages 80 to 90 and currents 91 to 101, input voltage 102,
input power 103, the state of each port from 104 and of each stack from 112, and the rail that failed to come up, 120 (R455,
R587). The numbers are the model's. -/
def State.sensor (s : State) (n : Nat) : Option Nat :=
  let p := s.power
  if n < 80 then some ((p.temp.get 0 n).toNat % 2 ^ 16)
  else if n < 91 then some ((p.rail.get 0 (n - 80)).toNat / 2 ^ 16)
  else if n < 102 then some ((p.rail.get 0 (n - 91)).toNat % 2 ^ 16)
  else if n = 102 then some p.voltage.toNat
  else if n = 103 then some p.powerAvg.toNat
  else if n < 112 then some (s.port (n - 104)).partner
  else if n < 120 then some (if (s.stack (n - 112)).trained then 1 else 0)
  else if n = 120 then p.failedRail
  else none

/-- PLDM_SENSOR_READ (R455). -/
def execPldmSensorRead (sensor : Nat) (s : State) : Out :=
  if !s.sidebandFull then .next s
  else
    let value : List Byte := match s.sensor sensor with
      | some v => toBytes 2 v
      | none => []
    .next (s.answer pldmSensor (Config.standardAnswer pldmSensor (toBytes 2 sensor ++ value)))

/-- POWER_LIMIT_EFFECTER: from 1,200 W to 2,400 W (R581). -/
def execPowerLimitEffecter (watts : BitVec 16) (s : State) : Out :=
  .next (if s.sidebandFull && decide (1200 ≤ watts.toNat) && decide (watts.toNat ≤ 2400) then
      { s with power := { s.power with limit := watts } }
    else s)

/-- ENTDAA: the module takes a dynamic address on I3C (R455). -/
def execEntdaa (address : BitVec 7) (s : State) : Out :=
  .next (if s.sideband then { s with power := { s.power with i3cAddr := some address } } else s)

end Sys2Proof.Machine
end

