-- ==== Sys2Proof/Machine/Host.lean ====
section
/-! DEFINITION. The host interface: rings and doorbells (R429 to R438, R457 to R460), failed reads (R452), interrupts (R453) and
the function's resets (R432, R598). -/

namespace Sys2Proof.Machine

/-! ### Ring configuration (R432 to R434, R458) -/

/-- Whether a value of HST_RING_CFG may enable a ring (R433 and the field map). -/
def ringCfgOk (v : Word) : Bool :=
  let r : Ring := { Ring.reset with cfg := v }
  let depth := (v.extractLsb' 20 4).toNat
  let c := r.context
  let place : Bool := match r.kind with
    | 0 | 5 => c == 0xE
    | 2 | 3 | 4 => decide (c < 8)
    | 1 => decide (c < 8) || c == 0xE
    | 6 => decide (c < 8) || c == 0xE
    | _ => false
  place && decide (depth ≤ 10) && r.irq != 3 && (r.kind == 1 || r.group == 0)

/-- Send what an Event ring that is disabled has still to report to the device event ring, or count it (R458): the records are in
HST_EVENTS_LOST already, and their number goes on as an EVENTS_LOST record. -/
def State.forwardLost (s : State) (n dropped : Nat) : State :=
  if dropped = 0 then s else s.deliverDevice ⟨0x000F, kHost, 0xF, 0, BitVec.ofNat 64 n, BitVec.ofNat 64 dropped, 1⟩

/-- Enable a ring: FETCH, the doorbell and the phase start, and HALTED clears (R434). -/
def State.enableRing (s : State) (n : Nat) (v : Word) : State :=
  let r := s.ring n
  s.setRing n { r with cfg := v, active := true, halted := false, fetch := 0, bell := 0, phase := true, write := 0, read := 0, lostHere := 0 }

/-- Disable a ring: it stops fetching, and ACTIVE clears when its last record has been written (R434, R458). -/
def State.disableRing (s : State) (n : Nat) (v : Word) : State :=
  let r := s.ring n
  let s1 := s.setRing n { r with cfg := v, active := r.active && !r.entries.isEmpty, lostHere := 0 }
  if r.enabled && r.kind == 6 then s1.forwardLost n r.lostHere else s1

/-- A write of HST_RING_CFG (R433, R434). -/
def State.writeRingCfg (s : State) (n : Nat) (value : Word) : State :=
  let r := s.ring n
  let v : Word := value &&& 0xFFFFFE00
  let body (w : Word) : BitVec 31 := w.extractLsb' 0 31
  if r.enabled && body r.cfg != body v then s
  else if !v.getLsbD 31 then s.disableRing n v
  else if ringCfgOk v then s.enableRing n v
  else (s.disableRing n (v &&& 0x7FFFFFFF)).event 0x010D kHost 0xF 0 n value.toNat

/-- A write of HST_RING_CFG under the recovery image: an enable is rejected under R433 (R557). -/
def State.recoveryRingCfg (s : State) (n : Nat) (value : Word) : State :=
  if s.boot.done && s.boot.running == .recovery && value.getLsbD 31 then s.event 0x010D kHost 0xF 0 n value.toNat else s

/-- RING_ENABLE: a write of HST_RING_CFG with ENABLE 1. -/
def execRingEnable (ring : Fin 64) (value : Word) (s : State) : Out :=
  .next (if s.blocksOpen && value.getLsbD 31 then s.writeRingCfg ring.val value else s.recoveryRingCfg ring.val value)

/-- RING_DISABLE: a write of HST_RING_CFG with ENABLE 0. -/
def execRingDisable (ring : Fin 64) (value : Word) (s : State) : Out :=
  .next (if s.blocksOpen && !value.getLsbD 31 then s.writeRingCfg ring.val value else s)

/-! ### Doorbells (R437, R438, R450, R460) -/

/-- DOORBELL_INVALID. -/
def State.badBell (s : State) (n : Nat) (value : Word) : State := s.event 0x010C kHost 0xF 0 n value.toNat

/-- Entries that a doorbell value would make outstanding: fetched and not completed, and from FETCH up to INDEX. -/
def Ring.outstanding (r : Ring) (index : Nat) : Nat := r.entries.length + (index + r.depth - r.fetch) % r.depth

/-- A doorbell write of a submission ring. -/
def State.ringBell (s : State) (n : Nat) (value : Word) : State :=
  let r := s.ring n
  let i := value.toNat % 65536
  if !r.enabled || decide (r.depth ≤ i) || decide (r.depth ≤ r.outstanding i) then s.badBell n value
  else s.setRing n { r with bell := i }

/-- A doorbell write of an Event ring: what software has read frees its records; once two are free, EVENTS_LOST comes first
(R450). -/
def State.eventBell (s : State) (n : Nat) (value : Word) : State :=
  let r := s.ring n
  let i := value.toNat % 65536
  if !r.enabled || decide (r.depth ≤ i) then s.badBell n value
  else
    let s1 := s.setRing n { r with read := i }
    if r.lostHere ≠ 0 ∧ 2 ≤ (s1.ring n).free then
      (s1.setRing n { s1.ring n with lostHere := 0 }).putEvent n
        ⟨0x000F, kHost, 0xF, 0, BitVec.ofNat 64 n, BitVec.ofNat 64 r.lostHere, 1⟩
    else s1

/-- DOORBELL: of a ring that is no enabled Event ring. -/
def execDoorbell (ring : Fin 64) (value : Word) (s : State) : Out :=
  .next (if !s.blocksOpen || (s.ring ring.val).kind == 6 then s else s.ringBell ring.val value)

/-- EVENT_RING_DOORBELL. -/
def execEventRingDoorbell (ring : Fin 64) (value : Word) (s : State) : Out :=
  .next (if !s.blocksOpen || (s.ring ring.val).kind != 6 then s else s.eventBell ring.val value)

/-! ### Fetching entries (R436, R442, R452) -/

/-- Whether the device may fetch an entry of a ring: at most 16 entries ahead of the oldest one that has not completed. -/
def State.fetchable (s : State) (n : Nat) : Bool :=
  let r := s.ring n
  s.blocksOpen && s.host.busMaster && r.enabled && !r.halted && r.kind != 6 && r.fetch != r.bell && decide (r.entries.length ≤ 16)

/-- The ring of a kind whose turn it is: the next that may be fetched after the one served last, in ascending number and
round. -/
def State.turn (s : State) (kind : Nat) : Option Nat :=
  let last := s.host.served.get 63 kind
  ((List.range 64).map fun i => (last + 1 + i) % 64).find? fun n => (s.ring n).kind == kind && s.fetchable n

/-- Whether an opcode is one of a ring's kind (R440, R442); the entries of job Ostler rings and of Courier rings have formats of
their own. -/
def opcodeOk (r : Ring) (raw : BitVec 512) : Bool :=
  let op := headerOp raw
  match r.kind with
  | 0 => decide (0x01 ≤ op) && decide (op ≤ 0x05)
  | 1 => r.context != 0xE || op == 0x10 || op == 0x11
  | 3 => op == 0x20 || op == 0x21
  | 4 => decide (0x30 ≤ op) && decide (op ≤ 0x33)
  | 5 => op == 0x40 || op == 0x41
  | _ => true

/-- The context of a ring as an event carries it. -/
def Ring.eventCtx (r : Ring) : Nat := if r.context = 0xE then 0xF else r.context

/-- RING_FETCH: the next entry arrives from host memory; one with EP set, or of an opcode that the ring's kind does not have, is
rejected. -/
def execRingFetch (ring : Fin 64) (entry : BitVec 512) (ep : Bool) (s : State) : Out :=
  let n := ring.val
  let r := s.ring n
  if s.turn r.kind ≠ some n then .next s
  else
    let i : BitVec 16 := BitVec.ofNat 16 r.fetch
    let e : Entry := { index := i, raw := entry, ep := ep, started := false, done := none }
    let s1 := s.setRing n { r with fetch := (r.fetch + 1) % r.depth, entries := r.entries ++ [e] }
    let s2 : State := { s1 with host := { s1.host with served := s1.host.served.set r.kind n } }
    .next (if ep then s2.reject n i r.eventCtx 0xFFFFFFFF else if !opcodeOk r entry then s2.reject n i (headerCtx entry) 63 else s2)

/-- Whether a command reads host data that it names (R452). -/
def readsHost (raw : BitVec 512) : Bool :=
  let op := headerOp raw
  op == 0x01 || op == 0x02 || op == 0x20 || op == 0x21 || (op == 0x33 && bodyAt raw 16 8 != 0)

/-- HOST_READ_FAILED: of an entry, its ring halts; of data that the oldest command to start names, that command completes with
status 2 (R452). -/
def execHostReadFailed (ring : Fin 64) (addr : Dword) (entryFetch : Bool) (s : State) : Out :=
  let n := ring.val
  let r := s.ring n
  if entryFetch then
    if s.turn r.kind ≠ some n then .next s
    else .next ((s.setRing n { r with halted := true }).event 0x010E kHost r.eventCtx 0
        (ringIndex n (BitVec.ofNat 16 r.fetch)) addr.toNat)
  else if r.kind = 1 ∨ r.kind = 2 then .next s
  else
    match r.nextEntry headerOrder with
    | none => .next s
    | some e => .next (if readsHost e.raw && s.host.busMaster then s.readFailed n e.index (headerCtx e.raw) addr.toNat else s)

/-! ### Interrupts (R430, R453) -/

/-- One microsecond in ticks. -/
def microTicks : Nat := 1600

/-- Whether a vector may send now. -/
def HostIf.mayFire (h : HostIf) (v tick : Nat) : Bool :=
  match h.msixLast.find v with
  | some t => decide (t + microTicks ≤ tick)
  | none => true

/-- MSIX_MESSAGE: a vector's message, behind every record written before it; a masked vector pends. -/
def execMsixMessage (vector : Fin 64) (s : State) : Out :=
  let h := s.host
  let v := vector.val
  if !h.msixDue.getLsbD v || !h.busMaster then .next s
  else
    let e := h.msix.get Msix.reset v
    let bit : Dword := 1#64 <<< v
    if e.masked then .next { s with host := { h with msixPending := h.msixPending ||| bit, msixDue := h.msixDue &&& ~~~bit } }
    else if !h.mayFire v s.tick then .next s
    else
      let s1 : State := { s with host := { h with msixDue := h.msixDue &&& ~~~bit, msixLast := h.msixLast.set v s.tick } }
      .next (s1.emit (.msix v e.addr e.data))

/-- Clear a vector's mask: a message that pends is due again. -/
def HostIf.unmask (h : HostIf) (v : Nat) : HostIf :=
  let bit : Dword := 1#64 <<< v
  let h1 : HostIf := { h with msix := h.msix.set v { h.msix.get Msix.reset v with masked := false } }
  if h.msixPending.getLsbD v then { h1 with msixPending := h.msixPending &&& ~~~bit, msixDue := h.msixDue ||| bit } else h1

/-- MSIX_VECTOR_UNMASK. -/
def execMsixVectorUnmask (vector : Fin 64) (s : State) : Out :=
  .next (if s.blocksOpen then { s with host := s.host.unmask vector.val } else s)

/-! ### Resets of the function and the link (R429, R432, R554, R598) -/

/-- The host interface after a reset of the function: the H registers at their reset values, and with them what PCIe resets; counts of
lost events and the link stay. -/
def HostIf.flr (h : HostIf) : HostIf :=
  { HostIf.reset with
    eventsLost := h.eventsLost, rate := h.rate, width := h.width, perst := h.perst, out := h.out, retries := h.retries
    halves := h.halves.filter fun x => decide (x.1 < 0x40000) || decide (0x100000 ≤ x.1), latched := h.latched, readData := h.readData }

/-- A KILL of every context: their rings halt, and every job is scrubbed (R432). -/
def State.killContexts (s : State) : State :=
  ((List.range 8).foldl (fun s c => if (s.job c).present then s.killContext c [] else s.haltRings c)) s

/-- FUNCTION_LEVEL_RESET. -/
def execFunctionLevelReset (s : State) : Out :=
  let s1 := s.killContexts
  .next { s1 with host := s1.host.flr }

/-- D3HOT_ENTRY: as a Function Level Reset does (R432). -/
def execD3hotEntry (s : State) : Out :=
  let s1 := s.killContexts
  .next { s1 with host := { s1.host.flr with d3hot := true, busMaster := s.host.busMaster } }

/-- PERST_N_ASSERT: as a Function Level Reset, and the link goes down; boot does not run again (R554, R598). -/
def execPerstNAssert (s : State) : Out :=
  let s1 := s.killContexts
  .next { s1 with host := { s1.host.flr with perst := true, rate := 0, width := 0 } }

/-- PERST_N_DEASSERT: the link may train (R554). -/
def execPerstNDeassert (s : State) : Out := .next { s with host := { s.host with perst := false } }

/-- BUS_MASTER_ENABLE: what waited goes out, in order (R432). -/
def execBusMasterEnable (on : Bool) (s : State) : Out :=
  let h := s.host
  .next { s with host := if on then { h with busMaster := true, out := h.out ++ h.heldOut, heldOut := [] } else { h with busMaster := false } }

/-- Whether the boot ROM serves the host in host-load mode, until DONE (R556). -/
def Boot.hostLoading (x : Boot) : Bool := !x.done && (x.phase == .hostWait || x.running == .hostload)

/-- CONFIG_REQUEST_RETRY: before DONE every configuration request is answered with Request Retry Status, except in host-load
mode (R554, R556). -/
def execConfigRequestRetry (s : State) : Out :=
  .next (if !s.boot.done && !s.boot.hostLoading then { s with host := { s.host with retries := s.host.retries + 1 } } else s)

/-- The highest rate that STRAP_LINKGEN allows (R429, R558). -/
def Boot.topRate (x : Boot) : Nat :=
  match x.straps.linkgen.toNat with
  | 0 => 6
  | 1 => 5
  | _ => 4

/-- PCIE_LINK_TRAINED: a link of 16, 32 or 64 GT/s and 4, 8 or 16 lanes; in the ROM state none trains (R429, R554, R557). -/
def execPcieLinkTrained (rate : BitVec 4) (width : BitVec 6) (s : State) : Out :=
  let w := width.toNat
  if s.host.perst || s.power.mainOff || s.boot.phase == .romState || decide (rate.toNat < 4) || decide (s.boot.topRate < rate.toNat) ||
      (w != 4 && w != 8 && w != 16) then .next s
  else .next { s with host := { s.host with rate := rate, width := width } }

end Sys2Proof.Machine
end

