-- ==== Sys2Proof/Machine/Regs.lean ====
section
/-! DEFINITION. The registers of BAR0 as the host reads and writes them, with the MSI-X table and the doorbells (R4 to R8, R595 to
R602). Offsets from 0x0400_0000 stand for BAR4, and from 0x0404_0000 for BAR2 (log entry 30). -/

namespace Sys2Proof.Machine

/-! ### Reading (R595 to R601) -/

/-- A word with a field placed at bit `lo`. -/
def field (lo v : Nat) : Nat := v * 2 ^ lo

/-- The entry of an indexed register: `base + stride × n` for `n < count`. -/
def indexOf (off base stride count : Nat) : Option Nat :=
  if base ≤ off ∧ (off - base) % stride = 0 ∧ (off - base) / stride < count then some ((off - base) / stride) else none

/-- CLK_STATUS. -/
def State.clkStatus (s : State) : Word :=
  let p := s.power
  BitVec.ofBool p.rootLock ++ p.step ++ p.requested ++ BitVec.ofBool p.stepPending ++ s.boot.clockLimit ++ p.source ++
    (0 : BitVec 13) ++ p.unlocks

/-- PWR_STATUS. -/
def State.pwrStatus (s : State) : Word :=
  let p := s.power
  let hot : Nat := ((List.range 8).map fun i => if (s.port i).hot then 2 ^ i else 0).sum
  BitVec.ofBool p.mainGood ++ BitVec.ofBool p.alertIn ++ BitVec.ofBool (p.powerReq != 0) ++ BitVec.ofBool p.noLoads ++
    (0 : BitVec 20) ++ BitVec.ofNat 8 hot

/-- SEC_STATUS. -/
def Boot.secStatus (x : Boot) : Word :=
  BitVec.ofNat 2 x.lifecycle ++ BitVec.ofBool x.debugOpen ++ BitVec.ofBool x.debugRefused ++ BitVec.ofBool x.identity ++ (0 : BitVec 27)

/-- SEC_BOOT_STATUS.RUN. -/
def Running.code : Running → BitVec 3
  | .slotA => 0
  | .slotB => 1
  | .recovery => 2
  | .hostload => 3

/-- SEC_BOOT_STATUS. -/
def Boot.bootStatus (x : Boot) : Word :=
  BitVec.ofBool x.done ++ x.running.code ++ BitVec.ofBool x.aValid ++ BitVec.ofBool x.bValid ++ BitVec.ofBool x.fallback ++
    (0 : BitVec 9) ++ x.aReason ++ x.bReason

/-- OTP_STATUS of a block. -/
def Boot.otpStatus (x : Boot) (b : Nat) : Word :=
  let blank (g : Nat) : Bool := (x.gen b g).nonblank
  let live : BitVec 2 := match x.live b with
    | some g => BitVec.ofNat 2 g
    | none => 0
  BitVec.ofBool (blank 3) ++ (0 : BitVec 3) ++ live ++ BitVec.ofBool (x.live b).isSome ++ BitVec.ofBool (blank 3) ++
    BitVec.ofBool (blank 2) ++ BitVec.ofBool (blank 1) ++ BitVec.ofBool (blank 0) ++ (0 : BitVec 21)

/-- HST_RING_STATUS. -/
def Ring.status (r : Ring) : Word :=
  BitVec.ofBool r.active ++ BitVec.ofBool r.halted ++ (0 : BitVec 14) ++ BitVec.ofNat 16 (if r.kind = 6 then r.write else r.fetch)

/-- LNK_PORT_STATUS.LINK. -/
def Link.code : Link → BitVec 3
  | .off => 0
  | .detect => 1
  | .train => 2
  | .auth => 3
  | .run => 4
  | .holdoff => 5
  | .quarantine => 6

/-- LNK_PORT_STATUS. -/
def Port.status (x : Port) : Word :=
  BitVec.ofNat 3 x.partner ++ x.link.code ++ BitVec.ofNat 6 (lanesOf x.activeRx).length ++
    BitVec.ofNat 6 (lanesOf x.activeTx).length ++ BitVec.ofNat 4 (min 4 x.holdoffs) ++ (0 : BitVec 10)

/-- MEM_STATUS. BANKS_OVER has eight bits for 4,096 banks and reads 255 when more are over (DESIGN CHOICE, log entry 151). -/
def Stack.status (x : Stack) (now : Nat) : Word :=
  BitVec.ofBool x.trained ++ BitVec.ofBool x.hot ++ (0 : BitVec 6) ++ x.temp ++ (0 : BitVec 8) ++
    BitVec.ofNat 8 (min 255 (x.overRate now).length)

/-- OST_STATUS: no request is outstanding between commands. -/
def Ostler.status (x : Ostler) : Word :=
  BitVec.ofBool x.current.isSome ++ BitVec.ofBool x.bounce ++ (0 : BitVec 7) ++ BitVec.ofNat 7 x.queue.length ++ (0 : BitVec 16)

/-- PRT_CTX_STATUS. -/
def Porter.status (x : Porter) : Word :=
  BitVec.ofBool x.capturing ++ BitVec.ofBool x.copying ++ BitVec.ofBool x.mirroring ++ BitVec.ofBool x.shipping ++
    BitVec.ofBool x.deferred ++ BitVec.ofBool x.newestValid ++ BitVec.ofBool x.newestSlot ++ (0 : BitVec 25)

/-- HLT_STATUS. -/
def Health.status (h : Health) : Word :=
  BitVec.ofBool h.running.isSome ++ h.tests ++ (0 : BitVec 10) ++ BitVec.ofNat 8 (64 - h.used.length) ++ (0 : BitVec 8)

/-- UPD_ENGINE_STATUS. -/
def MicroEngine.status (e : MicroEngine) : Word :=
  BitVec.ofBool e.busy ++ e.pass ++ (0 : BitVec 16) ++ BitVec.ofNat 13 e.queue.length

/-- LNK_PORT_CTRL as it reads: REAUTH is write-only. -/
def Port.ctrl (x : Port) : Word := BitVec.ofBool x.enable ++ (0 : BitVec 1) ++ BitVec.ofBool x.expectEn ++ (0 : BitVec 29)

/-- HST_LINK_STATUS. -/
def HostIf.linkStatus (h : HostIf) : Word := (0 : BitVec 8) ++ h.rate ++ h.width ++ (0 : BitVec 14)

/-- The 32-bit registers; none where no 32-bit register lies. -/
def State.reg32 (s : State) (off : Nat) : Option Word :=
  let x := s.boot
  let p := s.power
  match off with
  | 0x10000 => some s.clkStatus
  | 0x20000 => some s.pwrStatus
  | 0x20008 => some (p.powerAvg ++ p.voltage)
  | 0x2000C => some ((0 : BitVec 16) ++ p.limit)
  | 0x40000 => some s.host.deviceEvents
  | 0x40010 => some s.host.linkStatus
  | 0x300000 => some s.courier.ctrl
  | 0x300004 => some (BitVec.ofBool (!s.courier.cmds.isEmpty) ++ (0 : BitVec 8) ++ BitVec.ofNat 7 s.courier.cmds.length ++ (0 : BitVec 16))
  | 0x400000 => some s.updCtrl
  | 0x580000 => some s.health.status
  | 0x608000 => some ((0 : BitVec 29) ++ s.mem.scrubPeriod)
  | 0x808000 => some s.selfCoord
  | 0x2000000 => some x.secStatus
  | 0x2000004 => some x.bootStatus
  | 0x2000008 => some (BitVec.ofNat 32 (strapBits x.straps))
  | 0x2000010 => some 0
  | _ =>
    ((indexOf off 0x400 4 64).map fun n => x.gateTile.get 0 n) <|>
    ((indexOf off 0x1000 4 313).map fun n => x.usable.get 0 n) <|>
    ((indexOf off 0x20100 4 11).map fun n => p.rail.get 0 n) <|>
    ((indexOf off 0x20200 4 80).map fun n => p.temp.get 0 n) <|>
    ((indexOf off 0x41010 0x40 64).map fun n => (s.ring n).cfg) <|>
    ((indexOf off 0x41018 0x40 64).map fun n => (s.ring n).status) <|>
    ((indexOf off 0x200000 0x100 40).map fun n => (s.ostler n).status) <|>
    ((indexOf off 0x204000 0x40 8).map fun n => s.groups.get 0x80000001 n) <|>
    ((indexOf off 0x400100 0x10 16).map fun n => (s.engine n).status) <|>
    ((indexOf off 0x500000 0x10 8).map fun n => (s.porter n).status) <|>
    ((indexOf off 0x500008 0x10 8).map fun n => (s.porter n).recoveryStep) <|>
    ((indexOf off 0x600000 0x1000 8).map fun n => (s.stack n).status s.tick) <|>
    ((indexOf off 0x800000 0x1000 8).map fun n => (s.port n).ctrl) <|>
    ((indexOf off 0x800004 0x1000 8).map fun n => (s.port n).status) <|>
    ((indexOf off 0x800010 0x1000 8).map fun n => (s.port n).retryCfgNext) <|>
    ((indexOf off 0x800018 0x1000 8).map fun n => (s.port n).peerExpect) <|>
    ((indexOf off 0x2100000 4 6).map fun n => x.otpStatus n)

/-- The 64-bit counters of R7: TLY_COUNT has its context and its cause in the offset. -/
def State.counter (s : State) (off : Nat) : Option Dword :=
  if off = 0x40008 then some s.host.eventsLost
  else
    ((indexOf off 0x200008 0x100 40).map fun n => (s.ostler n).bytes) <|>
    ((indexOf off 0x200010 0x100 40).map fun n => (s.ostler n).stolen) <|>
    ((indexOf off 0x301000 0x100 8).map fun n => s.courier.tx.get 0 n) <|>
    ((indexOf off 0x301008 0x100 8).map fun n => s.courier.rx.get 0 n) <|>
    ((indexOf off 0x301010 0x100 8).map fun n => s.courier.through.get 0 n) <|>
    ((indexOf off 0x401000 0x10 8).map fun n => s.frozenSkips.get 0 n) <|>
    ((indexOf off 0x401008 0x10 8).map fun n => s.fallbacks.get 0 n) <|>
    ((indexOf off 0x600008 0x1000 8).map fun n => (s.stack n).ce) <|>
    ((indexOf off 0x600010 0x1000 8).map fun n => (s.stack n).ue) <|>
    ((indexOf off 0x800020 0x1000 8).map fun n => (s.port n).retries) <|>
    ((indexOf off 0x800028 0x1000 8).map fun n => (s.port n).corrected) <|>
    ((indexOf off 0x800030 0x1000 8).map fun n => (s.port n).uncorrectable) <|>
    ((indexOf (off % 0x100) 0 8 14).bind fun n => (indexOf (off - off % 0x100) 0x2200000 0x100 8).map fun c => (s.job c).tally.get 0 n)

/-- Every 64-bit register. -/
def State.reg64 (s : State) (off : Nat) : Option Dword :=
  match off with
  | 0x10 => some s.timing
  | 0x20 => some (s.boot.serial.extractLsb' 0 64)
  | 0x28 => some (s.boot.serial.extractLsb' 64 64)
  | 0x608010 => some s.mem.inject
  | _ =>
    s.counter off <|>
    ((indexOf off 0x41000 0x40 64).map fun n => (s.ring n).base) <|>
    ((indexOf off 0x41008 0x40 64).map fun n => (s.ring n).cbase) <|>
    ((indexOf off 0x800008 0x1000 8).map fun n => BitVec.ofNat 64 (s.port n).failedRx.toNat) <|>
    ((indexOf off 0x2100100 8 6).map fun n => BitVec.ofNat 64 (numAt s.boot.rootHash (8 * n) 8))

/-- The blocks that the recovery image presents (R599). -/
def recoveryBlock (off : Nat) : Bool := decide (off < 0x10000) || (decide (0x2000000 ≤ off) && decide (off < 0x2200000))

/-- The registers that host-load mode presents before DONE (R556). -/
def hostLoadBlock (off : Nat) : Bool :=
  off == 0x2000004 || off == 0x2000008 || off == 0x2000010 || (decide (0x2400000 ≤ off) && decide (off < 0x4000000))

/-- Whether an offset of BAR0 is present now (R554, R556, R595, R599). -/
def State.present (s : State) (off : Nat) : Bool :=
  if s.boot.done then !s.power.mainOff && (s.boot.running != .recovery || recoveryBlock off)
  else s.boot.hostLoading && hostLoadBlock off

/-- The staging window (R556). -/
def staging (off : Nat) : Bool := decide (0x2400000 ≤ off) && decide (off < 0x4000000)

/-- What a naturally aligned 32-bit read of BAR0 returns; the upper half of a counter returns what the lower half's read latched
(R6, R7, R595). -/
def State.read32 (s : State) (off : Nat) : Word :=
  if !s.present off then 0
  else if !s.boot.done ∧ staging off then BitVec.ofNat 32 (ofBytes (s.boot.staging.read (off - 0x2400000) 4))
  else
    match s.reg32 off, s.reg64 off with
    | some v, _ => v
    | none, some v => v.extractLsb' 0 32
    | none, none =>
      if off < 4 then 0
      else
        match s.host.latched.find off, s.reg64 (off - 4) with
        | some v, some _ => v
        | none, some v => v.extractLsb' 32 32
        | _, none => 0

/-- What a 32-bit read leaves of the latched halves: a counter's lower half latches its upper half, and the read of the upper
half takes the latch with it (R7). -/
def State.afterRead32 (s : State) (off : Nat) : State :=
  if !s.present off then s
  else
    match s.counter off with
    | some v => { s with host := { s.host with latched := s.host.latched.set (off + 4) (v.extractLsb' 32 32) } }
    | none => { s with host := { s.host with latched := s.host.latched.drop off } }

/-- A naturally aligned 64-bit read: a 64-bit register whole, or two 32-bit reads, the lower offset first (R6). -/
def State.read64 (s : State) (off : Nat) : Dword × State :=
  match s.reg64 off with
  | some v => (if s.present off then v else 0, s)
  | none =>
    let s1 := s.afterRead32 off
    (s1.read32 (off + 4) ++ s.read32 off, s1.afterRead32 (off + 4))

/-- A 32-bit word of BAR4: the MSI-X table and the pending-bit array (R431, R453). -/
def HostIf.readTable (h : HostIf) (at_ : Nat) : Word :=
  let e := h.msix.get Msix.reset (at_ / 16)
  if at_ = 0x8000 then h.msixPending.extractLsb' 0 32
  else if at_ = 0x8004 then h.msixPending.extractLsb' 32 32
  else if 1024 ≤ at_ then 0
  else
    match at_ % 16 / 4 with
    | 0 => e.addr.extractLsb' 0 32
    | 1 => e.addr.extractLsb' 32 32
    | 2 => e.data
    | _ => if e.masked then 1 else 0

/-- The first offsets of the model's numbering of BAR4 and BAR2. -/
def bar4 : Nat := 0x4000000
def bar2 : Nat := 0x4040000

/-- Whether an access has a valid width and alignment (R6, R438). -/
def accessOk (off width : Nat) : Bool :=
  if bar2 ≤ off then width == 4 && (off - bar2) % 4096 == 0
  else (width == 4 && off % 4 == 0) || (width == 8 && off % 8 == 0)

/-- Whether the device takes part in an access at all: after DONE, or in host-load mode (R554, R556). -/
def State.barOpen (s : State) : Bool := (s.boot.done && !s.power.mainOff) || s.boot.hostLoading

/-- REGISTER_ACCESS_INVALID (R8, R451). -/
def State.badAccess (s : State) (off width : Nat) (write : Bool) : State :=
  let at_ := if off < bar4 then off else Config.otherBar off
  s.event 0x0101 kHost 0xF 0 at_ (width + (if write then 256 else 0))

/-- A read of the host: what it returns, and the state after it (R4, R6 to R8, R595). An access of another width or alignment
returns zero and is reported. A read of a ring's doorbell gives FETCH as HST_RING_STATUS does. -/
def State.hostRead (s : State) (off width : Nat) : Dword × State :=
  if !s.barOpen then (0, s)
  else if !accessOk off width then (0, s.badAccess off width false)
  else if bar2 ≤ off then
    let n := (off - bar2) / 4096
    if !s.blocksOpen || decide (64 ≤ n) then (0, s) else (((s.ring n).status.extractLsb' 0 16).setWidth 64, s)
  else if bar4 ≤ off then
    let h := s.host
    if !s.blocksOpen then (0, s)
    else if width = 8 then (h.readTable (off + 4 - bar4) ++ h.readTable (off - bar4), s)
    else ((h.readTable (off - bar4)).setWidth 64, s)
  else if width = 8 then s.read64 off
  else ((s.read32 off).setWidth 64, s.afterRead32 off)

/-- A read whose completion returns its data. -/
def State.readReturns (s : State) (off width : Nat) : State :=
  let r := s.hostRead off width
  { r.2 with host := { r.2.host with readData := r.1 } }

/-- COUNTER_LOW_READ: a 32-bit read of either half of a counter: the lower half latches the upper, whose next read returns what
was latched (R7). -/
def execCounterLowRead (off : Nat) (s : State) : Out :=
  .next (if (s.counter off).isSome || (decide (4 ≤ off) && (s.counter (off - 4)).isSome) then s.readReturns off 4 else s)

/-! ### Writing (R4, R6, R434, R454, R602) -/

/-- A write of a 32-bit register. -/
def State.write32 (s : State) (off : Nat) (v : Word) : State :=
  match off with
  | 0x40000 => { s with host := { s.host with deviceEvents := v &&& 0x8000003F } }
  | 0x300000 => { s with courier := { s.courier with ctrl := v &&& 3 } }
  | 0x400000 => { s with updCtrl := v &&& 0x80000000 }
  | 0x608000 =>
    let k : BitVec 3 := v.extractLsb' 0 3
    if k = 0 ∨ k = 6 ∨ k = 7 then s else { s with mem := { s.mem with scrubPeriod := k } }
  | 0x808000 => { s with selfCoord := v &&& 0xFFFFF }
  | _ =>
    match indexOf off 0x41010 0x40 64, indexOf off 0x204000 0x40 8, indexOf off 0x800000 0x1000 8, indexOf off 0x800010 0x1000 8,
        indexOf off 0x800018 0x1000 8 with
    | some n, _, _, _, _ => s.writeRingCfg n v
    | _, some m, _, _, _ =>
      let old := s.groups.get 0x80000001 m
      let chunk : Word := if v.extractLsb' 0 2 = 3 then old &&& 3 else v &&& 3
      { s with groups := s.groups.set m ((v &&& 0x80000000) ||| chunk) }
    | _, _, some p, _, _ => s.writePortCtrl p v
    | _, _, _, some p, _ =>
      let x := s.port p
      let old := x.retryCfgNext
      let hold : Byte := if v.extractLsb' 8 8 = (0 : Byte) then old.extractLsb' 8 8 else v.extractLsb' 8 8
      let window : Byte := if v.extractLsb' 0 8 = (0 : Byte) then old.extractLsb' 0 8 else v.extractLsb' 0 8
      s.setPort p { x with retryCfgNext := (v.extractLsb' 16 16 : BitVec 16) ++ hold ++ window }
    | _, _, _, _, some p => s.setPort p { s.port p with peerExpect := v &&& 0xFFFFF }
    | _, _, _, _, _ => s

/-- A write of a 64-bit register, whole. -/
def State.write64 (s : State) (off : Nat) (v : Dword) : State :=
  let addr : Dword := v &&& 0xFFFFFFFFFFFFF000
  match indexOf off 0x41000 0x40 64, indexOf off 0x41008 0x40 64 with
  | some n, _ => let r := s.ring n; if r.enabled then s else s.setRing n { r with base := addr }
  | _, some n => let r := s.ring n; if r.enabled then s else s.setRing n { r with cbase := addr }
  | _, _ => if off = 0x608010 then s.writeInject v else s

/-- A naturally aligned 32-bit access to a register, or to half of one: a lower half is held for its upper half (R6). -/
def State.writeHalf (s : State) (off : Nat) (v : Word) : State :=
  if (s.reg32 off).isSome then s.write32 off v
  else if (s.reg64 off).isSome then { s with host := { s.host with halves := s.host.halves.set off v } }
  else if off < 4 then s
  else
    match s.reg64 (off - 4) with
    | none => s
    | some old =>
      let low : Word := match s.host.halves.find (off - 4) with
        | some w => w
        | none => old.extractLsb' 0 32
      let s1 : State := { s with host := { s.host with halves := s.host.halves.drop (off - 4) } }
      s1.write64 (off - 4) (v ++ low)

/-- A naturally aligned 64-bit access: a 64-bit register whole, which discards a held half, or two 32-bit accesses (R6). -/
def State.writeWide (s : State) (off : Nat) (v : Dword) : State :=
  if (s.reg64 off).isSome then
    ({ s with host := { s.host with halves := s.host.halves.drop off } } : State).write64 off v
  else (s.writeHalf off (v.extractLsb' 0 32)).writeHalf (off + 4) (v.extractLsb' 32 32)

/-- A write in BAR4: the MSI-X table; the pending-bit array and the rest are not written (R431, R453). -/
def HostIf.writeTable (h : HostIf) (at_ : Nat) (v : Word) : HostIf :=
  let n := at_ / 16
  let e := h.msix.get Msix.reset n
  if 64 ≤ n then h
  else
    match at_ % 16 / 4 with
    | 0 => { h with msix := h.msix.set n { e with addr := e.addr.extractLsb' 32 32 ++ v } }
    | 1 => { h with msix := h.msix.set n { e with addr := v ++ e.addr.extractLsb' 0 32 } }
    | 2 => { h with msix := h.msix.set n { e with data := v } }
    | _ => if v.getLsbD 0 then { h with msix := h.msix.set n { e with masked := true } } else h.unmask n

/-- REGISTER_ACCESS_INVALID: an access of another width or alignment: a write is dropped, and a read returns zero (R8). -/
def execRegisterAccessInvalid (off : Nat) (width : Nat) (write : Bool) (s : State) : Out :=
  .next (
    if !s.barOpen || accessOk off width then s
    else if write then s.badAccess off width true
    else s.readReturns off width)

/-- Whether the whole of an access lies where nothing hides it. -/
def State.presentAll (s : State) (off width : Nat) : Bool := s.present off && (width == 4 || s.present (off + 4))

/-- A write in BAR0 of valid width. -/
def State.writeBar0 (s : State) (off width : Nat) (value : Dword) : State :=
  if !s.boot.done then
    if staging off && s.present off then
      { s with boot := { s.boot with staging := s.boot.staging.write (off - 0x2400000) (toBytes width value.toNat) } }
    else s
  else if !s.presentAll off width then
    match indexOf off 0x41010 0x40 64 with
    | some n => s.recoveryRingCfg n (value.extractLsb' 0 32)
    | none => s
  else if width = 8 then s.writeWide off value
  else s.writeHalf off (value.extractLsb' 0 32)

/-- REGISTER_WRITE: a posted write of the host (R4 to R8, R595 to R602). -/
def execRegisterWrite (off : Nat) (width : Nat) (value : Dword) (s : State) : Out :=
  let low : Word := value.extractLsb' 0 32
  .next (
    if !s.barOpen then s
    else if !accessOk off width then s.badAccess off width true
    else if off < bar4 then s.writeBar0 off width value
    else if !s.blocksOpen then s
    else if off < bar2 then
      let h := s.host.writeTable (off - bar4) low
      { s with host := if width = 8 then h.writeTable (off + 4 - bar4) (value.extractLsb' 32 32) else h }
    else
      let n := (off - bar2) / 4096
      if 64 ≤ n then s
      else if (s.ring n).kind = 6 then s.eventBell n low
      else s.ringBell n low)

end Sys2Proof.Machine
end

