-- ==== Sys2Proof/Machine/Scalar.lean ====
section
/-! DEFINITION. Scalar, predicate and address instructions (R125, R126, R149). -/

namespace Sys2Proof.Machine

/-- The three shifts of R125, by amount. -/
def shiftBy (kind : Nat) (a : Word) (n : Nat) : Word :=
  match kind with
  | 0 => a <<< n
  | 1 => a >>> n
  | _ => a.sshiftRight n

/-- ALU by FN (R125); none where FN is not listed. -/
def aluResult (fn : Nat) (a b : Word) : Option Word :=
  match fn with
  | 0x00 => some (a + b)
  | 0x01 => some (a - b)
  | 0x02 => some (a &&& b)
  | 0x03 => some (a ||| b)
  | 0x04 => some (a ^^^ b)
  | 0x05 => some (shiftBy 0 a (b.toNat % 32))
  | 0x06 => some (shiftBy 1 a (b.toNat % 32))
  | 0x07 => some (shiftBy 2 a (b.toNat % 32))
  | 0x08 => some (a * b)
  | 0x09 => some (BitVec.ofNat 32 (a.toNat * b.toNat / 2 ^ 32))
  | 0x0A => some (BitVec.ofInt 32 (a.toInt * b.toInt / 2 ^ 32))
  | 0x0B => some (if b.slt a then b else a)
  | 0x0C => some (if a.slt b then b else a)
  | 0x0D => some (if b.ult a then b else a)
  | 0x0E => some (if a.ult b then b else a)
  | 0x0F => some a
  | _ => none

/-- The register operation of ALU: MOV moves a tag, the others consume it (R218, R219). -/
def aluOp (f : FR) : RegOp :=
  let fn := f.fn.toNat
  RegOp.plain ((aluResult fn 0 0).isSome && (fn != 0x0F || f.b == 0)) (if fn = 0x0F then [f.d, f.a] else [f.d, f.a, f.b])
    (fun t => fn != 0x0F && (t.tagS f.a || t.tagS f.b))
    (fun t => (t.setS f.d ((aluResult fn (t.getS f.a) (t.getS f.b)).getD 0) (fn == 0x0F && t.tagS f.a)).advance 4)

/-- NOP: every field RSV (R124). -/
def execNop (w : Site) (f : FR) (s : State) : Out :=
  s.regOp (.nop w f) w (RegOp.plain (f.bits == 0) [] never (·.advance 4))

/-- ALU (R125). -/
def execAlu (w : Site) (f : FR) (s : State) : Out := s.regOp (.alu w f) w (aluOp f)

/-- A register operation of a scalar destination, one scalar source and an immediate. -/
def immOp (ok : Bool) (f : FI) (g : Word → Word) : RegOp :=
  RegOp.plain ok [f.d, f.a] (fun t => t.tagS f.a) (fun t => (t.setS f.d (g (t.getS f.a)) false).advance 4)

/-- ADDI: IMM12 sign-extended (R125). -/
def execAddi (w : Site) (f : FI) (s : State) : Out :=
  s.regOp (.addi w f) w (immOp true f fun a => a + f.imm.signExtend 32)

/-- ANDI: IMM12 zero-extended (R125). -/
def execAndi (w : Site) (f : FI) (s : State) : Out :=
  s.regOp (.andi w f) w (immOp true f fun a => a &&& f.imm.setWidth 32)

/-- ORI (R125). -/
def execOri (w : Site) (f : FI) (s : State) : Out :=
  s.regOp (.ori w f) w (immOp true f fun a => a ||| f.imm.setWidth 32)

/-- XORI (R125). -/
def execXori (w : Site) (f : FI) (s : State) : Out :=
  s.regOp (.xori w f) w (immOp true f fun a => a ^^^ f.imm.setWidth 32)

/-- SHI: IMM12[11:7] RSV, [6:5] the shift, 0b11 invalid, [4:0] the amount (R125). -/
def execShi (w : Site) (f : FI) (s : State) : Out :=
  let kind := bitsOf f.imm.toNat 6 5
  s.regOp (.shi w f) w (immOp (bitsOf f.imm.toNat 11 7 == 0 && kind != 3) f fun a => shiftBy kind a (bitsOf f.imm.toNat 4 0))

/-- LI: IMM17 sign-extended (R125). -/
def execLi (w : Site) (f : FJ) (s : State) : Out :=
  s.regOp (.li w f) w (RegOp.plain true [f.d] never (fun t => (t.setS f.d (f.imm.signExtend 32) false).advance 4))

/-- LIL: a scalar register, or an address register with K = 1 (R125). -/
def execLil (w : Site) (f : FL) (s : State) : Out :=
  s.regOp (.lil w f) w (RegOp.plain (f.rsv == 0 && (f.k == 0 || !top4 f.d)) (if f.k = 0 then [f.d] else []) never
    (fun t => (if f.k = 0 then t.setS f.d f.imm false else t.setA (low4 f.d) f.imm false).advance 8))

/-- CMP (R125). -/
def execCmp (w : Site) (f : FR) (s : State) : Out :=
  s.regOp (.cmp w f) w (RegOp.plain ((compareBy f.fn.toNat 0 0).isSome && !top3 f.d) [f.a, f.b]
    (fun t => t.tagS f.a || t.tagS f.b)
    (fun t => (t.setPred (low3 f.d) ((compareBy f.fn.toNat (t.getS f.a) (t.getS f.b)).getD false)).advance 4))

/-- CMPI: IMM11 sign-extended, for LTU and GEU too (R125). -/
def execCmpi (w : Site) (f : FC) (s : State) : Out :=
  s.regOp (.cmpi w f) w (RegOp.plain (compareBy f.cond.toNat 0 0).isSome [f.a] (fun t => t.tagS f.a)
    (fun t => (t.setPred f.pd ((compareBy f.cond.toNat (t.getS f.a) (f.imm.signExtend 32)).getD false)).advance 4))

/-- PLOG by FN (R125); none where FN is not listed. -/
def plogResult (fn : Nat) (a b : Bool) : Option Bool :=
  match fn with
  | 0 => some (a && b)
  | 1 => some (a || b)
  | 2 => some (a != b)
  | 3 => some (a && !b)
  | 4 => some true
  | 5 => some false
  | 6 => some !a
  | _ => none

/-- The predicate instructions PAND to PNOT (R125): A and B are RSV where a form does not use them. -/
def execPlog (w : Site) (f : FR) (s : State) : Out :=
  let fn := f.fn.toNat
  let ok := (plogResult fn false false).isSome && !top3 f.d &&
    (if fn = 4 ∨ fn = 5 then f.a == 0 else !top3 f.a) && (if 4 ≤ fn then f.b == 0 else !top3 f.b)
  s.regOp (.plog w f) w (RegOp.plain ok [] never
    (fun t => (t.setPred (low3 f.d) ((plogResult fn (t.pred (low3 f.a)) (t.pred (low3 f.b))).getD false)).advance 4))

/-- PGET and PPUT (R125). -/
def execPmov (w : Site) (f : FR) (s : State) : Out :=
  let get := f.fn == 0
  s.regOp (.pmov w f) w (RegOp.plain (f.b == 0 && ((get && f.a == 0) || (f.fn == 1 && f.d == 0)))
    (if get then [f.d] else [f.a]) (fun t => !get && t.tagS f.a)
    (fun t => (if get then t.setS f.d ((t.p ||| 1).setWidth 32) false
      else { t with p := (t.getS f.a).extractLsb' 0 8 ||| 1 }).advance 4))

/-- The address instructions AADD to AMOV (R126): AGET, APUT and AMOV move a tag (R218). -/
def execAop (w : Site) (f : FR) (s : State) : Out :=
  let fn := f.fn.toNat
  let ok := decide (fn ≤ 4) && (decide (fn < 2) || f.b == 0) && (fn == 2 || !top4 f.d) && (fn == 3 || !top4 f.a)
  let run (t : Task) : Task :=
    match fn with
    | 0 => t.setA (low4 f.d) (t.getA (low4 f.a) + t.getS f.b) false
    | 1 => t.setA (low4 f.d) (t.getA (low4 f.a) - t.getS f.b) false
    | 2 => t.setS f.d (t.getA (low4 f.a)) (t.tagA (low4 f.a))
    | 3 => t.setA (low4 f.d) (t.getS f.a) (t.tagS f.a)
    | _ => t.setA (low4 f.d) (t.getA (low4 f.a)) (t.tagA (low4 f.a))
  s.regOp (.aop w f) w (RegOp.plain ok
    (if fn < 2 then [f.b] else if fn = 2 then [f.d] else if fn = 3 then [f.a] else [])
    (fun t => decide (fn < 2) && (t.tagA (low4 f.a) || t.tagS f.b)) (fun t => (run t).advance 4))

/-- AADDI: IMM12 sign-extended (R126). -/
def execAaddi (w : Site) (f : FI) (s : State) : Out :=
  s.regOp (.aaddi w f) w (RegOp.plain (!top4 f.d && !top4 f.a) [] (fun t => t.tagA (low4 f.a))
    (fun t => (t.setA (low4 f.d) (t.getA (low4 f.a) + f.imm.signExtend 32) false).advance 4))

end Sys2Proof.Machine
end

