-- ==== Sys2Proof/Machine/Dispatch.lean ====
section
/-! DEFINITION. One arm per command. -/

namespace Sys2Proof.Machine

/-- The effect of a command on everything but the queue. -/
def exec (i : Instr) (s : State) : Host.Outcome State Fault Refusal :=
  match i with
  | .nop w f => Sys2Proof.Machine.execNop w f s
  | .alu w f => Sys2Proof.Machine.execAlu w f s
  | .addi w f => Sys2Proof.Machine.execAddi w f s
  | .andi w f => Sys2Proof.Machine.execAndi w f s
  | .ori w f => Sys2Proof.Machine.execOri w f s
  | .xori w f => Sys2Proof.Machine.execXori w f s
  | .shi w f => Sys2Proof.Machine.execShi w f s
  | .li w f => Sys2Proof.Machine.execLi w f s
  | .lil w f => Sys2Proof.Machine.execLil w f s
  | .cmp w f => Sys2Proof.Machine.execCmp w f s
  | .cmpi w f => Sys2Proof.Machine.execCmpi w f s
  | .plog w f => Sys2Proof.Machine.execPlog w f s
  | .pmov w f => Sys2Proof.Machine.execPmov w f s
  | .aop w f => Sys2Proof.Machine.execAop w f s
  | .aaddi w f => Sys2Proof.Machine.execAaddi w f s
  | .ld w f => Sys2Proof.Machine.execLd w f s
  | .st w f => Sys2Proof.Machine.execSt w f s
  | .vld w f => Sys2Proof.Machine.execVld w f s
  | .vst w f => Sys2Proof.Machine.execVst w f s
  | .br w f => Sys2Proof.Machine.execBr w f s
  | .jr w f => Sys2Proof.Machine.execJr w f s
  | .loop w f => Sys2Proof.Machine.execLoop w f s
  | .vop w f => Sys2Proof.Machine.execVop w f s
  | .vcvt w f => Sys2Proof.Machine.execVcvt w f s
  | .vred w f => Sys2Proof.Machine.execVred w f s
  | .vxfer w f => Sys2Proof.Machine.execVxfer w f s
  | .acfg w f => Sys2Proof.Machine.execAcfg w f s
  | .arun w f => Sys2Proof.Machine.execArun w f s
  | .adrn w f => Sys2Proof.Machine.execAdrn w f s
  | .achk w f => Sys2Proof.Machine.execAchk w f s
  | .accopen w f => Sys2Proof.Machine.execAccopen w f s
  | .send w f => Sys2Proof.Machine.execSend w f s
  | .swait w f => Sys2Proof.Machine.execSwait w f s
  | .curf w f => Sys2Proof.Machine.execCurf w f s
  | .hend w f => Sys2Proof.Machine.execHend w f s
  | .twait w f => Sys2Proof.Machine.execTwait w f s
  | .tend w f => Sys2Proof.Machine.execTend w f s
  | .fence w f => Sys2Proof.Machine.execFence w f s
  | .tflag w f => Sys2Proof.Machine.execTflag w f s
  | .scratchpadLoadReturn w n => Sys2Proof.Machine.execScratchpadLoadReturn w n s
  | .arrayRunStart tile => Sys2Proof.Machine.execArrayRunStart tile s
  | .arrayBlockComplete tile flips => Sys2Proof.Machine.execArrayBlockComplete tile flips s
  | .repeatRunComplete tile flips => Sys2Proof.Machine.execRepeatRunComplete tile flips s
  | .spareRunComplete tile flips => Sys2Proof.Machine.execSpareRunComplete tile flips s
  | .arrayDrainLineWrite tile => Sys2Proof.Machine.execArrayDrainLineWrite tile s
  | .accRegionOpen w => Sys2Proof.Machine.execAccRegionOpen w s
  | .localArrivalComplete ctx => Sys2Proof.Machine.execLocalArrivalComplete ctx s
  | .curfewToken port tag number => Sys2Proof.Machine.execCurfewToken port tag number s
  | .curfewRelease ctx => Sys2Proof.Machine.execCurfewRelease ctx s
  | .curfewTimeout ctx port => Sys2Proof.Machine.execCurfewTimeout ctx port s
  | .requestDepart tile ch => Sys2Proof.Machine.execRequestDepart tile ch s
  | .requestArrive ctx msg dest => Sys2Proof.Machine.execRequestArrive ctx msg dest s
  | .grantArrive ctx msg dest => Sys2Proof.Machine.execGrantArrive ctx msg dest s
  | .payloadLineArrive ctx msg dest => Sys2Proof.Machine.execPayloadLineArrive ctx msg dest s
  | .deliveryAckArrive ctx msg dest => Sys2Proof.Machine.execDeliveryAckArrive ctx msg dest s
  | .overflowRoomEscape ctx msg dest => Sys2Proof.Machine.execOverflowRoomEscape ctx msg dest s
  | .freezeDecision ctx retry refresh => Sys2Proof.Machine.execFreezeDecision ctx retry refresh s
  | .caravanEnd ctx => Sys2Proof.Machine.execCaravanEnd ctx s
  | .ostlerDescriptorFetch src => Sys2Proof.Machine.execOstlerDescriptorFetch src s
  | .ostlerChunkSplit ostler => Sys2Proof.Machine.execOstlerChunkSplit ostler s
  | .ostlerChunkRun ostler => Sys2Proof.Machine.execOstlerChunkRun ostler s
  | .chunkSteal ostler => Sys2Proof.Machine.execChunkSteal ostler s
  | .ostlerDescriptorComplete desc => Sys2Proof.Machine.execOstlerDescriptorComplete desc s
  | .probeRequest ctx tensor => Sys2Proof.Machine.execProbeRequest ctx tensor s
  | .probeCombineComplete ctx tensor others => Sys2Proof.Machine.execProbeCombineComplete ctx tensor others s
  | .allGather src => Sys2Proof.Machine.execAllGather src s
  | .reduceScatter src => Sys2Proof.Machine.execReduceScatter src s
  | .allReduce src => Sys2Proof.Machine.execAllReduce src s
  | .allToAll src => Sys2Proof.Machine.execAllToAll src s
  | .permute src => Sys2Proof.Machine.execPermute src s
  | .broadcast src => Sys2Proof.Machine.execBroadcast src s
  | .queueOpen src => Sys2Proof.Machine.execQueueOpen src s
  | .queueClose src => Sys2Proof.Machine.execQueueClose src s
  | .ctrlOpen port stream tag origin final offset count => Sys2Proof.Machine.execCtrlOpen port stream tag origin final offset count s
  | .ctrlCheck port tag crc => Sys2Proof.Machine.execCtrlCheck port tag crc s
  | .ctrlGrant port tag grant => Sys2Proof.Machine.execCtrlGrant port tag grant s
  | .ctrlCredit port tag credits => Sys2Proof.Machine.execCtrlCredit port tag credits s
  | .ctrlDone port tag done => Sys2Proof.Machine.execCtrlDone port tag done s
  | .ctrlAbort port tag => Sys2Proof.Machine.execCtrlAbort port tag s
  | .dataFlit port stream index payload poison nonfinite => Sys2Proof.Machine.execDataFlit port stream index payload poison nonfinite s
  | .courierCommandComplete ctx tag => Sys2Proof.Machine.execCourierCommandComplete ctx tag s
  | .courierStalled ctx what port => Sys2Proof.Machine.execCourierStalled ctx what port s
  | .jobLoad ring view => Sys2Proof.Machine.execJobLoad ring view s
  | .input ring view => Sys2Proof.Machine.execInput ring view s
  | .step ring => Sys2Proof.Machine.execStep ring s
  | .jobEnd ring => Sys2Proof.Machine.execJobEnd ring s
  | .kill ring => Sys2Proof.Machine.execKill ring s
  | .scrubComplete ctx => Sys2Proof.Machine.execScrubComplete ctx s
  | .handoffIssue ctx action => Sys2Proof.Machine.execHandoffIssue ctx action s
  | .passOneEntry engine => Sys2Proof.Machine.execPassOneEntry engine s
  | .updateEntrySteal engine => Sys2Proof.Machine.execUpdateEntrySteal engine s
  | .stepDecision ctx others => Sys2Proof.Machine.execStepDecision ctx others s
  | .amaxCombineComplete ctx tensor others => Sys2Proof.Machine.execAmaxCombineComplete ctx tensor others s
  | .passTwoEntry engine => Sys2Proof.Machine.execPassTwoEntry engine s
  | .ruleLoad ring view => Sys2Proof.Machine.execRuleLoad ring view s
  | .writeBack ring view => Sys2Proof.Machine.execWriteBack ring view s
  | .snapshot ring => Sys2Proof.Machine.execSnapshot ring s
  | .ship ring => Sys2Proof.Machine.execShip ring s
  | .layerRead ring => Sys2Proof.Machine.execLayerRead ring s
  | .restore ring view remote => Sys2Proof.Machine.execRestore ring view remote s
  | .snapshotCapture ctx => Sys2Proof.Machine.execSnapshotCapture ctx s
  | .snapshotFrameCopy ctx => Sys2Proof.Machine.execSnapshotFrameCopy ctx s
  | .snapshotCommit ctx => Sys2Proof.Machine.execSnapshotCommit ctx s
  | .mirrorPartReceive port ctx part => Sys2Proof.Machine.execMirrorPartReceive port ctx part s
  | .mirrorAck ctx port => Sys2Proof.Machine.execMirrorAck ctx port s
  | .mirrorServe port ctx step => Sys2Proof.Machine.execMirrorServe port ctx step s
  | .fieldTest ring => Sys2Proof.Machine.execFieldTest ring s
  | .logbookRead ring => Sys2Proof.Machine.execLogbookRead ring s
  | .logbookAppend => Sys2Proof.Machine.execLogbookAppend s
  | .memoryRead pa upset => Sys2Proof.Machine.execMemoryRead pa upset s
  | .memoryWrite pa data poison => Sys2Proof.Machine.execMemoryWrite pa data poison s
  | .patrolScrub pa upset => Sys2Proof.Machine.execPatrolScrub pa upset s
  | .refresh stack bank => Sys2Proof.Machine.execRefresh stack bank s
  | .frameAssign ring => Sys2Proof.Machine.execFrameAssign ring s
  | .frameRelease ring => Sys2Proof.Machine.execFrameRelease ring s
  | .frameZero frame => Sys2Proof.Machine.execFrameZero frame s
  | .doorbell ring value => Sys2Proof.Machine.execDoorbell ring value s
  | .eventRingDoorbell ring value => Sys2Proof.Machine.execEventRingDoorbell ring value s
  | .ringEnable ring value => Sys2Proof.Machine.execRingEnable ring value s
  | .ringDisable ring value => Sys2Proof.Machine.execRingDisable ring value s
  | .ringFetch ring entry ep => Sys2Proof.Machine.execRingFetch ring entry ep s
  | .hostReadFailed ring addr entryFetch => Sys2Proof.Machine.execHostReadFailed ring addr entryFetch s
  | .msixMessage vector => Sys2Proof.Machine.execMsixMessage vector s
  | .functionLevelReset => Sys2Proof.Machine.execFunctionLevelReset s
  | .d3hotEntry => Sys2Proof.Machine.execD3hotEntry s
  | .perstNAssert => Sys2Proof.Machine.execPerstNAssert s
  | .perstNDeassert => Sys2Proof.Machine.execPerstNDeassert s
  | .busMasterEnable on => Sys2Proof.Machine.execBusMasterEnable on s
  | .configRequestRetry => Sys2Proof.Machine.execConfigRequestRetry s
  | .registerWrite off width value => Sys2Proof.Machine.execRegisterWrite off width value s
  | .registerAccessInvalid off width write => Sys2Proof.Machine.execRegisterAccessInvalid off width write s
  | .counterLowRead off => Sys2Proof.Machine.execCounterLowRead off s
  | .memInjectArm value => Sys2Proof.Machine.execMemInjectArm value s
  | .portEnable port value => Sys2Proof.Machine.execPortEnable port value s
  | .portDisable port value => Sys2Proof.Machine.execPortDisable port value s
  | .reauth port value => Sys2Proof.Machine.execReauth port value s
  | .go image => Sys2Proof.Machine.execGo image s
  | .laserSourceInsert port => Sys2Proof.Machine.execLaserSourceInsert port s
  | .laserSourceAbsent port => Sys2Proof.Machine.execLaserSourceAbsent port s
  | .detectRetry port => Sys2Proof.Machine.execDetectRetry port s
  | .lightDetected port lanes => Sys2Proof.Machine.execLightDetected port lanes s
  | .trainingComplete port good => Sys2Proof.Machine.execTrainingComplete port good s
  | .laneLossOfLock port lane => Sys2Proof.Machine.execLaneLossOfLock port lane s
  | .laneBerWindow port lane bad => Sys2Proof.Machine.execLaneBerWindow port lane bad s
  | .noFrameTimeout port => Sys2Proof.Machine.execNoFrameTimeout port s
  | .flitSlotSend port => Sys2Proof.Machine.execFlitSlotSend port s
  | .markerReceive port marker frame => Sys2Proof.Machine.execMarkerReceive port marker frame s
  | .idleFlit port ack nak credit1 credit0 => Sys2Proof.Machine.execIdleFlit port ack nak credit1 credit0 s
  | .mapRequest port version mask => Sys2Proof.Machine.execMapRequest port version mask s
  | .retrainRequest port => Sys2Proof.Machine.execRetrainRequest port s
  | .faultyNotice port => Sys2Proof.Machine.execFaultyNotice port s
  | .hello port h => Sys2Proof.Machine.execHello port h s
  | .certs port content verdict => Sys2Proof.Machine.execCerts port content verdict s
  | .keyShare port share => Sys2Proof.Machine.execKeyShare port share s
  | .finished port sign => Sys2Proof.Machine.execFinished port sign s
  | .authStepTimeout port => Sys2Proof.Machine.execAuthStepTimeout port s
  | .retryWindowEnd port => Sys2Proof.Machine.execRetryWindowEnd port s
  | .holdoffExpiry port => Sys2Proof.Machine.execHoldoffExpiry port s
  | .linkCreditStarved port ctx => Sys2Proof.Machine.execLinkCreditStarved port ctx s
  | .curfewTagUnknown entry => Sys2Proof.Machine.execCurfewTagUnknown entry s
  | .powerOnReset straps slotA slotB recovery => Sys2Proof.Machine.execPowerOnReset straps slotA slotB recovery s
  | .startupComplete => Sys2Proof.Machine.execStartupComplete s
  | .startupWatchdog => Sys2Proof.Machine.execStartupWatchdog s
  | .bootDone trained => Sys2Proof.Machine.execBootDone trained s
  | .vinGood => Sys2Proof.Machine.execVinGood s
  | .railUp rail => Sys2Proof.Machine.execRailUp rail s
  | .railFault rail => Sys2Proof.Machine.execRailFault rail s
  | .vinOutOfRange mV => Sys2Proof.Machine.execVinOutOfRange mV s
  | .rootPllUnlock => Sys2Proof.Machine.execRootPllUnlock s
  | .sensorRead readings => Sys2Proof.Machine.execSensorRead readings s
  | .criticalKill => Sys2Proof.Machine.execCriticalKill s
  | .thermtrip sensor => Sys2Proof.Machine.execThermtrip sensor s
  | .powerWindow watts => Sys2Proof.Machine.execPowerWindow watts s
  | .pwrAlertNAssert => Sys2Proof.Machine.execPwrAlertNAssert s
  | .pwrAlertHoldExpiry => Sys2Proof.Machine.execPwrAlertHoldExpiry s
  | .voltageAdjust die up => Sys2Proof.Machine.execVoltageAdjust die up s
  | .throttleStepApply => Sys2Proof.Machine.execThrottleStepApply s
  | .mctpControl request => Sys2Proof.Machine.execMctpControl request s
  | .pldmBaseDiscovery request => Sys2Proof.Machine.execPldmBaseDiscovery request s
  | .pldmSensorRead sensor => Sys2Proof.Machine.execPldmSensorRead sensor s
  | .powerLimitEffecter watts => Sys2Proof.Machine.execPowerLimitEffecter watts s
  | .pldmFirmwareUpdate image package progress => Sys2Proof.Machine.execPldmFirmwareUpdate image package progress s
  | .getVersion => Sys2Proof.Machine.execGetVersion s
  | .getCapabilities => Sys2Proof.Machine.execGetCapabilities s
  | .negotiateAlgorithms => Sys2Proof.Machine.execNegotiateAlgorithms s
  | .getDigests => Sys2Proof.Machine.execGetDigests s
  | .getCertificate offset length => Sys2Proof.Machine.execGetCertificate offset length s
  | .challenge nonce => Sys2Proof.Machine.execChallenge nonce s
  | .getMeasurements index signed => Sys2Proof.Machine.execGetMeasurements index signed s
  | .bypass => Sys2Proof.Machine.execBypass s
  | .idcode => Sys2Proof.Machine.execIdcode s
  | .samplePreload pins => Sys2Proof.Machine.execSamplePreload pins s
  | .extest => Sys2Proof.Machine.execExtest s
  | .managementDebug opcode => Sys2Proof.Machine.execManagementDebug opcode s
  | .fieldTestComplete failures => Sys2Proof.Machine.execFieldTestComplete failures s
  | .rootPllLock ok => Sys2Proof.Machine.execRootPllLock ok s
  | .pcieLinkTrained rate width => Sys2Proof.Machine.execPcieLinkTrained rate width s
  | .msixVectorUnmask vector => Sys2Proof.Machine.execMsixVectorUnmask vector s
  | .entdaa address => Sys2Proof.Machine.execEntdaa address s
  | .pwrAlertNDeassert => Sys2Proof.Machine.execPwrAlertNDeassert s
  | .standbyPowerLoss => Sys2Proof.Machine.execStandbyPowerLoss s

end Sys2Proof.Machine
end

