-- ==== Sys2Proof/Machine/Tick.lean ====
section
/-! DEFINITION. What a tick of 0.625 ns does when no command waits: time, the core cycle at the throttle step, the Caravan clock, the
measured and waited times and the Tally (R22, R82, R91, R192, R198, R421, R422). -/

namespace Sys2Proof.Machine

/-- Core cycles in eight ticks, by throttle step: 8, 7, 6 and 4 of every 16 edges of the tap give 8, 7, 6 and 4 (R22). -/
def edges (step : BitVec 2) : Nat := [8, 7, 6, 4].getD step.toNat 8

/-- Whether the core clock passes an edge in this tick. -/
def Power.coreEdge (p : Power) (tick : Nat) : Bool := p.rootLock && decide (tick % 8 < edges p.step)

/-- Interlock cycles of a tile in a core cycle: loads and stores at marked lines (R104), an array that is held (R103), and the drain
in the buffer where its next line waits on an open region (R107). -/
def Tile.interlocks (x : Tile) : Nat :=
  let marked := x.tasks.countP fun t => t.2.hold == .drains
  let array := if x.runs.any fun r => r.stage == .holding then 1 else 0
  let region := match x.draining with
    | some (_, d) => if x.drainAdds d && (x.task d.task.val).region.isSome then 1 else 0
    | none => 0
  marked + array + region

/-- Whether a task is a running one of R421, and whether it is held at TWAIT or SWAIT. -/
def Task.counts (t : Task) : Bool := t.enabled && t.state == .running
def Task.memHeld (t : Task) : Bool := t.hold == .token || t.hold == .sends

/-- Whether every running task of a list of tiles is held, and at least one is (R421, cause 5). -/
def memWait (l : List Tile) : Bool :=
  let ts := (l.flatMap fun x => x.tasks.map (·.2)).filter Task.counts
  !ts.isEmpty && ts.all Task.memHeld

/-- The lowest cause that still holds a release (R421, R422). -/
def State.waitsFor (s : State) (c : Nat) : Option Nat :=
  ((s.blocks c).filter fun k => decide (k < 14)).foldl (fun best k =>
    match best with
    | some b => some (min b k)
    | none => some k) none

/-- One core cycle of a context: its tiles' interlocks count in every phase (R103, R107). -/
def State.jobCycle (s0 : State) (c : Nat) : State :=
  let s := if (s0.job c).running then s0.tallyAdd c 12 (((s0.job c).cfg.tiles.map fun t => (s0.tile t).interlocks).sum) else s0
  let j := s.job c
  match j.phase with
  | .caravan =>
    if 0 < j.frozen then s.setJob c { j with frozen := j.frozen - 1 }
    else s.setJob c { j with clock := j.clock + 1, measured := j.measured + 1, thawed := false, flits := [] }
  | .compute =>
    let l := j.cfg.tiles.map s.tile
    let s1 := s.setJob c { j with measured := j.measured + 1 }
    if memWait l then s1.tallyAdd c 5 1 else s1
  | .curfew =>
    if j.held then s
    else
      let met : Option Nat := match s.waitsFor c with
        | some k => some k
        | none => j.lastMet
      s.setJob c { j with waitCycles := j.waitCycles + 1, lastMet := met }
  | _ => s

/-- One tick of a context: elapsed time, and the time that it is held at its Curfew, under RECOVERY in units of 0.625 ns (R161,
R421). -/
def State.jobTick (s : State) (c : Nat) : State :=
  let j := s.job c
  let s1 := if j.phase = .curfew then s.setJob c { j with waited := j.waited + 1 } else s
  if j.held && j.phase == .curfew then s1.tallyAdd c 13 1 else s1

/-- The requests of a new core cycle: those that lost their bank, by priority; the lines that the array now fetches; and the stores
of the cycle before (R88, R91, R101). -/
def Tile.cycleUses (x : Tile) : List BankUse :=
  ([1, 2, 3, 4].flatMap fun p => x.bankWaits.filter (·.prio == p)) ++
    ((x.runs.filter (·.stage == .running)).flatMap fun r => bankUses 2 r.task r.pc (x.fetchLines r r.fed)) ++ x.bankNext

/-- A tile at the start of a core cycle: every bank is free and asked for anew, every waiting task is offered again, and an Ostler's
write whose bank was free has completed (R82, R91, R96). The answer counts the cycles of delay. -/
def Tile.newCycle (x : Tile) : Tile × Nat :=
  let y : Tile := { x with
    banks := [], bankWaits := [], bankNext := [], tasks := x.tasks.mapAll fun t => { t with hold := Hold.none }
    runs := x.runs.map fun r => if r.stage = .running then { r with fed := r.fed + 1 } else r
    inFlight := x.inFlight.map fun f => { f with now := f.now && x.banks.any fun b => b.bank == f.line % 12 } }
  y.useBanks x.cycleUses

/-- The core cycle of the module. -/
def State.coreCycle (s : State) : State :=
  let s1 := (List.range 8).foldl State.jobCycle s
  s1.tiles.foldl (fun s e => let r := e.2.newCycle; (s.setTile e.1 r.1).contractStall e.1 r.2) s1

/-- Engines whose unit of work has ended. -/
def State.enginesIdle (s : State) : State :=
  { s with
    ostlers := s.ostlers.mapAll fun o => { o with current := none, bounce := false }
    engines := s.engines.mapAll fun e => { e with busy := false, pass := 0 }
    porters := s.porters.mapAll fun p => { p with shipping := false } }

/-- A tick. -/
def State.tickOnce (s : State) : State :=
  let s1 := (List.range 8).foldl State.jobTick s
  let s2 := if s.power.coreEdge s.tick then s1.coreCycle else s1
  { s2.enginesIdle with tick := s.tick + 1 }

end Sys2Proof.Machine
end

