-- ==== Sys2Proof/Safety.lean ====
section
/-! DEFINITION. What a safe run is: one that neither faults nor refuses. -/

namespace Sys2Proof.Safety

/-- A step that answers a next state. -/
def stepsSafely (s : Sys2Proof.Machine.State) : Prop := ∃ t, Sys2Proof.Machine.step s = .next t

/-- A run of `k` steps that answers a state. -/
def runsSafely (k : Nat) (s : Sys2Proof.Machine.State) : Prop := ∃ t, Sys2Proof.core.run k s = .next t

end Sys2Proof.Safety
end

