-- ==== Sys2Proof/Certificates/Slice0/Obligations.lean ====
section
/-! DEFINITION. The statements for the provers, with the few words that they are said in. -/

namespace Sys2Proof.Claims
open Sys2Proof.Machine

/-! ### Words for the tile's instructions -/

/-- An instruction takes effect at its site: its task is in turn, the word at the program counter is the
instruction's, and its guard is true (R82, R85, R119). -/
abbrev Takes (i : Instr) (w : Site) (s : State) : Prop := s.issueOf i w = .take

/-- What an instruction of a task leaves: every part of the module but its tile, every other tile, the tile's
scratchpad and instruction store with the poison of its lines, and every other task of the tile, which is only offered
its next turn afresh. -/
def OwnTaskOnly (w : Site) (s t : State) : Prop :=
  { t with tiles := s.tiles } = s ∧ (∀ v, v ≠ w.tile → t.tile v = s.tile v) ∧
    (t.tile w.tile).pad = (s.tile w.tile).pad ∧ (t.tile w.tile).padPoison = (s.tile w.tile).padPoison ∧
    (t.tile w.tile).store = (s.tile w.tile).store ∧
    (∀ k, k ≠ w.task.val → (t.tile w.tile).task k = { (s.tile w.tile).task k with hold := .none })

/-- Registers of a task that an instruction leaves as they are, with their poison: all but those named. -/
def KeepsRegs (xs : List (BitVec 5)) (xa xv : List (BitVec 4)) (xp : List (BitVec 3)) (a b : Task) : Prop :=
  (∀ n, n ∉ xs → b.getS n = a.getS n ∧ b.tagS n = a.tagS n) ∧ (∀ n, n ∉ xa → b.getA n = a.getA n ∧ b.tagA n = a.tagA n) ∧
    (∀ n, n ∉ xv → b.getV n = a.getV n ∧ b.tagV n = a.tagV n) ∧ (∀ n, n ∉ xp → b.pred n = a.pred n)

/-- What of its task an instruction leaves that ends at byte offset `pc` with no fault: the control-space registers, the
tokens, and every register but those named; and the issue slot was its task's. -/
def Lands (w : Site) (pc : BitVec 16) (xs : List (BitVec 5)) (xa xv : List (BitVec 4)) (xp : List (BitVec 3)) (s t : State) :
    Prop :=
  KeepsRegs xs xa xv xp (s.taskAt w) (t.taskAt w) ∧ (t.taskAt w).pc = pc ∧ (t.taskAt w).state = (s.taskAt w).state ∧
    (t.taskAt w).sp = (s.taskAt w).sp ∧ (t.taskAt w).is = (s.taskAt w).is ∧ (t.taskAt w).acc = (s.taskAt w).acc ∧
    (t.taskAt w).ovf = (s.taskAt w).ovf ∧ (t.taskAt w).ctrl = (s.taskAt w).ctrl ∧ (t.taskAt w).tokens = (s.taskAt w).tokens ∧
    (t.tile w.tile).lastIssued = some w.task

/-- An instruction of `n` bytes has retired: its task goes on at the next instruction, keeps its control-space registers
and its tokens, and writes no register but those named. -/
def Passes (w : Site) (n : Nat) (xs : List (BitVec 5)) (xa xv : List (BitVec 4)) (xp : List (BitVec 3)) (s t : State) : Prop :=
  OwnTaskOnly w s t ∧ Lands w ((s.taskAt w).pc + BitVec.ofNat 16 n) xs xa xv xp s t

/-- The same for an instruction that writes neither a tensor slot nor the array configuration. -/
def Retires (w : Site) (n : Nat) (xs : List (BitVec 5)) (xa xv : List (BitVec 4)) (xp : List (BitVec 3)) (s t : State) : Prop :=
  Passes w n xs xa xv xp s t ∧ (t.taskAt w).slots = (s.taskAt w).slots ∧ (t.taskAt w).cfg = (s.taskAt w).cfg

/-- No register that an instruction names waits for a load, and no address or scalar register that it reads is
poisoned (R123, R219). -/
abbrev Clear (t : Task) (ss : List (BitVec 5)) (rs : List (BitVec 5)) (ra : List (BitVec 4)) : Prop :=
  t.waits ss [] = false ∧ (∀ n ∈ rs, t.tagS n = false) ∧ (∀ n ∈ ra, t.tagA n = false)

/-- The same for an instruction with vector operands. -/
abbrev ClearV (t : Task) (ss : List (BitVec 5)) (vs : List (BitVec 4)) (rs : List (BitVec 5)) (rv : List (BitVec 4)) : Prop :=
  t.waits ss vs = false ∧ (∀ n ∈ rs, t.tagS n = false) ∧ (∀ n ∈ rv, t.tagV n = false)

/-- The jobs differ at most in the causes of their Tally. -/
def TallyOnly (s t : State) : Prop := ∀ c, { t.job c with tally := (s.job c).tally } = s.job c

/-- What a scratchpad or array instruction leaves: every part of the module but its tile, the Tally (CONTRACT_STALL, R92)
and the choice of the next free value; every other tile; the tile's instruction store; and its other tasks, which are only
offered their next turn afresh. -/
def OwnTileOnly (w : Site) (s t : State) : Prop :=
  { t with tiles := s.tiles, jobs := s.jobs, fresh := s.fresh } = s ∧ TallyOnly s t ∧
    (∀ v, v ≠ w.tile → t.tile v = s.tile v) ∧ (t.tile w.tile).store = (s.tile w.tile).store ∧
    (∀ k, k ≠ w.task.val → (t.tile w.tile).task k = { (s.tile w.tile).task k with hold := .none })

/-- The scratchpad and the poison of its lines are unchanged. -/
def PadSame (u : Nat) (s t : State) : Prop := (t.tile u).pad = (s.tile u).pad ∧ (t.tile u).padPoison = (s.tile u).padPoison

/-- A scratchpad access of `n` bytes at a task's byte offset that nothing delays: in bounds (R85), its address clean
(R219), its register not waiting for a load (R123), none of its lines marked by a drain (R104). -/
def Reaches (s : State) (w : Site) (f : FM) (ss : List (BitVec 5)) (vs : List (BitVec 4)) (n : Nat) : Prop :=
  let x := s.tile w.tile
  let t := s.taskAt w
  let pa := t.padAddr (t.offset f)
  t.waits ss vs = false ∧ t.tagA f.ab = false ∧ t.offset f + n ≤ 64 * t.spBound ∧
    ∀ l, 64 * l < pa + n → pa < 64 * (l + 1) → x.markedByDrain l = false

/-- Lines that `n` bytes from a physical byte touch. -/
abbrev Touches (pa n l : Nat) : Prop := 64 * l < pa + n ∧ pa < 64 * (l + 1)

/-! ### The scalar table of R125 -/

/-- The two-operand forms of ALU, by FN, as R125 gives them. -/
def aluForms : List (BitVec 7 × (Word → Word → Word)) :=
  [(0x00, fun a b => a + b), (0x01, fun a b => a - b), (0x02, fun a b => a &&& b), (0x03, fun a b => a ||| b),
    (0x04, fun a b => a ^^^ b), (0x05, fun a b => a <<< (b &&& 31)), (0x06, fun a b => a >>> (b &&& 31)),
    (0x07, fun a b => a.sshiftRight (b &&& 31).toNat), (0x08, fun a b => a * b),
    (0x09, fun a b => (a.setWidth 64 * b.setWidth 64).extractLsb' 32 32),
    (0x0A, fun a b => (a.signExtend 64 * b.signExtend 64).extractLsb' 32 32),
    (0x0B, fun a b => if a.toInt ≤ b.toInt then a else b), (0x0C, fun a b => if a.toInt ≤ b.toInt then b else a),
    (0x0D, fun a b => if a.toNat ≤ b.toNat then a else b), (0x0E, fun a b => if a.toNat ≤ b.toNat then b else a)]

/-- The conditions of CMP and CMPI, by code (R125). -/
def conditions : List (Nat × (Word → Word → Bool)) :=
  [(0, fun a b => decide (a = b)), (1, fun a b => decide (a ≠ b)), (2, fun a b => decide (a.toInt < b.toInt)),
    (3, fun a b => decide (b.toInt ≤ a.toInt)), (4, fun a b => decide (a.toNat < b.toNat)),
    (5, fun a b => decide (b.toNat ≤ a.toNat))]

end Sys2Proof.Claims

open Sys2Proof Sys2Proof.Machine Sys2Proof.Claims

/-! ### Tile instructions: scalar, predicate, address -/

/-- ALU (R125): the fifteen two-operand forms write their result, clean, and MOV copies a register with its poison
(R218); nothing else of the task or the tile changes. -/
def Sys2Proof.Claims.AluResults : Prop :=
  (∀ (s : State) (w : Site) (f : FR) (op : Word → Word → Word), (f.fn, op) ∈ aluForms → Takes (.alu w f) w s →
    Clear (s.taskAt w) [f.d, f.a, f.b] [f.a, f.b] [] →
    ∃ t, exec (.alu w f) s = .next t ∧ Retires w 4 [f.d] [] [] [] s t ∧ (t.tile w.tile).nonfinite = (s.tile w.tile).nonfinite ∧
      (t.taskAt w).getS f.d = op ((s.taskAt w).getS f.a) ((s.taskAt w).getS f.b) ∧ (t.taskAt w).tagS f.d = false) ∧
  (∀ (s : State) (w : Site) (f : FR), f.fn = 0x0F → f.b = 0 → Takes (.alu w f) w s → Clear (s.taskAt w) [f.d, f.a] [] [] →
    ∃ t, exec (.alu w f) s = .next t ∧ Retires w 4 [f.d] [] [] [] s t ∧ (t.tile w.tile).nonfinite = (s.tile w.tile).nonfinite ∧
      (t.taskAt w).getS f.d = (s.taskAt w).getS f.a ∧ (t.taskAt w).tagS f.d = (s.taskAt w).tagS f.a)

/-- ADDI, ANDI, ORI, XORI, SHI, LI and LIL (R125): the immediate is sign-extended in ADDI and LI, zero-extended in ANDI, ORI
and XORI; SHI shifts by IMM12[4:0]; LIL takes both words. -/
def Sys2Proof.Claims.ImmediateResults : Prop :=
  (∀ (s : State) (w : Site) (f : FI), Clear (s.taskAt w) [f.d, f.a] [f.a] [] →
    (Takes (.addi w f) w s → ∃ t, exec (.addi w f) s = .next t ∧ Retires w 4 [f.d] [] [] [] s t ∧
      (t.taskAt w).getS f.d = (s.taskAt w).getS f.a + f.imm.signExtend 32) ∧
    (Takes (.andi w f) w s → ∃ t, exec (.andi w f) s = .next t ∧ Retires w 4 [f.d] [] [] [] s t ∧
      (t.taskAt w).getS f.d = (s.taskAt w).getS f.a &&& f.imm.zeroExtend 32) ∧
    (Takes (.ori w f) w s → ∃ t, exec (.ori w f) s = .next t ∧ Retires w 4 [f.d] [] [] [] s t ∧
      (t.taskAt w).getS f.d = (s.taskAt w).getS f.a ||| f.imm.zeroExtend 32) ∧
    (Takes (.xori w f) w s → ∃ t, exec (.xori w f) s = .next t ∧ Retires w 4 [f.d] [] [] [] s t ∧
      (t.taskAt w).getS f.d = (s.taskAt w).getS f.a ^^^ f.imm.zeroExtend 32) ∧
    (Takes (.shi w f) w s → f.imm.extractLsb' 7 5 = 0 → f.imm.extractLsb' 5 2 ≠ 3 →
      ∃ t, exec (.shi w f) s = .next t ∧ Retires w 4 [f.d] [] [] [] s t ∧
        (let a := (s.taskAt w).getS f.a
         let n := (f.imm.extractLsb' 0 5).toNat
         (f.imm.extractLsb' 5 2 = 0 → (t.taskAt w).getS f.d = a <<< n) ∧
         (f.imm.extractLsb' 5 2 = 1 → (t.taskAt w).getS f.d = a >>> n) ∧
         (f.imm.extractLsb' 5 2 = 2 → (t.taskAt w).getS f.d = a.sshiftRight n)))) ∧
  (∀ (s : State) (w : Site) (f : FJ), Takes (.li w f) w s → Clear (s.taskAt w) [f.d] [] [] →
    ∃ t, exec (.li w f) s = .next t ∧ Retires w 4 [f.d] [] [] [] s t ∧ (t.taskAt w).getS f.d = f.imm.signExtend 32) ∧
  (∀ (s : State) (w : Site) (f : FL), Takes (.lil w f) w s → f.rsv = 0 →
    (f.k = 0 → Clear (s.taskAt w) [f.d] [] [] →
      ∃ t, exec (.lil w f) s = .next t ∧ Retires w 8 [f.d] [] [] [] s t ∧ (t.taskAt w).getS f.d = f.imm) ∧
    (f.k = 1 → f.d.getLsbD 4 = false →
      ∃ t, exec (.lil w f) s = .next t ∧ Retires w 8 [] [f.d.setWidth 4] [] [] s t ∧
        (t.taskAt w).getA (f.d.setWidth 4) = f.imm))

/-- The scalar register and immediate arithmetic instructions: what each writes, that it completes, and its frame. -/
def Obligations.ScalarResults : Prop :=
  Sys2Proof.Claims.AluResults ∧ Sys2Proof.Claims.ImmediateResults

/-- CMP, CMPI, the predicate forms, PGET, PPUT, TFLAG and NOP (R124, R125, R147, R149): a predicate other than p0 takes
its value, and p0 goes on reading as 1. -/
def Sys2Proof.Claims.PredicateResults : Prop :=
  (∀ (s : State) (w : Site) (f : FR) (op : Word → Word → Bool), (f.fn.toNat, op) ∈ conditions → f.d.toNat < 8 →
    Takes (.cmp w f) w s → Clear (s.taskAt w) [f.a, f.b] [f.a, f.b] [] →
    ∃ t, exec (.cmp w f) s = .next t ∧ Retires w 4 [] [] [] [f.d.setWidth 3] s t ∧
      (t.taskAt w).pred (f.d.setWidth 3) = (f.d == 0 || op ((s.taskAt w).getS f.a) ((s.taskAt w).getS f.b))) ∧
  (∀ (s : State) (w : Site) (f : FC) (op : Word → Word → Bool), (f.cond.toNat, op) ∈ conditions →
    Takes (.cmpi w f) w s → Clear (s.taskAt w) [f.a] [f.a] [] →
    ∃ t, exec (.cmpi w f) s = .next t ∧ Retires w 4 [] [] [] [f.pd] s t ∧
      (t.taskAt w).pred f.pd = (f.pd == 0 || op ((s.taskAt w).getS f.a) (f.imm.signExtend 32))) ∧
  (∀ (s : State) (w : Site) (f : FR), Takes (.plog w f) w s → f.d.toNat < 8 → f.a.toNat < 8 → f.b.toNat < 8 →
    let a := (s.taskAt w).pred (f.a.setWidth 3)
    let b := (s.taskAt w).pred (f.b.setWidth 3)
    ∀ v, ((f.fn = 0 ∧ v = (a && b)) ∨ (f.fn = 1 ∧ v = (a || b)) ∨ (f.fn = 2 ∧ v = (a ^^ b)) ∨ (f.fn = 3 ∧ v = (a && !b)) ∨
      (f.fn = 4 ∧ f.a = 0 ∧ f.b = 0 ∧ v = true) ∨ (f.fn = 5 ∧ f.a = 0 ∧ f.b = 0 ∧ v = false) ∨ (f.fn = 6 ∧ f.b = 0 ∧ v = !a)) →
    ∃ t, exec (.plog w f) s = .next t ∧ Retires w 4 [] [] [] [f.d.setWidth 3] s t ∧
      (t.taskAt w).pred (f.d.setWidth 3) = (f.d == 0 || v)) ∧
  (∀ (s : State) (w : Site) (f : FR), Takes (.pmov w f) w s → f.b = 0 →
    (f.fn = 0 → f.a = 0 → Clear (s.taskAt w) [f.d] [] [] →
      ∃ t, exec (.pmov w f) s = .next t ∧ Retires w 4 [f.d] [] [] [] s t ∧
        ∀ n : Nat, ((t.taskAt w).getS f.d).getLsbD n = (decide (n < 8) && (s.taskAt w).pred (BitVec.ofNat 3 n))) ∧
    (f.fn = 1 → f.d = 0 → Clear (s.taskAt w) [f.a] [f.a] [] →
      ∃ t, exec (.pmov w f) s = .next t ∧ Retires w 4 [] [] [] [1, 2, 3, 4, 5, 6, 7] s t ∧
        ∀ n : BitVec 3, n ≠ 0 → (t.taskAt w).pred n = ((s.taskAt w).getS f.a).getLsbD n.toNat)) ∧
  (∀ (s : State) (w : Site) (f : FT), Takes (.tflag w f) w s → f.tn.toNat < 8 → f.s = 0 → f.rsv = 0 → f.n = 0 →
    ∃ t, exec (.tflag w f) s = .next t ∧ Retires w 4 [] [] [] [f.tn.setWidth 3] s t ∧
      (t.taskAt w).pred (f.tn.setWidth 3) = (f.tn == 0 || (s.tile w.tile).nonfinite)) ∧
  (∀ (s : State) (w : Site) (f : FR), Takes (.nop w f) w s → f.d = 0 → f.a = 0 → f.b = 0 → f.fn = 0 →
    ∃ t, exec (.nop w f) s = .next t ∧ Retires w 4 [] [] [] [] s t)

/-- The address instructions (R126): sums and differences wrap, AGET, APUT and AMOV copy with the poison (R218), and no
bounds are checked. -/
def Sys2Proof.Claims.AddressResults : Prop :=
  (∀ (s : State) (w : Site) (f : FR), Takes (.aop w f) w s →
    let x := s.taskAt w
    let d := f.d.setWidth 4
    let a := f.a.setWidth 4
    (f.d.toNat < 16 → f.a.toNat < 16 → Clear x [f.b] [f.b] [a] → (f.fn = 0 ∨ f.fn = 1) →
      ∃ t, exec (.aop w f) s = .next t ∧ Retires w 4 [] [d] [] [] s t ∧
        (t.taskAt w).getA d = if f.fn = 0 then x.getA a + x.getS f.b else x.getA a - x.getS f.b) ∧
    (f.fn = 2 → f.b = 0 → f.a.toNat < 16 → Clear x [f.d] [] [] →
      ∃ t, exec (.aop w f) s = .next t ∧ Retires w 4 [f.d] [] [] [] s t ∧ (t.taskAt w).getS f.d = x.getA a ∧
        (t.taskAt w).tagS f.d = x.tagA a) ∧
    (f.fn = 3 → f.b = 0 → f.d.toNat < 16 → Clear x [f.a] [] [] →
      ∃ t, exec (.aop w f) s = .next t ∧ Retires w 4 [] [d] [] [] s t ∧ (t.taskAt w).getA d = x.getS f.a ∧
        (t.taskAt w).tagA d = x.tagS f.a) ∧
    (f.fn = 4 → f.b = 0 → f.d.toNat < 16 → f.a.toNat < 16 →
      ∃ t, exec (.aop w f) s = .next t ∧ Retires w 4 [] [d] [] [] s t ∧ (t.taskAt w).getA d = x.getA a ∧
        (t.taskAt w).tagA d = x.tagA a)) ∧
  (∀ (s : State) (w : Site) (f : FI), Takes (.aaddi w f) w s → f.d.toNat < 16 → f.a.toNat < 16 →
    Clear (s.taskAt w) [] [] [f.a.setWidth 4] →
    ∃ t, exec (.aaddi w f) s = .next t ∧ Retires w 4 [] [f.d.setWidth 4] [] [] s t ∧
      (t.taskAt w).getA (f.d.setWidth 4) = (s.taskAt w).getA (f.a.setWidth 4) + f.imm.signExtend 32)

/-- The compares, the predicate and the address instructions: what each writes, that it completes, and its frame. -/
def Obligations.PredicatesAndAddresses : Prop :=
  Sys2Proof.Claims.PredicateResults ∧ Sys2Proof.Claims.AddressResults
/-! ### Tile instructions: scratchpad -/

/-- LD and VLD issue (R85, R88, R127): the load takes the bytes at a[AB] + OFF11 modulo 2^32, by SZ, as the tile reads them now, with the
poison of their lines, and waits among the task's loads; no register and no byte of scratchpad changes. With no Ostler write in flight
the bytes and the poison are the scratchpad's. -/
def Sys2Proof.Claims.LoadsIssue : Prop :=
  (∀ (s : State) (w : Site) (f : FM) (n : Nat), Takes (.ld w f) w s →
    ((f.sz = 0 ∧ n = 1) ∨ (f.sz = 1 ∧ n = 2) ∨ (f.sz = 2 ∧ n = 4) ∨ (f.sz = 3 ∧ n = 1)) → Reaches s w f [f.d] [] n →
    (s.taskAt w).loads.length < 8 →
    let off := ((s.taskAt w).getA f.ab + f.off.signExtend 32).toNat
    let pa := 64 * (s.taskAt w).spBase + off
    let x := (s.tile w.tile).seen s.fresh
    let bytes := x.pad.read pa n
    let v : Word := if f.sz = 3 then (BitVec.ofNat 8 (ofBytes bytes)).signExtend 32 else BitVec.ofNat 32 (ofBytes bytes)
    ((s.tile w.tile).inFlight = [] → x = s.tile w.tile) ∧
    ∃ t poison, exec (.ld w f) s = .next t ∧ OwnTileOnly w s t ∧ PadSame w.tile s t ∧
      Lands w ((s.taskAt w).pc + 4) [] [] [] [] s t ∧ (poison = true ↔ ∃ l, Touches pa n l ∧ l ∈ x.padPoison) ∧
      (t.taskAt w).loads = (s.taskAt w).loads ++ [⟨false, (s.taskAt w).pc, f.d, v.setWidth 1024, poison⟩]) ∧
  (∀ (s : State) (w : Site) (f : FM), Takes (.vld w f) w s → f.sz = 0 → f.d.toNat < 16 →
    Reaches s w f [] [f.d.setWidth 4] 128 → (s.taskAt w).loads.length < 8 →
    let off := ((s.taskAt w).getA f.ab + f.off.signExtend 32).toNat
    let pa := 64 * (s.taskAt w).spBase + off
    let x := (s.tile w.tile).seen s.fresh
    ((s.tile w.tile).inFlight = [] → x = s.tile w.tile) ∧
    ∃ t poison, exec (.vld w f) s = .next t ∧ OwnTileOnly w s t ∧ PadSame w.tile s t ∧
      Lands w ((s.taskAt w).pc + 4) [] [] [] [] s t ∧ (poison = true ↔ ∃ l, Touches pa 128 l ∧ l ∈ x.padPoison) ∧
      (t.taskAt w).loads =
        (s.taskAt w).loads ++ [⟨true, (s.taskAt w).pc, f.d, BitVec.ofNat 1024 (ofBytes (x.pad.read pa 128)), poison⟩])

/-- SCRATCHPAD_LOAD_RETURN (R88, R92, R218): an outstanding load writes its register, with the poison of the lines it read, and leaves the
list, whichever of the list it is; one whose access still waits for a bank does not return yet. -/
def Sys2Proof.Claims.LoadReturns : Prop :=
  ∀ (s : State) (w : Site) (n : Nat) (l : Load), (s.taskAt w).loads[n]? = some l → (l.vector = true → l.dest.toNat < 16) →
    ((∀ u ∈ (s.tile w.tile).bankWaits, ¬ (u.prio = 3 ∧ u.task = w.task ∧ u.pc = l.pc)) →
      ∃ t, exec (.scratchpadLoadReturn w n) s = .next t ∧ { t with tiles := s.tiles } = s ∧
        (∀ v, v ≠ w.tile → t.tile v = s.tile v) ∧ PadSame w.tile s t ∧
        (∀ k, k ≠ w.task.val → (t.tile w.tile).task k = (s.tile w.tile).task k) ∧
        (t.taskAt w).loads = (s.taskAt w).loads.eraseIdx n ∧ (t.taskAt w).pc = (s.taskAt w).pc ∧
        (l.vector = false → KeepsRegs [l.dest] [] [] [] (s.taskAt w) (t.taskAt w) ∧
          (t.taskAt w).getS l.dest = l.data.setWidth 32 ∧ (t.taskAt w).tagS l.dest = l.poison) ∧
        (l.vector = true → KeepsRegs [] [] [l.dest.setWidth 4] [] (s.taskAt w) (t.taskAt w) ∧
          (t.taskAt w).getV (l.dest.setWidth 4) = l.data ∧ (t.taskAt w).tagV (l.dest.setWidth 4) = l.poison)) ∧
    (∀ u ∈ (s.tile w.tile).bankWaits, u.prio = 3 → u.task = w.task → u.pc = l.pc →
      exec (.scratchpadLoadReturn w n) s = .next s)

/-- An LD or VLD issues, and what the load brings when it returns. -/
def Obligations.Loads : Prop :=
  Sys2Proof.Claims.LoadsIssue ∧ Sys2Proof.Claims.LoadReturns

/-- ST and VST (R85, R127, R216, R217): the bytes at a[AB] + OFF11 take the register's, every byte of scratchpad outside them reads as
before, and a poisoned line stays poisoned unless a clean and aligned vector store writes it whole. -/
def Sys2Proof.Claims.StoresLand : Prop :=
  (∀ (s : State) (w : Site) (f : FM) (n : Nat), Memory.wf (s.tile w.tile).pad = true → Takes (.st w f) w s →
    ((f.sz = 0 ∧ n = 1) ∨ (f.sz = 1 ∧ n = 2) ∨ (f.sz = 2 ∧ n = 4)) → Reaches s w f [f.d] [] n →
    let pa := 64 * (s.taskAt w).spBase + ((s.taskAt w).getA f.ab + f.off.signExtend 32).toNat
    (∀ l, Touches pa n l → (s.tile w.tile).heldByChecker l = false) →
    ∃ t, exec (.st w f) s = .next t ∧ OwnTileOnly w s t ∧ Lands w ((s.taskAt w).pc + 4) [] [] [] [] s t ∧
      (t.taskAt w).loads = (s.taskAt w).loads ∧
      (∀ i, i < n → (t.tile w.tile).pad.get (pa + i) = ((s.taskAt w).getS f.d).extractLsb' (8 * i) 8) ∧
      (∀ a, a < pa ∨ pa + n ≤ a → (t.tile w.tile).pad.get a = (s.tile w.tile).pad.get a) ∧
      (∀ l, l ∈ (t.tile w.tile).padPoison ↔
        l ∈ (s.tile w.tile).padPoison ∨ (Touches pa n l ∧ (s.taskAt w).tagS f.d = true))) ∧
  (∀ (s : State) (w : Site) (f : FM), Memory.wf (s.tile w.tile).pad = true → Takes (.vst w f) w s → f.sz = 0 →
    f.d.toNat < 16 → Reaches s w f [] [f.d.setWidth 4] 128 →
    let off := ((s.taskAt w).getA f.ab + f.off.signExtend 32).toNat
    let pa := 64 * (s.taskAt w).spBase + off
    (∀ l, Touches pa 128 l → (s.tile w.tile).heldByChecker l = false) →
    ∃ t, exec (.vst w f) s = .next t ∧ OwnTileOnly w s t ∧ Lands w ((s.taskAt w).pc + 4) [] [] [] [] s t ∧
      (t.taskAt w).loads = (s.taskAt w).loads ∧
      (∀ i, i < 128 → (t.tile w.tile).pad.get (pa + i) = ((s.taskAt w).getV (f.d.setWidth 4)).extractLsb' (8 * i) 8) ∧
      (∀ a, a < pa ∨ pa + 128 ≤ a → (t.tile w.tile).pad.get a = (s.tile w.tile).pad.get a) ∧
      (∀ l, l ∈ (t.tile w.tile).padPoison ↔
        if Touches pa 128 l then (s.taskAt w).tagV (f.d.setWidth 4) = true ∨ (off % 64 ≠ 0 ∧ l ∈ (s.tile w.tile).padPoison)
        else l ∈ (s.tile w.tile).padPoison))

/-- What a scratchpad access waits for (R104, R109, R123, R498): a register that a load will write, a line that a drain will write, for a
store a line held for the checker, and for a load one of eight places among the task's loads. It then changes nothing but the reason that
its task notes. -/
def Sys2Proof.Claims.AccessesWait : Prop :=
  ∀ (s : State) (w : Site) (f : FM),
    let x := s.tile w.tile
    let t := s.taskAt w
    let off := (t.getA f.ab + f.off.signExtend 32).toNat
    let pa := 64 * t.spBase + off
    let n := if f.sz = 1 then 2 else if f.sz = 2 then 4 else 1
    (Takes (.ld w f) w s →
      (t.waits [f.d] [] = true → exec (.ld w f) s = .next (s.holdTask w .interlock)) ∧
      (t.waits [f.d] [] = false → t.tagA f.ab = false → off + n ≤ 64 * t.spBound →
        (∀ l, Touches pa n l → x.markedByDrain l = true → exec (.ld w f) s = .next (s.holdTask w .drains)) ∧
        ((∀ l, Touches pa n l → x.markedByDrain l = false) → 8 ≤ t.loads.length →
          exec (.ld w f) s = .next (s.holdTask w .resource)))) ∧
    (Takes (.st w f) w s → f.sz ≠ 3 →
      (t.waits [f.d] [] = true → exec (.st w f) s = .next (s.holdTask w .interlock)) ∧
      (t.waits [f.d] [] = false → t.tagA f.ab = false → off + n ≤ 64 * t.spBound →
        (∀ l, Touches pa n l → x.markedByDrain l = true → exec (.st w f) s = .next (s.holdTask w .drains)) ∧
        ((∀ l, Touches pa n l → x.markedByDrain l = false) → ∀ l, Touches pa n l → x.heldByChecker l = true →
          exec (.st w f) s = .next (s.holdTask w .checker)))) ∧
    (Takes (.vld w f) w s → f.sz = 0 → f.d.toNat < 16 →
      (t.waits [] [f.d.setWidth 4] = true → exec (.vld w f) s = .next (s.holdTask w .interlock)) ∧
      (t.waits [] [f.d.setWidth 4] = false → t.tagA f.ab = false → off + 128 ≤ 64 * t.spBound →
        (∀ l, Touches pa 128 l → x.markedByDrain l = true → exec (.vld w f) s = .next (s.holdTask w .drains)) ∧
        ((∀ l, Touches pa 128 l → x.markedByDrain l = false) → 8 ≤ t.loads.length →
          exec (.vld w f) s = .next (s.holdTask w .resource)))) ∧
    (Takes (.vst w f) w s → f.sz = 0 → f.d.toNat < 16 →
      (t.waits [] [f.d.setWidth 4] = true → exec (.vst w f) s = .next (s.holdTask w .interlock)) ∧
      (t.waits [] [f.d.setWidth 4] = false → t.tagA f.ab = false → off + 128 ≤ 64 * t.spBound →
        (∀ l, Touches pa 128 l → x.markedByDrain l = true → exec (.vst w f) s = .next (s.holdTask w .drains)) ∧
        ((∀ l, Touches pa 128 l → x.markedByDrain l = false) → ∀ l, Touches pa 128 l → x.heldByChecker l = true →
          exec (.vst w f) s = .next (s.holdTask w .checker)))) ∧
    (∀ h, { (s.holdTask w h) with tiles := s.tiles } = s ∧ (∀ v, v ≠ w.tile → (s.holdTask w h).tile v = s.tile v) ∧
      PadSame w.tile s (s.holdTask w h) ∧ (∀ k, k ≠ w.task.val → ((s.holdTask w h).tile w.tile).task k = x.task k) ∧
      (s.holdTask w h).taskAt w = { t with hold := h })

/-- The scratchpad stores: which bytes they write, and what any scratchpad access waits for. -/
def Obligations.StoresWrite : Prop :=
  Sys2Proof.Claims.StoresLand ∧ Sys2Proof.Claims.AccessesWait

/-- R85, R86: an access that leaves the task's scratchpad region does not complete. No byte is written, no register of
the task changes, the task halts with STATE 0b011, and its running job is told to stop at the next Curfew; the event is
SCRATCHPAD_BOUNDS with the instruction's address and the offset. -/
def Obligations.OutOfBoundsHalts : Prop :=
  (∀ (s : State) (w : Site) (f : FM), Clear (s.taskAt w) [f.d] [] [f.ab] →
    let off := ((s.taskAt w).getA f.ab + f.off.signExtend 32).toNat
    let addr := w.task.val * 65536 + (s.taskAt w).pc.toNat
    (Takes (.ld w f) w s → 64 * (s.taskAt w).spBound < off + (if f.sz = 1 then 2 else if f.sz = 2 then 4 else 1) →
      exec (.ld w f) s = .next (s.haltTask w 0x0103 addr off)) ∧
    (Takes (.st w f) w s → f.sz ≠ 3 → 64 * (s.taskAt w).spBound < off + (if f.sz = 1 then 2 else if f.sz = 2 then 4 else 1) →
      exec (.st w f) s = .next (s.haltTask w 0x0103 addr off))) ∧
  (∀ (s : State) (w : Site) (f : FM), f.sz = 0 → f.d.toNat < 16 → (s.taskAt w).waits [] [f.d.setWidth 4] = false →
    (s.taskAt w).tagA f.ab = false →
    let off := ((s.taskAt w).getA f.ab + f.off.signExtend 32).toNat
    let addr := w.task.val * 65536 + (s.taskAt w).pc.toNat
    64 * (s.taskAt w).spBound < off + 128 →
    (Takes (.vld w f) w s → exec (.vld w f) s = .next (s.haltTask w 0x0103 addr off)) ∧
    (Takes (.vst w f) w s → exec (.vst w f) s = .next (s.haltTask w 0x0103 addr off))) ∧
  (∀ (s : State) (w : Site) (code : BitVec 16) (a b c : Nat),
    let t := s.haltTask w code a b
    (t.taskAt w).state = .faulted ∧ KeepsRegs [] [] [] [] (s.taskAt w) (t.taskAt w) ∧ (∀ u, PadSame u s t) ∧ t.mem = s.mem ∧
      (s.ctxOf w.tile = some c → (s.job c).phase = .compute → (t.job c).stop = true ∧ (t.job c).phase = .compute))

/-! ### Tile instructions: branches -/

/-- BR, JR and LOOP (R128): a taken branch goes to its target, a link register takes PC + 4, LOOP counts down and falls
through at zero. A target that 16 bits cannot hold lies outside every instruction-store region. -/
def Sys2Proof.Claims.Branches : Prop :=
  (∀ (s : State) (w : Site) (f : FB), Takes (.br w f) w s → f.rsv = 0 →
    let target : Int := (s.taskAt w).pc.toNat + 4 * f.off.toInt
    0 ≤ target → target < 65536 →
    (f.l = 0 → f.s = 0 → ∃ t, exec (.br w f) s = .next t ∧ OwnTaskOnly w s t ∧
      Lands w (BitVec.ofInt 16 target) [] [] [] [] s t) ∧
    (f.l = 1 → Clear (s.taskAt w) [f.s] [] [] → ∃ t, exec (.br w f) s = .next t ∧ OwnTaskOnly w s t ∧
      Lands w (BitVec.ofInt 16 target) [f.s] [] [] [] s t ∧
      ((t.taskAt w).getS f.s).toNat = (s.taskAt w).pc.toNat + 4)) ∧
  (∀ (s : State) (w : Site) (f : FB), Takes (.jr w f) w s → f.rsv = 0 → f.off.extractLsb' 0 9 = 0 →
    let r : BitVec 5 := f.off.extractLsb' 9 5
    let v := (s.taskAt w).getS r
    v.toNat % 4 = 0 → v.toNat < 65536 →
    (f.l = 0 → f.s = 0 → Clear (s.taskAt w) [r] [r] [] → ∃ t, exec (.jr w f) s = .next t ∧ OwnTaskOnly w s t ∧
      Lands w (BitVec.ofNat 16 v.toNat) [] [] [] [] s t) ∧
    (f.l = 1 → Clear (s.taskAt w) [r, f.s] [r] [] → ∃ t, exec (.jr w f) s = .next t ∧ OwnTaskOnly w s t ∧
      Lands w (BitVec.ofNat 16 v.toNat) [f.s] [] [] [] s t ∧
      ((t.taskAt w).getS f.s).toNat = (s.taskAt w).pc.toNat + 4)) ∧
  (∀ (s : State) (w : Site) (f : FB), Takes (.loop w f) w s → f.rsv = 0 → f.l = 0 → Clear (s.taskAt w) [f.s] [f.s] [] →
    let n := (s.taskAt w).getS f.s - 1
    let target : Int := (s.taskAt w).pc.toNat + 4 * f.off.toInt
    (n = 0 → ∃ t, exec (.loop w f) s = .next t ∧ OwnTaskOnly w s t ∧
      Lands w ((s.taskAt w).pc + 4) [f.s] [] [] [] s t ∧ (t.taskAt w).getS f.s = 0) ∧
    (n ≠ 0 → 0 ≤ target → target < 65536 → ∃ t, exec (.loop w f) s = .next t ∧ OwnTaskOnly w s t ∧
      Lands w (BitVec.ofInt 16 target) [f.s] [] [] [] s t ∧ (t.taskAt w).getS f.s = n))

/-- A guard that is false (R119): any tile instruction at the program counter is passed over by its size, eight bytes for
LIL and four for the rest, and has no other effect. -/
def Sys2Proof.Claims.GuardFalsePassesOver : Prop :=
  ∀ (s : State) (i : Instr) (w : Site) (word : Word), s.mayIssue w = true →
    (s.taskAt w).fetchable (s.taskAt w).pc.toNat = true →
    (s.tile w.tile).wordAt (s.taskAt w) (s.taskAt w).pc.toNat = word → tileWord i = some word →
    decodeTile w word ((s.tile w.tile).wordAt (s.taskAt w) ((s.taskAt w).pc.toNat + 4)) = some i →
    guardHolds (guardOf word) (s.taskAt w) = false →
    ∃ t, exec i s = .next t ∧ Retires w (if opOf word = 0x09 then 8 else 4) [] [] [] [] s t ∧
      (t.tile w.tile).nonfinite = (s.tile w.tile).nonfinite

/-- BR, JR and LOOP; and any instruction whose guard is false. -/
def Obligations.BranchesAndGuards : Prop :=
  Sys2Proof.Claims.Branches ∧ Sys2Proof.Claims.GuardFalsePassesOver
/-! ### Tile instructions: vector -/

/-- VOP (R129): each of the 32 lanes takes its operation's result, clean; the accumulating square adds into the destination's own lane,
and VMOV copies bits with the poison (R218). NONFINITE is raised exactly when a form other than VMOV writes an infinity or a NaN (R37). -/
def Obligations.VectorArithmetic : Prop :=
  (∀ (s : State) (w : Site) (f : FV) (op : Word → Word → Word → Word), Takes (.vop w f) w s →
    ((f.fn = 0x00 ∧ op = fun a b _ => fadd a b) ∨ (f.fn = 0x01 ∧ op = fun a b _ => fsub a b) ∨
      (f.fn = 0x02 ∧ op = fun a b _ => fmul a b) ∨ (f.fn = 0x03 ∧ op = fun a b _ => fdiv a b) ∨
      (f.fn = 0x04 ∧ op = fun a b c => ffma a b c) ∨ (f.fn = 0x05 ∧ op = fun a _ _ => fsqrt a) ∨
      (f.fn = 0x06 ∧ op = fun a b _ => fmin a b) ∨ (f.fn = 0x07 ∧ op = fun a b _ => fmax a b) ∨
      (f.fn = 0x08 ∧ op = fun a _ _ => fabs a) ∨ (f.fn = 0x09 ∧ op = fun a _ _ => fneg a) ∨
      (f.fn = 0x0B ∧ op = fun a _ d => fadd d (fmul a a))) →
    (f.fn ≠ 0x04 → f.vc = 0) → (f.fn = 0x05 ∨ f.fn = 0x08 ∨ f.fn = 0x09 ∨ f.fn = 0x0B → f.vb = 0) →
    let x := s.taskAt w
    let third := if f.fn = 0x0B then f.vd else f.vc
    let src := if f.fn = 0x04 then [f.va, f.vb, f.vc] else if f.fn = 0x0B then [f.va, f.vd]
      else if f.fn = 0x05 ∨ f.fn = 0x08 ∨ f.fn = 0x09 then [f.va] else [f.va, f.vb]
    ClearV x [] (f.vd :: src) [] src →
    ∃ t, exec (.vop w f) s = .next t ∧ Retires w 4 [] [] [f.vd] [] s t ∧
      (∀ i, i < 32 → lane ((t.taskAt w).getV f.vd) i = op (lane (x.getV f.va) i) (lane (x.getV f.vb) i) (lane (x.getV third) i)) ∧
      (t.taskAt w).tagV f.vd = false ∧
      ((t.tile w.tile).nonfinite = true ↔ (s.tile w.tile).nonfinite = true ∨
        ∃ i, i < 32 ∧ nonfinite32 (lane ((t.taskAt w).getV f.vd) i) = true)) ∧
  (∀ (s : State) (w : Site) (f : FV), Takes (.vop w f) w s → f.fn = 0x0A → f.vb = 0 → f.vc = 0 →
    (s.taskAt w).waits [] [f.vd, f.va] = false →
    ∃ t, exec (.vop w f) s = .next t ∧ Retires w 4 [] [] [f.vd] [] s t ∧ (t.taskAt w).getV f.vd = (s.taskAt w).getV f.va ∧
      (t.taskAt w).tagV f.vd = (s.taskAt w).tagV f.va ∧ (t.tile w.tile).nonfinite = (s.tile w.tile).nonfinite)

/-- VXFER (R130, R218): broadcast, lane to scalar, scalar to lane; poison moves with the data and a register written in
part stays poisoned. -/
def Sys2Proof.Claims.VectorTransfers : Prop :=
  ∀ (s : State) (w : Site) (f : FR), Takes (.vxfer w f) w s →
    let x := s.taskAt w
    let vd : BitVec 4 := f.d.setWidth 4
    let va : BitVec 4 := f.a.setWidth 4
    (f.fn = 0 → f.d.toNat < 16 → f.b = 0 → x.waits [f.a] [vd] = false →
      ∃ t, exec (.vxfer w f) s = .next t ∧ Retires w 4 [] [] [vd] [] s t ∧
        (∀ i, i < 32 → lane ((t.taskAt w).getV vd) i = x.getS f.a) ∧ (t.taskAt w).tagV vd = x.tagS f.a ∧
        (t.tile w.tile).nonfinite = (s.tile w.tile).nonfinite) ∧
    (f.fn = 1 → f.a.toNat < 16 → x.waits [f.d] [va] = false →
      ∃ t, exec (.vxfer w f) s = .next t ∧ Retires w 4 [f.d] [] [] [] s t ∧
        (t.taskAt w).getS f.d = lane (x.getV va) f.b.toNat ∧ (t.taskAt w).tagS f.d = x.tagV va ∧
        (t.tile w.tile).nonfinite = (s.tile w.tile).nonfinite) ∧
    (f.fn = 2 → f.d.toNat < 16 → x.waits [f.a] [vd] = false →
      ∃ t, exec (.vxfer w f) s = .next t ∧ Retires w 4 [] [] [vd] [] s t ∧
        lane ((t.taskAt w).getV vd) f.b.toNat = x.getS f.a ∧
        (∀ i, i < 32 → i ≠ f.b.toNat → lane ((t.taskAt w).getV vd) i = lane (x.getV vd) i) ∧
        (t.taskAt w).tagV vd = (x.tagV vd || x.tagS f.a) ∧ (t.tile w.tile).nonfinite = (s.tile w.tile).nonfinite)

/-- VCVT, unpacking (R32, R37, R40, R43, R132): lane i takes the FP32 value of element i of the group, scaled by the scale byte for FP6 and
FP4, and by the slot's exponent for FP8, whose slot is filled and of its format. The result is clean, and NONFINITE is raised exactly
when it holds an infinity or a NaN. -/
def Sys2Proof.Claims.VectorUnpacks : Prop :=
  ∀ (s : State) (w : Site) (f : FV), Takes (.vcvt w f) w s → f.fn.extractLsb' 0 2 = 0 → f.fn.getLsbD 5 = false →
    let x := s.taskAt w
    let code := (f.fn.extractLsb' 2 3).toNat
    let n := widthOf code
    let sc : BitVec 5 := f.vc.setWidth 5
    let mx := code = 4 ∨ code = 5
    let e (i : Nat) : Nat := (x.getV f.va).toNat / 2 ^ (32 * n * f.vb.toNat + n * i) % 2 ^ n
    code < 7 → f.vb.toNat < 32 / n → (code = 0 ∨ code = 1 ∨ code = 6 → f.vc = 0) →
    ClearV x (if mx then [sc] else []) [f.vd, f.va] (if mx then [sc] else []) [f.va] →
    ((code = 2 ∨ code = 3) → (x.slot f.vc).filled = true ∧ (x.slot f.vc).format.toNat + 2 = code) →
    ∃ t, exec (.vcvt w f) s = .next t ∧ Retires w 4 [] [] [f.vd] [] s t ∧ (t.taskAt w).tagV f.vd = false ∧
      (∀ i, i < 32 → lane ((t.taskAt w).getV f.vd) i =
        if mx then mxUnpack code (e i) ((x.getS sc).extractLsb' 0 8)
        else if code = 2 ∨ code = 3 then fp8Read (valueOf code (e i)) (x.slot f.vc).scale else to32 (valueOf code (e i))) ∧
      ((t.tile w.tile).nonfinite = true ↔ (s.tile w.tile).nonfinite = true ∨
        ∃ i, i < 32 ∧ nonfinite32 (lane ((t.taskAt w).getV f.vd) i) = true)

/-- VCVT, packing (R32, R37, R39, R43, R45, R54, R132): element i of the group takes lane i converted, the rest of the register and its
poison staying. FP6 and FP4 form the block's scale and write it, clean, to the scale register; FP8 converts under the slot's exponent and
overflow mode, and adds to the slot's amax and saturations; FP16 and BF16 convert under the overflow mode that VC gives, INT8 under
none. -/
def Sys2Proof.Claims.VectorPacks : Prop :=
  ∀ (s : State) (w : Site) (f : FV), Takes (.vcvt w f) w s → f.fn.extractLsb' 0 2 = 0 → f.fn.getLsbD 5 = true →
    let x := s.taskAt w
    let code := (f.fn.extractLsb' 2 3).toNat
    let n := widthOf code
    let sc : BitVec 5 := f.vc.setWidth 5
    let mx := code = 4 ∨ code = 5
    let vals := (List.range 32).map fun i => lane (x.getV f.va) i
    let scale := mxScale (mxEmax code) vals
    let slot := x.slot f.vc
    let fp8 := vals.map fun v => convertTo code slot.ovf ((of32 v).scale slot.scale)
    code < 7 → f.vb.toNat < 32 / n → (code = 6 → f.vc = 0) → (code < 2 → f.vc.toNat < 2) →
    ClearV x (if mx then [sc] else []) [f.vd, f.va] [] [f.va] →
    ((code = 2 ∨ code = 3) → slot.filled = true ∧ slot.format.toNat + 2 = code) →
    ∃ t, exec (.vcvt w f) s = .next t ∧ Passes w 4 (if mx then [sc] else []) [] [f.vd] [] s t ∧
      (t.taskAt w).cfg = x.cfg ∧ (t.taskAt w).tagV f.vd = x.tagV f.vd ∧
      (∀ b, b < 128 → (b < 4 * n * f.vb.toNat ∨ 4 * n * (f.vb.toNat + 1) ≤ b) →
        ((t.taskAt w).getV f.vd).extractLsb' (8 * b) 8 = (x.getV f.vd).extractLsb' (8 * b) 8) ∧
      (∀ i, i < 32 → ((t.taskAt w).getV f.vd).toNat / 2 ^ (32 * n * f.vb.toNat + n * i) % 2 ^ n =
        if mx then mxPack code scale (lane (x.getV f.va) i)
        else if code = 2 ∨ code = 3 then (convertTo code slot.ovf ((of32 (lane (x.getV f.va) i)).scale slot.scale)).bits
        else (convertTo code (f.vc.getLsbD 0) (of32 (lane (x.getV f.va) i))).bits) ∧
      (mx → (t.taskAt w).getS sc = scale.setWidth 32 ∧ (t.taskAt w).tagS sc = false) ∧
      (¬(code = 2 ∨ code = 3) → (t.taskAt w).slots = x.slots) ∧
      (code = 2 ∨ code = 3 → (∀ n, n ≠ f.vc → (t.taskAt w).slot n = x.slot n) ∧ (t.taskAt w).slot f.vc =
        { slot with amax := magMax slot.amax (amaxOf vals), sat := slot.sat + BitVec.ofNat 32 (fp8.countP (·.sat)) })

/-- VRED (R37, R64, R67, R133, R134, R150). The single-value reductions put their value in lane 0 and +0 in the others. VMVU adds each lane's
value to its count, mean and sum of squares; the merges put the merged count, mean and sum, with the variance, into the first lanes. The
results are clean, and NONFINITE is raised exactly when a register of a floating-point result holds an infinity or a NaN. -/
def Sys2Proof.Claims.VectorReductions : Prop :=
  ∀ (s : State) (w : Site) (f : FV), Takes (.vred w f) w s →
    let x := s.taskAt w
    let raised (t : State) (vs : List (BitVec 4)) : Prop := (t.tile w.tile).nonfinite = true ↔ (s.tile w.tile).nonfinite = true ∨
      ∃ v ∈ vs, ∃ i, i < 32 ∧ nonfinite32 (lane ((t.taskAt w).getV v) i) = true
    (f.fn.toNat < 4 → f.vb = 0 → f.vc = 0 → ClearV x [] [f.vd, f.va] [] [f.va] →
      ∃ t, exec (.vred w f) s = .next t ∧ Retires w 4 [] [] [f.vd] [] s t ∧ (t.taskAt w).tagV f.vd = false ∧
        lane ((t.taskAt w).getV f.vd) 0 = reduceLanes f.fn.toNat ((List.range 32).map fun i => lane (x.getV f.va) i) ∧
        (∀ i, 0 < i → i < 32 → lane ((t.taskAt w).getV f.vd) i = 0) ∧ raised t [f.vd]) ∧
    (f.fn = 4 → f.vb ≠ f.vc → f.vb ≠ f.vd → f.vc ≠ f.vd → ClearV x [] [f.vd, f.va, f.vb, f.vc] [] [f.va, f.vb, f.vc, f.vd] →
      ∃ t, exec (.vred w f) s = .next t ∧ Retires w 4 [] [] [f.vb, f.vc, f.vd] [] s t ∧
        (∀ v ∈ [f.vb, f.vc, f.vd], (t.taskAt w).tagV v = false) ∧ raised t [f.vc, f.vd] ∧
        ∀ i, i < 32 →
          let n := lane (x.getV f.vb) i + 1
          let d := fsub (lane (x.getV f.va) i) (lane (x.getV f.vc) i)
          let mu := fadd (lane (x.getV f.vc) i) (fdiv d (ofCount n.toNat))
          lane ((t.taskAt w).getV f.vb) i = n ∧ lane ((t.taskAt w).getV f.vc) i = mu ∧
            lane ((t.taskAt w).getV f.vd) i = fadd (lane (x.getV f.vd) i) (fmul d (fsub (lane (x.getV f.va) i) mu))) ∧
    (f.fn = 5 ∨ f.fn = 6 → f.va = 0 → f.vb ≠ f.vc → f.vb ≠ f.vd → f.vc ≠ f.vd →
      ClearV x [] [f.vd, f.vb, f.vc] [] [f.vb, f.vc, f.vd] →
      ∃ t, exec (.vred w f) s = .next t ∧ Retires w 4 [] [] [f.vb, f.vc, f.vd] [] s t ∧
        (∀ v ∈ [f.vb, f.vc, f.vd], (t.taskAt w).tagV v = false) ∧ raised t [f.vc, f.vd] ∧
        (let m := x.merged f
         lane ((t.taskAt w).getV f.vb) 0 = m.n ∧ lane ((t.taskAt w).getV f.vc) 0 = m.mu ∧ lane ((t.taskAt w).getV f.vd) 0 = m.m2 ∧
          lane ((t.taskAt w).getV f.vd) 1 = variance (f.fn == 6) m) ∧
        ∀ i, 0 < i → i < 32 → lane ((t.taskAt w).getV f.vb) i = 0 ∧ lane ((t.taskAt w).getV f.vc) i = 0 ∧
          (1 < i → lane ((t.taskAt w).getV f.vd) i = 0))

/-- The vector transfers, conversions and reductions: what each writes, that it completes, and its frame. -/
def Obligations.VectorMovesAndConversions : Prop :=
  Sys2Proof.Claims.VectorTransfers ∧ Sys2Proof.Claims.VectorUnpacks ∧ Sys2Proof.Claims.VectorPacks ∧ Sys2Proof.Claims.VectorReductions


/-! ### Tile instructions: array -/

/-- ACFG, ARUN and ADRN (R30, R135, R136, R139, R151): ACFG sets the configuration for later runs; ARUN queues a run of the
configuration in force with its panels, K and length; ADRN binds the task's oldest run that no drain has bound. The
scratchpad does not change at issue. -/
def Obligations.ArrayIssues : Prop :=
  (∀ (s : State) (w : Site) (f : FA), Takes (.acfg w f) w s → f.md.extractLsb' 0 3 = 0 → f.s = 0 →
    let a := f.md.extractLsb' 6 3
    let b := f.md.extractLsb' 3 3
    ((a = 0 ∧ b = 0) ∨ (a = 1 ∧ b = 1) ∨ ((a = 2 ∨ a = 3) ∧ (b = 2 ∨ b = 3)) ∨ ((a = 4 ∨ a = 5) ∧ (b = 4 ∨ b = 5))) →
    ∃ t, exec (.acfg w f) s = .next t ∧ Passes w 4 [] [] [] [] s t ∧ (t.taskAt w).slots = (s.taskAt w).slots ∧
      (t.taskAt w).cfg = some ⟨f.x, f.y, a, b⟩ ∧ (t.tile w.tile).runs = (s.tile w.tile).runs) ∧
  (∀ (s : State) (w : Site) (f : FA) (c : ArrayCfg), Takes (.arun w f) w s → f.md.extractLsb' 0 6 = 0 →
    let x := s.tile w.tile
    let y := s.taskAt w
    let k := (y.getS f.s).toNat
    let a := y.getA f.x
    let b := y.getA f.y
    y.cfg = some c → Clear y [f.s] [f.s] [f.x, f.y] → k < 65536 → a.toNat % 64 = 0 → b.toNat % 64 = 0 →
    ((c.fmtA = 4 ∨ c.fmtA = 5 ∨ c.fmtB = 4 ∨ c.fmtB = 5) → k % 32 = 0) →
    (∀ g slot, ((g, slot) = (c.fmtA, c.slotA) ∨ (g, slot) = (c.fmtB, c.slotB)) → g = 2 ∨ g = 3 →
      (y.slot slot).filled = true ∧ (y.slot slot).format.toNat + 2 = g.toNat) →
    a.toNat + 64 * c.linesA k ≤ 64 * y.spBound → b.toNat + 64 * c.linesB k ≤ 64 * y.spBound →
    (∀ l, (l ∈ y.panelLinesAt a.toNat (c.linesA k) ∨ l ∈ y.panelLinesAt b.toNat (c.linesB k)) →
      x.markedByDrain l = false ∧ l ∉ (x.seen s.fresh).padPoison) →
    (∀ r ∈ x.runs, r.stage ≠ .queued) →
    ∃ t r, exec (.arun w f) s = .next t ∧ OwnTileOnly w s t ∧ t.jobs = s.jobs ∧ PadSame w.tile s t ∧
      Lands w (y.pc + 4) [] [] [] [] s t ∧ (t.tile w.tile).runs = x.runs ++ [r] ∧ r.task = w.task ∧ r.stage = .queued ∧
      r.k = k ∧ r.cfg = c ∧ r.panelA = a ∧ r.panelB = b ∧
      (f.md.extractLsb' 7 2 = 0 → r.len = 32) ∧ (f.md.extractLsb' 7 2 = 1 → r.len = 8) ∧
      (f.md.extractLsb' 7 2 = 2 → r.len = 16) ∧ (f.md.extractLsb' 7 2 = 3 → r.len = 64) ∧
      (f.md.getLsbD 6 = true → r.checked = true)) ∧
  (∀ (s : State) (w : Site) (f : FA) (r : Run), Takes (.adrn w f) w s →
    let x := s.tile w.tile
    let y := s.taskAt w
    let target := f.md.extractLsb' 7 2
    let off := (y.getA f.x).toNat
    let n := 16 * r.cols * (if target = 0 then 4 else if target = 1 then 2 else 1) / 64
    f.md.extractLsb' 0 6 = 0 → f.s = 0 → target ≠ 3 → (target ≠ 1 → f.md.getLsbD 6 = false) →
    (target ≠ 2 → f.y = 0) → (target = 2 → (y.slot f.y).filled = true) → y.tagA f.x = false → off % 64 = 0 →
    off + 64 * n ≤ 64 * y.spBound → x.unbound w.task = some r →
    (target ≠ 0 → ∀ i, i < n → y.inAcc (off / 64 + i) = false) → (∀ d ∈ x.drains, d.written ≠ 0) →
    ∃ t d, exec (.adrn w f) s = .next t ∧ OwnTaskOnly w s t ∧ Lands w (y.pc + 4) [] [] [] [] s t ∧
      (t.tile w.tile).drains = x.drains ++ [d] ∧ (t.tile w.tile).runs = x.runs ∧ d.run = r.id ∧ d.task = w.task ∧
      d.addr = y.getA f.x ∧ d.target = target ∧ d.lines = n ∧ d.written = 0)

/-- ACHK, ACCOPEN and ACC_REGION_OPEN (R107, R141, R147): ACHK passes when every checked block that the task drained is settled, and waits
until then. ACCOPEN asks for its region, or waits while one is open; the region opens when the task's drains have written, and closes
at the last of as many advances of its token as sS gave. -/
def Sys2Proof.Claims.CheckerAndRegion : Prop :=
  (∀ (s : State) (w : Site) (f : FA), Takes (.achk w f) w s → f.x = 0 → f.y = 0 → f.s = 0 → f.md = 0 →
    let open_ := ∃ d ∈ (s.tile w.tile).drains, d.task = w.task ∧
      ∃ r ∈ (s.tile w.tile).runs, r.id = d.run ∧ r.checked = true ∧ r.settled = false
    (¬open_ → ∃ t, exec (.achk w f) s = .next t ∧ Retires w 4 [] [] [] [] s t) ∧
    (open_ → exec (.achk w f) s = .next (s.holdTask w .checker))) ∧
  (∀ (s : State) (w : Site) (f : FT), Takes (.accopen w f) w s → f.rsv = 0 → f.n = 0 → Clear (s.taskAt w) [f.s] [f.s] [] →
    let y := s.taskAt w
    let n := (y.getS f.s).toNat
    0 < y.accLines → 0 < n → n < 65536 →
    (y.region = none → ∃ t, exec (.accopen w f) s = .next t ∧ Retires w 4 [] [] [] [] s t ∧
      (t.taskAt w).opening = some ⟨f.tn, BitVec.ofNat 16 n⟩ ∧ (t.taskAt w).region = none) ∧
    (y.region.isSome = true → exec (.accopen w f) s = .next (s.holdTask w .region))) ∧
  (∀ (s : State) (w : Site) (r : Region), (s.taskAt w).opening = some r →
    ((∀ d ∈ (s.tile w.tile).drains, d.task ≠ w.task) →
      ∃ t, exec (.accRegionOpen w) s = .next t ∧ { t with tiles := s.tiles } = s ∧ (t.taskAt w).region = some r ∧
        (t.taskAt w).opening = none ∧ KeepsRegs [] [] [] [] (s.taskAt w) (t.taskAt w) ∧ PadSame w.tile s t ∧
        (∀ v, v ≠ w.tile → t.tile v = s.tile v)) ∧
    (∀ d ∈ (s.tile w.tile).drains, d.task = w.task → exec (.accRegionOpen w) s = .next s)) ∧
  (∀ (y : Task) (n : BitVec 4) (left : BitVec 16), y.region = some ⟨n, left⟩ →
    (left = 1 → (y.advanceToken n).region = none) ∧ (left ≠ 1 → (y.advanceToken n).region = some ⟨n, left - 1⟩) ∧
    ∀ m, m ≠ n → (y.advanceToken m).region = y.region)

/-- ARRAY_RUN_START and ARRAY_BLOCK_COMPLETE (R101, R103, R152, R495, R499): one run streams at a time; its block goes to the drain buffer,
or holds the array while that is occupied; a checked block whose checker disagrees is neither ready nor settled, and every other is
both. The block of a task that has halted goes nowhere. -/
def Obligations.ArrayBlocks : Prop :=
  (∀ (s : State) (u : Nat) (r : Run), (s.tile u).runs.find? (fun r => r.stage == .queued) = some r →
    (s.arrayBusy u = false →
      ∃ t, exec (.arrayRunStart u) s = .next t ∧ PadSame u s t ∧ (∀ v, v ≠ u → t.tile v = s.tile v) ∧ TallyOnly s t ∧
        { t with tiles := s.tiles, jobs := s.jobs } = s ∧
        (t.tile u).runs = (s.tile u).runs.map fun q => if q.id = r.id then { q with stage := .running, fed := 1 } else q) ∧
    (s.arrayBusy u = true → exec (.arrayRunStart u) s = .next s)) ∧
  (∀ (s : State) (u : Nat) (flips : List (Nat × Word)) (r : Run),
    (s.tile u).runs.find? (fun r => r.stage == .running) = some r →
    ∃ t, exec (.arrayBlockComplete u flips) s = .next t ∧ { t with tiles := s.tiles } = s ∧ PadSame u s t ∧
      (∀ v, v ≠ u → t.tile v = s.tile v) ∧
      (r.dropped = true → ∀ q ∈ (t.tile u).runs, q.id ≠ r.id) ∧
      (r.dropped = false →
        let totals := flipTotals flips r.block
        let free := !(s.tile u).runs.any (fun q => q.stage == .buffered)
        let passes := !r.checked || (r.firstFailing totals).isNone
        ∀ q ∈ (t.tile u).runs, q.id = r.id → q.totals = totals ∧ q.stage = (if free then .buffered else .holding) ∧
          q.ready = passes ∧ q.settled = passes ∧ (q.arb = none ↔ passes = true)))

/-- REPEAT_RUN_COMPLETE and SPARE_RUN_COMPLETE (R499 to R502): the verdict waits for both results. Where the spare's own checker agrees,
the block kept is the first result if the spare's equals it, and the spare's otherwise. A short arbitration, with the tile already
suspect, does not wait for the repeat. Where the spare's checker disagrees the block is discarded and the job is held. -/
def Sys2Proof.Claims.ArbitrationKeeps : Prop :=
  (∀ (s : State) (u : Nat) (flips : List (Nat × Word)) (r : Run) (a : Arbitration),
    (s.tile u).disputed = some (r, a) → a.short = false → a.repeated = none →
    (a.spareTotals = none → ∃ t, exec (.repeatRunComplete u flips) s = .next t ∧ { t with tiles := s.tiles } = s ∧
      ∀ q ∈ (t.tile u).runs, q.id = r.id → q.arb = some { a with repeated := some (flipTotals flips r.block) }) ∧
    (∀ sp, a.spareTotals = some sp → a.spareOk = true →
      ∃ t, exec (.repeatRunComplete u flips) s = .next t ∧
        ∀ q ∈ (t.tile u).runs, q.id = r.id → q.totals = sp ∧ q.ready = true ∧ q.arb = none)) ∧
  (∀ (s : State) (u v c : Nat) (flips : List (Nat × Word)) (r : Run) (a : Arbitration),
    (s.tile u).disputed = some (r, a) → a.spareTotals = none → s.ctxOf u = some c →
    (a.spare = some v ∨ (a.spare = none ∧ s.pickSpare c u = some v)) → (∀ q ∈ (s.tile v).runs, q.stage ≠ .running) →
    let sp := flipTotals flips r.block
    let ok := (r.firstFailing sp).isNone
    ∃ t, exec (.spareRunComplete u flips) s = .next t ∧
      (ok = true → sp = r.totals ∨ a.short = true ∨ a.repeated.isSome = true →
        ∀ q ∈ (t.tile u).runs, q.id = r.id → q.totals = sp ∧ q.ready = true ∧ q.arb = none) ∧
      (ok = true → sp ≠ r.totals → a.short = false → a.repeated = none → { t with tiles := s.tiles } = s ∧
        ∀ q ∈ (t.tile u).runs, q.id = r.id → q.arb = some { a with spare := some v, spareTotals := some sp, spareOk := true }) ∧
      (ok = false → (t.job c).held = true ∧ ∀ q ∈ (t.tile u).runs, q.id ≠ r.id))

/-- ACHK and the accumulate region; and which block a checker's arbitration keeps. -/
def Obligations.ArrayGuards : Prop :=
  Sys2Proof.Claims.CheckerAndRegion ∧ Sys2Proof.Claims.ArbitrationKeeps

/-- ARRAY_DRAIN_LINE_WRITE (R60 to R62, R104, R105, R107, R140, R220): the next line of the drain of the buffered block is written at
its row-major place; every byte outside that line is unchanged; the last line frees the buffer. A drain that adds waits while the
region is open. -/
def Obligations.DrainWritesLine : Prop :=
  ∀ (s : State) (u : Nat) (r : Run) (d : Drain), Memory.wf (s.tile u).pad = true → (s.tile u).draining = some (r, d) →
    let x := s.tile u
    let y := x.task d.task.val
    let pa := 64 * y.spBase + (d.addr.toNat + 64 * d.written)
    let adds := d.target == 0 && y.inAcc (d.addr.toNat / 64 + d.written)
    (adds = true → y.region.isSome = true → exec (.arrayDrainLineWrite u) s = .next s) ∧
    ((adds = true → y.region = none ∧ pa / 64 ∉ x.padPoison) →
      let per := 64 / (if d.target = 0 then 4 else if d.target = 1 then 2 else 1)
      let vals := (r.totals.drop (per * d.written)).take per
      let out := drainLine r d (y.slot d.slot) vals (if adds then some (x.pad.read pa 64) else none)
      let line := out.1
      ∃ t, exec (.arrayDrainLineWrite u) s = .next t ∧
        (∀ i, i < line.length → (t.tile u).pad.get (pa + i) = line.getD i 0) ∧
        (∀ a, a < pa ∨ pa + line.length ≤ a → (t.tile u).pad.get a = x.pad.get a) ∧
        (d.target = 2 → ((t.tile u).task d.task.val).slot d.slot = out.2.1) ∧ (t.tile u).nonfinite = (x.nonfinite || out.2.2) ∧
        (∀ v, v ≠ u → t.tile v = s.tile v) ∧ TallyOnly s t ∧ { t with tiles := s.tiles, jobs := s.jobs } = s ∧
        (d.written + 1 = d.lines → ∀ q ∈ (t.tile u).runs, q.id ≠ r.id) ∧
        (d.written + 1 ≠ d.lines → (t.tile u).runs = x.runs ∧
          (t.tile u).drains.map (fun e => (e.run, e.written)) =
            x.drains.map fun e => (e.run, if e.run = d.run then e.written + 1 else e.written)))


/-! ### Tile instructions: exchange and task control -/

/-- SEND and SWAIT (R142, R143, R167, R175): SEND queues one message of sL lines on its outbound channel, whose route it checks at issue,
and halts its task when 64 are queued; SWAIT passes when at most N of the task's messages are outstanding, and waits until then. -/
def Sys2Proof.Claims.SendQueues : Prop :=
  (∀ (s : State) (w : Site) (f : FX) (e : SourceEntry), Takes (.send w f) w s → f.rsv = 0 →
    let x := s.tile w.tile
    let y := s.taskAt w
    let n := (y.getS f.sl).toNat
    let a := y.getA f.as
    Clear y [f.sl] [f.sl] [f.as] → x.current.source f.ch = some e → 1 ≤ n → n ≤ 4096 → n ≤ e.maxLines.toNat → a.toNat % 64 = 0 →
    a.toNat + 64 * n ≤ 64 * y.spBound → (2 ≤ e.mode.toNat ∧ e.mode.toNat ≤ 4 → ∀ q ∈ x.queued, q.ch ≠ f.ch) →
    (x.queued.length < 64 → ∃ t, exec (.send w f) s = .next t ∧ Retires w 4 [] [] [] [] s t ∧
      (t.tile w.tile).queued = x.queued ++ [⟨w.task, y.pc, f.ch, f.hid, a, n, false⟩] ∧ (t.tile w.tile).seqs = x.seqs) ∧
    (64 ≤ x.queued.length → exec (.send w f) s = .next (s.haltTask w 0x0304 (w.task.val * 65536 + y.pc.toNat) 0))) ∧
  (∀ (s : State) (w : Site) (f : FT), Takes (.swait w f) w s → f.tn = 0 → f.s = 0 → f.rsv = 0 → f.n.toNat ≤ 64 →
    let out := ((s.tile w.tile).queued.filter fun q => q.task == w.task).length
    (out ≤ f.n.toNat → ∃ t, exec (.swait w f) s = .next t ∧ Retires w 4 [] [] [] [] s t) ∧
    (f.n.toNat < out → exec (.swait w f) s = .next (s.holdTask w .sends)))

/-- CURF, TEND, FENCE and TWAIT (R113, R115, R144, R147, R154): CURF and FENCE pass when the task's loads have returned and its bound drains
have written, and wait until then; CURF leaves the task at its Curfew. TWAIT passes when the token has reached its target modulo 2^16,
and waits until then; TEND ends the program. -/
def Sys2Proof.Claims.TaskControl : Prop :=
  (∀ (s : State) (w : Site) (f : FT), f.tn = 0 → f.s = 0 → f.rsv = 0 → f.n = 0 →
    let busy := (s.taskAt w).loads ≠ [] ∨ ∃ d ∈ (s.tile w.tile).drains, d.task = w.task
    (Takes (.fence w f) w s →
      (¬busy → ∃ t, exec (.fence w f) s = .next t ∧ Retires w 4 [] [] [] [] s t) ∧
      (busy → exec (.fence w f) s = .next (s.holdTask w .resource))) ∧
    (Takes (.curf w f) w s → (s.tile w.tile).handling = none →
      (¬busy → ∃ t, exec (.curf w f) s = .next t ∧ OwnTaskOnly w s t ∧
        t.taskAt w = { s.taskAt w with state := .atCurfew, pc := (s.taskAt w).pc + 4, hold := .none }) ∧
      (busy → exec (.curf w f) s = .next (s.holdTask w .resource)))) ∧
  (∀ (s : State) (w : Site) (f : FT), Takes (.tend w f) w s → f.tn = 0 → f.s = 0 → f.rsv = 0 → f.n = 0 →
    (s.tile w.tile).handling = none →
    ∃ t, exec (.tend w f) s = .next t ∧ OwnTaskOnly w s t ∧ t.taskAt w = { s.taskAt w with state := .ended, hold := .none } ∧
      (t.tile w.tile).drains = (s.tile w.tile).drains) ∧
  (∀ (s : State) (w : Site) (f : FT), Takes (.twait w f) w s → f.rsv = 0 → f.n = 0 → Clear (s.taskAt w) [f.s] [f.s] [] →
    ((s.taskAt w).getS f.s).toNat < 65536 →
    let count := (s.taskAt w).tokens.get 0 f.tn.toNat
    let target : BitVec 16 := ((s.taskAt w).getS f.s).setWidth 16
    ((count - target).toNat < 32768 → ∃ t, exec (.twait w f) s = .next t ∧ Retires w 4 [] [] [] [] s t) ∧
    (32768 ≤ (count - target).toNat → exec (.twait w f) s = .next (s.holdTask w .token)))

/-- SEND and SWAIT; CURF, TEND, FENCE and TWAIT. -/
def Obligations.SendsAndTaskControl : Prop :=
  Sys2Proof.Claims.SendQueues ∧ Sys2Proof.Claims.TaskControl

/-- HEND and the handler pass (R145, R146, R179): with messages left the next handler begins, with a15 at its payload, s31 its lines and
s30 its sequence number, channel and handler, and its task's other registers as they were; after the last message, every ring is empty
and the tasks at the Curfew resume. The task of the handler that ends goes on where it was. HEND outside a handler is invalid. -/
def Sys2Proof.Claims.HandlersRun : Prop :=
  (∀ (s : State) (w : Site) (f : FT) (h : Handling), Takes (.hend w f) w s → f.tn = 0 → f.s = 0 → f.rsv = 0 → f.n = 0 →
    (s.tile w.tile).handling = some h →
    ((s.tile w.tile).delivered = [] →
      ∃ t, exec (.hend w f) s = .next t ∧ { t with tiles := s.tiles } = s ∧ (t.tile w.tile).handling = none ∧
        (t.tile w.tile).delivered = [] ∧ (∀ e ∈ (t.tile w.tile).rings, e.2.used = 0 ∧ e.2.head = e.2.tail) ∧
        (t.taskAt w).pc = h.resume ∧ (t.taskAt w).state = (if h.was = .atCurfew then .running else h.was) ∧
        (∀ k : Fin 4, k ≠ w.task → ((t.tile w.tile).task k.val).state =
          (if ((s.tile w.tile).task k.val).state = .atCurfew then .running else ((s.tile w.tile).task k.val).state)) ∧
        KeepsRegs [] [] [] [] (s.taskAt w) (t.taskAt w) ∧ PadSame w.tile s t) ∧
    (∀ (m : Delivered) (ms : List Delivered), (s.tile w.tile).delivered = m :: ms →
      let k : Site := ⟨w.tile, m.task.toFin⟩
      let was := if m.task.toNat = w.task.val then h.was else (s.taskAt k).state
      let back := if m.task.toNat = w.task.val then h.resume else (s.taskAt k).pc
      let e := (s.tile w.tile).handlers.get 0 m.handler.toNat
      was ≠ .faulted → e.getLsbD 31 = true → e.extractLsb' 16 2 = m.task →
      ∃ t, exec (.hend w f) s = .next t ∧ { t with tiles := s.tiles } = s ∧
        (t.tile w.tile).handling = some ⟨m.task.toFin, was, back, m⟩ ∧
        (t.tile w.tile).delivered = ms ∧ (t.taskAt k).state = .running ∧ (t.taskAt k).pc = e.extractLsb' 0 16 &&& 0xFFFC ∧
        KeepsRegs [30, 31] [15] [] [] (s.taskAt k) (t.taskAt k) ∧ (t.taskAt k).getA 15 = BitVec.ofNat 32 (64 * m.line) ∧
        (t.taskAt k).getS 31 = BitVec.ofNat 32 m.lines ∧
        (t.taskAt k).getS 30 = BitVec.ofNat 32 (m.seq.toNat + 65536 * m.channel.toNat + 2 ^ 20 * m.handler.toNat) ∧
        PadSame w.tile s t)) ∧
  (∀ (s : State) (w : Site) (f : FT), Takes (.hend w f) w s → (s.tile w.tile).handling = none →
    exec (.hend w f) s = .next (s.haltTask w 0x0105 (w.task.val * 65536 + (s.taskAt w).pc.toNat)
      (firstWord 0x2B f.g f.bits).toNat))

/-- An instruction that the tile's rules forbid halts its task with INSTRUCTION_INVALID (R121): a word whose opcode is not
listed, a CURF or TEND in a handler, and a store with SZ 0b11. -/
def Sys2Proof.Claims.InvalidHalts : Prop :=
  (∀ (s : State) (i : Instr) (w : Site) (word : Word), s.mayIssue w = true →
    (s.taskAt w).fetchable (s.taskAt w).pc.toNat = true →
    (s.tile w.tile).wordAt (s.taskAt w) (s.taskAt w).pc.toNat = word →
    decodeTile w word ((s.tile w.tile).wordAt (s.taskAt w) ((s.taskAt w).pc.toNat + 4)) = none →
    guardHolds (guardOf word) (s.taskAt w) = true → (∃ f, i = .nop w f ∨ i = .alu w f) →
    exec i s = .next (s.haltTask w 0x0105 (w.task.val * 65536 + (s.taskAt w).pc.toNat) word.toNat)) ∧
  (∀ (s : State) (w : Site) (f : FT), (s.tile w.tile).handling.isSome = true →
    (Takes (.curf w f) w s → exec (.curf w f) s =
      .next (s.haltTask w 0x0105 (w.task.val * 65536 + (s.taskAt w).pc.toNat) (firstWord 0x2A f.g f.bits).toNat)) ∧
    (Takes (.tend w f) w s → exec (.tend w f) s =
      .next (s.haltTask w 0x0105 (w.task.val * 65536 + (s.taskAt w).pc.toNat) (firstWord 0x30 f.g f.bits).toNat))) ∧
  (∀ (s : State) (w : Site) (f : FM), Takes (.st w f) w s → f.sz = 3 → exec (.st w f) s =
    .next (s.haltTask w 0x0105 (w.task.val * 65536 + (s.taskAt w).pc.toNat) (firstWord 0x11 f.g f.bits).toNat))

/-- The message handlers that a tile runs, and what an instruction that its rules forbid does. -/
def Obligations.HandlersAndInvalidWords : Prop :=
  Sys2Proof.Claims.HandlersRun ∧ Sys2Proof.Claims.InvalidHalts

/-- What any register instruction can reach, whatever it answers (R81, R121, R122, R123): its own tile, its job's work and
the host interface. Every other tile, local memory, the ports, the boot and the power state are unchanged, and so is every
byte of its own tile's scratchpad. -/
def Obligations.RegisterInstructionsStayInTheirTile : Prop :=
  ∀ (s t : State) (w : Site) (i : Instr),
    ((∃ f, i = .nop w f) ∨ (∃ f, i = .alu w f) ∨ (∃ f, i = .addi w f) ∨ (∃ f, i = .andi w f) ∨ (∃ f, i = .ori w f) ∨
      (∃ f, i = .xori w f) ∨ (∃ f, i = .shi w f) ∨ (∃ f, i = .li w f) ∨ (∃ f, i = .lil w f) ∨ (∃ f, i = .cmp w f) ∨
      (∃ f, i = .cmpi w f) ∨ (∃ f, i = .plog w f) ∨ (∃ f, i = .pmov w f) ∨ (∃ f, i = .aop w f) ∨ (∃ f, i = .aaddi w f) ∨
      (∃ f, i = .vop w f) ∨ (∃ f, i = .vcvt w f) ∨ (∃ f, i = .vred w f) ∨ (∃ f, i = .vxfer w f) ∨ (∃ f, i = .acfg w f) ∨
      (∃ f, i = .br w f) ∨ (∃ f, i = .jr w f) ∨ (∃ f, i = .loop w f) ∨ (∃ f, i = .fence w f) ∨ (∃ f, i = .tflag w f)) →
    exec i s = .next t →
    (∀ u, u ≠ w.tile → t.tile u = s.tile u) ∧ t.mem = s.mem ∧ t.ports = s.ports ∧ t.boot = s.boot ∧ t.power = s.power ∧
      t.health = s.health ∧ ∀ a, (t.tile w.tile).pad.get a = (s.tile w.tile).pad.get a

namespace Sys2Proof.Claims

/-- The jobs of every other context, and every part of the module but the jobs, are unchanged. -/
def JobOnly (c : Nat) (s t : State) : Prop := { t with jobs := s.jobs } = s ∧ ∀ d, d ≠ c → t.job d = s.job d

/-- What no traffic of one job's exchange touches: local memory, the ports, boot, power, and every other job. -/
def InJob (c : Nat) (s t : State) : Prop :=
  t.mem = s.mem ∧ t.ports = s.ports ∧ t.boot = s.boot ∧ t.power = s.power ∧ t.courier = s.courier ∧
    t.pending = s.pending ∧ ∀ d, d ≠ c → t.job d = s.job d

/-- Where a message stands at one of its destinations. -/
def destOf (s : State) (c msg dest : Nat) : Option MsgDest := ((s.job c).msg msg).bind fun m => m.at_ dest

/-- No descriptor of a context adds to a tile's accumulate region: none dealt, none of the Step Engine's, none in a ring. -/
def NoAdds (s : State) (c : Nat) : Prop :=
  (∀ q ∈ s.descs, q.ctx.val = c → (odesc q.raw).adds = false) ∧
    (∀ e ∈ s.engineDescs, e.1.val = c → (odesc e.2.2).adds = false) ∧
    ∀ r, (s.ring r).context = c → ∀ e ∈ (s.ring r).entries, (odesc e.raw).adds = false

end Sys2Proof.Claims

/-! ### The Curfew -/

/-- LOCAL_ARRIVAL_COMPLETE (R156, R159, R198, R422): when every tile of the job has arrived, in a superstep within its
deadline that does not end a step, the job enters its Curfew: the local latency of 18 core cycles goes to cause 0 of the
Tally, every tile's contract records have gone, and one token goes out on each port of a Curfew axis. A job that is to stop
stops here, with no token (R603). At a step's end, where no scatter-accumulate is left to apply, pass one begins over the valid entries
of the step's table, unless it has begun or the table is refused and the job stops; a step of an evaluation job ends there, with its
flags kept (R306, R327, R483). While a task still runs nothing happens. -/
def Sys2Proof.Claims.LocalArrival : Prop :=
  ∀ (s : State) (c : Fin 8), (s.job c.val).phase = .compute →
    let j := s.job c.val
    ((∀ u ∈ j.cfg.tiles, (s.tile u).atCurfew = true) →
      (s.budget c.val = 0 ∨ j.measured * 128 ≤ s.budget c.val * (128 + j.cfg.deadlineMargin.toNat)) →
      (j.stop = false → j.isFinal = false →
        ∃ t, exec (.localArrivalComplete c) s = .next t ∧ (t.job c.val).phase = .curfew ∧ (t.job c.val).curfew = j.curfew ∧
          (t.job c.val).superstep = j.superstep ∧ (t.job c.val).tally.get 0 0 = j.tally.get 0 0 + 18 ∧
          (∀ k, k ≠ 0 → (t.job c.val).tally.get 0 k = j.tally.get 0 k) ∧ t.mem = s.mem ∧
          (∀ d, d ≠ c.val → t.job d = s.job d) ∧
          (∀ u ∈ j.cfg.tiles, (t.tile u).records = [] ∧
            { t.tile u with records := (s.tile u).records, recordsOver := (s.tile u).recordsOver } = s.tile u) ∧
          (∀ u, u ∉ j.cfg.tiles → t.tile u = s.tile u) ∧
          (j.held = false → ∀ p ∈ s.tokenPorts c.val, (s.port p.1).joined = true →
            (t.port p.1).class0 = (s.port p.1).class0 ++ [tokenFlit (j.cfg.tag.setWidth 32) j.curfew]) ∧
          (j.held = true → t.ports = s.ports)) ∧
      (∀ k l, j.stop = false → j.isFinal = true → j.held = false → j.evaluation = false → j.passOneBegun = false →
        j.step = some k → NoAdds s c.val → s.mem.errors = [] → s.vuse c.val k.tableVA.toNat (64 * k.entries) = .ok l →
        let rules : Tbl Word := j.pendingRules.foldl (fun t x => t.set x.1 x.2) j.rules
        let all : List Layer := (cutBytes 64 k.entries l).zipIdx.map fun x =>
          ⟨x.2, BitVec.ofNat 512 (ofBytes x.1), false, false, 0, 0, 0, 0, false⟩
        let layers := all.filter fun x => (layerFields x.raw).valid
        ∃ t, exec (.localArrivalComplete c) s = .next t ∧ t.mem = s.mem ∧
          (firstBad { j with rules := rules } layers [] = none → (t.job c.val).phase = .curfew ∧ (t.job c.val).passOneBegun = true ∧
            (t.job c.val).layerTable = k.tableVA.toNat ∧ (t.job c.val).rules = rules ∧ (t.job c.val).pendingRules = [] ∧
            (t.job c.val).layers = layers) ∧
          (firstBad { j with rules := rules } layers [] ≠ none → j.closing = [] → (t.job c.val).phase = .stopped)) ∧
      (j.stop = false → j.isFinal = true → j.held = false → j.evaluation = true → NoAdds s c.val →
        ∃ t, exec (.localArrivalComplete c) s = .next t ∧ (j.cfg.scaleEntries = 0 → (t.job c.val).phase = .curfew) ∧
          ((t.job c.val).phase = .curfew → (t.job c.val).decision = .applied ∧ (t.job c.val).kappa = one32 ∧ (t.job c.val).g = 0 ∧
            (t.job c.val).local_ = (s.stepFlags c.val).1 ∧ (t.job c.val).layers = [])) ∧
      (j.stop = true → j.closing = [] →
        ∃ t, exec (.localArrivalComplete c) s = .next t ∧ (t.job c.val).phase = .stopped ∧ t.ports = s.ports ∧
          t.mem = s.mem)) ∧
    ((∃ u ∈ j.cfg.tiles, (s.tile u).atCurfew = false) → exec (.localArrivalComplete c) s = .next s)

/-- CURFEW_TOKEN (R160, R364, R380, R382, R383): an accepted token leaves the receive buffer. A token of a running job's Curfew, or of the
next, is noted once, and releases nothing by itself; one of another number stops the job; one whose tag names no loaded job is held in
the table, which never holds more than eight; and one for a loaded job that no longer runs changes nothing else. A port that carries no
traffic, or has accepted no such token, gives none. -/
def Sys2Proof.Claims.TokensAreNoted : Prop :=
  ∀ (s : State) (p : Fin 8) (tag n : Word),
    let x := s.port p.val
    (x.carries = true → x.hasFlit (tokenFlit tag n) = true →
      (∀ c, s.ctxOfTag tag = some c → (s.job c).running = true → (n = (s.job c).curfew ∨ n = (s.job c).curfew + 1) →
        ∃ t, exec (.curfewToken p tag n) s = .next t ∧ { t with jobs := s.jobs, ports := s.ports } = s ∧
          t.port p.val = x.takeFlit (tokenFlit tag n) ∧ (∀ q, q ≠ p.val → t.port q = s.port q) ∧
          (∀ d, d ≠ c → t.job d = s.job d) ∧ (∀ y, y ∈ (t.job c).tokens ↔ y = (p, n) ∨ y ∈ (s.job c).tokens) ∧
          { t.job c with tokens := (s.job c).tokens } = s.job c) ∧
      (∀ c, s.ctxOfTag tag = some c → (s.job c).phase = .compute → n ≠ (s.job c).curfew → n ≠ (s.job c).curfew + 1 →
        ∃ t, exec (.curfewToken p tag n) s = .next t ∧ t.job c = { s.job c with stop := true } ∧ ∀ d, d ≠ c → t.job d = s.job d) ∧
      (∀ c, s.ctxOfTag tag = some c → (s.job c).running = false →
        exec (.curfewToken p tag n) s = .next (s.setPort p.val (x.takeFlit (tokenFlit tag n)))) ∧
      (s.ctxOfTag tag = none → s.pendingTokens.length ≤ 8 →
        ∃ t, exec (.curfewToken p tag n) s = .next t ∧ { t with ports := s.ports, pendingTokens := s.pendingTokens } = s ∧
          t.port p.val = x.takeFlit (tokenFlit tag n) ∧ (p, tag, n, s.tick) ∈ t.pendingTokens ∧ t.pendingTokens.length ≤ 8)) ∧
    (x.carries = false ∨ x.hasFlit (tokenFlit tag n) = false → exec (.curfewToken p tag n) s = .next s)

/-- CURFEW_TIMEOUT and CURFEW_TAG_UNKNOWN (R161, R383): a job in a Curfew wait whose partner's token has not come in its
time, or whose partner's port carries no more, is held, and stays held where it stands; a token held for 1 s leaves the
table, and not before. -/
def Sys2Proof.Claims.CurfewWaitsEnd : Prop :=
  (∀ (s : State) (c p : Fin 8), (s.job c.val).phase = .curfew → (s.job c.val).held = false →
    (∃ x ∈ s.tokenPorts c.val, x.1 = p.val) → (p, (s.job c.val).curfew) ∉ (s.job c.val).tokens →
    ((s.port p.val).joined = false ∨ (s.job c.val).cfg.timeoutTicks ≤ (s.job c.val).waited) →
    ∃ t, exec (.curfewTimeout c p) s = .next t ∧ { t with jobs := s.jobs, host := s.host } = s ∧
      (∀ d, d ≠ c.val → t.job d = s.job d) ∧ t.job c.val = { s.job c.val with held := true }) ∧
  (∀ (s : State) (c : Fin 8), (s.job c.val).held = true → exec (.curfewRelease c) s = .next s) ∧
  (∀ (s : State) (n : Nat) (e : Fin 8 × Word × Word × Nat), s.pendingTokens[n]? = some e →
    e.2.2.2 + 1600000000 ≤ s.tick →
    ∃ t, exec (.curfewTagUnknown n) s = .next t ∧ { t with pendingTokens := s.pendingTokens, host := s.host } = s ∧
      t.pendingTokens = s.pendingTokens.eraseIdx n) ∧
  (∀ (s : State) (n : Nat) (e : Fin 8 × Word × Word × Nat), s.pendingTokens[n]? = some e → s.tick < e.2.2.2 + 1600000000 →
    exec (.curfewTagUnknown n) s = .next s)

/-- CURFEW at its stack: the local arrival, the tokens of the stages, and the end of the waits. -/
def Obligations.CurfewArrivals : Prop :=
  Sys2Proof.Claims.LocalArrival ∧ Sys2Proof.Claims.TokensAreNoted ∧ Sys2Proof.Claims.CurfewWaitsEnd

/-- R159: a Curfew is not released while the token of one of its ports is missing. -/
def Sys2Proof.Claims.NoReleaseWithoutTokens : Prop :=
  ∀ (s : State) (c p : Fin 8) (a : Nat), (s.job c.val).phase = .curfew → (p.val, a) ∈ s.tokenPorts c.val →
    (p, (s.job c.val).curfew) ∉ (s.job c.val).tokens → exec (.curfewRelease c) s = .next s

/-- CURFEW_RELEASE with every condition met (R155, R157, R447, R480): a loaded job takes its first STEP and computes, each
enabled task running from its entry, and a restored one begins with its Caravan; from a Curfew the job enters its Caravan with the number of the next
superstep, a clock at zero, no message, window 0 frozen where a throttle step waited (R194), and a next image in every tile. At the end
of a step, where no scatter-accumulate is left to apply, the next STEP comes into force as well, undecided. -/
def Sys2Proof.Claims.ReleaseBegins : Prop :=
  ∀ (s : State) (c : Fin 8), s.blocks c.val = [] → (s.job c.val).held = false →
    ((s.job c.val).phase = .loaded → (s.job c.val).restored = false →
      ∃ t, exec (.curfewRelease c) s = .next t ∧ (t.job c.val).phase = .compute ∧
        (t.job c.val).step = (s.job c.val).waitingSteps.head? ∧ (t.job c.val).stepsBegun = (s.job c.val).stepsBegun + 1 ∧
        (∀ u ∈ (s.job c.val).cfg.tiles, ∀ n, ((s.tile u).task n).enabled = true →
          ((t.tile u).task n).state = .running ∧ ((t.tile u).task n).pc = ((s.tile u).task n).entry) ∧
        ∀ d, d ≠ c.val → t.job d = s.job d) ∧
    ((s.job c.val).phase = .loaded → (s.job c.val).restored = true →
      ∃ t, exec (.curfewRelease c) s = .next t ∧ (t.job c.val).phase = .caravan ∧
        (t.job c.val).step = (s.job c.val).waitingSteps.head? ∧ (t.job c.val).superstep = (s.job c.val).superstep ∧
        (t.job c.val).clock = 0 ∧ (t.job c.val).msgs = [] ∧ ∀ d, d ≠ c.val → t.job d = s.job d) ∧
    ((s.job c.val).phase = .curfew → (s.job c.val).isFinal = true →
      NoAdds s c.val →
      ∃ t, exec (.curfewRelease c) s = .next t ∧ (t.job c.val).phase = .caravan ∧
        (t.job c.val).step = (s.job c.val).waitingSteps.head? ∧ (t.job c.val).stepsBegun = (s.job c.val).stepsBegun + 1 ∧
        (t.job c.val).decision = .pending ∧ (t.job c.val).passOneBegun = false ∧
        (t.job c.val).curfew = BitVec.ofNat 32 ((s.job c.val).superstep + 1) ∧ (t.job c.val).clock = 0 ∧ (t.job c.val).msgs = [] ∧
        ∀ d, d ≠ c.val → t.job d = s.job d) ∧
    ((s.job c.val).phase = .curfew → (s.job c.val).isFinal = false →
      ∃ t, exec (.curfewRelease c) s = .next t ∧ (t.job c.val).phase = .caravan ∧
        (t.job c.val).superstep = (s.job c.val).superstep ∧
        (t.job c.val).curfew = BitVec.ofNat 32 ((s.job c.val).superstep + 1) ∧ (t.job c.val).clock = 0 ∧
        (t.job c.val).frozen = (if (s.job c.val).throttleFreeze then 32 else 0) ∧ (t.job c.val).msgs = [] ∧ (t.job c.val).step = (s.job c.val).step ∧
        (∀ u ∈ (s.job c.val).cfg.tiles, (t.tile u).next.isSome = true ∧ (t.tile u).current = (s.tile u).current) ∧
        ∀ d, d ≠ c.val → t.job d = s.job d)

/-- A release needs every token, and then it begins. -/
def Obligations.Releases : Prop :=
  Sys2Proof.Claims.NoReleaseWithoutTokens ∧ Sys2Proof.Claims.ReleaseBegins

namespace Sys2Proof.Claims

/-- A flit of a message gets every link of its path in this Caravan cycle (R170). -/
abbrev Gets (s : State) (c : Nat) (m : Msg) (control : Bool) (part : Nat) (path : List (Nat × Nat × Nat)) : Prop :=
  (s.travel c m control part path).2 = true

/-- A request comes to its sink: it arrives in this Caravan cycle, in its turn, or it waits there since an earlier one. -/
abbrev ComesTo (s : State) (c : Nat) (m : Msg) (d : MsgDest) : Prop :=
  d.stage = .refused ∨ (d.stage = .requested ∧ (s.job c).outOfTurn m d.dest = false ∧ Gets s c m true 0 (s.pathTo m d.dest 0))

/-- Command `i` moves the exchange of job `c`: no scratchpad byte changes, and destination `dest` of message `msg` becomes one that `P`
describes. -/
def Moves (i : Instr) (c msg dest : Nat) (s : State) (P : MsgDest → Prop) : Prop :=
  ∃ t d, exec i s = .next t ∧ InJob c s t ∧ (∀ u, PadSame u s t) ∧ destOf t c msg dest = some d ∧ P d

end Sys2Proof.Claims

/-! ### The Caravan -/

/-- REQUEST_DEPART (R168, R169, R172, R173, R177, R292): the queued message of an outbound channel whose START has come, whose
previous message's lines have all arrived and whose own lines lie in no open region leaves its tile: it takes the channel's next
sequence number, a destination for each tile that its route names, and its lines as they stand in the scratchpad where no Ostler line
is in flight. One with a line in an open region stays queued. A chain entry sends once in a Caravan: without a predecessor its own
message, or a null one; with one, once its partial has come, its own message combined with it, or the partial alone; and where the two
differ in length or handler or mode it sends a null message and the job is to stop. A gate tile sends its next delivery, with the lines
of local memory. -/
def Obligations.RequestsDepart : Prop :=
  ∀ (s : State) (u : Nat) (ch : Fin 16) (c : Nat), s.ctxOf u = some c → (s.job c).moves = true →
    let x := s.tile u
    let n : BitVec 4 := BitVec.ofNat 4 ch.val
    (∀ e, x.current.source n = some e → e.start.toNat ≤ (s.job c).clock →
      (∀ q : Queued, x.queued.find? (fun q => q.ch == n) = some q →
        ((e.isReduce = false ∧ (s.job c).channelFree u n = true) ∨
          (e.isReduce = true ∧ e.pred = false ∧ (u, ch.val) ∉ (s.job c).chainDone)) →
        (x.readWaits q = false → ∃ t m, exec (.requestDepart u ch) s = .next t ∧ InJob c s t ∧
          (t.job c).msgs = (s.job c).msgs ++ [m] ∧ m.source = u ∧ m.task = q.task ∧ m.lines = q.lines ∧ m.handler = q.hid ∧
          m.seq = x.seqs.get 0 ch.val ∧ m.entry = e ∧ m.null = false ∧ m.complete = false ∧ m.payload.length = q.lines ∧
          m.dests.map (·.dest) = e.dests ∧ (∀ d ∈ m.dests, d.stage = .requested) ∧ (t.tile u).queued = x.queued.erase q ∧
          (x.inFlight = [] → ∀ i, i < q.lines → let pa := (x.task q.task.val).padAddr (q.addr.toNat + 64 * i)
            m.payload[i]? = some (x.pad.read pa 64, decide (pa / 64 ∈ x.padPoison))) ∧
          (t.tile u).seqs.get 0 ch.val = x.seqs.get 0 ch.val + 1 ∧ (∀ v, PadSame v s t) ∧ ∀ v, v ≠ u → t.tile v = s.tile v) ∧
        (x.readWaits q = true → ∃ t, exec (.requestDepart u ch) s = .next t ∧ InJob c s t ∧ t.job c = s.job c ∧
          (t.tile u).queued.length = x.queued.length ∧ ∀ v, PadSame v s t)) ∧
      (x.queued.find? (fun q => q.ch == n) = none → e.isReduce = true → e.pred = false → (u, ch.val) ∉ (s.job c).chainDone →
        ∃ t m, exec (.requestDepart u ch) s = .next t ∧ InJob c s t ∧ (t.job c).msgs = (s.job c).msgs ++ [m] ∧ m.null = true ∧
          m.source = u ∧ m.entry = e ∧ (u, ch.val) ∈ (t.job c).chainDone ∧ ∀ v, t.tile v = s.tile v) ∧
      (∀ p, e.isReduce = true → e.pred = true → (u, ch.val) ∉ (s.job c).chainDone → (s.job c).predecessor u e = some p →
        p.null = false →
        (x.queued.find? (fun q => q.ch == n) = none → ∃ t m, exec (.requestDepart u ch) s = .next t ∧ InJob c s t ∧
          (t.job c).msgs.getLast? = some m ∧ m.pred = some p.id ∧ m.own = false ∧ m.null = false ∧ m.lines = p.lines ∧
          m.handler = p.handler ∧ m.last = p.last ∧ m.seq = p.seq ∧ m.entry = e ∧ (u, ch.val) ∈ (t.job c).chainDone ∧
          ∀ v, t.tile v = s.tile v) ∧
        (∀ q : Queued, x.queued.find? (fun q => q.ch == n) = some q → x.readWaits q = false →
          (p.lines = q.lines ∧ p.handler = q.hid ∧ p.entry.mode = e.mode →
            ∃ t m, exec (.requestDepart u ch) s = .next t ∧ InJob c s t ∧ (t.job c).msgs.getLast? = some m ∧
              m.pred = some p.id ∧ m.own = true ∧ m.null = false ∧ m.lines = q.lines ∧ m.handler = q.hid ∧ m.last = u ∧
              m.entry = e ∧ (t.tile u).queued = x.queued.erase q ∧ ∀ v, PadSame v s t) ∧
          (p.lines ≠ q.lines ∨ p.handler ≠ q.hid ∨ p.entry.mode ≠ e.mode →
            ∃ t m, exec (.requestDepart u ch) s = .next t ∧ InJob c s t ∧ (t.job c).msgs.getLast? = some m ∧ m.null = true ∧
              (t.job c).stop = true ∧ (t.tile u).queued = x.queued.erase q ∧ ∀ v, PadSame v s t)))) ∧
    (∀ g s1 l, x.current.source n = none → (s.job c).gateReady u n = some g → s.vtake c g.va (64 * g.lines) = (s1, .ok l) →
      ∃ t m, exec (.requestDepart u ch) s = .next t ∧ (t.job c).msgs = (s1.job c).msgs ++ [m] ∧ m.source = u ∧
        m.gate = some g.tag ∧ m.lines = g.lines ∧ m.handler = g.handler ∧ m.null = false ∧ m.entry.destCh = g.channel ∧
        m.payload.length = g.lines ∧ (∀ d ∈ m.dests, d.stage = .requested) ∧ (t.job c).gateOut = (s1.job c).gateOut.erase g ∧
        t.tiles = s1.tiles ∧ t.mem = s1.mem ∧ t.ports = s1.ports)

/-- REQUEST_ARRIVE (R168, R170, R172, R180 to R182, R271, R470): where no earlier request of its channel waits, a request at a gate is
granted, one at a ring with room at the ring's next lines, its Waybill written in the first of them, one at an Ostler point as far as
its descriptor still takes lines, and a multicast's at a tile without a record; with no ring, or no descriptor, it waits. A null
message is acknowledged on the spot; a chain's request is taken by the next contributor, or waits. A request that loses a link does not
arrive in this cycle. -/
def Obligations.RequestsArrive : Prop :=
  ∀ (s : State) (c : Fin 8) (msg dest : Nat) (m : Msg) (d : MsgDest), (s.job c.val).moves = true →
    (s.job c.val).msg msg = some m → m.at_ dest = some d →
    let i : Instr := .requestArrive c msg dest
    let free := ∀ o ∈ (s.job c.val).msgs, o.id ≠ msg → ∀ d' ∈ o.dests, d'.dest = dest → d'.stage ≠ .refused
    (d.stage = .requested → ¬ Gets s c.val m true 0 (s.pathTo m dest 0) →
      ∃ t, exec i s = .next t ∧ InJob c.val s t ∧ (∀ u, PadSame u s t) ∧ (t.job c.val).msgs = (s.job c.val).msgs) ∧
    (d.stage = .requested → (s.job c.val).outOfTurn m dest = false → Gets s c.val m true 0 (s.pathTo m dest 0) →
      (m.null = true → m.chains = false → Moves i c.val msg dest s fun d' => d'.stage = .acked) ∧
      (m.null = true → m.chains = false →
        ∃ t, exec i s = .next t ∧ ∀ n, (t.job c.val).msg msg = some n → n.complete = true) ∧
      (m.null = false → m.chains = false → m.entry.point = 0 → (s.tile dest).recorded = true →
        (s.tile dest).current.sink m.entry.destCh = none →
        Moves i c.val msg dest s fun d' => d'.stage = .refused ∧ d'.refusedAt = (s.job c.val).clock) ∧
      (m.null = false → m.chains = false → m.entry.point = 2 → s.boundDesc c.val dest m.entry.destCh = none →
        Moves i c.val msg dest s fun d' => d'.stage = .refused ∧ d'.refusedAt = (s.job c.val).clock) ∧
      (m.chains = true → (s.tile dest).takesChain m.entry.destCh = true →
        Moves i c.val msg dest s fun d' => d'.stage = .arrived) ∧
      (m.chains = true → (s.tile dest).takesChain m.entry.destCh = false →
        Moves i c.val msg dest s fun d' => d'.stage = .refused)) ∧
    (m.null = false → m.chains = false → free → ComesTo s c.val m d →
      (m.entry.point = 1 → Moves i c.val msg dest s fun d' => d'.stage = .granted ∧ d'.written = d.written) ∧
      (m.entry.point = 0 → (s.tile dest).recorded = false → m.entry.mode = 1 →
        Moves i c.val msg dest s fun d' => d'.stage = .granted) ∧
      (∀ q, m.entry.point = 2 → s.boundDesc c.val dest m.entry.destCh = some q → s.desc q.id = some q →
        64 * (q.granted + m.lines) ≤ q.consumes →
        ∃ t d', exec i s = .next t ∧ InJob c.val s t ∧ (∀ u, PadSame u s t) ∧ destOf t c.val msg dest = some d' ∧
          d'.stage = .granted ∧ t.desc q.id = some { q with granted := q.granted + m.lines }) ∧
      (∀ k line wrapped, m.entry.point = 0 → (s.tile dest).recorded = true →
        (s.tile dest).current.sink m.entry.destCh = some k → Memory.wf (s.tile dest).pad = true →
        (s.job c.val).indexCount dest false < 512 →
        ((s.tile dest).rings.get ⟨0, 0, 0⟩ k.inCh.toNat).place k.lines.toNat (m.lines + 1) = some (line, wrapped) →
        ∃ t d', exec i s = .next t ∧ InJob c.val s t ∧ destOf t c.val msg dest = some d' ∧
          d'.stage = .granted ∧ d'.overflow = false ∧ d'.line = k.offset.toNat + line ∧
          (t.tile dest).pad.read (((s.tile dest).task k.task.toNat).padAddr (64 * (k.offset.toNat + line))) 64 =
            (m.waybill c.val dest false).line ∧
          (t.tile dest).rings.get ⟨0, 0, 0⟩ k.inCh.toNat =
            ((s.tile dest).rings.get ⟨0, 0, 0⟩ k.inCh.toNat).after k.lines.toNat (m.lines + 1) line wrapped ∧
          ∀ u, u ≠ dest → PadSame u s t))

/-- GRANT_ARRIVE and DELIVERY_ACK_ARRIVE (R168, R170, R171): a grant that gets its links lets the lines of its destination depart; an
acknowledgement ends it there, and the message is complete exactly when every destination has acknowledged. Neither comes for a request
that waits, and one that loses a link changes no message. -/
def Obligations.GrantsAndAcks : Prop :=
  ∀ (s : State) (c : Fin 8) (msg dest : Nat) (m : Msg) (d : MsgDest), (s.job c.val).moves = true →
    (s.job c.val).msg msg = some m → m.at_ dest = some d →
    (d.stage = .granted → Gets s c.val m true (2 + 2 * dest) (s.pathBack m dest) →
      Moves (.grantArrive c msg dest) c.val msg dest s fun d' => d' = { d with stage := .sending }) ∧
    (d.stage = .granted → ¬ Gets s c.val m true (2 + 2 * dest) (s.pathBack m dest) →
      ∃ t, exec (.grantArrive c msg dest) s = .next t ∧ InJob c.val s t ∧ (∀ u, PadSame u s t) ∧
        (t.job c.val).msgs = (s.job c.val).msgs) ∧
    (d.stage = .delivered → Gets s c.val m true (3 + 2 * dest) (s.pathBack m dest) →
      ∃ t m' d', exec (.deliveryAckArrive c msg dest) s = .next t ∧ InJob c.val s t ∧
        (∀ u, PadSame u s t) ∧ (t.job c.val).msg msg = some m' ∧ m'.at_ dest = some d' ∧ d' = { d with stage := .acked } ∧
        (m'.complete = true ↔ ∀ x ∈ m'.dests, x.stage = .acked)) ∧
    (d.stage = .delivered → ¬ Gets s c.val m true (3 + 2 * dest) (s.pathBack m dest) →
      ∃ t, exec (.deliveryAckArrive c msg dest) s = .next t ∧ InJob c.val s t ∧ (∀ u, PadSame u s t) ∧
        (t.job c.val).msgs = (s.job c.val).msgs) ∧
    (d.stage = .refused → exec (.grantArrive c msg dest) s = .next s ∧ exec (.deliveryAckArrive c msg dest) s = .next s)

/-- PAYLOAD_LINE_ARRIVE (R68, R168, R170, R172, R174, R183): the next line of a granted message is written after its Waybill, in its
place, and no byte of any scratchpad outside that line and the Waybill's changes; the last one delivers the message. At an Ostler
point the line is the bound descriptor's; of a chain it is combined into the next contributor's message, as the left operand, or is
that message's own where the contributor has none. A line does not move before every destination has granted. -/
def Obligations.PayloadLinesLand : Prop :=
  ∀ (s : State) (c : Fin 8) (msg dest : Nat) (m : Msg) (d : MsgDest), (s.job c.val).moves = true →
    (s.job c.val).msg msg = some m → m.at_ dest = some d → d.stage = .sending → d.written < m.lines →
    let i : Instr := .payloadLineArrive c msg dest
    let line := m.payload.getD d.written ([], false)
    ((s.job c.val).lineReady m d.written = true → Gets s c.val m false 1 (s.pathTo m dest d.written) →
      (m.entry.point = 0 → m.chains = false → (s.tile dest).recorded = true → Memory.wf (s.tile dest).pad = true →
        let k := (s.tile dest).task ((s.tile dest).ringTask m.entry.destCh)
        let pa := k.padAddr (64 * (d.line + 1 + d.written))
        let head := k.padAddr (64 * d.line)
        ∃ t d', exec i s = .next t ∧ InJob c.val s t ∧ destOf t c.val msg dest = some d' ∧
          d'.written = d.written + 1 ∧ (d'.stage = .delivered ↔ d.written + 1 = m.lines) ∧
          (d'.stage = .sending ↔ d.written + 1 ≠ m.lines) ∧
          (t.tile dest).pad.read pa 64 = fitBytes 64 line.1 ∧ (pa / 64 ∈ (t.tile dest).padPoison ↔ line.2 = true) ∧
          (∀ a, a < head ∨ head + 64 ≤ a → a < pa ∨ pa + 64 ≤ a → (t.tile dest).pad.get a = (s.tile dest).pad.get a) ∧
          ∀ u, u ≠ dest → PadSame u s t) ∧
      (∀ q, m.entry.point = 2 → m.chains = false → s.boundDesc c.val dest m.entry.destCh = some q → s.desc q.id = some q →
        ∃ t d', exec i s = .next t ∧ (∀ u, PadSame u s t) ∧ t.mem = s.mem ∧ destOf t c.val msg dest = some d' ∧
          d'.written = d.written + 1 ∧ t.desc q.id = some { q with lines := q.lines ++ [line] }) ∧
      (m.entry.point = 1 → m.chains = false → Moves i c.val msg dest s fun d' => d'.written = d.written + 1) ∧
      (∀ n, m.entry.point = 0 → m.chains = true → n.id ≠ msg → (s.job c.val).msg n.id = some n → d.written < n.payload.length →
        (s.job c.val).msgs.find? (fun n => n.pred == some msg && n.source == dest) = some n →
        ∃ t n', exec i s = .next t ∧ InJob c.val s t ∧ (∀ u, PadSame u s t) ∧ (t.job c.val).msg n.id = some n' ∧
          n'.payload[d.written]? = some (if n.own then
              ((combineLine n.entry.mode.toNat line.1 (n.payload.getD d.written ([], false)).1).1,
                line.2 || (n.payload.getD d.written ([], false)).2)
            else line) ∧
          ∀ k, k ≠ d.written → n'.payload[k]? = n.payload[k]?)) ∧
    ((∃ x ∈ m.dests, x.stage = .refused) → exec i s = .next s)

/-- OVERFLOW_ROOM_ESCAPE and FREEZE_DECISION (R94, R184, R185, R192, R193, R368): a request refused for 4,096 Caravan cycles goes to
the overflow room of its ring's task while that has space for it, and without a ring ends the exchange and the job; before its
time nothing moves. At the end of a window, or of a frozen period, HOLD freezes the exchange for 32 core cycles, which its cause of the
Tally takes: 7 for a retry that a port of the job reports, else 9 for refresh; without HOLD the exchange goes on. -/
def Sys2Proof.Claims.EscapesAndFreezes : Prop :=
  (∀ (s : State) (c : Fin 8) (msg dest : Nat) (m : Msg) (d : MsgDest), (s.job c.val).moves = true →
    (s.job c.val).msg msg = some m → m.at_ dest = some d → d.stage = .refused →
    ((s.job c.val).clock < d.refusedAt + 4096 → exec (.overflowRoomEscape c msg dest) s = .next s) ∧
    (d.refusedAt + 4096 ≤ (s.job c.val).clock → (s.tile dest).current.sink m.entry.destCh = none → (s.job c.val).closing = [] →
      ∃ t, exec (.overflowRoomEscape c msg dest) s = .next t ∧ (t.job c.val).phase = .stopped ∧ (t.job c.val).msgs = [] ∧
        (∀ u, PadSame u s t) ∧ t.mem = s.mem) ∧
    (∀ k, d.refusedAt + 4096 ≤ (s.job c.val).clock → (s.tile dest).current.sink m.entry.destCh = some k → m.chains = false →
      m.entry.point = 0 → (s.tile dest).recorded = true → (s.job c.val).indexCount dest true < 64 →
      let y := (s.tile dest).task k.task.toNat
      y.roomUsed + (m.lines + 1) ≤ y.ovfLines →
      ∃ t d', exec (.overflowRoomEscape c msg dest) s = .next t ∧ t.mem = s.mem ∧ t.ports = s.ports ∧
        destOf t c.val msg dest = some d' ∧ d'.stage = .granted ∧ d'.overflow = true ∧ d'.line = y.ovfOffset + y.roomUsed ∧
        ((t.tile dest).task k.task.toNat).roomUsed = y.roomUsed + (m.lines + 1) ∧ ∀ u, u ≠ dest → t.tile u = s.tile u)) ∧
  (∀ (s : State) (c : Fin 8) (retry refresh : Bool), (s.job c.val).phase = .caravan → (s.job c.val).frozen = 0 →
    (s.job c.val).clock % 32 = 0 → (0 < (s.job c.val).clock ∨ (s.job c.val).thawed = true) →
    let held := retry && s.retrying c.val
    (held = true ∨ refresh = true →
      ∃ t, exec (.freezeDecision c retry refresh) s = .next t ∧ JobOnly c.val s t ∧ (t.job c.val).frozen = 32 ∧
        (t.job c.val).moves = false ∧ (t.job c.val).clock = (s.job c.val).clock ∧
        (t.job c.val).tally.get 0 (if held then 7 else 9) = (s.job c.val).tally.get 0 (if held then 7 else 9) + 32 ∧
        (t.job c.val).msgs = (s.job c.val).msgs) ∧
    (held = false → refresh = false → exec (.freezeDecision c retry refresh) s = .next s))

/-- CARAVAN_END (R157, R178, R196, R603): with every message complete and every image loaded, the images swap and the next
superstep begins with no message; a job that is to stop stops instead; with a message outstanding the Caravan goes on. -/
def Sys2Proof.Claims.CaravanEnds : Prop :=
  ∀ (s : State) (c : Fin 8), (s.job c.val).moves = true →
    (s.caravanQuiet c.val = true → (s.job c.val).cfg.tiles.Nodup → (∀ m ∈ (s.job c.val).msgs, m.entry.point ≠ 1) →
      (∀ k ∈ s.courier.cmds, k.f.srcKind ≠ 1) →
      ((s.job c.val).stop = false →
        ∃ t, exec (.caravanEnd c) s = .next t ∧ (t.job c.val).phase = .compute ∧
          (t.job c.val).superstep = (s.job c.val).superstep + 1 ∧ (t.job c.val).msgs = [] ∧
          ∀ u ∈ (s.job c.val).cfg.tiles, some (t.tile u).current = (s.tile u).next ∧ (t.tile u).next = none) ∧
      ((s.job c.val).stop = true → (s.job c.val).closing = [] →
        ∃ t, exec (.caravanEnd c) s = .next t ∧ (t.job c.val).phase = .stopped ∧ t.mem = s.mem)) ∧
    ((∃ m ∈ (s.job c.val).msgs, m.complete = false) → exec (.caravanEnd c) s = .next s)

/-- What freezes a Caravan, what an escape does, and how a Caravan ends. -/
def Obligations.CaravansFreezeAndEnd : Prop :=
  Sys2Proof.Claims.EscapesAndFreezes ∧ Sys2Proof.Claims.CaravanEnds

namespace Sys2Proof.Claims

/-- A job that computes is told to stop at its next Curfew, or another phase stands as it did. -/
def ToldToStop (c : Nat) (s t : State) : Prop := (s.job c).phase = .compute → (t.job c).stop = true ∧ (t.job c).phase = .compute

/-- A two-part answer whose second part reports no failure. -/
abbrev Fine {α β : Type} (r : α × Option β) : Prop := r.2 = none

end Sys2Proof.Claims

/-! ### The Ostlers -/

/-- The order of a descriptor's elements (R245, R247): a linear index is the mixed-radix number of its five components, with
dimension 0 the fastest; the packed order is a rearrangement of the linear one, the identity unless the descriptor
transposes, when the two lowest components change places. -/
def Sys2Proof.Claims.DescriptorOrder : Prop :=
  ∀ (raw : BitVec 512) (n : Nat), let d := odesc raw
    n < d.total →
    (∀ k, k < 5 → d.comp n k < d.e k) ∧
      n = d.comp n 0 + d.e 0 * (d.comp n 1 + d.e 1 * (d.comp n 2 + d.e 2 * (d.comp n 3 + d.e 3 * d.comp n 4))) ∧
      d.posOf n < d.total ∧ d.linOf (d.posOf n) = n ∧ (d.transposes = false → d.posOf n = n) ∧
      (d.transposes = true → d.posOf n % (d.e 0 * d.e 1) = d.comp n 0 * d.e 1 + d.comp n 1)

/-- OSTLER_DESCRIPTOR_FETCH (R50, R242, R251, R255, R264, R266): a descriptor that its checks accept, whose FP8 side if any names an
entry of its format, is queued for the Ostler it is dealt to, with nothing of it split; a conversion into an unseeded entry begins that
entry's probe. One that a check rejects moves nothing, and its job stops; so does one whose entry cannot be read. One whose entry was fetched
poisoned, or for an absent job, is rejected alone, and one whose job runs no more, or that adds behind another add of its source, waits. -/
def Sys2Proof.Claims.DescriptorsAreChecked : Prop :=
  ∀ (s : State) (src : Source) (index : BitVec 16) (c : Nat) (action : Option Nat) (raw : BitVec 512), c < 8 →
    let d := odesc raw
    let i : Instr := .ostlerDescriptorFetch src
    let group : Option Nat := match src with
      | .ring r => some (s.ring r.val).group
      | .engine _ => none
    let chk := d.check (s.job c).cfg group
    let plain := d.fp8Dst = false ∧ d.fp8Src = false
    (s.nextDescriptor src = some (index, c, action, raw, false) → (s.job c).running = true → s.addsBefore src raw = false →
      s.mem.errors = [] ∨ plain →
      (∀ en, (chk = .good ∨ ∃ n, chk = .bounced n) → s.tensorEntry c d = .ok (some en) →
        (∀ e, en = some e → d.fp8Dst = true → e.seeded = true ∨ e.isProbing = true) →
        ∃ t q, exec i s = .next t ∧
          { t with descs := s.descs, nextDesc := s.nextDesc, fresh := s.fresh, host := s.host, engineDescs := s.engineDescs } = s ∧
          t.descs = s.descs ++ [q] ∧ q.raw = raw ∧ q.src = src ∧ q.index = index ∧ q.ctx.val = c ∧ q.action = action ∧
          q.ostler = s.dealTo d (group.getD 0) ∧ q.next = 0 ∧ q.chunksLeft = 0 ∧ q.ended = none ∧
          (q.bounced = true ↔ ∃ n, n ≠ 0 ∧ chk = .bounced n)) ∧
      (∀ e m pa, chk = .good → s.tensorEntry c d = .ok (some (some e)) → d.fp8Dst = true → e.seeded = false →
        e.isProbing = false → s.extentMax c e = .ok m → (s.pages c (s.scaleVA c d.tensor) 80 true).1 = .ok pa →
        ∃ t q, exec i s = .next t ∧ t.descs = s.descs ++ [q] ∧ q.raw = raw ∧ q.src = src ∧ q.ctx.val = c ∧ q.next = 0 ∧
          (t.job c).probing.find d.tensor = some m ∧ t.tiles = s.tiles ∧ t.ports = s.ports) ∧
      ((chk = .invalid ∨ (∃ n, chk = .overlap n) ∨ s.tensorEntry c d = .ok none ∨ ∃ e, s.tensorEntry c d = .error e) →
        ∃ t, exec i s = .next t ∧ t.mem = s.mem ∧ t.tiles = s.tiles ∧ ToldToStop c s t ∧
          ((s.job c).phase = .compute → t.descs = s.descs))) ∧
    (∀ r ep, src = .ring r → s.nextDescriptor src = some (index, c, action, raw, ep) → (ep = true ∨ (s.job c).present = false) →
      ∃ t, exec i s = .next t ∧ { t with host := s.host, fresh := s.fresh } = s) ∧
    (∀ ep, s.nextDescriptor src = some (index, c, action, raw, ep) → ep = false → (s.job c).present = true →
      ((s.job c).running = false ∨ s.addsBefore src raw = true) → exec i s = .next s) ∧
    (s.nextDescriptor src = none → exec i s = .next s)

/-- The order in which Ostler starts descriptors, and the checks it makes of each. -/
def Obligations.DescriptorsStart : Prop :=
  Sys2Proof.Claims.DescriptorOrder ∧ Sys2Proof.Claims.DescriptorsAreChecked

/-- OSTLER_CHUNK_SPLIT and CHUNK_STEAL (R267, R268, R269, R275): the oldest descriptor of an Ostler that is not wholly split adds chunks
that cover the positions from where it stood, up to 64 in the queue; an idle Ostler takes the last chunk that it may take of the longest
queue of its group, and one that is busy, or whose group holds only chunks that must stay, takes none. A chunk of a descriptor whose
splitting began with stealing off, or that runs whole, must stay. -/
def Obligations.ChunksAreDealt : Prop :=
  (∀ (s : State) (o : Fin 40) (q : Desc),
    s.descs.find? (fun q => decide (q.ostler = o.val) && decide (q.next < (odesc q.raw).total)) = some q →
    s.desc q.id = some q → (s.ostler o.val).queue.length ≤ 64 →
    ∃ t ks q', exec (.ostlerChunkSplit o) s = .next t ∧ { t with descs := s.descs, ostlers := s.ostlers } = s ∧
      t.ostler o.val = { s.ostler o.val with queue := (s.ostler o.val).queue ++ ks } ∧
      (s.ostler o.val).queue.length + ks.length ≤ 64 ∧ (∀ v, v ≠ o.val → t.ostler v = s.ostler v) ∧
      (∀ k ∈ ks, k.desc = q.id ∧ q.next ≤ k.lo ∧ 0 < k.count ∧ k.lo + k.count ≤ (odesc q.raw).total) ∧
      t.desc q.id = some q' ∧ q'.next = q.next + (ks.map (·.count)).sum ∧ q'.chunksLeft = q.chunksLeft + ks.length ∧
      q'.ctrl = some (q.ctrl.getD (s.groups.get 0x80000001 (o.val / 5))) ∧
      ((s.ostler o.val).queue.length < 64 → q.next < q'.next)) ∧
  (∀ (s : State) (o : Fin 40), (s.ostler o.val).queue = [] → (s.ostler o.val).current = none →
    (∃ v, v < 40 ∧ v / 5 = o.val / 5 ∧ (s.ostler v).queue ≠ []) →
    (∀ v, v < 40 → v / 5 = o.val / 5 → (s.ostler v).queue ≠ [] → ∃ k ∈ (s.ostler v).queue, s.takeable k = true) →
    ∃ t v k l l', exec (.chunkSteal o) s = .next t ∧ { t with ostlers := s.ostlers } = s ∧ v / 5 = o.val / 5 ∧
      (∀ x, x < 40 → x / 5 = o.val / 5 → (s.ostler x).queue.length ≤ (s.ostler v).queue.length) ∧
      (s.ostler v).queue = l ++ k :: l' ∧ s.takeable k = true ∧ (∀ x ∈ l', s.takeable x = false) ∧
      (t.ostler v).queue = l ++ l' ∧ (t.ostler o.val).queue = [k] ∧
      (t.ostler o.val).stolen = (s.ostler o.val).stolen + 1 ∧ ∀ x, x ≠ v → x ≠ o.val → t.ostler x = s.ostler x) ∧
  (∀ (s : State) (o : Fin 40), ((s.ostler o.val).queue ≠ [] ∨ (s.ostler o.val).current.isSome = true ∨
    (∀ v, v < 40 → v / 5 = o.val / 5 → ∀ k ∈ (s.ostler v).queue, s.takeable k = false)) → exec (.chunkSteal o) s = .next s) ∧
  (∀ (s : State) (k : Chunk) (q : Desc), s.desc k.desc = some q →
    ((q.ctrl.getD 0).getLsbD 31 = false ∨ (odesc q.raw).unsplit q.bounced = true) → s.takeable k = false)

/-- OSTLER_CHUNK_RUN (R250, R260, R268): the chunk at the head of the queue that may run leaves the queue and is performed: its
descriptor has one chunk fewer to finish, or has ended early with a status. While
its job's exchange is frozen a chunk that crosses the mesh waits (R192), as does one whose scale-table entry a push or a probe will
change (R78, R268). Tiles other than the one that the descriptor
writes, the ports, and every other job are untouched; a descriptor that writes a tile as stored bits or as an unscaled
format leaves local memory as it was. -/
def Obligations.ChunksRun : Prop :=
  (∀ (s : State) (o : Fin 40) (k : Chunk) (q : Desc), s.headChunk (s.ostler o.val).queue = some (k, q) →
    (odesc q.raw).crossesMesh = true → 0 < (s.job q.ctx.val).frozen → exec (.ostlerChunkRun o) s = .next s) ∧
  (∀ (s : State) (o : Fin 40), (∀ k ∈ (s.ostler o.val).queue, ∀ q, s.desc k.desc = some q → s.scaleWait q = true) →
    exec (.ostlerChunkRun o) s = .next s) ∧
  ∀ (s : State) (o : Fin 40) (k : Chunk) (q : Desc), s.headChunk (s.ostler o.val).queue = some (k, q) →
    s.chunkReady q k = true → s.desc q.id = some q →
    let d := odesc q.raw
    ∃ t q', exec (.ostlerChunkRun o) s = .next t ∧ t.desc q.id = some q' ∧
      (t.ostler o.val).queue.length < (s.ostler o.val).queue.length ∧
      ((q'.ended = q.ended ∧ q'.chunksLeft = q.chunksLeft - 1) ∨ (q'.ended.isSome = true ∧ q'.chunksLeft = 0)) ∧
      t.ports = s.ports ∧ t.boot = s.boot ∧ t.power = s.power ∧ t.courier = s.courier ∧
      (∀ c, c ≠ q.ctx.val → t.job c = s.job c) ∧
      (∀ u, (∀ b, d.dstTile = some b → b.tile ≠ u) → t.tile u = s.tile u) ∧
      (d.dstTile.isSome = true → d.fp8Dst = false → d.mxDst = false → d.mark = false → s.mem.errors = [] → t.mem = s.mem)

/-- OSTLER_DESCRIPTOR_COMPLETE (R97, R220, R261, R265): with its last chunk finished a descriptor leaves its Ostler; unless a failed
translation ended it, its token advances in the task that it writes, whose lines in flight become visible; one that ended early stops
its job. With a chunk left nothing happens. -/
def Obligations.DescriptorsComplete : Prop :=
  ∀ (s : State) (id : Nat) (q : Desc), s.desc id = some q →
    let d := odesc q.raw
    (q.chunksLeft = 0 → q.next = d.total →
      ∃ t, exec (.ostlerDescriptorComplete id) s = .next t ∧ t.desc id = none ∧ t.mem = s.mem ∧ t.ports = s.ports ∧
        (∀ b, d.dstTile = some b →
          (q.ended ≠ some 3 → ((t.tile b.tile).task b.task).tokens.get 0 d.token.toNat =
            ((s.tile b.tile).task b.task).tokens.get 0 d.token.toNat + 1) ∧
          (q.ended = some 3 → ((t.tile b.tile).task b.task).tokens = ((s.tile b.tile).task b.task).tokens) ∧
          (∀ f ∈ (t.tile b.tile).inFlight, f.desc ≠ id) ∧ PadSame b.tile s t) ∧
        (d.dstTile = none → t.tiles = s.tiles) ∧ (q.ended.isSome = true → ToldToStop q.ctx.val s t)) ∧
    (q.chunksLeft ≠ 0 → exec (.ostlerDescriptorComplete id) s = .next s)

/-! ### The scale table -/

/-- R43 to R49 and R52: a push puts its value at HEAD, which moves on modulo 16, and clears CURRENT_AMAX; an unseeded entry
ignores a zero and is otherwise seeded, every slot taking the value; SCALE_EXP follows the largest of the history, and with a history of zeros stays; a halving
doubles every AMAX, up to the largest finite value, and lowers SCALE_EXP by one, no lower than −127, or leaves INIT_EXP in it while the
entry is unseeded;
a merge keeps the larger magnitude and adds the saturations. -/
def Sys2Proof.Claims.ScaleEntryRules : Prop :=
  (∀ (e : ScaleEntry) (v : Word) (m : Nat), e.hist.length = 16 → e.seeded = true →
    (e.push v m).hist = e.hist.set e.head v ∧ (e.push v m).head = (e.head + 1) % 16 ∧ (e.push v m).cur = 0 ∧
      (e.push v m).seeded = true ∧ (e.push v m).sat = e.sat) ∧
  (∀ (e : ScaleEntry) (m : Nat), e.seeded = false → (e.push 0 m).hist = e.hist ∧ (e.push 0 m).seeded = false ∧
    (e.push 0 m).ctl = e.ctl ∧ (e.push 0 m).cur = 0) ∧
  (∀ (e : ScaleEntry) (v : Word) (m : Nat), e.seeded = false → v ≠ 0 → (e.push v m).hist = List.replicate 16 v ∧
    (e.push v m).head = 0 ∧ (e.push v m).seeded = true ∧ (e.push v m).cur = 0) ∧
  (∀ (e : ScaleEntry) (v : Word) (m : Nat) (x : Int), e.hist.length = 16 → e.seeded = true →
    scaleExp ((e.hist.set e.head v).foldl magMax 0) (e.format == 1) m = some x → (e.push v m).scaleExp = BitVec.ofInt 8 x) ∧
  (∀ (e : ScaleEntry), (e.seeded = true → e.halve.scaleExp.toInt = max (-127) (e.scaleExp.toInt - 1)) ∧
    (e.seeded = false → e.halve.scaleExp = e.initExp) ∧ e.halve.seeded = e.seeded ∧
    e.halve.head = e.head ∧ e.halve.hist = e.hist.map twice) ∧
  (∀ (e : ScaleEntry) (v : Word) (m : Nat), e.hist.length = 16 → e.seeded = true → (∀ x ∈ e.hist.set e.head v, x = 0) →
    (e.push v m).scaleExp = e.scaleExp) ∧
  (∀ w : Word, nonfinite32 w = false → (nonfinite32 (fadd w w) = true → twice w = 0x7F7FFFFF) ∧
    (nonfinite32 (fadd w w) = false → twice w = fadd w w)) ∧
  (∀ (e : ScaleEntry) (a : Word) (n : Nat), (e.merge a n).cur = magMax e.cur a ∧ (e.merge a n).sat = e.sat + BitVec.ofNat 32 n ∧
    (e.merge a n).hist = e.hist ∧ (e.merge a n).ctl = e.ctl)

/-- PROBE_REQUEST, PROBE_COMBINE_COMPLETE and AMAX_COMBINE_COMPLETE (R45, R49, R50): a seeded entry joins no probe; an
unseeded one does, with the largest magnitude of its own extent; the combined value ends the probe and seeds the entry with the larger of it and the module's own; a push is done once for
each tensor of an applied step, of the largest of CURRENT_AMAX, the slots' and the other modules' magnitudes, and clears the slots'. -/
def Sys2Proof.Claims.ProbesAndPushes : Prop :=
  (∀ (s : State) (c : Fin 8) (n : BitVec 16) (e : ScaleEntry), (s.job c.val).running = true →
    n.toNat < (s.job c.val).cfg.scaleEntries.toNat → s.mem.errors = [] → s.scaleRead c.val n.toNat = .ok e →
    (e.seeded = true ∨ e.isProbing = true → exec (.probeRequest c n) s = .next s) ∧
    (∀ m pa, e.seeded = false → e.isProbing = false → s.extentMax c.val e = .ok m →
      (s.pages c.val (s.scaleVA c.val n.toNat) 80 true).1 = .ok pa →
      ∃ t, exec (.probeRequest c n) s = .next t ∧ (t.job c.val).probing.find n.toNat = some m ∧ t.tiles = s.tiles ∧
        t.ports = s.ports ∧ (t.job c.val).phase = (s.job c.val).phase ∧ ∀ d, d ≠ c.val → t.job d = s.job d)) ∧
  (∀ (s : State) (c : Fin 8) (n : BitVec 16) (others own : Word), (s.job c.val).probing.find n.toNat = some own →
    ∃ t, exec (.probeCombineComplete c n others) s = .next t ∧
      (t.job c.val).probing = (s.job c.val).probing.drop n.toNat ∧ t.tiles = s.tiles ∧ (∀ d, d ≠ c.val → t.job d = s.job d) ∧
      ∀ s1, s.scaleUpdate c.val n.toNat (fun e =>
          let e1 := e.seed (if (s.job c.val).cfg.groupOf e.axes ≤ 1 then own else magMax own others) (s.job c.val).cfg.margin.toNat
          { e1 with ctl := putField e1.ctl 26 1 0, probes := e1.probes + 1 }) = (s1, none) → t.mem = s1.mem) ∧
  (∀ (s : State) (c : Fin 8) (n : BitVec 16) (others : Word),
    (n ∈ (s.job c.val).pushesLeft →
      ∃ t, exec (.amaxCombineComplete c n others) s = .next t ∧
        (∀ s1, s.scaleUpdate c.val n.toNat (fun e =>
          let m := magMax e.cur (s.slotAmax c.val n.toNat)
          (e.merge 0 (s.slotSat c.val n.toNat)).push (if (s.job c.val).cfg.groupOf e.axes ≤ 1 then m else magMax m others)
            (s.job c.val).cfg.margin.toNat) = (s1, none) → t.mem = s1.mem) ∧
        (t.job c.val).pushesLeft = (s.job c.val).pushesLeft.filter (· ≠ n) ∧ (∀ u, PadSame u s t) ∧
        (∀ u ∈ (s.job c.val).cfg.tiles, ∀ k i, (((t.tile u).task k).slots.get Slot.empty i).filled = true →
          (((t.tile u).task k).slots.get Slot.empty i).tensor = n → (((t.tile u).task k).slots.get Slot.empty i).amax = 0) ∧
        ∀ d, d ≠ c.val → t.job d = s.job d) ∧
    (n ∉ (s.job c.val).pushesLeft → exec (.amaxCombineComplete c n others) s = .next s))

/-- The rules of the scale entries, and the probes and pushes that act on them. -/
def Obligations.ScalesAndPushes : Prop :=
  Sys2Proof.Claims.ScaleEntryRules ∧ Sys2Proof.Claims.ProbesAndPushes

namespace Sys2Proof.Claims

/-- The Courier's commands with their opcodes (R394). -/
def courierForms (src : Source) : List (Instr × Nat) :=
  [(.allGather src, 0), (.reduceScatter src, 1), (.allReduce src, 2), (.allToAll src, 3), (.permute src, 4),
    (.broadcast src, 5), (.queueOpen src, 6), (.queueClose src, 7)]

/-- The command of a context with a TAG. -/
def cmdAt (s : State) (c : Nat) (tag : BitVec 16) : Option CCmd :=
  s.courier.cmds.find? fun k => k.ctx.val = c && k.tag == tag

/-- Whether a source is the Step Engine. -/
def ofEngine : Source → Bool
  | .ring _ => false
  | .engine _ => true

/-- The Courier takes an accepted flit of a port that carries its traffic. -/
abbrev Accepts (s : State) (p : Nat) (f : TxFlit) : Prop := (s.port p).carries = true ∧ (s.port p).hasFlit f = true

/-- A control flit of port `p` is taken, and nothing changes but the Courier and the ports: the flit leaves its receive buffer, and the
other ports, and this one, at most queue flits of class 0. -/
def CtrlTaken (p : Nat) (f : TxFlit) (s t : State) : Prop :=
  { t with courier := s.courier, ports := s.ports } = s ∧ ∀ q, ∃ l,
    t.port q = { (if q = p then (s.port p).takeFlit f else s.port q) with class0 := (s.port q).class0 ++ l }

end Sys2Proof.Claims

/-! ### The Courier -/

/-- The data commands (R396, R397, R417, R418, R420): a command that passes its checks, with partners joined on every port that it
exchanges CHECK on, is in progress and sends one CHECK on each of those ports; no datum moves until they answer. With a partner lost it
ends with status 3 and its job is held; with no port to ask, and no gate to wait for, it starts at once. -/
def Obligations.CommandsExchangeCheck : Prop :=
  ∀ (s : State) (src : Source) (i : Instr) (op index : Nat) (c : Nat) (action : Option Nat) (raw : BitVec 512) (tbl : List Byte),
    (i, op) ∈ courierForms src → op < 6 → c < 8 →
    s.nextCommand src op = some (BitVec.ofNat 16 index, c, action, raw, false) → (s.job c).running = true →
    s.courier.cmds.length < 64 → s.mem.errors = [] →
    let f := courierFields raw
    let g := s.group c f.named
    f.fieldsOk (ofEngine src) = true → (∀ k ∈ s.courier.cmds, k.ctx.val = c → k.tag ≠ f.tag) →
    s.vuse c f.table (f.tableBytes g.size) = .ok tbl → f.tableOk tbl g (s.job c).cfg = true →
    (s.checkPorts c f ≠ [] → (∀ p ∈ s.checkPorts c f, (s.port p).joined = true) →
      ∃ t k, exec i s = .next t ∧ t.courier.cmds = s.courier.cmds ++ [k] ∧ k.raw = raw ∧ k.tag = f.tag ∧ k.ctx.val = c ∧
        k.table = tbl ∧ k.checks = s.checkPorts c f ∧ k.started = false ∧ k.status = none ∧ t.mem = s.mem ∧ t.tiles = s.tiles ∧
        t.jobs = s.jobs ∧
        (∀ p ∈ s.checkPorts c f, (t.port p).class0 = (s.port p).class0 ++
          [ctrlFlit 1 0 (Config.ctrlPayload 1 f.tag (crc32c (Config.commandBytes (CF.checked raw) tbl)).toNat)]) ∧
        ∀ p, p ∉ s.checkPorts c f → t.port p = s.port p) ∧
    ((∃ p ∈ s.checkPorts c f, (s.port p).joined = false) →
      ∃ t k, exec i s = .next t ∧ cmdAt t c f.tag = some k ∧ k.status = some 3 ∧ (t.job c).held = true ∧ t.mem = s.mem ∧
        t.tiles = s.tiles ∧ t.ports = s.ports) ∧
    (s.checkPorts c f = [] → f.srcKind = 0 →
      ∃ t k, exec i s = .next t ∧ cmdAt t c f.tag = some k ∧ k.raw = raw ∧ k.table = tbl ∧ k.started = true)

/-- R394, R415, R417: a command whose OPCODE or fields or table are wrong, whose TAG is in use in its context, which opens a queue that
is open or closes one that is not, writes nothing; it joins no command in progress and the job stops. -/
def Sys2Proof.Claims.WrongCommandsAreRejected : Prop :=
  ∀ (s : State) (src : Source) (i : Instr) (op index : Nat) (c : Nat) (action : Option Nat) (raw : BitVec 512),
    (i, op) ∈ courierForms src → c < 8 →
    s.nextCommand src op = some (BitVec.ofNat 16 index, c, action, raw, false) → (s.job c).phase = .compute →
    s.courier.cmds.length < 64 →
    let f := courierFields raw
    let g := s.group c f.named
    (f.fieldsOk (ofEngine src) = false ∨ 8 ≤ f.op ∨ (∃ k ∈ s.courier.cmds, k.ctx.val = c ∧ k.tag = f.tag) ∨
      (op = 6 ∧ (s.job c).queues.find f.queueKey ≠ none) ∨ (op = 7 ∧ (s.job c).queues.find f.queueKey = none) ∨
      ∃ tbl, s.mem.errors = [] ∧ s.vuse c f.table (f.tableBytes g.size) = .ok tbl ∧ f.tableOk tbl g (s.job c).cfg = false) →
    ∃ t, exec i s = .next t ∧ t.courier = s.courier ∧ t.mem = s.mem ∧ t.tiles = s.tiles ∧ t.ports = s.ports ∧ ToldToStop c s t ∧
      ∀ d, d ≠ c → t.job d = s.job d

/-- QUEUE_OPEN and QUEUE_CLOSE (R415, R416, R418): either exchanges CHECK with the queue's other module, on the one P port that leads to
it within the job. Once that has agreed, or where there is none, opening makes the queue, its sender with SLOT credits, and is then
complete; closing needs an open queue, and waits until every entry has been released. -/
def Sys2Proof.Claims.QueuesOpenAndClose : Prop :=
  ∀ (s : State) (src : Source) (index : Nat) (c : Nat) (action : Option Nat) (raw : BitVec 512), c < 8 →
    (s.job c).running = true → s.courier.cmds.length < 64 → s.mem.errors = [] →
    let f := courierFields raw
    f.fieldsOk (ofEngine src) = true → (∀ k ∈ s.courier.cmds, k.ctx.val = c → k.tag ≠ f.tag) →
    (∀ i op, (i, op) = (Instr.queueOpen src, 6) ∧ (s.job c).queues.find f.queueKey = none ∨
        (i, op) = (Instr.queueClose src, 7) ∧ (s.job c).queues.find f.queueKey ≠ none →
      s.nextCommand src op = some (BitVec.ofNat 16 index, c, action, raw, false) → s.needPorts c f ≠ [] →
      (∀ p ∈ s.needPorts c f, (s.port p).joined = true) →
      ∃ t k, exec i s = .next t ∧ cmdAt t c f.tag = some k ∧ k.checks = s.needPorts c f ∧ k.started = false ∧ t.cmdDone k = false ∧
        t.jobs = s.jobs ∧ t.mem = s.mem ∧ t.tiles = s.tiles ∧ ∀ p ∈ s.needPorts c f, (t.port p).class0 = (s.port p).class0 ++
          [ctrlFlit 1 0 (Config.ctrlPayload 1 f.tag k.crc.toNat)]) ∧
    (s.nextCommand src 6 = some (BitVec.ofNat 16 index, c, action, raw, false) → (s.job c).queues.find f.queueKey = none →
      s.needPorts c f = [] →
      ∃ t k q, exec (.queueOpen src) s = .next t ∧ (t.job c).queues.find f.queueKey = some q ∧ q.tag = f.tag ∧
        q.sender = (f.srcKind == 1) ∧ q.credits = f.slot ∧ q.depth = f.slot ∧ q.entryLines = f.count ∧ q.sent = 0 ∧ q.landed = 0 ∧
        cmdAt t c f.tag = some k ∧ t.cmdDone k = true ∧ t.mem = s.mem ∧ t.tiles = s.tiles ∧ t.ports = s.ports ∧
        ∀ d, d ≠ c → t.job d = s.job d) ∧
    (∀ q, s.nextCommand src 7 = some (BitVec.ofNat 16 index, c, action, raw, false) →
      (s.job c).queues.find f.queueKey = some q → s.needPorts c f = [] →
      ∃ t k, exec (.queueClose src) s = .next t ∧ cmdAt t c f.tag = some k ∧ t.jobs = s.jobs ∧ t.mem = s.mem ∧
        t.tiles = s.tiles ∧ t.ports = s.ports ∧
        (t.cmdDone k = true ↔ if q.sender then q.credits = q.depth else q.landed = q.released))

/-- Commands that Courier turns away, and the queue commands. -/
def Obligations.QueueCommands : Prop :=
  Sys2Proof.Claims.WrongCommandsAreRejected ∧ Sys2Proof.Claims.QueuesOpenAndClose

/-- CTRL CHECK and CTRL ABORT (R364, R418): an accepted CHECK of an equal CRC counts its port off, and the last one starts the command,
unless a gate has still to fill its source; QUEUE_OPEN then opens its queue. A different CRC, or an ABORT, ends the command with
status 2 and passes an ABORT on, writing no byte of memory. A CHECK for a command that has ended here is answered by an ABORT where
the CRCs differ; one for a command not yet taken waits. -/
def Sys2Proof.Claims.ChecksAndAborts : Prop :=
  (∀ (s : State) (p : Fin 8) (tag : BitVec 16) (crc : Word) (k : CCmd), s.cmdOf tag = some k → k.status = none →
    let fl := ctrlFlit 1 0 (Config.ctrlPayload 1 tag crc.toNat)
    Accepts s p.val fl →
    (k.crc = crc → dropFrom k.checks p.val ≠ [] →
      ∃ t, exec (.ctrlCheck p tag crc) s = .next t ∧ { t with courier := s.courier } = s.setPort p.val ((s.port p.val).takeFlit fl) ∧
        t.cmdOf tag = some { k with checks := dropFrom k.checks p.val, since := s.tick }) ∧
    (k.crc = crc → dropFrom k.checks p.val = [] → k.started = false → k.f.srcKind = 1 → k.f.op < 6 → k.collected = false →
      ∃ t, exec (.ctrlCheck p tag crc) s = .next t ∧ { t with courier := s.courier } = s.setPort p.val ((s.port p.val).takeFlit fl) ∧
        t.cmdOf tag = some { k with checks := [], since := s.tick }) ∧
    (k.crc = crc → dropFrom k.checks p.val = [] → k.started = false → (k.f.srcKind = 0 ∨ 6 ≤ k.f.op ∨ k.collected = true) →
      ∃ t k', exec (.ctrlCheck p tag crc) s = .next t ∧ t.cmdOf tag = some k' ∧ k'.raw = k.raw ∧ k'.checks = [] ∧ k'.started = true ∧
        (k.f.op = 6 → (t.job k.ctx.val).queues.find k.f.queueKey = some k.f.newQueue ∧ t.cmdDone k' = true) ∧
        (5 ≤ k.f.op → (k.f.op = 5 → k.f.rootIndex (k.group s) ≠ (k.group s).me) → t.mem = s.mem ∧ t.tiles = s.tiles)) ∧
    (k.crc ≠ crc →
      ∃ t, exec (.ctrlCheck p tag crc) s = .next t ∧ { t with courier := s.courier, ports := s.ports, host := s.host } = s ∧
        t.cmdOf tag = some { k with status := some 2 } ∧
        ∀ q ∈ s.needPorts k.ctx.val k.f, ctrlFlit 5 0 (Config.ctrlPayload 5 tag 0) ∈ (t.port q).class0)) ∧
  (∀ (s : State) (p : Fin 8) (tag : BitVec 16) (k : CCmd), s.cmdOf tag = some k → k.status = none →
    let fl := ctrlFlit 5 0 (Config.ctrlPayload 5 tag 0)
    Accepts s p.val fl →
    ∃ t, exec (.ctrlAbort p tag) s = .next t ∧ CtrlTaken p.val fl s t ∧ t.cmdOf tag = some { k with status := some 2 } ∧
      ∀ q ∈ s.needPorts k.ctx.val k.f, q ≠ p.val → fl ∈ (t.port q).class0) ∧
  (∀ (s : State) (p : Fin 8) (tag : BitVec 16) (crc : Word) (k : CCmd), s.cmdOf tag = none → s.routeOf tag = some k →
    let fl := ctrlFlit 1 0 (Config.ctrlPayload 1 tag crc.toNat)
    Accepts s p.val fl →
    (k.crc = crc → exec (.ctrlCheck p tag crc) s = .next (s.setPort p.val ((s.port p.val).takeFlit fl))) ∧
    (k.crc ≠ crc → ∃ t, exec (.ctrlCheck p tag crc) s = .next t ∧ t.courier = s.courier ∧ t.mem = s.mem ∧
      ∀ q ∈ s.needPorts k.ctx.val k.f, ctrlFlit 5 0 (Config.ctrlPayload 5 tag 0) ∈ (t.port q).class0)) ∧
  (∀ (s : State) (p : Fin 8) (tag : BitVec 16) (crc : Word), s.routeOf tag = none →
    exec (.ctrlCheck p tag crc) s = .next s ∧ exec (.ctrlAbort p tag) s = .next s)

/-- CTRL GRANT, CTRL CREDIT, CTRL DONE and CTRL OPEN (R364, R401, R403, R404, R405, R413, R416): an accepted grant is kept until the
command starts, and then lets this module's bytes for that owner go, up to what it permits; one for another participant goes on towards
it. Credits come back to the sender, up to the depth. The first DONE of a participant for a round is noted and goes on along every named
axis, and a second one says nothing. An OPEN binds its stream from byte 0 and opens one on each port that its segment goes on by; it
waits while its command is not known here. A port that carries no traffic gives none of them. -/
def Sys2Proof.Claims.ControlFlitsAreTaken : Prop :=
  (∀ (s : State) (p : Fin 8) (tag : BitVec 16) (k : CCmd) (owner target upTo : Nat), s.cmdOf tag = some k →
    let g := k.group s
    let fl := ctrlFlit 2 0 (grantPayload tag owner target upTo)
    Accepts s p.val fl →
    (target = g.me → (k.started = false ∨ k.status ≠ none ∨ owner = g.me ∨ g.size ≤ owner ∨ (k.f.op ≠ 1 ∧ k.f.op ≠ 2)) →
      ∃ t, exec (.ctrlGrant p tag ⟨owner, target, upTo⟩) s = .next t ∧
        { t with courier := s.courier } = s.setPort p.val ((s.port p.val).takeFlit fl) ∧
        t.cmdOf tag = some { k with granted := k.granted.set owner (max upTo (k.granted.get 0 owner)), since := s.tick }) ∧
    (target = g.me → k.started = true → k.status = none → owner ≠ g.me → owner < g.size → (k.f.op = 1 ∨ k.f.op = 2) →
      let o := k.f.owned k.table g.size owner
      let sent := k.sentTo.get 0 owner
      let up := min (max upTo (k.granted.get 0 owner)) (o.2 * k.f.es)
      sent < up → ∀ s1 l, s.vtake k.ctx.val (k.f.src + (if k.f.op = 2 then o.1 else k.f.offset (k.f.cnt k.table) owner) * k.f.es + sent)
          (up - sent) = (s1, .ok l) →
        ∃ t k', exec (.ctrlGrant p tag ⟨owner, target, upTo⟩) s = .next t ∧ t.cmdOf tag = some k' ∧ k'.sentTo.get 0 owner = up ∧
          k'.txBytes = k.txBytes + l.length ∧ t.mem = s1.mem ∧ t.tiles = s.tiles) ∧
    (target ≠ g.me → ∀ q, g.hop target 0 = some q →
      ∃ t, exec (.ctrlGrant p tag ⟨owner, target, upTo⟩) s = .next t ∧ CtrlTaken p.val fl s t ∧ t.courier = s.courier ∧
        (t.port q).class0 = (s.port q).class0 ++ [fl])) ∧
  (∀ (s : State) (p : Fin 8) (tag : BitVec 16) (c key n : Nat) (q : PipeQueue), s.queueOf tag true = some (c, key, q) →
    let fl := ctrlFlit 3 0 (Config.ctrlPayload 3 tag n)
    Accepts s p.val fl →
    ∃ t, exec (.ctrlCredit p tag n) s = .next t ∧ { t with jobs := s.jobs } = s.setPort p.val ((s.port p.val).takeFlit fl) ∧
      (t.job c).queues.find key = some { q with credits := min q.depth (q.credits + n) } ∧ ∀ d, d ≠ c → t.job d = s.job d) ∧
  (∀ (s : State) (p : Fin 8) (tag : BitVec 16) (k : CCmd) (round sender : Nat), s.cmdOf tag = some k →
    let fl := ctrlFlit 4 0 (donePayload tag round sender)
    Accepts s p.val fl →
    (k.round ≤ round → (round, sender) ∉ k.dones → sender ≠ (k.group s).me →
      (∀ r, (k.f.rounds k.table)[k.round]? = some r → k.got < roundNeed r (k.group s).me) →
      ∃ t, exec (.ctrlDone p tag ⟨round, sender⟩) s = .next t ∧ CtrlTaken p.val fl s t ∧
        t.cmdOf tag = some { k with dones := (round, sender) :: k.dones, since := s.tick } ∧
        ∀ q ∈ s.checkPorts k.ctx.val k.f, q ≠ p.val → fl ∈ (t.port q).class0) ∧
    ((round < k.round ∨ (round, sender) ∈ k.dones ∨ sender = (k.group s).me) →
      exec (.ctrlDone p tag ⟨round, sender⟩) s = .next (s.setPort p.val ((s.port p.val).takeFlit fl)))) ∧
  (∀ (s : State) (p : Fin 8) (n : BitVec 6) (tag : BitVec 16) (origin final offset count : Nat),
    let fl := ctrlFlit 0 n.toNat (openPayload tag origin final offset count)
    let onward := match s.routeOf tag with
      | some k => k.passOn (k.group s) p.val origin final offset
      | none => []
    (Accepts s p.val fl → (s.routeOf tag ≠ none ∨ s.queueOf tag false ≠ none ∨ Config.shipment tag ≠ none) →
      s.mayOpen onward = true → (onward.map (·.1)).Nodup →
      ∃ t st, exec (.ctrlOpen p n tag origin final offset count) s = .next t ∧ CtrlTaken p.val fl s t ∧
        t.courier.streams.find (64 * p.val + n.toNat) = some st ∧
        st.tag = tag ∧ st.origin = origin ∧ st.final = final ∧ st.offset = offset ∧ st.count = count ∧ st.nextIndex = 0 ∧
        t.courier.cmds = s.courier.cmds ∧ st.relays.map (·.1) = onward.map (·.1) ∧
        ∀ d ∈ onward, ∃ m, (d.1, m) ∈ st.relays ∧ ctrlFlit 0 m (openPayload tag origin d.2 offset count) ∈ (t.port d.1).class0) ∧
    (s.routeOf tag = none → s.queueOf tag false = none → Config.shipment tag = none →
      exec (.ctrlOpen p n tag origin final offset count) s = .next s)) ∧
  (∀ (s : State) (p : Fin 8) (n : BitVec 6) (tag : BitVec 16) (a b d e : Nat) (crc : Word), (s.port p.val).carries = false →
    exec (.ctrlGrant p tag ⟨a, b, d⟩) s = .next s ∧ exec (.ctrlCredit p tag a) s = .next s ∧ exec (.ctrlDone p tag ⟨a, b⟩) s = .next s ∧
      exec (.ctrlAbort p tag) s = .next s ∧ exec (.ctrlCheck p tag crc) s = .next s ∧ exec (.ctrlOpen p n tag a b d e) s = .next s)

/-- The CHECK exchange, the aborts, and the control flits that Courier takes from its partner. -/
def Obligations.ChecksAndControlFlits : Prop :=
  Sys2Proof.Claims.ChecksAndAborts ∧ Sys2Proof.Claims.ControlFlitsAreTaken

/-- DATA_FLIT (R305, R360, R364, R400, R401, R402, R404, R415): an accepted flit in its order is counted and passed on, with its marks,
on every stream that its segment is relayed by. A contribution's flit for this owner is held for the fold, and memory stays as it was
while the chunk has not wholly come; an ALL_GATHER's or BROADCAST's is written at its place in the destination; a queue entry's at its
place in the slots, the entry landing with its last byte; and a shipment's at the receiving context's addresses. A flit out of order, or
of a stream that nothing here claims, is not taken. -/
def Obligations.FlitsAreHeldForTheFold : Prop :=
  ∀ (s : State) (p : Fin 8) (n : BitVec 6) (index : BitVec 22) (payload : List Byte) (poison : BitVec 15) (nf : Bool)
    (st : Stream), s.courier.streams.find (64 * p.val + n.toNat) = some st →
    let i : Instr := .dataFlit p n index payload poison nf
    let l := markedFlit payload poison nf
    let fl : TxFlit := ⟨1, BitVec.ofNat 28 (n.toNat * 2 ^ 22 + index.toNat), payload, poison, nf⟩
    (Accepts s p.val fl → st.nextIndex = index.toNat →
      (∀ k, s.cmdOf st.tag = some k →
        (∃ t, exec i s = .next t ∧ t.courier.rx.get 0 p.val = s.courier.rx.get 0 p.val + BitVec.ofNat 64 payload.length ∧
          (t.port p.val).rx = ((s.port p.val).takeFlit fl).rx ∧
          ∀ d ∈ st.relays, (⟨1, BitVec.ofNat 28 (d.2 * 2 ^ 22 + index.toNat), payload, poison, nf⟩ : TxFlit) ∈ (t.port d.1).class1) ∧
        (k.status = none → (k.f.op = 1 ∨ k.f.op = 2) → k.relayed (k.group s) st.final st.offset = false → st.final = (k.group s).me →
          (k.started = false ∨ ∃ x, x < (k.group s).size ∧ x ≠ st.origin ∧ k.upTo x < k.grantedTo) →
          ∃ t, exec i s = .next t ∧ t.mem = s.mem ∧ t.tiles = s.tiles ∧
            t.cmdOf st.tag = some { k with
              pieces := k.pieces ++ [⟨st.origin, st.offset * k.f.es + 240 * st.nextIndex, l⟩]
              since := s.tick, nonfinite := k.nonfinite || l.any (·.nonfinite) }) ∧
        (∀ s1, k.status = none → (k.f.op = 0 ∨ k.f.op = 5) →
          s.vput k.ctx.val (k.f.dst + st.offset * k.f.es + 240 * st.nextIndex) l = (s1, none) →
          ∃ t k', exec i s = .next t ∧ t.mem.data = s1.mem.data ∧ t.tiles = s.tiles ∧ t.cmdOf st.tag = some k' ∧
            k'.got = k.got + payload.length)) ∧
      (∀ c key q s1, s.routeOf st.tag = none → s.queueOf st.tag false = some (c, key, q) →
        s.vput c (q.base + (st.offset * (widthOf q.elem / 8) + 240 * st.nextIndex)) l = (s1, none) →
        ∃ t q', exec i s = .next t ∧ t.mem = s1.mem ∧ t.tiles = s.tiles ∧ (t.job c).queues.find key = some q' ∧
          q'.credits = q.credits ∧ q'.released = q.released ∧
          (st.nextIndex = 0 → 0 < q.entryLines → st.offset * (widthOf q.elem / 8) % (64 * q.entryLines) = 0 →
            payload.length = 64 * q.entryLines → st.count * (widthOf q.elem / 8) = 64 * q.entryLines → q.partial_ = [] →
            q.ends = [] → q'.landed = q.landed + 1)) ∧
      (∀ c va s1, s.routeOf st.tag = none → s.queueOf st.tag false = none → Config.shipment st.tag = some (c, va) →
        s.vput c (va + st.offset + 240 * st.nextIndex) l = (s1, none) →
        ∃ t, exec i s = .next t ∧ t.mem = s1.mem ∧ t.tiles = s.tiles ∧ t.jobs = s.jobs)) ∧
    ((st.nextIndex ≠ index.toNat ∨ (s.port p.val).carries = false ∨ (s.port p.val).hasFlit fl = false ∨
      (s.routeOf st.tag = none ∧ s.queueOf st.tag false = none ∧ Config.shipment st.tag = none)) → exec i s = .next s)

/-- COURIER_COMMAND_COMPLETE and COURIER_STALLED (R50, R401, R404, R419, R420): a finished command leaves those in progress, stays known
for relaying, and frees its part of the fold buffer; one that failed stops its job. One that made no progress in CURFEW_TIMEOUT ends
with status 3 and its job is held, and one still at work does neither; a probe that made none ends, its conversions go on waiting,
and its job is held. -/
def Obligations.CommandsEnd : Prop :=
  (∀ (s : State) (c : Fin 8) (tag : BitVec 16) (k : CCmd), cmdAt s c.val tag = some k →
    (s.cmdDone k = true →
      ∃ t, exec (.courierCommandComplete c tag) s = .next t ∧ cmdAt t c.val tag = none ∧ t.mem = s.mem ∧ t.tiles = s.tiles ∧
        (k.failed = false → k ∈ t.courier.ended ∧ (t.job c.val).phase = (s.job c.val).phase ∧
          (∀ d n, (d ≠ c.val ∨ n ≠ tag) → (cmdAt t d n).map (·.raw) = (cmdAt s d n).map (·.raw)) ∧
          ((∀ x ∈ s.courier.cmds, x.f.op ≠ 1 ∧ x.f.op ≠ 2) → t.ports = s.ports)) ∧
        (k.failed = true → ToldToStop c.val s t)) ∧
    (s.cmdDone k = false → exec (.courierCommandComplete c tag) s = .next s) ∧
    (∀ p : Fin 8, s.cmdDone k = false → k.since + (s.job c.val).cfg.timeoutTicks ≤ s.tick →
      ∃ t, exec (.courierStalled c (.command tag) p) s = .next t ∧ cmdAt t c.val tag = some { k with status := some 3 } ∧
        (t.job c.val).held = true ∧ t.mem = s.mem ∧ t.tiles = s.tiles ∧ t.ports = s.ports) ∧
    (∀ p : Fin 8, s.tick < k.since + (s.job c.val).cfg.timeoutTicks → exec (.courierStalled c (.command tag) p) s = .next s)) ∧
  (∀ (s : State) (c p : Fin 8) (tensor : BitVec 16) (m : Word), (s.job c.val).probing.find tensor.toNat = some m →
    ((s.job c.val).probeSince.get 0 tensor.toNat + (s.job c.val).cfg.timeoutTicks ≤ s.tick →
      ∃ t, exec (.courierStalled c (.probe tensor) p) s = .next t ∧ (t.job c.val).probing.find tensor.toNat = none ∧
        tensor.toNat ∈ (t.job c.val).stalledProbes ∧ (t.job c.val).held = true ∧ t.tiles = s.tiles ∧ t.ports = s.ports) ∧
    (s.tick < (s.job c.val).probeSince.get 0 tensor.toNat + (s.job c.val).cfg.timeoutTicks →
      exec (.courierStalled c (.probe tensor) p) s = .next s))

namespace Sys2Proof.Claims

/-- A ring command ends with a status: its entry is finished, and the records that are then in order are written, while
nothing else of the module changes from `u`. -/
def Ends (ring : Fin 64) (e : Entry) (status : Byte) (u t : State) : Prop :=
  ∃ a b c, t = u.complete ring.val e.index status a b c

/-- A command of a job is well formed: its header, its unused body bytes, and a job in its context (R439, R442). -/
abbrev JobCmd (s : State) (ring : Fin 64) (e : Entry) (body : Nat) : Prop := s.jobCommand ring.val e.raw body = none

/-- The fields of a STEP are right (R440): its table and norm vector on 64-byte boundaries, 1 to 4,096 entries. -/
def StepFields (e : Entry) : Prop :=
  bodyAt e.raw 20 4 = 0 ∧ bodyAt e.raw 8 8 % 64 = 0 ∧ 1 ≤ bodyAt e.raw 16 2 ∧ bodyAt e.raw 16 2 ≤ 4096 ∧
    bodyAt e.raw 24 8 % 64 = 0

/-- The fields of an INPUT are right (R440). -/
def InputFields (e : Entry) : Prop :=
  bodyAt e.raw 0 8 % 64 = 0 ∧ bodyAt e.raw 8 8 % 64 = 0 ∧ bodyAt e.raw 16 8 % 64 = 0

end Sys2Proof.Claims

/-! ### Jobs -/

/-- STEP and INPUT (R440, R445, R447, R452): a STEP of a job that neither stopped nor is held joins those that wait, in their
order, and a held job takes none; an INPUT whose bytes have landed counts for its step and completes, and one whose bytes cannot be
read, or whose write fails, completes with status 2 or the poison status and counts for none; a stopped job abandons both with
status 5. -/
def Sys2Proof.Claims.StepsAndInputs : Prop :=
  ∀ (s : State) (ring : Fin 64) (e : Entry), let c := headerCtx e.raw
    (s.entryOf ring.val 3 = some e → JobCmd s ring e 32 → StepFields e →
      ((s.job c).phase ≠ .stopped → (s.job c).held = false →
        ∃ t k, exec (.step ring) s = .next t ∧ { t with jobs := s.jobs, host := s.host } = s ∧
          t.job c = { s.job c with waitingSteps := (s.job c).waitingSteps ++ [k] } ∧ (∀ d, d ≠ c → t.job d = s.job d) ∧
          k.ring = ring ∧ k.index = e.index ∧ k.number.toNat = bodyAt e.raw 0 4 ∧ k.eta.toNat = bodyAt e.raw 4 4 ∧
          k.tableVA.toNat = bodyAt e.raw 8 8 ∧ k.entries = bodyAt e.raw 16 2 ∧ k.inputs = bodyAt e.raw 18 2 ∧
          k.normVA.toNat = bodyAt e.raw 24 8) ∧
      ((s.job c).phase ≠ .stopped → (s.job c).held = true → exec (.step ring) s = .next s) ∧
      ((s.job c).phase = .stopped → ∃ t, exec (.step ring) s = .next t ∧ Ends ring e 5 s t)) ∧
    (∀ view, s.hostEntryOf ring.val 2 (fun _ => true) = some e → JobCmd s ring e 28 → InputFields e →
      (∀ u ep, (s.job c).phase ≠ .stopped →
        s.fromHost c view (bodyAt e.raw 0 8) (bodyAt e.raw 8 8) (bodyAt e.raw 16 8) = (u, .done ep) →
        ∃ t v, exec (.input ring view) s = .next t ∧ Ends ring e (if ep then 1 else 0) v t ∧
          { v with jobs := u.jobs } = u ∧ (∀ d, d ≠ c → v.job d = u.job d) ∧
          { v.job c with inputs := (u.job c).inputs } = u.job c ∧
          ∀ n, (v.job c).inputs.get 0 n = (u.job c).inputs.get 0 n + if n = bodyAt e.raw 24 4 then 1 else 0) ∧
      (∀ u a, (s.job c).phase ≠ .stopped →
        s.fromHost c view (bodyAt e.raw 0 8) (bodyAt e.raw 8 8) (bodyAt e.raw 16 8) = (u, .fail a) →
        ∃ t v, exec (.input ring view) s = .next t ∧ Ends ring e 2 v t ∧ { v with host := u.host } = u) ∧
      (∀ u why, (s.job c).phase = .compute →
        s.fromHost c view (bodyAt e.raw 0 8) (bodyAt e.raw 8 8) (bodyAt e.raw 16 8) = (u, .stop why) →
        ∃ t v, exec (.input ring view) s = .next t ∧ Ends ring e why.hostStatus u v ∧ (t.job c).stop = true ∧
          (t.job c).inputs = (v.job c).inputs ∧ t.mem = v.mem ∧ t.tiles = v.tiles) ∧
      ((s.job c).phase = .stopped → ∃ t, exec (.input ring view) s = .next t ∧ Ends ring e 5 s t))

/-- JOB_END, KILL and SCRUB_COMPLETE (R440, R446, R457, R530 to R532): a JOB_END lets a computing job reach its Curfew and a
stopped one, or one that waits at a Curfew, be scrubbed at once, waits with status 5 for a scrub that is under way, and is refused for
a context without a job; a KILL completes for an empty context and else
begins the scrub, whatever the job does, or waits for the one under way; the scrub empties the context and its tiles, keeps the Tally, and leaves memory. -/
def Sys2Proof.Claims.JobsEnd : Prop :=
  (∀ (s : State) (ring : Fin 64) (e : Entry), let c := headerCtx e.raw
    (s.entryOf ring.val 4 = some e → headerFault (s.ring ring.val) e.raw 0 = none →
      ((s.job c).phase = .compute → ∃ t, exec (.jobEnd ring) s = .next t ∧ { t with jobs := s.jobs, host := s.host } = s ∧
        t.job c = { s.job c with stop := true, closing := (s.job c).closing ++ [(ring, e.index, 0)] } ∧
        ∀ d, d ≠ c → t.job d = s.job d) ∧
      ((s.job c).phase = .stopped → ∃ t, exec (.jobEnd ring) s = .next t ∧ { t with jobs := s.jobs, host := s.host } = s ∧
        t.job c = { s.job c with phase := .scrubbing, closing := (s.job c).closing ++ [(ring, e.index, 0)] } ∧
        ∀ d, d ≠ c → t.job d = s.job d) ∧
      ((s.job c).phase = .curfew ∨ (s.job c).phase = .loaded → ∃ t, exec (.jobEnd ring) s = .next t ∧
        (t.job c).phase = .scrubbing ∧ (ring, e.index, 0) ∈ (t.job c).closing ∧ t.mem = s.mem ∧ t.tiles = s.tiles ∧
        ∀ d, d ≠ c → t.job d = s.job d) ∧
      ((s.job c).phase = .scrubbing → ∃ t, exec (.jobEnd ring) s = .next t ∧ { t with jobs := s.jobs, host := s.host } = s ∧
        t.job c = { s.job c with closing := (s.job c).closing ++ [(ring, e.index, 5)] } ∧ ∀ d, d ≠ c → t.job d = s.job d) ∧
      ((s.job c).phase = .empty → ∃ t u, exec (.jobEnd ring) s = .next t ∧ Ends ring e 2 u t ∧ { u with host := s.host } = s)) ∧
    (s.entryOf ring.val 5 = some e → headerFault (s.ring ring.val) e.raw 0 = none →
      ((s.job c).phase = .empty → ∃ t, exec (.kill ring) s = .next t ∧ Ends ring e 0 s t) ∧
      ((s.job c).phase = .scrubbing → ∃ t, exec (.kill ring) s = .next t ∧ { t with jobs := s.jobs, host := s.host } = s ∧
        t.job c = { s.job c with closing := (s.job c).closing ++ [(ring, e.index, 0)] } ∧ ∀ d, d ≠ c → t.job d = s.job d) ∧
      ((s.job c).present = true → ∃ t, exec (.kill ring) s = .next t ∧ (t.job c).phase = .scrubbing ∧
        (ring, e.index, 0) ∈ (t.job c).closing ∧ (t.job c).waitingSteps = [] ∧ t.mem = s.mem ∧ t.tiles = s.tiles ∧
        t.ports = s.ports ∧ (∀ q ∈ t.descs, q.ctx.val ≠ c) ∧ (∀ k ∈ t.courier.cmds, k.ctx.val ≠ c) ∧
        ∀ d, d ≠ c → t.job d = s.job d))) ∧
  (∀ (s : State) (ctx : Fin 8),
    ((s.job ctx.val).phase = .scrubbing → ∃ t, exec (.scrubComplete ctx) s = .next t ∧
      t.job ctx.val = { Job.reset with tally := (s.job ctx.val).tally } ∧ t.mem = s.mem ∧ t.ports = s.ports ∧
      (∀ u ∈ (s.job ctx.val).cfg.tiles, t.tile u = Tile.reset) ∧
      (∀ u, u ∉ (s.job ctx.val).cfg.tiles → t.tile u = s.tile u) ∧ ∀ d, d ≠ ctx.val → t.job d = s.job d) ∧
    ((s.job ctx.val).phase ≠ .scrubbing → exec (.scrubComplete ctx) s = .next s))

/-- STEP and INPUT commands, and how a job ends. -/
def Obligations.JobsRun : Prop :=
  Sys2Proof.Claims.StepsAndInputs ∧ Sys2Proof.Claims.JobsEnd

/-- JOB_LOAD (R440, R442, R467, R468): a load whose records read well, whose context passes its checks, and whose bytes all
arrive holds the job, loaded and not begun, and completes; one that fails completes with status 2 and leaves no job, after
a scrub where a tile record had been taken; a list whose header is wrong or cannot be read leaves no job either, and a load waits for
a field test and for the scrub of a context or of a tile that it needs. The other contexts keep their jobs. -/
def Obligations.JobLoadsWholeOrNotAtAll : Prop :=
  ∀ (s : State) (ring : Fin 64) (view : HostView) (e : Entry) (l : List Byte), let c := headerCtx e.raw
    s.hostEntryOf ring.val 1 (fun _ => true) = some e → headerFault (s.ring ring.val) e.raw 16 = none →
    bodyAt e.raw 0 8 % 64 = 0 → bodyAt e.raw 8 8 % 64 = 0 → (s.job c).present = false →
    (s.boot.straps.partition = 1 ∨ c = 0) → s.power.noLoads = false → s.boot.lifecycle ≠ 3 → s.boot.running ≠ .recovery →
    hostRecord view (bodyAt e.raw 0 8) 128 = .ok l →
    (s.loadHeld c (jobContext l) = true → exec (.jobLoad ring view) s = .next s) ∧
    (s.loadHeld c (jobContext l) = false →
    let s0 := s.applyRepairs
    let cfg := jobContext l
    ((s0.contextOk c l = false ∨ (∃ a, hostRecord view (bodyAt e.raw 8 8) 64 = .error (.read a)) ∨
        ∃ h, hostRecord view (bodyAt e.raw 8 8) 64 = .ok h ∧ listHeaderOk h = false) →
      ∃ t u, exec (.jobLoad ring view) s = .next t ∧ Ends ring e 2 u t ∧ { u with host := s0.host } = s0) ∧
    (∀ h, s0.contextOk c l = true → hostRecord view (bodyAt e.raw 8 8) 64 = .ok h → listHeaderOk h = true →
      (∀ p ∈ s.pendingTokens, p.2.1.toNat ≠ cfg.tag.toNat) →
      let s1 := if bitsOf (numAt h 8 8) 47 24 = bitsOf s0.timing.toNat 47 24 then s0
        else s0.event 0x000D kStep c 0 (numAt h 8 8) s0.timing.toNat
      let s2 := (s1.freshContext c).setJob c { Job.reset with cfg := cfg, phase := .loaded, evaluation := Config.evaluationJob l }
      (∀ s3 ep, s2.loadJob c view (bodyAt e.raw 8 8) h = (s3, .ok ep) →
        ∃ t u, exec (.jobLoad ring view) s = .next t ∧ Ends ring e (if ep then 1 else 0) u t ∧ { u with mem := s3.mem } = s3 ∧
          u.mem.data = s3.mem.data ∧ (t.job c).cfg = cfg ∧ (t.job c).phase = .loaded ∧ (t.job c).step = none ∧
          (t.job c).waitingSteps = [] ∧ ∀ d, d ≠ c → t.job d = s.job d) ∧
      (∀ s3 f, s2.loadJob c view (bodyAt e.raw 8 8) h = (s3, .error f) →
        ∃ t, exec (.jobLoad ring view) s = .next t ∧ (∀ d, d ≠ c → t.job d = s.job d) ∧ t.mem = s3.mem ∧ t.tiles = s3.tiles ∧
          ((∀ n ∈ cfg.tiles, (s3.tile n).recorded = false) → t.job c = Job.reset) ∧
          ((∃ n ∈ cfg.tiles, (s3.tile n).recorded = true) →
            (t.job c).phase = .scrubbing ∧ (t.job c).closing = [(ring, e.index, 2)]))))

/-! ### The update of a step -/

/-- HANDOFF_ISSUE, PASS_ONE_ENTRY, PASS_TWO_ENTRY and UPDATE_ENTRY_STEAL (R293, R328, R329, R335, R340, R341): a bucket's command
is queued once its descriptors have completed; a micro-engine runs a pass over the entry at the head of its queue, pass one
once the layer's gradient is ready, pass two once the step is applied, and neither twice; a failed access stops the job. Pass one of a
step that has not begun begins first, where it is due (R483). An idle micro-engine with stealing enabled takes the tail of the longest
queue. -/
def Obligations.PassesRun : Prop :=
  (∀ (s : State) (ctx : Fin 8) (id : Nat) (a : Action),
    ((s.job ctx.val).actions.find? fun a => a.id == id && a.kind == 2 && a.cmdDue) = some a → (s.job ctx.val).running = true →
    (∀ u, a.descsLeft = 0 → s.queueCommand ctx.val ctx a = (u, none) →
      ∃ t raw, exec (.handoffIssue ctx id) s = .next t ∧ { t with jobs := u.jobs } = u ∧
        t.engineCmds = s.engineCmds ++ [(ctx, some id, raw)] ∧ (∀ d, d ≠ ctx.val → t.job d = s.job d) ∧
        t.job ctx.val = { s.job ctx.val with actions := (s.job ctx.val).actions.map fun x =>
          if x.id = id then { x with cmdDue := false, cmdOpen := true } else x }) ∧
    (a.descsLeft ≠ 0 → exec (.handoffIssue ctx id) s = .next s)) ∧
  (∀ s : State, (∀ c, c < 8 → s.passOneDue c = false) → s.beginDue = s) ∧
  (∀ (s0 : State) (engine : Fin 16), let s := s0.beginDue
    (s.headLayer engine.val = none → exec (.passOneEntry engine) s0 = .next s) ∧
    ∀ (c : Nat) (x : Layer), s.headLayer engine.val = some (c, x) →
    let l := layerFields x.raw
    (∀ u n sums, x.onePassed = false → s.gradientReady c x.index = true →
      (s.takeHead engine.val 1).passOneWork c l = (u, .ok (n, sums)) →
      ∃ t, exec (.passOneEntry engine) s0 = .next t ∧ { t with jobs := u.jobs } = u ∧
        t.job c = { s.job c with layers := (s.job c).layers.map fun y => if y.index = x.index then
          { y with onePassed := true, listed := n, sumG := sums.g, sumW := sums.w, sumD := sums.d } else y } ∧
        (∀ d, d ≠ c → t.job d = s.job d) ∧ t.tiles = s.tiles ∧ t.ports = s.ports ∧
        (t.engine engine.val).queue = (s.engine engine.val).queue.tail ∧ (t.engine engine.val).pass = 1 ∧
        (l.freeze = true → sums.g = 0 ∧ sums.w = 0 ∧ sums.d = 0) ∧
        (l.sparse = false → l.factored = false → s.mem.errors = [] → t.mem = s.mem)) ∧
    (∀ u why, x.onePassed = false → s.gradientReady c x.index = true →
      (s.takeHead engine.val 1).passOneWork c l = (u, .error why) →
      ∃ t, exec (.passOneEntry engine) s0 = .next t ∧ ToldToStop c u t ∧ t.mem = u.mem ∧ t.tiles = u.tiles) ∧
    (x.onePassed = true ∨ s.gradientReady c x.index = false → exec (.passOneEntry engine) s0 = .next s)) ∧
  (∀ (s : State) (engine : Fin 16) (c : Nat) (x : Layer), s.headLayer engine.val = some (c, x) →
    let l := layerFields x.raw
    (∀ u, x.twoPassed = false → (s.job c).decision = .applied →
      (s.takeHead engine.val 2).passTwoWork c engine.val x = (u, none) →
      ∃ t, exec (.passTwoEntry engine) s = .next t ∧ { t with jobs := u.jobs } = u ∧
        t.job c = { u.job c with layers := (u.job c).layers.map fun y => if y.index = x.index then
          { y with twoPassed := true } else y } ∧
        (∀ d, d ≠ c → t.job d = s.job d) ∧ t.tiles = s.tiles ∧ t.ports = s.ports ∧
        (t.engine engine.val).queue = (s.engine engine.val).queue.tail ∧ (t.engine engine.val).pass = 2 ∧
        (l.freeze = true ∧ l.sparse = false ∨ l.freeze = false ∧ l.host = true → t.mem = s.mem)) ∧
    (∀ u why, x.twoPassed = false → (s.job c).decision = .applied →
      (s.takeHead engine.val 2).passTwoWork c engine.val x = (u, some why) →
      ∃ t, exec (.passTwoEntry engine) s = .next t ∧ ToldToStop c u t ∧ t.mem = u.mem ∧ t.tiles = u.tiles) ∧
    (x.twoPassed = true ∨ (s.job c).decision ≠ .applied → exec (.passTwoEntry engine) s = .next s)) ∧
  (∀ (s : State) (engine : Fin 16),
    ((s.engine engine.val).queue = [] → (s.engine engine.val).busy = false → s.updCtrl.getLsbD 31 = true →
      (∃ v, v < 16 ∧ (s.engine v).queue ≠ []) →
      ∃ t v k, exec (.updateEntrySteal engine) s = .next t ∧ { t with engines := s.engines } = s ∧ v < 16 ∧
        (∀ x, x < 16 → (s.engine x).queue.length ≤ (s.engine v).queue.length) ∧
        (s.engine v).queue = (t.engine v).queue ++ [k] ∧ (t.engine engine.val).queue = [k] ∧
        ∀ x, x ≠ v → x ≠ engine.val → t.engine x = s.engine x) ∧
    ((s.engine engine.val).queue ≠ [] ∨ (s.engine engine.val).busy = true ∨ s.updCtrl.getLsbD 31 = false →
      exec (.updateEntrySteal engine) s = .next s))

/-- STEP_DECISION (R296 to R301, R306, R340): with the step's passes and reduce-scatters complete, the flags of every module decide: any
NONFINITE skips the step, which pushes nothing and updates no layer, and none applies it, with every tensor of the scale
table to push; either way this module's flags are cleared, and POISON decides nothing. Before that no decision is made, and a step of
an evaluation job is never decided. -/
def Obligations.StepsAreDecided : Prop :=
  ∀ (s : State) (ctx : Fin 8) (others : List Contribution) (k : StepCmd), let c := ctx.val
    let j := s.job c
    let me := (s.group c [0, 1, 2, 3]).me
    j.step = some k →
    (∀ pa, j.phase = .curfew → j.isFinal = true → j.evaluation = false → j.held = false → j.decision = .pending →
      j.passOneBegun = true → (∀ x ∈ j.layers, x.onePassed = true) → (∀ a ∈ j.actions, a.finished = true) → NoAdds s c →
      s.mem.errors = [] → (s.pages c k.normVA.toNat 32772 true).1 = .ok pa →
      me < j.cfg.modules → (others.map (·.index)).Nodup → (∀ i, i < j.cfg.modules → i ≠ me → ∃ o ∈ others, o.index = i) →
      ∃ t, exec (.stepDecision ctx others) s = .next t ∧
        (((s.stepFlags c).1 = true ∨ ∃ o ∈ others, o.index < j.cfg.modules ∧ o.index ≠ me ∧ o.nonfinite = true) →
          (t.job c).decision = .skipped ∧ (t.job c).pushesLeft = j.pushesLeft ∧
            ∀ i, ∀ q ∈ (t.engine i).queue, q ∈ (s.engine i).queue) ∧
        (((s.stepFlags c).1 = false ∧ ∀ o ∈ others, o.index < j.cfg.modules → o.index ≠ me → o.nonfinite = false) →
          (t.job c).decision = .applied ∧
            (t.job c).pushesLeft = (List.range j.cfg.scaleEntries.toNat).map fun i => BitVec.ofNat 16 i) ∧
        (t.job c).nonfinite = false ∧ (t.job c).poisonFlag = false ∧ (t.job c).local_ = (s.stepFlags c).1 ∧
        (∀ u ∈ j.cfg.tiles, (t.tile u).nonfinite = false) ∧ (∀ u, PadSame u s t) ∧ ∀ d, d ≠ c → t.job d = s.job d) ∧
    (j.phase ≠ .curfew ∨ j.isFinal = false ∨ j.evaluation = true ∨ j.passOneBegun = false ∨ j.decision ≠ .pending ∨
      (∃ x ∈ j.layers, x.onePassed = false) → exec (.stepDecision ctx others) s = .next s)

/-- RULE_LOAD, WRITE_BACK and R331: allowed coefficients wait in the pending copy of their slot, those in force standing as
they are, and a coefficient that is not allowed, or bytes that cannot be read, change none; a write-back ends its layer's hold, one
whose bytes cannot be read, or whose index names no valid entry, does not; an element whose new weight or state would be an infinity or a NaN keeps its
stored bits, and any other is written with a finite weight and finite FP32 states. -/
def Obligations.RulesWriteBacksAndElements : Prop :=
  (∀ (s : State) (ring : Fin 64) (view : HostView) (e : Entry) (bytes : List Byte), let c := headerCtx e.raw
    let slot := bodyAt e.raw 8 1
    s.hostEntryOf ring.val 0x20 (fun _ => true) = some e → JobCmd s ring e 9 → bodyAt e.raw 0 8 % 64 = 0 → slot < 32 →
    ((HostView.read view (bodyAt e.raw 0 8) 64 = .ep ∨ ∃ a, HostView.read view (bodyAt e.raw 0 8) 64 = .fail a) →
      ∃ t u, exec (.ruleLoad ring view) s = .next t ∧ Ends ring e 2 u t ∧ { u with host := s.host } = s) ∧
    (HostView.read view (bodyAt e.raw 0 8) 64 = .ok bytes →
    let cs := (List.range 16).map fun i => BitVec.ofNat 32 (numAt bytes (4 * i) 4)
    ((∀ i, i < 16 → ruleOk cs i = true) → ∃ t u, exec (.ruleLoad ring view) s = .next t ∧ Ends ring e 0 u t ∧
      { u with jobs := s.jobs } = s ∧ { u.job c with pendingRules := (s.job c).pendingRules } = s.job c ∧
      (∀ i, i < 16 → (u.job c).pendingRules.get 0 (16 * slot + i) = cs.getD i 0) ∧
      (∀ i, (i < 16 * slot ∨ 16 * slot + 16 ≤ i) → (u.job c).pendingRules.get 0 i = (s.job c).pendingRules.get 0 i) ∧
      ∀ d, d ≠ c → u.job d = s.job d) ∧
    ((∃ i, i < 16 ∧ ruleOk cs i = false) → ∃ t u, exec (.ruleLoad ring view) s = .next t ∧ Ends ring e 2 u t ∧
      { u with host := s.host } = s))) ∧
  (∀ (s r : State) (ring : Fin 64) (view : HostView) (e : Entry), let c := headerCtx e.raw
    let i := bodyAt e.raw 12 2
    s.hostEntryOf ring.val 0x21 (fun _ => true) = some e → JobCmd s ring e 14 → bodyAt e.raw 0 8 % 64 = 0 →
    (s.layerRaw c i = (r, .ok none) →
      ∃ t u, exec (.writeBack ring view) s = .next t ∧ Ends ring e 2 u t ∧ { u with host := r.host } = r) ∧
    (∀ x, s.layerRaw c i = (r, .ok (some x)) →
      let l := layerFields x
      let m := match r.translate c l.w false with | .ok pa => stackOfPA pa | _ => 0
      let n := 2 * m + i % 2
      let s0 := r.setEngine n { r.engine n with busy := true, pass := 3 }
      let table := match (s.job c).step with
        | some k => if (s.job c).layers.any fun y => y.index == i then (s.job c).layerTable else k.tableVA.toNat
        | none => (s.job c).layerTable
      (∀ u a, s0.copyPieces c view (bodyAt e.raw 0 8) false l.pieces = (u, .fail a) →
        ∃ t w, exec (.writeBack ring view) s = .next t ∧ Ends ring e 2 w t ∧ { w with host := u.host } = u) ∧
      (∀ u v ep, s0.copyPieces c view (bodyAt e.raw 0 8) false l.pieces = (u, .done ep) →
        u.vwrite c (table + 64 * i + 49) (toBytes 4 (bodyAt e.raw 8 4)) false = (v, none) →
        ∃ t w, exec (.writeBack ring view) s = .next t ∧ Ends ring e (if ep then 1 else 0) w t ∧ { w with jobs := v.jobs } = v ∧
          w.job c = { v.job c with hostHold := (v.job c).hostHold.filter (· ≠ i) } ∧ t.tiles = v.tiles ∧
          ∀ d, d ≠ c → t.job d = v.job d))) ∧
  (∀ (k : Coef) (sBf16 full : Bool) (e : Elem) (m : Moved) (d : Word), let o := k.store sBf16 full e m d
    (o.left = true → o.w = e.w.toNat ∧ o.s1 = e.s1raw ∧ o.s2 = e.s2raw) ∧
      (o.left = false → o.w < 2 ^ 32 ∧ nonfinite32 (BitVec.ofNat 32 o.w) = false ∧
        (sBf16 = false → nonfinite32 (BitVec.ofNat 32 o.s1) = false ∧
          (full = true → nonfinite32 (BitVec.ofNat 32 o.s2) = false))))

/-! ### The Porter -/

/-- SNAPSHOT, SNAPSHOT_CAPTURE, SNAPSHOT_FRAME_COPY, SNAPSHOT_COMMIT, MIRROR_ACK (R303, R518 to R520): an extra snapshot is
noted for its step; a capture takes the step, the scale table and the frames whose dirty bits are set into the slot that is
not the newest; each frame copied loses its dirty bit of that slot; the commit makes the slot valid and the newest, and the
recovery point moves when no holder is left to acknowledge. Until then the recovery point stands. A capture or a copy whose access
fails ends the snapshot and stops the job. -/
def Sys2Proof.Claims.SnapshotsProceed : Prop :=
  (∀ (s : State) (ring : Fin 64) (e : Entry), let c := headerCtx e.raw
    s.entryOf ring.val 0x30 = some e → JobCmd s ring e 4 →
    ((s.job c).phase ≠ .stopped → ∃ t, exec (.snapshot ring) s = .next t ∧ { t with porters := s.porters, host := s.host } = s ∧
      t.porter c = { s.porter c with
        extra := (s.porter c).extra ++ [(ring, e.index, BitVec.ofNat 32 (bodyAt e.raw 0 4))] } ∧
      ∀ d, d ≠ c → t.porter d = s.porter d) ∧
    ((s.job c).phase = .stopped → ∃ t, exec (.snapshot ring) s = .next t ∧ Ends ring e 5 s t)) ∧
  (∀ (s : State) (ctx : Fin 8), let c := ctx.val
    let p := s.porter c
    (∀ rs fs marked, p.capturing = true → s.captureReady c = true → s.ranges c = .ok rs →
      s.rangeFrames c (frameVAs rs) = .ok fs →
      (s.vtake c (s.job c).cfg.scaleBase.toNat (128 * (s.job c).cfg.scaleEntries.toNat)).2 = .ok marked →
      s.mem.errors = [] →
      ∃ t, exec (.snapshotCapture ctx) s = .next t ∧ { t with porters := s.porters } = s ∧
        (t.porter c).capturing = false ∧ (t.porter c).copying = true ∧ (t.porter c).recoveryStep = p.recoveryStep ∧
        (t.porter c).framesLeft = fs.filter (fun f => decide ((f.2, p.target) ∈ s.mem.dirty)) ∧
        ((t.porter c).slots.get Snap.empty p.target).step = p.dueStep ∧
        ((t.porter c).slots.get Snap.empty p.target).scale = marked.map (·.val) ∧
        ((t.porter c).slots.get Snap.empty p.target).scalePoison = poisonLines marked ∧
        ((t.porter c).slots.get Snap.empty p.target).engine = (s.job c).engineRec ∧
        ((t.porter c).slots.get Snap.empty p.target).tiles = (if (s.job c).cfg.tileState then s.tileRecs c else []) ∧
        ((t.porter c).slots.get Snap.empty p.target).valid = false ∧
        (t.porter c).slots.get Snap.empty (1 - p.target) = p.slots.get Snap.empty (1 - p.target) ∧
        ∀ d, d ≠ c → t.porter d = s.porter d) ∧
    (∀ e, p.capturing = true → s.captureReady c = true → s.ranges c = .error e → (s.job c).closing = [] →
      ∃ t, exec (.snapshotCapture ctx) s = .next t ∧ (t.job c).phase = .stopped ∧ (t.porter c).capturing = false ∧
        (t.porter c).slots = p.slots ∧ (t.porter c).recoveryStep = p.recoveryStep) ∧
    (p.capturing = false ∨ s.captureReady c = false → exec (.snapshotCapture ctx) s = .next s) ∧
    (∀ f fs pa, p.framesLeft = f :: fs → p.copying = true → s.translate c f.1 false = .ok pa → s.mem.errors = [] →
      ∃ t, exec (.snapshotFrameCopy ctx) s = .next t ∧ { t with porters := s.porters, mem := s.mem } = s ∧
        { t.mem with dirty := s.mem.dirty } = s.mem ∧ t.mem.dirty = s.mem.dirty.filter (fun d => d ≠ (pa / 65536, p.target)) ∧
        s.frameImage f.1 (pa / 65536) ∈ ((t.porter c).slots.get Snap.empty p.target).blocks ∧
        (t.porter c).framesLeft = fs.filter (fun g => g.2 ≠ f.2) ∧ (t.porter c).recoveryStep = p.recoveryStep ∧
        ∀ d, d ≠ c → t.porter d = s.porter d) ∧
    (∀ f fs code, p.framesLeft = f :: fs → p.copying = true → s.translate c f.1 false = .fail code →
      ∃ t, exec (.snapshotFrameCopy ctx) s = .next t ∧ (t.porter c).copying = false ∧ (t.porter c).framesLeft = [] ∧
        (t.porter c).recoveryStep = p.recoveryStep ∧ ToldToStop c s t ∧ t.mem = s.mem) ∧
    (p.copying = true → p.framesLeft = [] →
      ∃ t, exec (.snapshotCommit ctx) s = .next t ∧ (t.porter c).copying = false ∧ (t.porter c).newestValid = true ∧
        (t.porter c).newestSlot = (p.target == 1) ∧ ((t.porter c).slots.get Snap.empty p.target).valid = true ∧
        (t.porter c).recoveryStep = (if s.mirrorPorts c = [] then p.dueStep else p.recoveryStep) ∧
        (t.porter c).mirroring = !(s.mirrorPorts c).isEmpty ∧ t.mem = s.mem ∧ t.jobs = s.jobs ∧ t.tiles = s.tiles) ∧
    (∀ port : Fin 8, p.mirroring = true → port.val ∈ p.acksLeft →
      ∃ t, exec (.mirrorAck ctx port) s = .next t ∧ (t.porter c).acksLeft = p.acksLeft.filter (· ≠ port.val) ∧
        (t.porter c).recoveryStep = (if p.acksLeft.filter (· ≠ port.val) = [] then p.dueStep else p.recoveryStep) ∧
        t.mem = s.mem ∧ t.jobs = s.jobs ∧ t.tiles = s.tiles ∧ t.ports = s.ports))

/-- MIRROR_PART_RECEIVE and MIRROR_SERVE (R519, R525): a part from a D neighbour goes to that neighbour's copy, its commit
being acknowledged; a request is served with the whole committed copy of its step, or not at all. -/
def Sys2Proof.Claims.MirrorsHoldAndServe : Prop :=
  ∀ (s : State) (port ctx : Fin 8), let c := ctx.val
    let p := s.porter c
    port.val ≤ 1 → (s.port port.val).carries = true →
    (∀ part : Part, (s.job c).present = true → (s.job c).cfg.tag = part.tag →
      let k := 2 * port.val + (if part.slot then 1 else 0)
      ∃ t, exec (.mirrorPartReceive port ctx part) s = .next t ∧ { t with porters := s.porters } = s ∧
        (t.porter c).mirrors.get Snap.empty k = (p.mirrors.get Snap.empty k).take part ∧
        (∀ n, n ≠ k → (t.porter c).mirrors.get Snap.empty n = p.mirrors.get Snap.empty n) ∧ (t.porter c).slots = p.slots ∧
        (t.porter c).recoveryStep = p.recoveryStep ∧
        (part.kind = .header true → (t.porter c).out = p.out ++ [(port.val, .ack part.step)]) ∧
        ((∀ v, part.kind ≠ .header v) → (t.porter c).out = p.out) ∧ ∀ d, d ≠ c → t.porter d = s.porter d) ∧
    (∀ step i snap, pickSnap p.mirrors (2 * port.val) step = some (i, snap) →
      ∃ t, exec (.mirrorServe port ctx step) s = .next t ∧ { t with porters := s.porters } = s ∧
        t.porter c = { p with out := p.out ++ (snap.parts (i == 1)).map fun x => (port.val, .part x) } ∧
        ∀ d, d ≠ c → t.porter d = s.porter d) ∧
    (∀ step, pickSnap p.mirrors (2 * port.val) step = none → exec (.mirrorServe port ctx step) s = .next s)

/-- Porter's snapshots and mirrors. -/
def Obligations.SnapshotsAndMirrors : Prop :=
  Sys2Proof.Claims.SnapshotsProceed ∧ Sys2Proof.Claims.MirrorsHoldAndServe

/-- SHIP, LAYER_READ and RESTORE (R216, R303, R304, R340, R440, R526): a shipment delivers the slot of the recovery point, to the host or
on a port, and says its length and step; with no snapshot, or one larger than the capacity, or no partner, it delivers nothing, and it
waits for a capture. A layer read delivers the arrays of the entry and its norm line; neither changes job memory but for corrections,
nor the job or its tiles. A restore puts the named snapshot's superstep, queues and rules, and its tiles' records unless it restores
memory only, into a job that has been loaded and given no STEP; one that names no snapshot changes nothing. -/
def Obligations.CopiesAreDelivered : Prop :=
  (∀ (s : State) (ring : Fin 64) (e : Entry), let c := headerCtx e.raw
    let p := s.porter c
    let kind := bodyAt e.raw 8 1
    let port := bodyAt e.raw 9 1
    let dst := bodyAt e.raw 0 8
    s.entryOf ring.val 0x31 = some e → JobCmd s ring e 24 → dst % 64 = 0 → kind ≤ 1 →
    port ≤ 7 → bodyAt e.raw 10 1 ≤ 7 → bodyAt e.raw 11 5 = 0 →
    ((p.capturing = true ∨ (p.deferred = true ∧ p.ready = true)) → exec (.ship ring) s = .next s) ∧
    (p.capturing = false → (p.deferred = false ∨ p.ready = false) →
      (∀ i snap, pickSnap p.slots 0 p.recoveryStep = some (i, snap) →
        let lines := linesFrom (snap.bytes.length / 64 + 1) snap.bytes
        (snap.bytes.length ≤ bodyAt e.raw 16 8 → (kind = 1 → (s.port port).joined = true) →
          ∃ t u : State, exec (.ship ring) s = .next t ∧
            t = u.complete ring.val e.index (if lines.any (·.2) then 1 else 0) (BitVec.ofNat 64 snap.bytes.length)
              (snap.step.setWidth 64) 0 ∧
            { u with porters := s.porters, host := s.host } = s ∧ (u.porter c).shipping = true ∧ (u.porter c).slots = p.slots ∧
            (kind = 0 → (u.porter c).out = p.out ∧ u.host = (s.emitLines dst lines).host) ∧
            (kind = 1 → u.host = s.host ∧ (u.porter c).out =
              p.out ++ [(port, .ship (BitVec.ofNat 8 (bodyAt e.raw 10 1)) (BitVec.ofNat 64 dst) lines)]) ∧
            ∀ d, d ≠ c → u.porter d = s.porter d) ∧
        (bodyAt e.raw 16 8 < snap.bytes.length → ∃ t, exec (.ship ring) s = .next t ∧ Ends ring e 2 s t) ∧
        (snap.bytes.length ≤ bodyAt e.raw 16 8 → kind = 1 → (s.port port).joined = false →
          ∃ t, exec (.ship ring) s = .next t ∧ Ends ring e 5 s t)) ∧
      (pickSnap p.slots 0 p.recoveryStep = none → ∃ t, exec (.ship ring) s = .next t ∧ Ends ring e 2 s t))) ∧
  (∀ (s r : State) (ring : Fin 64) (e : Entry), let c := headerCtx e.raw
    s.entryOf ring.val 0x32 = some e → JobCmd s ring e 10 → bodyAt e.raw 0 8 % 64 = 0 →
    (∀ x ls u, s.layerRaw c (bodyAt e.raw 8 2) = (r, .ok (some x)) → r.takeArrays c (layerFields x).shipped = (u, .ok ls) →
      ∃ t v : State, exec (.layerRead ring) s = .next t ∧
        t = v.complete ring.val e.index (if ls.any fun l => l.any (·.poison) then 1 else 0)
          (BitVec.ofNat 64 ((ls.map (·.length)).sum + 64)) ((s.job c).stepNumber.setWidth 64) 0 ∧
        v = (u.emitArrays (bodyAt e.raw 0 8) (ls ++ [cleanBytes ((s.job c).normLine (layerFields x))])).1 ∧
        { v with host := u.host } = u ∧ t.jobs = s.jobs ∧ t.tiles = s.tiles ∧ t.ports = s.ports ∧
        (s.mem.errors = [] → t.mem = s.mem)) ∧
    (s.layerRaw c (bodyAt e.raw 8 2) = (r, .ok none) →
      ∃ t u, exec (.layerRead ring) s = .next t ∧ Ends ring e 2 u t ∧ { u with host := r.host } = r)) ∧
  (∀ (s : State) (ring : Fin 64) (view : HostView) (remote : List Part) (e : Entry), let c := headerCtx e.raw
    let source := bodyAt e.raw 0 1
    let port := bodyAt e.raw 1 1
    let slot := bodyAt e.raw 2 1
    let step : Word := BitVec.ofNat 32 (bodyAt e.raw 4 4)
    let map := bodyAt e.raw 16 8
    let only := bitOf (bodyAt e.raw 3 1) 0
    let p := s.porter c
    s.hostEntryOf ring.val 0x33 (fun raw => bodyAt raw 16 8 != 0) = some e → JobCmd s ring e 32 → source ≤ 2 →
    (source = 1 → port ≤ 1 ∧ (s.port port).joined = true) → (source = 2 → slot ≤ 1) → bodyAt e.raw 3 1 ≤ 1 →
    (source ≠ 2 → bodyAt e.raw 8 8 = 0) → map % 64 = 0 → (s.job c).phase = .loaded →
    (s.job c).stepsBegun = 0 → (s.job c).waitingSteps = [] →
    (p.source source slot step remote = none → ∃ t u, exec (.restore ring view remote) s = .next t ∧ Ends ring e 2 u t ∧
      { u with host := s.host } = s) ∧
    (∀ i snap m u, p.source source slot step remote = some (i, snap) →
      (map = 0 → m = (List.range 100).map fun k => BitVec.ofNat 8 k) → (map ≠ 0 → HostView.read view map 100 = .ok m) →
      snap.tag = (s.job c).cfg.tag → (source = 1 → snap.coord = s.selfCoord.extractLsb' 0 20) →
      (∀ b ∈ snap.blocks, b.crcOk = true) → (only = true ∨ ∀ r ∈ snap.tiles, s.recordFits c m r = true) →
      s.restoreFrom c snap only (signedOf 64 (bodyAt e.raw 8 8)) m (bodyAt e.raw 24 8) = (u, none) →
      ∃ t, exec (.restore ring view remote) s = .next t ∧ (t.job c).restored = !only ∧ (t.job c).rules = snap.engine.rules ∧
        (t.job c).queues = snap.engine.queues ∧ (t.job c).superstep = (if only then 0 else snap.engine.superstep) ∧
        (source = 0 → (t.porter c).recoveryStep = step ∧ (t.porter c).newestValid = true ∧ (t.porter c).newestSlot = (i == 1)) ∧
        (source = 1 → (t.porter c).out = p.out ++ [(port, .request step)]) ∧
        t.mem = u.mem ∧ t.tiles = u.tiles ∧ (only = true → t.tiles = s.tiles) ∧ ∀ d, d ≠ c → t.job d = s.job d))

/-! ### The Health Engine and the Logbook -/

/-- FIELD_TEST, FIELD_TEST_COMPLETE and LOGBOOK_READ (R390, R509 to R512): a test begins on a module without jobs, one at a time;
its failures retire the tiles that they name, and only a memory march changes memory, the free frames of the stacks it
selects then reading zero, and a loopback ends with it; a Logbook read delivers the region whatever the module does. -/
def Sys2Proof.Claims.FieldTestsRun : Prop :=
  (∀ (s : State) (ring : Fin 64) (e : Entry), s.entryOf ring.val 0x40 = some e →
    headerFault (s.ring ring.val) e.raw 8 = none → bodyAt e.raw 0 1 < 32 → bodyAt e.raw 1 1 < 16 → 1 ≤ bodyAt e.raw 4 4 →
    bodyAt e.raw 4 4 ≤ 60000 →
    (s.anyJob = false → s.health.running = none →
      ∃ t, exec (.fieldTest ring) s = .next t ∧ { t with health := s.health, host := s.host } = s ∧
        t.health = { s.health with running := some (ring, e.index), tests := e.raw.extractLsb' 0 5, body := e.raw }) ∧
    (s.anyJob = true → ∃ t, exec (.fieldTest ring) s = .next t ∧ Ends ring e 2 s t) ∧
    (s.anyJob = false → s.health.running.isSome = true → exec (.fieldTest ring) s = .next s)) ∧
  (∀ (s : State) (failures : List TestFailure) (ring : Fin 64) (index : BitVec 16),
    s.health.running = some (ring, index) →
    ∃ t, exec (.fieldTestComplete failures) s = .next t ∧ t.health.running = none ∧ t.health.tests = 0 ∧ t.tiles = s.tiles ∧
      (∀ p, p < 8 → ((s.port p).loopback = false → t.port p = s.port p) ∧
        ((s.port p).loopback = true → (t.port p).link = .detect ∧ (t.port p).session = none ∧ (t.port p).loopback = false)) ∧
      (∀ f ∈ failures, s.health.tests.getLsbD f.test.val = true → f.kind = 1 → f.test.val < 3 → f.unit.toNat ∈ t.retired) ∧
      (s.health.tests.getLsbD 3 = false → t.mem.data = s.mem.data) ∧
      (s.health.tests.getLsbD 3 = true → ∀ a, t.mem.data.get a =
        if bitOf (bodyAt s.health.body 2 1) (stackOfPA (a / 65536 * 65536)) ∧ s.ownerOf (a / 65536) = 0xF then 0
        else s.mem.data.get a)) ∧
  (∀ (s : State) (failures : List TestFailure), s.health.running = none → exec (.fieldTestComplete failures) s = .next s) ∧
  (∀ (s : State) (ring : Fin 64) (e : Entry), s.entryOf ring.val 0x41 = some e →
    headerFault (s.ring ring.val) e.raw 16 = none → bodyAt e.raw 0 8 % 64 = 0 → bodyAt e.raw 12 4 % 64 = 0 →
    bodyAt e.raw 8 4 + bodyAt e.raw 12 4 ≤ 2 ^ 22 →
    let n := bodyAt e.raw 12 4
    ∃ t u, exec (.logbookRead ring) s = .next t ∧ Ends ring e 0 u t ∧ { u with host := s.host } = s ∧
      u = s.emitLines (bodyAt e.raw 0 8) (linesFrom (n / 64 + 1) (cleanBytes (s.health.flashBytes (bodyAt e.raw 8 4) n))))

/-- LOGBOOK_APPEND (R504, R506, R507): the oldest waiting record is appended, and no sector is touched but the one that takes
it while more than four sectors are erased; a record of another unit than a tile changes nothing else; a tile's second
checker record in the window retires the tile. -/
def Sys2Proof.Claims.RecordsAreAppended : Prop :=
  ∀ (s : State) (r : LogRec) (rest : List LogRec), s.health.pendingRecs = r :: rest →
    let h := (({ s.health with pendingRecs := rest } : Health).put r).compact s.minutes.toNat
    ∃ t, exec .logbookAppend s = .next t ∧ t.health.sectors = h.sectors ∧ t.mem.data = s.mem.data ∧ t.tiles = s.tiles ∧
      t.ports = s.ports ∧
      (5 ≤ s.health.erased → ∃ i, i < 64 ∧ r ∈ (t.health.sectors.get Sector.erased i).records ∧
        ∀ n, n ≠ i → t.health.sectors.get Sector.erased n = s.health.sectors.get Sector.erased n) ∧
      (r.kind ≠ 1 → { t with health := s.health } = s ∧ t.health.pendingRecs = rest) ∧
      (r.kind = 1 → r.code = 0x0702 → 2 ≤ (h.history 1 r.unit s.minutes.toNat).countP (·.code == 0x0702) →
        r.unit.toNat ∈ t.retired)

/-- The field tests, and the records of Health. -/
def Obligations.TestsAndRecords : Prop :=
  Sys2Proof.Claims.FieldTestsRun ∧ Sys2Proof.Claims.RecordsAreAppended

/-! ### Local memory -/

/-- MEMORY_READ (R210, R212, R214, R215, R226, R233): without an error the line's bytes and poison are answered and nothing else changes;
a single wrong symbol is corrected and counted once; two wrong symbols of one codeword poison the line and are counted once; a read
that writes the line back takes an injection armed for it. Of the frame table no requester reads or writes a line, and a stack that did
not train serves no access. -/
def Sys2Proof.Claims.LinesAreRead : Prop :=
  (∀ (s : State) (pa : BitVec 40) (u : List (Nat × Byte)), s.served pa.toNat = none → 256 ≤ pa.toNat / 65536 → s.mem.errors = [] →
    let m := stackOfPA pa.toNat
    let line := pa.toNat / 64
    let armed := s.mem.inject.getLsbD 63 = true ∧ (s.mem.inject.extractLsb' 6 34).toNat = line
    (u = [] → ∃ t, exec (.memoryRead pa u) s = .next t ∧
      { t with mem := { t.mem with stackTbl := s.mem.stackTbl } } = s ∧
      t.stack m = { s.stack m with response := some (line, s.lineData line, s.linePoison line) } ∧
      ∀ k, k ≠ m → t.stack k = s.stack k) ∧
    (∀ n v, u = [(n, v)] → n < 72 → v ≠ 0 → ∃ t, exec (.memoryRead pa u) s = .next t ∧
      t.mem.data = s.mem.data ∧ (¬ armed → t.mem.poison = s.mem.poison ∧ t.mem.errors = []) ∧
      (armed → t.mem.inject.getLsbD 63 = false) ∧
      (t.stack m).response = some (line, s.lineData line, s.linePoison line) ∧ (t.stack m).ce = (s.stack m).ce + 1 ∧
      (t.stack m).ue = (s.stack m).ue ∧ t.tiles = s.tiles ∧ t.jobs = s.jobs) ∧
    (∀ n v k w, u = [(n, v), (k, w)] → n ≠ k → n < 72 → k < 72 → n / 36 = k / 36 → v ≠ 0 → w ≠ 0 →
      s.linePoison line = false → ∃ t d, exec (.memoryRead pa u) s = .next t ∧ t.linePoison line = true ∧
        (t.stack m).response = some (line, d, true) ∧ (t.stack m).ue = (s.stack m).ue + 1 ∧
        (t.stack m).ce = (s.stack m).ce ∧ (∀ l, l ≠ line → t.linePoison l = s.linePoison l) ∧
        (armed → t.mem.inject.getLsbD 63 = false) ∧ t.tiles = s.tiles ∧ t.jobs = s.jobs)) ∧
  (∀ (s : State) (pa : BitVec 40) (u : List (Nat × Byte)) (data : List Byte) (poison : Bool),
    (pa.toNat / 65536 < 256 → (s.stack (stackOfPA pa.toNat)).trained = true → exec (.memoryRead pa u) s = .next s ∧
      exec (.memoryWrite pa data poison) s = .next s) ∧
    ((s.stack (stackOfPA pa.toNat)).trained = false →
      exec (.memoryRead pa u) s = .fault .stackAbsent ∧ exec (.memoryWrite pa data poison) s = .fault .stackAbsent ∧
        exec (.patrolScrub pa u) s = .fault .stackAbsent))

/-- MEMORY_WRITE, PATROL_SCRUB, REFRESH and MEM_INJECT_ARM (R217, R222, R223, R233): a write changes the bytes that it covers in
its line and no other, and gives the line its poison, which a partial write never clears; a scrub of a sound line changes
nothing, and one of a wrong symbol corrects and counts it, in the frame table too; a refresh touches its stack's refresh state alone,
and reports 85 °C or more; an armed injection changes no data. -/
def Sys2Proof.Claims.LinesAreWritten : Prop :=
  (∀ (s : State) (pa : BitVec 40) (data : List Byte) (poison : Bool), s.served pa.toNat = none → 256 ≤ pa.toNat / 65536 →
    pa.toNat % 64 + data.length ≤ 64 → Memory.wf s.mem.data = true → s.mem.errors = [] →
    (s.mem.inject.getLsbD 63 = false ∨ (s.mem.inject.extractLsb' 6 34).toNat ≠ pa.toNat / 64) →
    ∃ t, exec (.memoryWrite pa data poison) s = .next t ∧ { t with mem := s.mem, porters := s.porters } = s ∧
      (∀ i, i < data.length → t.mem.data.get (pa.toNat + i) = data.getD i 0) ∧
      (∀ a, (a < pa.toNat ∨ pa.toNat + data.length ≤ a) → t.mem.data.get a = s.mem.data.get a) ∧
      (t.linePoison (pa.toNat / 64) = (poison || (decide (data.length ≠ 64) && s.linePoison (pa.toNat / 64)))) ∧
      (∀ l, l ≠ pa.toNat / 64 → t.linePoison l = s.linePoison l) ∧ t.mem.owner = s.mem.owner ∧ t.mem.errors = []) ∧
  (∀ (s : State) (pa : BitVec 40), s.served pa.toNat = none → s.mem.errors = [] →
    exec (.patrolScrub pa []) s = .next s) ∧
  (∀ (s : State) (pa : BitVec 40) (n : Nat) (v : Byte), s.served pa.toNat = none → s.mem.errors = [] → n < 72 → v ≠ 0 →
    ∃ t, exec (.patrolScrub pa [(n, v)]) s = .next t ∧ t.mem.data = s.mem.data ∧ t.mem.owner = s.mem.owner ∧
      (s.mem.inject.getLsbD 63 = false ∨ (s.mem.inject.extractLsb' 6 34).toNat ≠ pa.toNat / 64 →
        t.mem.poison = s.mem.poison ∧ t.mem.errors = []) ∧
      (t.stack (stackOfPA pa.toNat)).ce = (s.stack (stackOfPA pa.toNat)).ce + 1 ∧ t.tiles = s.tiles ∧
      t.jobs = s.jobs) ∧
  (∀ (s : State) (k : Fin 8) (bank : Nat), ∃ t, exec (.refresh k bank) s = .next t ∧
    { t with mem := { t.mem with stackTbl := s.mem.stackTbl } } = s ∧ (∀ m, m ≠ k.val → t.stack m = s.stack m) ∧
    t.stack k.val = { s.stack k.val with
      refreshed := (s.stack k.val).refreshed.set bank ((s.stack k.val).refreshed.get 0 bank + 1)
      hot := decide (16 * 85 ≤ ((s.power.temp.get 0 (64 + k.val)).extractLsb' 0 16).toInt) }) ∧
  (∀ (s : State) (value : Dword), s.blocksOpen = true → value.getLsbD 63 = true →
    ((value.extractLsb' 61 2).toNat = 2 ∨ (value.extractLsb' 61 2).toNat < 2 ∧ (value.extractLsb' 0 6).toNat < 36) →
    (s.anyJob = false → ∃ t, exec (.memInjectArm value) s = .next t ∧ { t with mem := s.mem } = s ∧
      { t.mem with inject := s.mem.inject } = s.mem ∧ t.mem.inject = value &&& 0xE00000FFFFFFFFFF) ∧
    (s.anyJob = true → exec (.memInjectArm value) s = .next s))

/-- What reading and writing a line of stack memory does. -/
def Obligations.MemoryLines : Prop :=
  Sys2Proof.Claims.LinesAreRead ∧ Sys2Proof.Claims.LinesAreWritten

/-- FRAME_ASSIGN, FRAME_RELEASE and FRAME_ZERO (R227, R228): frames that are all free go to the context, and else none does; frames
that a context holds leave it for zeroing; each frame is zeroed before it is free again, and the release completes with its
last frame. Zeroing touches no other frame, and takes with it the snapshots and mirrors that lay in the frame. -/
def Obligations.FramesChangeHands : Prop :=
  (∀ (s : State) (ring : Fin 64) (e : Entry), let c := headerCtx e.raw
    let first := bodyAt e.raw 0 4
    let n := bodyAt e.raw 4 4
    headerFault (s.ring ring.val) e.raw 8 = none → 0 < n → first + n ≤ 2 ^ 24 → s.mem.errors = [] →
    s.mem.inject.getLsbD 63 = false →
    (s.entryOf ring.val 0x10 = some e →
      ((∀ f, first ≤ f → f < first + n → s.ownerOf f = 0xF ∧ (s.stack (stackOfPA (f * 65536))).trained = true) →
        ∃ t u, exec (.frameAssign ring) s = .next t ∧ Ends ring e 0 u t ∧
          { u with mem := { u.mem with owner := s.mem.owner } } = s ∧
          ∀ f, u.mem.owner.get 0xF f = if first ≤ f ∧ f < first + n then BitVec.ofNat 8 c else s.mem.owner.get 0xF f) ∧
      ((∃ f, first ≤ f ∧ f < first + n ∧ s.ownerOf f ≠ 0xF) →
        ∃ t, exec (.frameAssign ring) s = .next t ∧ Ends ring e 2 s t)) ∧
    (s.entryOf ring.val 0x11 = some e →
      ((∀ f, first ≤ f → f < first + n → s.owns c f = true) →
        ∃ t r, exec (.frameRelease ring) s = .next t ∧ { t with mem := s.mem, host := s.host } = s ∧
          t.mem.data = s.mem.data ∧ t.mem.releases = s.mem.releases ++ [r] ∧ r.ring = ring ∧ r.index = e.index ∧
          (∀ f, f ∈ r.frames ↔ first ≤ f ∧ f < first + n) ∧
          ∀ f, t.mem.owner.get 0xF f = if first ≤ f ∧ f < first + n then 0x80 ||| BitVec.ofNat 8 c else s.mem.owner.get 0xF f) ∧
      ((∃ f, first ≤ f ∧ f < first + n ∧ s.owns c f = false) →
        ∃ t, exec (.frameRelease ring) s = .next t ∧ Ends ring e 2 s t))) ∧
  (∀ (s : State) (f : Nat) (r : Release), s.mem.releases.find? (fun r => f ∈ r.frames) = some r →
    s.mem.inject.getLsbD 63 = false → s.mem.errors = [] →
    ∃ t, exec (.frameZero f) s = .next t ∧ t.tiles = s.tiles ∧ t.jobs = s.jobs ∧
      (∀ a, t.mem.data.get a = if a / 65536 = f then 0 else s.mem.data.get a) ∧
      (∀ l, t.linePoison l = (s.linePoison l && decide (l / 1024 ≠ f))) ∧
      t.mem.owner.get 0xF f = (if s.frameRetires f then 0xE else 0xF) ∧
      (∀ g, g ≠ f → t.mem.owner.get 0xF g = s.mem.owner.get 0xF g) ∧
      (∀ c k, c < 8 → (f ∈ (s.porter c).slotFrames.get [] k → (t.porter c).slots.get Snap.empty k = Snap.empty) ∧
        (f ∈ (s.porter c).mirrorFrames.get [] k → (t.porter c).mirrors.get Snap.empty k = Snap.empty)) ∧
      ((∃ g ∈ r.frames, g ≠ f) → t.host = s.host)) ∧
  (∀ (s : State) (f : Nat), s.mem.releases.find? (fun r => f ∈ r.frames) = none → exec (.frameZero f) s = .next s)

/-! ### The host interface -/

/-- R436, R443, R435: an entry that ends is recorded at once when it is the oldest of its ring, at its slot's place in the
completion ring, in one write, the write position moving on; behind an entry that has not ended it writes nothing. -/
def Sys2Proof.Claims.RecordsAreInRingOrder : Prop :=
  ∀ (s : State) (n : Nat) (e : Entry) (l : List Entry) (st : Byte) (a b c : Dword), let r := s.ring n
    s.host.busMaster = true →
    (r.entries = e :: l → e.done = none → (∀ x ∈ l, x.done = none) →
      ∃ user, let t := s.complete n e.index st a b c
        { t with host := s.host } = s ∧ (t.ring n).entries = l ∧ (t.ring n).write = r.advance.write ∧
        (t.ring n).phase = r.advance.phase ∧ (∀ m, m ≠ n → t.ring m = s.ring m) ∧
        t.host.out = s.host.out ++ [.data (r.cbase + BitVec.ofNat 64 (32 * e.index.toNat))
          (toBytes 32 (completionRecord ⟨st, user, a, b, c⟩ e.index r.phase).toNat) false]) ∧
    (∀ x i, r.entries = e :: l → e.done = none → x ∈ l → x.index = i → e.index ≠ i →
      let t := s.complete n i st a b c
      { t with host := s.host } = s ∧ t.host.out = s.host.out ∧ (t.ring n).write = r.write)

/-- RING_ENABLE, RING_DISABLE, DOORBELL, EVENT_RING_DOORBELL, RING_FETCH and HOST_READ_FAILED (R433, R434, R437, R438, R452): a valid
configuration starts its ring at FETCH 0, INDEX 0 and PHASE 1; an invalid one leaves ENABLE 0; a change of another field of an
enabled ring is ignored whole; a disabled ring keeps what it fetched. A doorbell of an enabled ring is taken where its entries
fit, and ignored otherwise; that of an Event ring lets the count of its lost events follow once two records are free. An entry
fetched in its ring's turn joins the ring, FETCH moving on, and is rejected at once where it came with EP or its opcode is none
of the ring's; a failed read of an entry halts its ring and consumes nothing, and one of a command's data ends the command. -/
def Sys2Proof.Claims.RingsServe : Prop :=
  (∀ (s : State) (ring : Fin 64) (v : Word), s.blocksOpen = true → let r := s.ring ring.val
    let same := (v &&& 0x7FFFFE00) = (r.cfg &&& 0x7FFFFFFF)
    (v.getLsbD 31 = true → (r.enabled = true → same) → ringCfgOk (v &&& 0xFFFFFE00) = true →
      ∃ t, exec (.ringEnable ring v) s = .next t ∧ { t with host := s.host } = s ∧ (∀ m, m ≠ ring.val → t.ring m = s.ring m) ∧
        t.ring ring.val = { r with
          cfg := v &&& 0xFFFFFE00, active := true, halted := false, fetch := 0, bell := 0, phase := true, write := 0, read := 0
          lostHere := 0 }) ∧
    (v.getLsbD 31 = true → r.enabled = false → ringCfgOk (v &&& 0xFFFFFE00) = false →
      ∃ t, exec (.ringEnable ring v) s = .next t ∧ { t with host := s.host } = s ∧ (t.ring ring.val).enabled = false) ∧
    (r.enabled = true → ¬ same → (v.getLsbD 31 = true → exec (.ringEnable ring v) s = .next s) ∧
      (v.getLsbD 31 = false → exec (.ringDisable ring v) s = .next s)) ∧
    (v.getLsbD 31 = false → (r.enabled = true → same) →
      ∃ t, exec (.ringDisable ring v) s = .next t ∧ { t with host := s.host } = s ∧ (t.ring ring.val).enabled = false ∧
        (t.ring ring.val).lostHere = 0 ∧ (t.ring ring.val).entries = r.entries ∧
        (t.ring ring.val).active = (r.active && !r.entries.isEmpty) ∧
        (r.kind ≠ 6 ∨ r.lostHere = 0 → ∀ m, m ≠ ring.val → t.ring m = s.ring m))) ∧
  (∀ (s : State) (ring : Fin 64) (v : Word), s.blocksOpen = true → let r := s.ring ring.val
    let i := v.toNat % 65536
    (r.enabled = true → r.kind ≠ 6 → i < r.depth → r.outstanding i < r.depth →
      ∃ t, exec (.doorbell ring v) s = .next t ∧ { t with host := s.host } = s ∧ t.ring ring.val = { r with bell := i } ∧
        ∀ m, m ≠ ring.val → t.ring m = s.ring m) ∧
    (r.kind ≠ 6 → (r.enabled = false ∨ r.depth ≤ i ∨ r.depth ≤ r.outstanding i) →
      ∃ t, exec (.doorbell ring v) s = .next t ∧ { t with host := s.host } = s ∧ (t.ring ring.val).bell = r.bell) ∧
    (r.enabled = true → r.kind = 6 → i < r.depth →
      ∃ t, exec (.eventRingDoorbell ring v) s = .next t ∧ { t with host := s.host } = s ∧
        t.ring ring.val = (if r.lostHere ≠ 0 ∧ 2 ≤ ({ r with read := i } : Ring).free then
          ({ r with read := i, lostHere := 0 } : Ring).advance else { r with read := i }) ∧
        ∀ m, m ≠ ring.val → t.ring m = s.ring m) ∧
    (r.kind = 6 → (r.enabled = false ∨ r.depth ≤ i) →
      ∃ t, exec (.eventRingDoorbell ring v) s = .next t ∧ { t with host := s.host } = s ∧ (t.ring ring.val).read = r.read) ∧
    (r.kind = 6 → exec (.doorbell ring v) s = .next s) ∧ (r.kind ≠ 6 → exec (.eventRingDoorbell ring v) s = .next s)) ∧
  (∀ (s : State) (ring : Fin 64), let r := s.ring ring.val
    s.turn r.kind = some ring.val →
    (∀ raw, opcodeOk r raw = true →
      ∃ t, exec (.ringFetch ring raw false) s = .next t ∧ { t with host := s.host } = s ∧
        t.ring ring.val = { r with
          fetch := (r.fetch + 1) % r.depth
          entries := r.entries ++ [⟨BitVec.ofNat 16 r.fetch, raw, false, false, none⟩] } ∧
        ∀ m, m ≠ ring.val → t.ring m = s.ring m) ∧
    (∀ raw ep, (ep = true ∨ opcodeOk r raw = false) → let e : Entry := ⟨BitVec.ofNat 16 r.fetch, raw, ep, false, none⟩
      ∃ t u, exec (.ringFetch ring raw ep) s = .next t ∧ Ends ring e 2 u t ∧ { u with host := s.host } = s ∧
        (u.ring ring.val).fetch = (r.fetch + 1) % r.depth ∧ (u.ring ring.val).entries = r.entries ++ [e]) ∧
    (∀ addr, ∃ t, exec (.hostReadFailed ring addr true) s = .next t ∧ { t with host := s.host } = s ∧
      (t.ring ring.val).halted = true ∧ (t.ring ring.val).entries = r.entries ∧ (t.ring ring.val).fetch = r.fetch)) ∧
  (∀ (s : State) (ring : Fin 64), s.turn (s.ring ring.val).kind ≠ some ring.val →
    (∀ raw ep, exec (.ringFetch ring raw ep) s = .next s) ∧ ∀ addr, exec (.hostReadFailed ring addr true) s = .next s) ∧
  (∀ (s : State) (ring : Fin 64), (s.ring ring.val).kind ≠ 1 → (s.ring ring.val).kind ≠ 2 → s.host.busMaster = true →
    ∀ e addr, (s.ring ring.val).nextEntry headerOrder = some e → readsHost e.raw = true →
      ∃ t u, exec (.hostReadFailed ring addr false) s = .next t ∧ Ends ring e 2 u t ∧ { u with host := s.host } = s)

/-- The record layout of a ring, and how a ring is served. -/
def Obligations.RingsAndRecords : Prop :=
  Sys2Proof.Claims.RecordsAreInRingOrder ∧ Sys2Proof.Claims.RingsServe

/-- FUNCTION_LEVEL_RESET, D3HOT_ENTRY, PERST_N_ASSERT, PERST_N_DEASSERT, BUS_MASTER_ENABLE, CONFIG_REQUEST_RETRY and
PCIE_LINK_TRAINED (R429, R432, R554, R598): a reset of the function kills every context and returns the rings to reset,
keeping memory, the ports, the boot and the count of lost events; a link trains with PERST_N deasserted and the main rails
on, at a rate that the strap allows; what Bus Master Enable held back goes out in order. -/
def Obligations.FunctionResets : Prop :=
  (∀ (s : State), ∃ t u v, exec .functionLevelReset s = .next t ∧ exec .d3hotEntry s = .next u ∧
    exec .perstNAssert s = .next v ∧
    (∀ w ∈ [t, u, v], w.host.rings = [] ∧ w.host.deviceEvents = 0 ∧ w.host.msixDue = 0 ∧ w.host.heldOut = [] ∧ w.mem = s.mem ∧
      w.tiles = s.tiles ∧ w.ports = s.ports ∧ w.boot = s.boot ∧ w.power = s.power ∧ w.health = s.health ∧
      w.host.eventsLost = s.host.eventsLost ∧
      (∀ c, c < 8 → (s.job c).present = true → (w.job c).phase = .scrubbing) ∧
      ∀ c, c < 8 → (s.job c).phase = .empty → w.job c = s.job c) ∧
    t.host.rate = s.host.rate ∧ t.host.perst = s.host.perst ∧ u.host.d3hot = true ∧ v.host.perst = true ∧ v.host.rate = 0 ∧
    v.host.width = 0) ∧
  (∀ (s : State), exec .perstNDeassert s = .next { s with host := { s.host with perst := false } }) ∧
  (∀ (s : State), ∃ t u, exec (.busMasterEnable true) s = .next t ∧ exec (.busMasterEnable false) s = .next u ∧
    { t with host := s.host } = s ∧ t.host.busMaster = true ∧ t.host.out = s.host.out ++ s.host.heldOut ∧ t.host.heldOut = [] ∧
    u = { s with host := { s.host with busMaster := false } }) ∧
  (∀ (s : State), (s.boot.done = false ∧ s.boot.hostLoading = false →
      exec .configRequestRetry s = .next { s with host := { s.host with retries := s.host.retries + 1 } }) ∧
    (s.boot.done = true → exec .configRequestRetry s = .next s)) ∧
  (∀ (s : State) (rate : BitVec 4) (width : BitVec 6),
    (s.host.perst = false → s.power.mainOff = false → s.boot.phase ≠ .romState → 4 ≤ rate.toNat →
      rate.toNat ≤ s.boot.topRate → width.toNat ∈ [4, 8, 16] →
      exec (.pcieLinkTrained rate width) s = .next { s with host := { s.host with rate := rate, width := width } }) ∧
    (s.host.perst = true → exec (.pcieLinkTrained rate width) s = .next s))

/-- REGISTER_WRITE, REGISTER_ACCESS_INVALID, COUNTER_LOW_READ, MSIX_MESSAGE and MSIX_VECTOR_UNMASK (R6 to R8, R453): an upper-half
write applies with the held lower half, which is then gone, or with the current one where none is held; a lower half alone
changes no register; an access of an invalid width or alignment changes nothing but raises its event, and a read then returns zero;
the low read of a counter latches its upper half, which the next high read returns and takes with it; a due vector sends its
message, at most one a microsecond, unless it is masked, when it pends until it is unmasked. -/
def Obligations.RegistersAndInterrupts : Prop :=
  (∀ (s : State) (n : Nat) (lo hi : Dword), s.boot.done = true → s.power.mainOff = false → s.boot.running ≠ .recovery →
    n < 64 → (s.ring n).enabled = false →
    let base := 0x41000 + 0x40 * n
    ∃ t u, exec (.registerWrite base 4 lo) s = .next t ∧ exec (.registerWrite (base + 4) 4 hi) t = .next u ∧
      (∀ m, t.ring m = s.ring m) ∧ t.host.out = s.host.out ∧
      (u.ring n).base = ((hi.extractLsb' 0 32 ++ lo.extractLsb' 0 32 : Dword) &&& 0xFFFFFFFFFFFFF000) ∧
      (u.ring n).cbase = (s.ring n).cbase ∧ (u.ring n).cfg = (s.ring n).cfg ∧ (∀ m, m ≠ n → u.ring m = s.ring m) ∧
      { t with host := s.host } = s ∧ { u with host := s.host } = s ∧
      ((s.host.halves.map (·.1)).Pairwise (· < ·) → u.host.halves.find base = none) ∧
      (s.host.halves.find base = none → ∃ v, exec (.registerWrite (base + 4) 4 hi) s = .next v ∧ { v with host := s.host } = s ∧
        (v.ring n).base = ((hi.extractLsb' 0 32 ++ (s.ring n).base.extractLsb' 0 32 : Dword) &&& 0xFFFFFFFFFFFFF000) ∧
        ∀ m, m ≠ n → v.ring m = s.ring m)) ∧
  (∀ (s : State) (off width : Nat), s.barOpen = true → accessOk off width = false → off < bar4 →
    exec (.registerAccessInvalid off width true) s = .next (s.event 0x0101 kHost 0xF 0 off (width + 256)) ∧
    exec (.registerAccessInvalid off width false) s = .next
      { s.event 0x0101 kHost 0xF 0 off width with host := { (s.event 0x0101 kHost 0xF 0 off width).host with readData := 0 } }) ∧
  (∀ (s : State) (off width : Nat) (write : Bool), s.barOpen = true → accessOk off width = false →
    ∃ t, exec (.registerAccessInvalid off width write) s = .next t ∧ { t with host := s.host } = s ∧
      t.host.halves = s.host.halves ∧ t.host.latched = s.host.latched ∧ t.host.msix = s.host.msix ∧
      t.host.readData = if write then s.host.readData else 0) ∧
  (∀ (s : State) (off width : Nat) (write : Bool), s.barOpen = false ∨ accessOk off width = true →
    exec (.registerAccessInvalid off width write) s = .next s) ∧
  (∀ (s : State) (off : Nat) (v : Dword), s.counter off = some v → s.present off = true →
    ∃ t u, exec (.counterLowRead off) s = .next t ∧ { t with host := s.host } = s ∧
      { t.host with latched := s.host.latched, readData := s.host.readData } = s.host ∧
      t.host.readData = (v.extractLsb' 0 32).setWidth 64 ∧ t.host.latched.find (off + 4) = some (v.extractLsb' 32 32) ∧
      exec (.counterLowRead (off + 4)) t = .next u ∧ { u with host := t.host } = t ∧
      { u.host with latched := t.host.latched, readData := t.host.readData } = t.host ∧
      u.host.readData = (v.extractLsb' 32 32).setWidth 64 ∧ u.host.latched = t.host.latched.drop (off + 4)) ∧
  (∀ (s : State) (off : Nat), s.counter off = none → (4 ≤ off → s.counter (off - 4) = none) →
    exec (.counterLowRead off) s = .next s) ∧
  (∀ (s : State) (vector : Fin 64), s.host.msixDue.getLsbD vector.val = true → s.host.busMaster = true →
    let m := s.host.msix.get Msix.reset vector.val
    (m.masked = false → s.host.mayFire vector.val s.tick = true →
      ∃ t, exec (.msixMessage vector) s = .next t ∧ { t with host := s.host } = s ∧
        t.host.out = s.host.out ++ [.msix vector.val m.addr m.data] ∧ t.host.msixDue.getLsbD vector.val = false ∧
        (∀ k, k ≠ vector.val → t.host.msixDue.getLsbD k = s.host.msixDue.getLsbD k) ∧ t.host.rings = s.host.rings) ∧
    (m.masked = true → ∃ t, exec (.msixMessage vector) s = .next t ∧ { t with host := s.host } = s ∧
      t.host.out = s.host.out ∧ t.host.msixPending.getLsbD vector.val = true ∧ t.host.msixDue.getLsbD vector.val = false) ∧
    (m.masked = false → s.host.mayFire vector.val s.tick = false → exec (.msixMessage vector) s = .next s)) ∧
  (∀ (s : State) (vector : Fin 64), s.host.msixDue.getLsbD vector.val = false ∨ s.host.busMaster = false →
    exec (.msixMessage vector) s = .next s) ∧
  (∀ (s : State) (vector : Fin 64), s.blocksOpen = true →
    ∃ t, exec (.msixVectorUnmask vector) s = .next t ∧ { t with host := s.host } = s ∧
      (t.host.msix.get Msix.reset vector.val).masked = false ∧ t.host.msixPending.getLsbD vector.val = false ∧
      (s.host.msixPending.getLsbD vector.val = true → t.host.msixDue.getLsbD vector.val = true) ∧
      ∀ k, k ≠ vector.val → t.host.msix.get Msix.reset k = s.host.msix.get Msix.reset k)

namespace Sys2Proof.Claims

/-- Nothing changes but one port. -/
def PortOnly (p : Nat) (s t : State) : Prop := { t with ports := s.ports } = s ∧ ∀ q, q ≠ p → t.port q = s.port q

/-- A port loses its session: the other ports, the tiles, memory, the boot, the power and the records stay. -/
def PortLeaves (p : Nat) (s t : State) : Prop :=
  t.mem = s.mem ∧ t.tiles = s.tiles ∧ t.boot = s.boot ∧ t.power = s.power ∧ t.health = s.health ∧
    (∀ q, q ≠ p → t.port q = s.port q) ∧ (t.port p).session = none ∧ (t.port p).class0 = [] ∧ (t.port p).class1 = []

/-- A command leaves a port in a link state without a session, and the other ports as they are. -/
def LinkTo (i : Instr) (p : Nat) (s : State) (st : Link) : Prop := ∃ t, exec i s = .next t ∧ PortLeaves p s t ∧ (t.port p).link = st

/-- Nothing changes but one port, and what its events do to the host interface. -/
def PortHost (p : Nat) (s t : State) : Prop :=
  { t with ports := s.ports, host := s.host } = s ∧ ∀ q, q ≠ p → t.port q = s.port q

/-- LNK_RETRY_CFG.LIMIT in force (R378). -/
abbrev nakLimit (x : Port) : Nat := (x.retryCfg.extractLsb' 16 16).toNat

/-- A transmitted block of 256 bytes whose last four are the CRC-32C of the others (R356, R359). -/
def Framed (l : List Byte) : Prop := l.length = 256 ∧ l.drop 252 = toBytes 4 (crc32c (l.take 252)).toNat

end Sys2Proof.Claims

/-! ### The optical ports -/

/-- PORT_ENABLE, PORT_DISABLE, LASER_SOURCE_INSERT, LASER_SOURCE_ABSENT, DETECT_RETRY, LIGHT_DETECTED and HOLDOFF_EXPIRY (R351, R377,
R378, R391, R579): a port with a laser source leaves OFF for DETECT when it is enabled, and DETECT for TRAIN with light on 16
lanes; without its source, or disabled, it is OFF with its session erased, but a quarantined port stays so until it is disabled; a
hot port is not enabled; without light for 100 ms a port is in DETECT; the fourth hold-off in a row ends in OFF. -/
def Obligations.LinksComeUp : Prop :=
  ∀ (s : State) (port : Fin 8), let p := port.val
    let x := s.port p
    (∀ v : Word, s.blocksOpen = true →
      (v.getLsbD 31 = true → (v.getLsbD 30 = false ∨ x.link ≠ .run) → ∃ t, exec (.portEnable port v) s = .next t ∧ PortHost p s t ∧
        t.port p = if x.hot then { x with expectEn := v.getLsbD 29 }
          else if x.link = .off ∧ x.laser = true then
            { x with expectEn := v.getLsbD 29, enable := true, link := .detect, holdoffs := 0 }
          else { x with expectEn := v.getLsbD 29, enable := true }) ∧
      (v.getLsbD 31 = false → ∃ t, exec (.portDisable port v) s = .next t ∧ PortLeaves p s t ∧ (t.port p).link = .off ∧
        (t.port p).enable = false)) ∧
    (∃ t, exec (.laserSourceInsert port) s = .next t ∧ PortOnly p s t ∧ t.port p = { x with laser := true }) ∧
    (x.enable = true → x.link ≠ .off → x.link ≠ .quarantine → ∃ t, exec (.laserSourceAbsent port) s = .next t ∧ PortLeaves p s t ∧
      (t.port p).link = .off ∧ (t.port p).laser = false) ∧
    ((x.enable = false ∨ x.link = .off ∨ x.link = .quarantine) → ∃ t, exec (.laserSourceAbsent port) s = .next t ∧ PortHost p s t ∧
      t.port p = { x with laser := false }) ∧
    (x.link = .detect → ∃ t, exec (.detectRetry port) s = .next t ∧ PortOnly p s t ∧ t.port p = { x with goodRx := 0 }) ∧
    (x.link ∈ [.train, .auth, .run] → LinkTo (.detectRetry port) p s .detect) ∧
    (x.link ∈ [.off, .holdoff, .quarantine] → exec (.detectRetry port) s = .next s) ∧
    (∀ lanes, (x.link = .detect → 16 ≤ (lanesOf lanes).length →
        ∃ t, exec (.lightDetected port lanes) s = .next t ∧ PortOnly p s t ∧ t.port p = { x with link := .train }) ∧
      ((x.link ≠ .detect ∨ (lanesOf lanes).length < 16) → exec (.lightDetected port lanes) s = .next s)) ∧
    (x.link = .holdoff → (x.holdoffs < 4 → ∃ t, exec (.holdoffExpiry port) s = .next t ∧ PortOnly p s t ∧
        t.port p = { x with link := .detect, naks := 0 }) ∧
      (4 ≤ x.holdoffs → ∃ t, exec (.holdoffExpiry port) s = .next t ∧ PortHost p s t ∧ t.port p = { x with link := .off })) ∧
    (x.link ≠ .holdoff → exec (.holdoffExpiry port) s = .next s)

/-- TRAINING_COMPLETE, LANE_LOSS_OF_LOCK, LANE_BER_WINDOW, NO_FRAME_TIMEOUT, RETRAIN_REQUEST, FAULTY_NOTICE, RETRY_WINDOW_END and
MAP_REQUEST (R369 to R371, R376 to R378): training takes an even number of lanes from 16 to 32 and goes on to AUTH, or, where
a session is kept, to the frame that ends the retrain; too few lanes, too many NAKs or a notice end in a hold-off, which
erases the session; a failed active lane is erased and replaced, or the port retrains, keeping its session; a lane of a map
that is only asked for is replaced; sixteen bad windows fail a lane. -/
def Obligations.LanesAreKept : Prop :=
  ∀ (s : State) (port : Fin 8), let p := port.val
    let x := s.port p
    (∀ good, x.link = .train → x.retrained = false → let l := s.goodLanes p good
      let n := activeLanes l.length
      (n = 0 → LinkTo (.trainingComplete port good) p s .holdoff) ∧
      (n ≠ 0 → 16 ≤ n ∧ n ≤ 32 ∧ n % 2 = 0 ∧ n ≤ l.length ∧ ∃ t, exec (.trainingComplete port good) s = .next t ∧
        { t with ports := s.ports, host := s.host, fresh := s.fresh } = s ∧ (∀ q, q ≠ p → t.port q = s.port q) ∧
        (t.port p).link = (if x.session.isSome then .train else .auth) ∧ (t.port p).retrained = x.session.isSome ∧
        (t.port p).activeRx = laneMask (l.take n) ∧ (t.port p).session = x.session)) ∧
    (∀ good, (x.link ≠ .train ∨ x.retrained = true) → exec (.trainingComplete port good) s = .next s) ∧
    (x.live = true → ∀ lane : Fin 34, x.goodRx.getLsbD lane.val = true →
      let l := s.goodLanes p (x.goodRx &&& ~~~(laneMask [lane.val]))
      let n := activeLanes l.length
      let active := x.activeRx.getLsbD lane.val = true
      let asked := x.wanted.2.getLsbD lane.val = true
      (¬ active → ¬ asked → ∃ t, exec (.laneLossOfLock port lane) s = .next t ∧ PortOnly p s t ∧
        (t.port p).goodRx.getLsbD lane.val = false ∧ (t.port p).failedRx.getLsbD lane.val = true ∧
        (t.port p).link = x.link ∧ (t.port p).activeRx = x.activeRx) ∧
      ((active ∨ asked) → n = 0 → LinkTo (.laneLossOfLock port lane) p s .holdoff) ∧
      (active → n ≠ 0 → (x.erased.isSome = true ∨ (lanesOf x.activeRx).length < 20) →
        ∃ t, exec (.laneLossOfLock port lane) s = .next t ∧ PortOnly p s t ∧ (t.port p).link = .train ∧
          (t.port p).session = x.session) ∧
      ((active ∨ asked) → n ≠ 0 → (active → x.erased = none ∧ 20 ≤ (lanesOf x.activeRx).length) →
        ∃ t ms, exec (.laneLossOfLock port lane) s = .next t ∧ PortOnly p s t ∧ lane.val ∉ ms ∧
          (t.port p).mapAsked = (x.wanted.1 + 1, laneMask ms) :: x.mapAsked ∧
          (t.port p).class0 = x.class0 ++ [linkFlit 1 (x.wanted.1 + 1).toNat (laneMask ms).toNat] ∧
          (active → (t.port p).erased = some lane.val) ∧ (¬ active → (t.port p).erased = x.erased) ∧
          (t.port p).activeRx = x.activeRx ∧ (t.port p).link = x.link ∧ (t.port p).session = x.session) ∧
      (15 ≤ x.berCount.get 0 lane.val →
        exec (.laneBerWindow port lane true) s = exec (.laneLossOfLock port lane) s) ∧
      (∀ bad, (bad = true → x.berCount.get 0 lane.val < 15) → ∃ t, exec (.laneBerWindow port lane bad) s = .next t ∧ PortOnly p s t ∧
        { t.port p with berCount := x.berCount } = x ∧
        (t.port p).berCount.get 0 lane.val = if bad then x.berCount.get 0 lane.val + 1 else 0)) ∧
    (∀ (lane : Fin 34) (bad : Bool), (x.live = false ∨ x.goodRx.getLsbD lane.val = false) →
      exec (.laneLossOfLock port lane) s = .next s ∧ exec (.laneBerWindow port lane bad) s = .next s) ∧
    (x.live = true → ∃ t, exec (.noFrameTimeout port) s = .next t ∧ PortOnly p s t ∧ (t.port p).link = .train ∧
      (t.port p).session = x.session ∧ (t.port p).retrained = false) ∧
    (x.live = true → x.hasFlit (linkFlit 2 0 0) = true → ∃ t, exec (.retrainRequest port) s = .next t ∧ PortOnly p s t ∧
      (t.port p).link = .train ∧ (t.port p).session = x.session ∧ (t.port p).retrained = false) ∧
    (x.live = true → x.hasFlit (linkFlit 3 0 0) = true → ∃ t, exec (.faultyNotice port) s = .next t ∧ PortLeaves p s t ∧
      (t.port p).link = .holdoff ∧ (t.port p).holdoffs = x.counted s.tick + 1) ∧
    (∀ version mask, x.live = true → x.hasFlit (linkFlit 1 version.toNat mask.toNat) = true →
      ∃ t, exec (.mapRequest port version mask) s = .next t ∧ PortOnly p s t ∧ (t.port p).txPending = some (version, mask) ∧
        (t.port p).txAnnounced = false ∧ (t.port p).activeTx = x.activeTx) ∧
    (∀ version mask, (x.live = false → exec (.noFrameTimeout port) s = .next s) ∧
      ((x.live = false ∨ x.hasFlit (linkFlit 2 0 0) = false) → exec (.retrainRequest port) s = .next s) ∧
      ((x.live = false ∨ x.hasFlit (linkFlit 3 0 0) = false) → exec (.faultyNotice port) s = .next s) ∧
      ((x.live = false ∨ x.hasFlit (linkFlit 1 version.toNat mask.toNat) = false) →
        exec (.mapRequest port version mask) s = .next s)) ∧
    ((x.live = true → nakLimit x < x.naks → ∃ t, exec (.retryWindowEnd port) s = .next t ∧ PortLeaves p s t ∧
        (t.port p).link = .holdoff ∧ (t.port p).naks = x.naks ∧ (t.port p).retryCfg = x.retryCfgNext) ∧
      ((x.live = false ∨ x.naks ≤ nakLimit x) → ∃ t, exec (.retryWindowEnd port) s = .next t ∧ PortOnly p s t ∧
        t.port p = { x with naks := if x.link = .holdoff then x.naks else 0, retryCfg := x.retryCfgNext }))

/-- HELLO, CERTS, KEY_SHARE, FINISHED, AUTH_STEP_TIMEOUT and REAUTH (R372, R373, R375, R379, R390): each message that has been
accepted, in its order, advances the exchange, its port number being the partner's, or on a loopback of the Health Engine the
port's own; a partner that fails a check is quarantined and no session is left; the last step makes the session, or, in a
re-authentication, the keys for the next FRAME wrap while the old ones stay in force; a HELLO in RUN begins one. -/
def Obligations.PartnersAuthenticate : Prop :=
  ∀ (s : State) (port : Fin 8), let p := port.val
    let x := s.port p
    (x.authing = true → x.authStep % 4 = 0 → ∀ h : Hello, x.heard 1 (helloBytes h) = true →
      let own := h.serial = s.boot.serial
      let back := own ∧ h.nonce = x.nonce ∧ s.healthOwns p = true
      let good := (own → s.healthOwns p = true) ∧ h.version = 1 ∧ (back → h.port.toNat = p) ∧ (¬ back → h.port.toNat = p ^^^ 1) ∧
        (x.expectEn = true → x.peerExpect.extractLsb' 0 20 = h.coord)
      (good → ∃ t, exec (.hello port h) s = .next t ∧ PortOnly p s t ∧ (t.port p).authStep = 1 ∧
        ((t.port p).loopback = true ↔ back) ∧ (t.port p).partnerSerial = h.serial ∧ (t.port p).peerNonce = h.nonce ∧
        (t.port p).link = x.link ∧ (t.port p).session = x.session) ∧
      (¬ good → LinkTo (.hello port h) p s .quarantine)) ∧
    (x.carries = true → x.reauth = false → x.authStep % 4 = 0 → ∀ h : Hello, x.heard 1 (helloBytes h) = true →
      h.serial ≠ s.boot.serial → h.version = 1 → h.port.toNat = p ^^^ 1 → x.expectEn = false →
      ∃ t, exec (.hello port h) s = .next t ∧ { t with ports := s.ports, fresh := s.fresh } = s ∧ (∀ q, q ≠ p → t.port q = s.port q) ∧
        (t.port p).reauth = true ∧ (t.port p).authStep = 1 ∧ (t.port p).link = .run ∧ (t.port p).session = x.session) ∧
    (x.authing = true → x.authStep = 1 → ∀ (content : List Byte) (ok : Bool) (n : BitVec 3), x.heard 2 content = true →
      (ok = true → n.toNat = x.peerNumber p → ∃ t, exec (.certs port content ⟨ok, n⟩) s = .next t ∧ PortOnly p s t ∧
        (t.port p).authStep = 2 ∧ (t.port p).link = x.link ∧ (t.port p).session = x.session) ∧
      ((ok = false ∨ n.toNat ≠ x.peerNumber p) → LinkTo (.certs port content ⟨ok, n⟩) p s .quarantine)) ∧
    (x.authing = true → x.authStep = 2 → ∀ point : BitVec 776, x.heard 3 (toBytes 97 point.toNat) = true →
      (∃ t, exec (.keyShare port ⟨point, true⟩) s = .next t ∧ PortOnly p s t ∧ (t.port p).authStep = 3 ∧
        (t.port p).peerPoint = point ∧
        (x.mySteps = 3 → (t.port p).mySteps = 4 ∧ (t.port p).class0 = x.class0 ++
          authFlits 4 (toBytes 96 (Config.signature (s.boot.linkSeed p) (t.port p).transcript).toNat)) ∧
        (t.port p).link = x.link ∧ (t.port p).session = x.session) ∧
      LinkTo (.keyShare port ⟨point, false⟩) p s .quarantine) ∧
    (x.authing = true → x.authStep = 3 → x.mySteps = 4 → ∀ mac : BitVec 768, x.heard 4 (toBytes 96 mac.toNat) = true →
      (x.reauth = false → ∃ t, exec (.finished port ⟨mac, true⟩) s = .next t ∧ PortOnly p s t ∧
        (t.port p).authStep = 4 ∧ (t.port p).session = some (s.sessionKey p) ∧ (t.port p).link = x.link) ∧
      (x.reauth = true → ∃ t, exec (.finished port ⟨mac, true⟩) s = .next t ∧ PortOnly p s t ∧
        (t.port p).session = x.session ∧ (t.port p).nextSession = some (s.sessionKey p) ∧ (t.port p).reauth = false ∧
        (t.port p).link = x.link) ∧
      LinkTo (.finished port ⟨mac, false⟩) p s .quarantine) ∧
    ((∀ content ok n, (x.authing = false ∨ x.authStep ≠ 1 ∨ x.heard 2 content = false) →
        exec (.certs port content ⟨ok, n⟩) s = .next s) ∧
      (∀ point ok, (x.authing = false ∨ x.authStep ≠ 2 ∨ x.heard 3 (toBytes 97 point.toNat) = false) →
        exec (.keyShare port ⟨point, ok⟩) s = .next s) ∧
      (∀ mac ok, (x.authing = false ∨ x.authStep ≠ 3 ∨ x.heard 4 (toBytes 96 mac.toNat) = false) →
        exec (.finished port ⟨mac, ok⟩) s = .next s)) ∧
    (x.link = .auth → LinkTo (.authStepTimeout port) p s .train) ∧
    (x.authing = true → x.link = .run → ∃ t, exec (.authStepTimeout port) s = .next t ∧ PortOnly p s t ∧
      (t.port p).link = .train ∧ (t.port p).session = x.session ∧ (t.port p).reauth = false) ∧
    (x.authing = false → x.link ≠ .auth → exec (.authStepTimeout port) s = .next s) ∧
    (∀ v : Word, s.blocksOpen = true → v.getLsbD 30 = true →
      (v.getLsbD 31 = true → x.link = .run → x.session.isSome = true → x.reauth = false → s.boot.identity = true →
        ∃ t, exec (.reauth port v) s = .next t ∧ { t with ports := s.ports, fresh := s.fresh } = s ∧
          (∀ q, q ≠ p → t.port q = s.port q) ∧ (t.port p).reauth = true ∧ (t.port p).authStep = 0 ∧
          (t.port p).class0 = x.class0 ++
            authFlits 1 (helloBytes ⟨1, (t.port p).nonce, s.boot.serial, BitVec.ofNat 3 p, s.selfCoord.setWidth 20⟩) ++
            (authFlits 2 (s.boot.deviceCert ++ s.boot.linkCert p) ++
              authFlits 3 (toBytes 97 (Config.publicKey (t.port p).secret).toNat)) ∧
          (t.port p).link = .run ∧ (t.port p).session = x.session) ∧
      (v.getLsbD 31 = true → exec (.reauth port v) s = exec (.portEnable port v) s) ∧
      (v.getLsbD 31 = false → exec (.reauth port v) s = exec (.portDisable port v) s))

/-- FLIT_SLOT_SEND (R355 to R357, R359, R362, R363): slot 0 of a frame carries its marker; every other slot sends a resend before
anything new, then class 0, then class 1, each new flit spending a credit and staying for a resend, and IDLE with nothing to
send; a block of 256 bytes goes out with its CRC-32C; a port that is down sends nothing. -/
def Sys2Proof.Claims.SlotsAreSent : Prop :=
  ∀ (s : State) (port : Fin 8), let p := port.val
    let x := s.port p
    (x.live = true → ∃ t f, exec (.flitSlotSend port) s = .next t ∧ (t.port p).sent = x.sent ++ [f] ∧ Framed f.image ∧
      (t.port p).txSlot = (x.txSlot + 1) % 1285 ∧ (∀ q, q ≠ p → t.port q = s.port q) ∧
      ((∀ h ∈ s.courier.held, h.port ≠ p) → x.txEpoch ≠ 0xFFFF → PortOnly p s t ∧
        (x.txSlot % 257 = 0 → f.flit = none ∧ f.image.take 6 = toBytes 4 x.txFrame.toNat ++ toBytes 2 x.txEpoch.toNat ∧
          (f.image.drop 8).take 16 = toBytes 16 x.txTag.toNat ∧ (t.port p).resend = x.resend ∧ (t.port p).class0 = x.class0 ∧
          (t.port p).class1 = x.class1) ∧
        (x.txSlot % 257 ≠ 0 → ∃ h, f.flit = some h ∧ f.image.take 12 = headerBytes h ∧ h.ack = x.rxSeq ∧ h.nak = x.nakOut ∧
          (t.port p).nakOut = false ∧
          (∀ r rs, x.resend = r :: rs → h.seq = r.1 ∧ h.payload = r.2.payload ∧ (t.port p).resend = rs ∧
            (t.port p).class0 = x.class0 ∧ (t.port p).class1 = x.class1 ∧ (t.port p).retry = x.retry) ∧
          (∀ g l, x.resend = [] → x.retry.length < 4096 → x.pick x.class0 = some (g, l) → 0 < x.credit0 →
            h.seq = x.txSeq ∧ h.type = g.type ∧ h.payload = g.payload ∧ (t.port p).class0 = l ∧ (t.port p).class1 = x.class1 ∧
              (t.port p).credit0 = x.credit0 - 1 ∧ (t.port p).txSeq = x.txSeq + 1 ∧
              (t.port p).retry = x.retry ++ [(x.txSeq, g)]) ∧
          (∀ g l, x.resend = [] → x.retry.length < 4096 → (x.pick x.class0 = none ∨ x.credit0 = 0) →
            x.pick x.class1 = some (g, l) → 0 < x.credit1 →
            h.seq = x.txSeq ∧ h.type = g.type ∧ h.payload = g.payload ∧ (t.port p).class1 = l ∧ (t.port p).class0 = x.class0 ∧
              (t.port p).credit1 = x.credit1 - 1 ∧ (t.port p).txSeq = x.txSeq + 1 ∧
              (t.port p).retry = x.retry ++ [(x.txSeq, g)]) ∧
          (x.resend = [] → (4096 ≤ x.retry.length ∨ (x.pick x.class0 = none ∨ x.credit0 = 0) ∧
              (x.pick x.class1 = none ∨ x.credit1 = 0)) →
            h.type = 0 ∧ h.seq = 0 ∧ h.payload = [] ∧ (t.port p).class0 = x.class0 ∧ (t.port p).class1 = x.class1)))) ∧
    (x.live = false → exec (.flitSlotSend port) s = .next s)

/-- MARKER_RECEIVE, IDLE_FLIT and LINK_CREDIT_STARVED (R357, R359, R364 to R366, R374, R378, R379, R381, R389): a frame that fails a
check is dropped whole and NAKed; a marker with a reserved field, or of the wrong number, ends in quarantine, as do a batch
whose tag does not verify and a malformed flit; a good frame delivers the flits that are next in sequence; the marker opens the
next frame. The credits and acknowledgements of an IDLE flit are applied, a NAK has everything unacknowledged sent again, and an
excess of NAKs takes the port to a hold-off. -/
def Sys2Proof.Claims.FramesAreTaken : Prop :=
  ∀ (s : State) (port : Fin 8), let p := port.val
    let x := s.port p
    (x.live = true → ∀ (m : RxSlot) (slots : List RxSlot) (c u : Nat),
      let y : Port := { x with corrected := x.corrected + BitVec.ofNat 64 c, uncorrectable := x.uncorrectable + BitVec.ofNat 64 u }
      let i := Instr.markerReceive port m ⟨slots, c, u⟩
      (m.good = false → x.session.isSome = true → x.naks + 1 ≤ nakLimit x → ∃ t, exec i s = .next t ∧ PortOnly p s t ∧
        (x.dropNext = true ∨ x.rxMark.isSome = true → (t.port p).nakOut = true ∧ (t.port p).naks = x.naks + 1) ∧
        (t.port p).dropNext = true ∧ (t.port p).rxMark = none ∧ (t.port p).rx = x.rx ∧ (t.port p).rxSeq = x.rxSeq ∧
        (t.port p).corrected = y.corrected ∧ (t.port p).uncorrectable = y.uncorrectable) ∧
      (m.good = true → (m.badMarker = true ∨ x.inOrder m = false) → LinkTo i p s .quarantine) ∧
      (m.good = true → m.badMarker = false → x.inOrder m = true →
        ((x.dropNext = true ∨ x.rxMark.isSome = true ∧ slots.all RxSlot.good = false) → x.naks + 1 ≤ nakLimit x →
          ∃ t, exec i s = .next t ∧ PortHost p s t ∧ (t.port p).nakOut = true ∧ (t.port p).naks = x.naks + 1 ∧
            (t.port p).dropNext = false ∧ (t.port p).rx = x.rx ∧ (t.port p).rxSeq = x.rxSeq ∧
            (t.port p).rxMark = some (m.bytes.take 8) ∧ (t.port p).rxFrame = m.frame + 1) ∧
        (x.dropNext = false → x.rxMark = none → x.naks ≤ nakLimit x → ∃ t, exec i s = .next t ∧ PortHost p s t ∧
          (t.port p).rx = x.rx ∧ (t.port p).rxMark = some (m.bytes.take 8) ∧ (t.port p).rxFrame = m.frame + 1) ∧
        (∀ mark, x.dropNext = false → x.rxMark = some mark → slots.all RxSlot.good = true →
          let frame := BitVec.ofNat 32 (ofBytes (mark.take 4))
          let tagOf (k : List Byte) := Config.gcmTag k frame (mark ++ slots.flatMap fun z => z.bytes.take 12)
            (slots.flatMap fun z => bytesAt z.bytes 12 240)
          (∀ k, x.frameKey m.tag = some k → tagOf k ≠ m.tag → LinkTo i p s .quarantine) ∧
          (∀ (key : Option (List Byte)) (b : Port) (ok : Bool), x.frameKey m.tag = key →
            (∀ k, key = some k → tagOf k = m.tag) → (key = none → x.session = none → m.tag = 0) →
            (match key with | some k => y.verified k s.tick | none => y).acceptAll (slots.mapIdx fun n (z : RxSlot) => z.flit key frame n) = (b, ok) →
            (ok = false → LinkTo i p s .quarantine) ∧
            (ok = true → b.naks ≤ nakLimit b → ∃ t, exec i s = .next t ∧ PortHost p s t ∧ (t.port p).rx = b.rx ∧
              (t.port p).rxSeq = b.rxSeq ∧ (t.port p).authIn = b.authIn ∧ (t.port p).link = b.link ∧
              (t.port p).rxMark = some (m.bytes.take 8) ∧ (t.port p).rxFrame = m.frame + 1))))) ∧
    (∀ f : Flit, (f.type ≠ 0 → f.type ≠ 5 → f.seq = x.rxSeq → (x.accept f).rx = x.rx ++ [f] ∧ (x.accept f).rxSeq = x.rxSeq + 1) ∧
      (f.type = 5 → f.seq = x.rxSeq → (x.accept f).authIn = x.authIn ++ [f.payload] ∧ (x.accept f).rxSeq = x.rxSeq + 1) ∧
      (f.type ≠ 0 → f.seq ≠ x.rxSeq → (x.accept f).rx = x.rx ∧ (x.accept f).rxSeq = x.rxSeq ∧ (x.accept f).authIn = x.authIn)) ∧
    (∀ m slots c u, x.live = false → exec (.markerReceive port m ⟨slots, c, u⟩) s = .next s) ∧
    (∀ (ack : BitVec 16) (nak : Bool) (c1 : BitVec 8) (c0 : BitVec 3),
      let here := x.rx.any (isIdle ack nak c1 c0)
      (x.live = true → here = true → (nak = false → x.naks ≤ nakLimit x) → (nak = true → x.naks + 1 ≤ nakLimit x) →
        ∃ t, exec (.idleFlit port ack nak c1 c0) s = .next t ∧ PortOnly p s t ∧
          (t.port p).rx = x.rx.eraseP (isIdle ack nak c1 c0) ∧ (t.port p).credit1 = x.credit1 + c1.toNat ∧
          (t.port p).credit0 = x.credit0 + c0.toNat ∧
          (t.port p).retry = x.retry.drop (if x.txOld = some ack then 0 else
            if (x.txSeq - ack).toNat ≤ x.retry.length then x.retry.length - (x.txSeq - ack).toNat else 0) ∧
          (nak = true → (t.port p).resend = (t.port p).retry ∧ (t.port p).retries = x.retries + 1 ∧
            (t.port p).naks = x.naks + 1)) ∧
      (x.live = true → here = true → nak = true → nakLimit x ≤ x.naks → LinkTo (.idleFlit port ack nak c1 c0) p s .holdoff) ∧
      ((x.live = false ∨ here = false) → exec (.idleFlit port ack nak c1 c0) s = .next s)) ∧
    (∀ ctx : Fin 8, let waits := x.carries = true ∧ x.class1 ≠ [] ∧ x.credit1 = 0 ∧ (s.job ctx.val).present = true ∧ ctx.val ∉ x.starved
      (waits → ∃ t, exec (.linkCreditStarved port ctx) s = .next t ∧ PortHost p s t ∧
        t.port p = { x with starved := addTo x.starved ctx.val }) ∧
      (¬ waits → exec (.linkCreditStarved port ctx) s = .next s))

/-- What a port sends in its slots, and what it makes of the frames that it receives. -/
def Obligations.FlitsFlow : Prop := Sys2Proof.Claims.SlotsAreSent ∧ Sys2Proof.Claims.FramesAreTaken

/-! ### Boot -/

/-- POWER_ON_RESET, STANDBY_POWER_LOSS, STARTUP_COMPLETE, STARTUP_WATCHDOG, GO and BOOT_DONE (R504, R551 to R558): power-on keeps
the flash and the settings, which it reads anew, and clears everything else; the newer of two good slots runs, then the other,
then the recovery image, and else the module stays in the ROM state; a slot whose firmware does not report is not chosen again
in this power cycle; boot is done with the rails good and the root PLL locked, and not before. -/
def Obligations.BootRuns : Prop :=
  (∀ (s : State) (straps : Straps) (a b r : Image), ∃ t, exec (.powerOnReset straps a b r) s = .next t ∧
    t.pending = s.pending ∧ t.tiles = [] ∧ t.jobs = [] ∧ t.mem = Memory.reset ∧ t.ports = [] ∧ t.tick = 0 ∧
    t.boot.straps = (if s.boot.strapsLatched then s.boot.straps else straps) ∧ t.boot.strapsLatched = true ∧
    t.boot.otp = s.boot.otp ∧ t.boot.otpBoot = s.boot.otp ∧ t.boot.serial = s.boot.serial ∧ t.boot.done = false ∧
    t.boot.slotA = a ∧ t.boot.slotB = b ∧ t.boot.recovery = r ∧ t.health.sectors = s.health.sectors ∧
    t.retired = s.retired ∧ t.power.requested = t.boot.clockLimit ∧ t.power.limit = 0x0960) ∧
  (∀ (s : State), ∃ t, exec .standbyPowerLoss s = .next t ∧ t.boot.standby = false ∧ t.boot.strapsLatched = false ∧
    t.boot.otp = s.boot.otp ∧ t.boot.slotA = s.boot.slotA ∧ t.boot.slotB = s.boot.slotB ∧
    t.health.sectors = s.health.sectors ∧ t.mem = Memory.reset ∧ t.jobs = [] ∧ t.tiles = []) ∧
  (∀ a b : Word, newerB a b = true ↔ 1 ≤ (b - a).toNat ∧ (b - a).toNat ≤ 2 ^ 31 - 1) ∧
  (∀ (x : Boot), let a := x.aValid && !x.aBad
    let b := x.bValid && !x.bBad
    (b = true → (a = false ∨ newerB x.slotA.sequence x.slotB.sequence = true) →
      x.select.running = .slotB ∧ x.select.phase = .firmware) ∧
    (a = true → (b = false ∨ newerB x.slotA.sequence x.slotB.sequence = false) →
      x.select.running = .slotA ∧ x.select.phase = .firmware) ∧
    (a = false → b = false → x.reason x.recovery false = 0 → x.select.running = .recovery ∧ x.select.phase = .firmware) ∧
    (a = false → b = false → x.reason x.recovery false ≠ 0 → x.select.phase = .romState)) ∧
  (∀ (s : State), s.boot.phase = .firmware →
    exec .startupComplete s = .next { s with boot := { s.boot with phase := .rails } } ∧
    ∃ t, exec .startupWatchdog s = .next t ∧ { t with boot := s.boot } = s ∧
      (t.boot.phase = .romState ∨ t.boot.phase = .hostWait ∨
        t.boot.phase = .firmware ∧ t.boot.running ≠ s.boot.running) ∧
      (s.boot.running = .slotA → t.boot.aBad = true ∧ t.boot.fallback = true) ∧
      (s.boot.running = .slotB → t.boot.bBad = true ∧ t.boot.fallback = true) ∧
      (s.boot.running = .recovery → t.boot.phase = .romState)) ∧
  (∀ (s : State), s.boot.phase ≠ .firmware → exec .startupComplete s = .next s ∧ exec .startupWatchdog s = .next s) ∧
  (∀ (s : State) (i : Image), s.boot.phase = .hostWait →
    ∃ t, exec (.go i) s = .next t ∧ { t with boot := s.boot } = s ∧
      (s.boot.reason i true = 0 → t.boot.running = .hostload ∧ t.boot.hostload = i ∧ t.boot.phase = .firmware) ∧
      (s.boot.reason i true ≠ 0 → t.boot.phase = .hostWait ∧ t.boot.running = s.boot.running)) ∧
  (∀ (s : State) (i : Image), s.boot.phase ≠ .hostWait → exec (.go i) s = .next s) ∧
  (∀ (s : State) (trained : Byte),
    (s.boot.phase = .rails → s.power.mainGood = true → s.power.rootLock = true →
      ∃ t, exec (.bootDone trained) s = .next t ∧ t.boot.done = true ∧ t.boot.phase = .done ∧ t.boot.bootEvents = [] ∧
        t.boot.staging = [] ∧ (∀ m, m < 8 → (t.stack m).trained = trained.getLsbD m) ∧ t.mem.data = s.mem.data ∧
        t.tiles = s.tiles ∧ t.jobs = s.jobs) ∧
    (s.boot.phase ≠ .rails ∨ s.power.mainGood = false ∨ s.power.rootLock = false → exec (.bootDone trained) s = .next s))

namespace Sys2Proof.Claims

/-- The main rails are off until the next power-on reset: jobs, tiles and memory are lost, and the boot's state stays. -/
def MainOff (s t : State) : Prop :=
  t.power.mainOff = true ∧ t.power.mainGood = false ∧ t.power.railsUp = [] ∧ t.jobs = [] ∧ t.tiles = [] ∧
    t.mem = Memory.reset ∧ t.ports = [] ∧ t.boot = s.boot ∧ t.pending = s.pending

/-- Every job that a context holds is killed: its scrub begins. -/
def AllKilled (s t : State) : Prop := ∀ c, c < 8 → (s.job c).present = true → (t.job c).phase = .scrubbing

/-- The slowest request is the one in force. -/
def SlowestWins (t : State) : Prop := t.power.requested.toNat = t.asked.foldl max 0

end Sys2Proof.Claims

/-! ### Rails, clocks and temperature -/

/-- VIN_GOOD, RAIL_UP, RAIL_FAULT, VIN_OUT_OF_RANGE, ROOT_PLL_LOCK, ROOT_PLL_UNLOCK, THERMTRIP and CRITICAL_KILL (R575, R579, R580, R583,
R587): a rail comes up in its turn; a fault, a trip, an input beyond its limits or a third failed relock turns the main rails
off until a power-on reset; a relock after a loss kills every job; a critical temperature that stays kills every job and
locks loads out. -/
def Obligations.RailsAndClocks : Prop :=
  ∀ (s : State), let p := s.power
    (exec .vinGood s = .next { s with power := { p with vinGood := true } }) ∧
    (∀ rail, (s.boot.phase = .rails → p.vinGood = true → p.mainOff = false → rail ∈ p.rising →
        ∃ t, exec (.railUp rail) s = .next t ∧ { t with power := s.power } = s ∧ t.power.railsUp = addTo p.railsUp rail ∧
          (t.power.mainGood = true ↔ (addTo p.railsUp rail).length = 10) ∧ (rail ≠ 4 → 4 ∈ p.railsUp)) ∧
      ((s.boot.phase ≠ .rails ∨ p.vinGood = false ∨ p.mainOff = true ∨ rail ∉ p.rising) → exec (.railUp rail) s = .next s) ∧
      (rail < 10 → p.mainOff = false → p.mainGood = true → ∃ t, exec (.railFault rail) s = .next t ∧ MainOff s t) ∧
      (rail < 10 → p.mainOff = false → p.mainGood = false → s.boot.phase = .rails → (rail ∈ p.rising ∨ rail ∈ p.railsUp) →
        exec (.railFault rail) s =
          .next { s with power := { p with railsUp := [], failedRail := some rail, mainOff := true } }) ∧
      ((10 ≤ rail ∨ p.mainOff = true ∨ p.mainGood = false ∧ (s.boot.phase ≠ .rails ∨ rail ∉ p.rising ∧ rail ∉ p.railsUp)) →
        exec (.railFault rail) s = .next s)) ∧
    (∀ mV : BitVec 16, (40000 ≤ mV.toNat → mV.toNat ≤ 60000 → exec (.vinOutOfRange mV) s = .next s) ∧
      ((mV.toNat < 38000 ∨ 62000 < mV.toNat) → p.mainGood = true →
        ∃ t, exec (.vinOutOfRange mV) s = .next t ∧ MainOff s t) ∧
      ((mV.toNat < 40000 ∨ 60000 < mV.toNat) → (38000 ≤ mV.toNat ∧ mV.toNat ≤ 62000 ∨ p.mainGood = false) →
        ∃ t, exec (.vinOutOfRange mV) s = .next t ∧ { t with host := s.host, health := s.health, power := s.power } = s ∧
          t.power = { p with voltage := mV, vinGood := false })) ∧
    (p.rootLock = false → exec .rootPllUnlock s = .next s) ∧
    ((p.rootLock = true ∨ p.mainGood = false) → ∀ ok, exec (.rootPllLock ok) s = .next s) ∧
    (p.rootLock = true → ∃ t, exec .rootPllUnlock s = .next t ∧ { t with power := s.power } = s ∧
      t.power.rootLock = false ∧ t.power.lossHandling = true ∧ t.power.unlocks.toNat = min 255 (p.unlocks.toNat + 1)) ∧
    (p.rootLock = false → p.mainGood = true →
      (p.lossHandling = false → exec (.rootPllLock true) s =
          .next { s with power := { p with rootLock := true, step := s.boot.clockLimit } } ∧
        exec (.rootPllLock false) s = .next s) ∧
      (p.lossHandling = true → (∃ t, exec (.rootPllLock true) s = .next t ∧ t.power.rootLock = true ∧
          t.power.lossHandling = false ∧ AllKilled s t ∧ t.mem = s.mem) ∧
        (p.relockTries < 2 → exec (.rootPllLock false) s =
          .next { s with power := { p with relockTries := p.relockTries + 1 } }) ∧
        (2 ≤ p.relockTries → ∃ t, exec (.rootPllLock false) s = .next t ∧ MainOff s t))) ∧
    (∀ sensor, (sensor < 72 → ∃ t, exec (.thermtrip sensor) s = .next t ∧ MainOff s t ∧ t.power.thermtripN = false ∧
        t.health.pendingRecs.length = s.health.pendingRecs.length + 1) ∧
      (72 ≤ sensor → exec (.thermtrip sensor) s = .next s)) ∧
    (p.critical ≠ [] → ∃ t, exec .criticalKill s = .next t ∧ AllKilled s t ∧ t.power.noLoads = true ∧ t.mem = s.mem) ∧
    (p.critical = [] → exec .criticalKill s = .next s)

/-- SENSOR_READ, POWER_WINDOW, PWR_ALERT_N_ASSERT, PWR_ALERT_N_DEASSERT, PWR_ALERT_HOLD_EXPIRY, VOLTAGE_ADJUST and THROTTLE_STEP_APPLY
(R576 to R578, R581, R582, R586): the thermal control asks at once for the step that the readings reach; two windows over the
limit ask for a slower step, ten under nine tenths of it for a faster one; PWR_ALERT_N asks for the slowest until its hold
expires; the slowest request is the one requested, and it takes effect only at a point where it may. -/
def Obligations.ThrottleFollows : Prop :=
  ∀ (s : State), let p := s.power
    (∀ l : List (Nat × BitVec 16), ∃ t, exec (.sensorRead l) s = .next t ∧ SlowestWins t ∧
      (l.foldl State.take s).power.level ≤ t.power.thermalReq.toNat ∧ t.power.criticalReq = !t.power.critical.isEmpty ∧
      t.power.temp = (l.foldl State.take s).power.temp ∧
      (∀ n ∈ t.power.critical, ∃ x, t.power.reading n = some x ∧ threshold n 4 ≤ x) ∧ t.mem.data = s.mem.data ∧
      t.tiles = s.tiles ∧ t.power.step = p.step) ∧
    (∀ n (v : BitVec 16), n < 80 → (s.take (n, v)).power.reading n = some v.toInt ∧
      ∀ m, m ≠ n → (s.take (n, v)).power.temp.get 0 m = p.temp.get 0 m) ∧
    (∀ watts : BitVec 16, ∃ t, exec (.powerWindow watts) s = .next t ∧ SlowestWins t ∧ t.power.powerAvg = watts ∧
      (p.limit.toNat < watts.toNat → 1 ≤ p.overRun → t.power.powerReq = p.slower) ∧
      (p.limit.toNat < watts.toNat → p.overRun = 0 → t.power.powerReq = p.powerReq) ∧
      (watts.toNat * 10 < p.limit.toNat * 9 → 9 ≤ p.underRun → p.powerReq ≠ 0 → t.power.powerReq = p.powerReq - 1) ∧
      (watts.toNat ≤ p.limit.toNat → (p.limit.toNat * 9 ≤ watts.toNat * 10 ∨ p.underRun < 9 ∨ p.powerReq = 0) →
        t.power.powerReq = p.powerReq) ∧
      t.mem = s.mem ∧ t.tiles = s.tiles ∧ t.jobs = s.jobs) ∧
    (p.alertIn = false → ∃ t, exec .pwrAlertNAssert s = .next t ∧ SlowestWins t ∧ t.power.alertIn = true ∧
      t.power.requested = 3 ∧ t.jobs = s.jobs ∧ t.mem = s.mem) ∧
    (p.alertIn = true → exec .pwrAlertNAssert s = .next s ∧ exec .pwrAlertHoldExpiry s = .next s) ∧
    (exec .pwrAlertNDeassert s = .next { s with power := { p with alertIn := false } }) ∧
    (p.alertIn = false → ∃ t, exec .pwrAlertHoldExpiry s = .next t ∧ SlowestWins t ∧ t.power.alertReq = false ∧
      { t with power := s.power, fresh := s.fresh } = s) ∧
    (∀ (die : Fin 4) (up : Bool), let v := p.vcore.get 260 die.val
      ∃ t, exec (.voltageAdjust die up) s = .next t ∧ { t with power := s.power } = s ∧
        { t.power with vcore := p.vcore } = p ∧
        t.power.vcore.get 260 die.val = (if up then min 288 (v + 1) else max 240 (v - 1)) ∧
        ∀ d, d ≠ die.val → t.power.vcore.get 260 d = p.vcore.get 260 d) ∧
    (p.step ≠ p.requested → p.rootLock = true → s.stepMay = true →
      ∃ t, exec .throttleStepApply s = .next t ∧ t.power.step = p.requested ∧ t.power.requested = p.requested ∧
        (∀ c, c < 8 → (s.job c).present = true → (t.job c).throttleFreeze = true ∧
          { t.job c with throttleFreeze := (s.job c).throttleFreeze } = s.job c) ∧
        t.tiles = s.tiles ∧ t.mem = s.mem) ∧
    (p.step = p.requested ∨ p.rootLock = false ∨ s.stepMay = false → exec .throttleStepApply s = .next s)

/-! ### The sideband and the test port -/

/-- MCTP_CONTROL, PLDM_BASE_DISCOVERY, PLDM_SENSOR_READ, POWER_LIMIT_EFFECTER, PLDM_FIRMWARE_UPDATE and ENTDAA (R455, R555 to R557, R564,
R571, R581): a sideband that answers answers each request once, the ROM state the first two alone; the limit takes 1,200 to
2,400 W; a settings package is programmed into the next generation, in force from the next power-on reset, or rejected; an
image goes to the slot that is not running, and only with the next sequence number. -/
def Obligations.SidebandAnswers : Prop :=
  ∀ (s : State),
    (∀ l : List Byte, s.sideband = true →
      exec (.mctpControl l) s = .next (s.answer mctpAnswer (Config.standardAnswer mctpAnswer l)) ∧
      exec (.pldmBaseDiscovery l) s = .next (s.answer pldmBase (Config.standardAnswer pldmBase l))) ∧
    (∀ k l, { s.answer k l with power := s.power } = s ∧
      (s.answer k l).power = { s.power with answers := s.power.answers ++ [(k, l)] }) ∧
    (∀ l : List Byte, s.sideband = false → exec (.mctpControl l) s = .next s ∧ exec (.pldmBaseDiscovery l) s = .next s) ∧
    (∀ n, (s.sidebandFull = true → (∀ v, s.sensor n = some v → exec (.pldmSensorRead n) s =
          .next (s.answer pldmSensor (Config.standardAnswer pldmSensor (toBytes 2 n ++ toBytes 2 v)))) ∧
        (s.sensor n = none → exec (.pldmSensorRead n) s =
          .next (s.answer pldmSensor (Config.standardAnswer pldmSensor (toBytes 2 n))))) ∧
      (s.sidebandFull = false → exec (.pldmSensorRead n) s = .next s)) ∧
    (∀ w : BitVec 16, (s.sidebandFull = true → 1200 ≤ w.toNat → w.toNat ≤ 2400 →
        exec (.powerLimitEffecter w) s = .next { s with power := { s.power with limit := w } }) ∧
      ((s.sidebandFull = false ∨ w.toNat < 1200 ∨ 2400 < w.toNat) → exec (.powerLimitEffecter w) s = .next s)) ∧
    (∀ a : BitVec 7, (s.sideband = true →
        exec (.entdaa a) s = .next { s with power := { s.power with i3cAddr := some a } }) ∧
      (s.sideband = false → exec (.entdaa a) s = .next s)) ∧
    (∀ i k w, (s.sideband = false → exec (.pldmFirmwareUpdate i k w) s = .next s) ∧
      (s.sidebandFull = false → exec (.pldmFirmwareUpdate i k w) s = exec (.pldmFirmwareUpdate i none w) s) ∧
      ∀ u, exec (.pldmFirmwareUpdate none k w) s = .next u →
        exec (.pldmFirmwareUpdate i k w) s = exec (.pldmFirmwareUpdate i none w) u) ∧
    (∀ (k : Package) (w : WriteProgress), s.sidebandFull = true →
      (s.boot.packageReason k = 0 → ∃ t, exec (.pldmFirmwareUpdate none (some k) w) s = .next t ∧
        { t with boot := s.boot } = s ∧ { t.boot with otp := s.boot.otp } = s.boot ∧
        (t.boot.otp.get Generation.blank (4 * k.block.val + s.boot.now.nextGen k.block.val)).committed = decide (3 ≤ w.val) ∧
        ∀ n, n ≠ 4 * k.block.val + s.boot.now.nextGen k.block.val → t.boot.otp.get Generation.blank n =
          s.boot.otp.get Generation.blank n) ∧
      (s.boot.packageReason k ≠ 0 →
        exec (.pldmFirmwareUpdate none (some k) w) s = .next (s.event 0x0906 kSecurity 0xF 0 5 (s.boot.packageReason k)))) ∧
    (∀ (i : Image) (w : WriteProgress), s.sideband = true →
      (s.boot.reason i true = 0 → s.boot.phase ≠ .romState → i.sequence = s.boot.image.sequence + 1 →
        ∃ t, exec (.pldmFirmwareUpdate (some i) none w) s = .next t ∧ { t with boot := s.boot } = s ∧
          (s.boot.running = .slotA → t.boot.slotA = s.boot.slotA ∧ t.boot.slotB = if w.val = 4 then i else blankImage) ∧
          (s.boot.running ≠ .slotA → t.boot.slotB = s.boot.slotB ∧ t.boot.slotA = if w.val = 4 then i else blankImage)) ∧
      (s.boot.reason i true = 0 → s.boot.phase = .romState → exec (.pldmFirmwareUpdate (some i) none w) s =
        .next { s with boot := { s.boot with slotA := if w.val = 4 then i else blankImage } }) ∧
      ((s.boot.reason i true ≠ 0 ∨ s.boot.phase ≠ .romState ∧ i.sequence ≠ s.boot.image.sequence + 1) →
        ∃ t, exec (.pldmFirmwareUpdate (some i) none w) s = .next t ∧ { t with host := s.host, fresh := s.fresh } = s))

/-- The attestation commands and the test port (R545 to R547, R566, R590): every SPDM request is answered once by a module
whose firmware answers; a challenge, and a signed measurement, are answered with an ERROR, unsigned, while the identity is
not usable; the test port gives the stepping's code, samples the pins, and selects BYPASS for EXTEST beside a job and for
the debug instruction while debug is closed. With debug open, what that instruction does the manual does not say. -/
def Obligations.AttestationAndTestPort : Prop :=
  ∀ (s : State),
    let sign (l : List Byte) := toBytes 96 (Config.signature s.boot.aliasSeed l).toNat
    (s.sidebandFull = true → ∀ (i : Instr) (k : Nat) (l : List Byte),
      (i, k, l) ∈ [(Instr.getVersion, spdmVersion, []), (Instr.getCapabilities, spdmCapabilities, []),
        (Instr.negotiateAlgorithms, spdmAlgorithms, []),
        (Instr.getDigests, spdmDigests, toBytes 48 (Config.sha384 s.boot.chain).toNat)] →
      exec i s = .next (s.answer k (Config.standardAnswer k l))) ∧
    (s.sidebandFull = true → ∀ off n, exec (.getCertificate off n) s =
      .next (s.answer spdmCertificate (Config.standardAnswer spdmCertificate (bytesAt s.boot.chain off n)))) ∧
    (s.sidebandFull = true → ∀ nonce, exec (.challenge nonce) s = .next (if s.boot.identity then
      s.answer spdmChallengeAuth (Config.standardAnswer spdmChallengeAuth (sign (toBytes 32 nonce.toNat)))
      else s.answer spdmError [0x05])) ∧
    (s.sidebandFull = true → ∀ (i : Byte) (signed : Bool),
      (signed = true → s.boot.identity = false → exec (.getMeasurements i signed) s = .next (s.answer spdmError [0x05])) ∧
      ((signed = true → s.boot.identity = true) →
        (∀ l, s.boot.measurement i.toNat = some l → exec (.getMeasurements i signed) s =
          .next (s.answer spdmMeasurements
            (Config.standardAnswer spdmMeasurements (l ++ if signed then sign l else [])))) ∧
        (s.boot.measurement i.toNat = none → exec (.getMeasurements i signed) s =
          .next (s.answer spdmError (Config.standardAnswer spdmError [i])))) ∧
      (s.boot.measurement i.toNat = none ↔ i.toNat = 0 ∨ 6 < i.toNat)) ∧
    (s.sidebandFull = false → ∀ i ∈ [Instr.getVersion, .getCapabilities, .negotiateAlgorithms, .getDigests],
      exec i s = .next s) ∧
    (s.sidebandFull = false → ∀ off n nonce i signed, exec (.getCertificate off n) s = .next s ∧
      exec (.challenge nonce) s = .next s ∧ exec (.getMeasurements i signed) s = .next s) ∧
    (exec .bypass s = .next { s with power := { s.power with jtag := 0 } }) ∧
    (exec .idcode s = .next { s with power := { s.power with
      jtag := 1, idcodeOut := if s.stepping = .a1 then 0x10410B47 else 0x20410B47 } }) ∧
    (∀ pins, exec (.samplePreload pins) s = .next { s with power := { s.power with jtag := 2, boundary := pins } }) ∧
    (s.anyJob = false → s.host.perst = true → exec .extest s = .next { s with power := { s.power with jtag := 3 } }) ∧
    ((s.anyJob = true ∨ s.host.perst = false) → exec .extest s = .next { s with power := { s.power with jtag := 0 } }) ∧
    (∀ op, (s.boot.debugOpen = false → exec (.managementDebug op) s = .next { s with power := { s.power with jtag := 0 } }) ∧
      (s.boot.debugOpen = true → exec (.managementDebug op) s = .refused .debugUnit))

namespace Sys2Proof.Claims

/-- Every byte store of the module is in its canonical form: local memory, the scratchpad and the instruction store of every
tile, and the staging window. -/
def StoresCanonical (s : State) : Prop :=
  Memory.wf s.mem.data = true ∧ (∀ u, Memory.wf (s.tile u).pad = true ∧ Memory.wf (s.tile u).store = true) ∧
    Memory.wf s.boot.staging = true

end Sys2Proof.Claims

/-! ### The machine -/

/-- A step takes the command at the front of the queue and runs it with the queue's rest. That an empty queue lets a tick of
0.625 ns pass instead is the model's choice (log entry 3): it changes neither memory, nor the ports, nor the queue. -/
def Obligations.StepsTakeTheFront : Prop :=
  (∀ (i : Instr) (s : State) (rest : List Instr), step { s with pending := i :: rest } = exec i { s with pending := rest }) ∧
    ∀ (s : State), s.pending = [] →
      ∃ t, step s = .next t ∧ t.tick = s.tick + 1 ∧ t.pending = [] ∧ t.mem = s.mem ∧ t.ports = s.ports ∧ t.boot = s.boot ∧
        t.power = s.power ∧ t.host = s.host ∧ t.health = s.health ∧ t.courier = s.courier ∧ t.descs = s.descs ∧ (∀ u, PadSame u s t) ∧
        ∀ c, (t.job c).phase = (s.job c).phase ∧ (t.job c).superstep = (s.job c).superstep

/-- R22, R192, R198, in the model's ticks of 0.625 ns (log entry 3): the core clock passes 8, 7, 6 or 4 edges in any eight of
them, by its step, and none while the root PLL has no lock; a frozen cycle of a Caravan is counted down and moves neither
its clock nor its measured time, and any other moves both by one. -/
def Obligations.TimePasses : Prop :=
  (∀ (p : Power) (n : Nat), ((List.range 8).countP fun i => p.coreEdge (n + i)) =
    if p.rootLock then (if p.step = 0 then 8 else if p.step = 1 then 7 else if p.step = 2 then 6 else 4) else 0) ∧
  (∀ (s : State) (c : Nat), s.pending = [] → c < 8 → s.power.coreEdge s.tick = true → (s.job c).phase = .caravan →
    ∃ t, step s = .next t ∧
      (0 < (s.job c).frozen → (t.job c).frozen = (s.job c).frozen - 1 ∧ (t.job c).clock = (s.job c).clock ∧
        (t.job c).measured = (s.job c).measured) ∧
      ((s.job c).frozen = 0 → (t.job c).frozen = 0 ∧ (t.job c).clock = (s.job c).clock + 1 ∧
        (t.job c).measured = (s.job c).measured + 1)) ∧
  (∀ (s : State) (c : Nat), s.pending = [] → s.power.coreEdge s.tick = false → ∃ t, step s = .next t ∧ t.tiles = s.tiles ∧
    (t.job c).clock = (s.job c).clock ∧ (t.job c).measured = (s.job c).measured)

/-- No command stops the machine but these: a read, a write or a scrub of a line of a stack that did not train, and the debug
instruction of the test port while debug is open (R210, R590). -/
def Sys2Proof.Claims.OnlyTheseStop : Prop :=
  ∀ (i : Instr) (s : State),
    (∃ t, exec i s = .next t) ∨
      (∃ pa, (s.served pa).isSome = true ∧ ((∃ u, i = .memoryRead (BitVec.ofNat 40 pa) u) ∨
        (∃ l b, i = .memoryWrite (BitVec.ofNat 40 pa) l b) ∨ ∃ u, i = .patrolScrub (BitVec.ofNat 40 pa) u)) ∨
      (s.boot.debugOpen = true ∧ ∃ op, i = .managementDebug op)

/-- A command changes everything but the queue: what waits behind it stands as it did. -/
def Sys2Proof.Claims.QueueStands : Prop := ∀ (i : Instr) (s t : State), exec i s = .next t → t.pending = s.pending

/-- Where a command stops the model, and that no command touches the queue. -/
def Obligations.StopsAndQueue : Prop :=
  Sys2Proof.Claims.OnlyTheseStop ∧ Sys2Proof.Claims.QueueStands

/-- The module after reset, before it boots: it holds no job, no work and no session, and every byte store is in its canonical
form; its registers read as their Reset columns say, the identity registers aside (R598, R601). -/
def Obligations.ResetIsIdle : Prop :=
  StoresCanonical State.reset ∧
    (∀ c, (State.reset.job c).phase = .empty ∧ (State.reset.porter c).recoveryStep = 0xFFFFFFFF) ∧
    (∀ n, (State.reset.ring n).enabled = false ∧ (State.reset.ring n).entries = []) ∧
    (∀ p, (State.reset.port p).link = .off ∧ (State.reset.port p).session = none ∧
      (State.reset.port p).retryCfgNext = 0x01000A0A) ∧
    (∀ m, (State.reset.stack m).trained = false ∧ (State.reset.stack m).ce = 0 ∧ (State.reset.stack m).ue = 0) ∧
    (∀ o, (State.reset.ostler o).queue = [] ∧ (State.reset.groups.get 0x80000001 o) = 0x80000001) ∧
    State.reset.updCtrl = 0x80000000 ∧ State.reset.mem.scrubPeriod = 1 ∧ State.reset.mem.inject = 0 ∧
    State.reset.power.limit = 0x0960 ∧ State.reset.selfCoord = 0 ∧ State.reset.host.eventsLost = 0 ∧
    State.reset.pending = [] ∧ State.reset.boot.done = false

/-- R118 to R120, R124: the words of every tile instruction decode to that instruction, whatever its fields, and a word that
decodes is the word of what it decodes to, the second word of a 64-bit form with it: no bit of an encoding is dropped, and
no word of another opcode decodes. -/
def Obligations.TileWordsRoundTrip : Prop :=
  (∀ (i : Instr) (w w1 : Word), tileWord i = some w → (∀ x, tileSecond i = some x → x = w1) →
    ∃ site, decodeTile site w w1 = some i) ∧
  ∀ (site : Site) (w w1 : Word) (i : Instr), decodeTile site w w1 = some i →
    tileWord i = some w ∧ (tileSecond i = none ∨ tileSecond i = some w1)

/-- Every step keeps the byte stores in their canonical form, whatever the command, so that equal memories are equal data. -/
def Obligations.CanonicalStoresStay : Prop :=
  ∀ (s t : State), StoresCanonical s → step s = .next t → StoresCanonical t
end

