-- ==== Sys2Proof/Laws/Table.lean ====
section
/-! SUPPORT. Tables and byte memory: reads after writes, and that every memory operation keeps the canonical form. -/

namespace Sys2Proof.Machine

variable {α β : Type}

/-! ### Tables -/

@[simp] theorem Tbl.get_nil (d : α) (k : Nat) : Tbl.get d [] k = d := rfl

theorem Tbl.get_cons (d : α) (j : Nat) (v : α) (t : Tbl α) (k : Nat) :
    Tbl.get d ((j, v) :: t) k = if j = k then v else Tbl.get d t k := rfl

@[simp] theorem Tbl.get_set_same (d : α) (t : Tbl α) (k : Nat) (v : α) : Tbl.get d (t.set k v) k = v := by
  induction t with
  | nil => simp [Tbl.set, Tbl.get]
  | cons e t ih =>
    obtain ⟨j, w⟩ := e
    unfold Tbl.set
    split
    · simp [Tbl.get]
    · split
      · simp [Tbl.get]
      · rename_i h2
        rw [Tbl.get_cons, if_neg (fun h => h2 h.symm)]
        exact ih

theorem Tbl.get_set_other (d : α) (t : Tbl α) {k j : Nat} (v : α) (h : j ≠ k) : Tbl.get d (t.set k v) j = Tbl.get d t j := by
  induction t with
  | nil => simp [Tbl.set, Tbl.get, Ne.symm h]
  | cons e t ih =>
    obtain ⟨i, w⟩ := e
    unfold Tbl.set
    split
    · rw [Tbl.get_cons, if_neg (Ne.symm h)]
    · split
      · rename_i h2
        subst h2
        rw [Tbl.get_cons, Tbl.get_cons, if_neg (Ne.symm h), if_neg (Ne.symm h)]
      · rw [Tbl.get_cons, Tbl.get_cons, ih]

theorem Tbl.get_set (d : α) (t : Tbl α) (k j : Nat) (v : α) :
    Tbl.get d (t.set k v) j = if j = k then v else Tbl.get d t j := by
  by_cases h : j = k
  · subst h; simp
  · simp [h, Tbl.get_set_other d t v h]

@[simp] theorem Tbl.get_modify_same (d : α) (t : Tbl α) (k : Nat) (f : α → α) :
    Tbl.get d (t.modify d k f) k = f (Tbl.get d t k) := by simp [Tbl.modify]

theorem Tbl.get_modify_other (d : α) (t : Tbl α) {k j : Nat} (f : α → α) (h : j ≠ k) :
    Tbl.get d (t.modify d k f) j = Tbl.get d t j := by simp [Tbl.modify, Tbl.get_set_other d t _ h]

theorem Tbl.get_mapAll (d : α) (f : α → α) (hd : f d = d) (t : Tbl α) (k : Nat) :
    Tbl.get d (t.mapAll f) k = f (Tbl.get d t k) := by
  induction t with
  | nil => simp [Tbl.mapAll, hd]
  | cons e t ih =>
    obtain ⟨j, v⟩ := e
    have : Tbl.mapAll f ((j, v) :: t) = (j, f v) :: Tbl.mapAll f t := rfl
    rw [this, Tbl.get_cons, Tbl.get_cons, ih]
    split <;> rfl

@[simp] theorem Tbl.find_set_same (t : Tbl α) (k : Nat) (v : α) : Tbl.find (t.set k v) k = some v := by
  induction t with
  | nil => simp [Tbl.set, Tbl.find]
  | cons e t ih =>
    obtain ⟨j, w⟩ := e
    unfold Tbl.set
    split
    · simp [Tbl.find]
    · split
      · simp [Tbl.find]
      · rename_i h2
        simp only [Tbl.find, if_neg (fun h => h2 (Eq.symm h))]
        exact ih

theorem Tbl.find_set_other (t : Tbl α) {k j : Nat} (v : α) (h : j ≠ k) : Tbl.find (t.set k v) j = Tbl.find t j := by
  induction t with
  | nil => simp [Tbl.set, Tbl.find, Ne.symm h]
  | cons e t ih =>
    obtain ⟨i, w⟩ := e
    unfold Tbl.set
    split
    · simp [Tbl.find, Ne.symm h]
    · split
      · rename_i h2
        subst h2
        simp [Tbl.find, Ne.symm h]
      · simp only [Tbl.find, ih]

/-! ### The canonical form of byte memory -/

theorem Mem.wfFrom_mono {lo lo' : Nat} (h : lo' ≤ lo) (m : Mem) (hm : Mem.wfFrom lo m = true) : Mem.wfFrom lo' m = true := by
  cases m with
  | nil => rfl
  | cons e t =>
    obtain ⟨a, b⟩ := e
    simp only [Mem.wfFrom, Bool.and_eq_true, decide_eq_true_eq] at hm ⊢
    exact ⟨⟨Nat.le_trans h hm.1.1, hm.1.2⟩, hm.2⟩

theorem Mem.wfFrom_cons (lo a : Nat) (b : Byte) (t : Mem) :
    Mem.wfFrom lo ((a, b) :: t) = true ↔ lo ≤ a ∧ b ≠ Mem.blank ∧ Mem.wfFrom (a + 1) t = true := by
  simp [Mem.wfFrom, and_assoc]

theorem Mem.wfFrom_set (lo : Nat) (m : Mem) (a : Nat) (b : Byte) (hm : Mem.wfFrom lo m = true) (ha : lo ≤ a)
    (hb : b ≠ Mem.blank) : Mem.wfFrom lo (Tbl.set m a b) = true := by
  induction m generalizing lo with
  | nil => simp [Tbl.set, Mem.wfFrom, ha, hb]
  | cons e t ih =>
    obtain ⟨j, w⟩ := e
    rw [Mem.wfFrom_cons] at hm
    unfold Tbl.set
    split
    · rename_i h
      rw [Mem.wfFrom_cons, Mem.wfFrom_cons]
      exact ⟨ha, hb, h, hm.2.1, hm.2.2⟩
    · split
      · rename_i h
        rw [Mem.wfFrom_cons]
        subst h
        exact ⟨ha, hb, hm.2.2⟩
      · rw [Mem.wfFrom_cons]
        exact ⟨hm.1, hm.2.1, ih (j + 1) hm.2.2 (by omega)⟩

theorem Mem.wfFrom_drop (lo : Nat) (m : Mem) (a : Nat) (hm : Mem.wfFrom lo m = true) : Mem.wfFrom lo (Tbl.drop m a) = true := by
  induction m generalizing lo with
  | nil => rfl
  | cons e t ih =>
    obtain ⟨j, w⟩ := e
    rw [Mem.wfFrom_cons] at hm
    unfold Tbl.drop
    split
    · exact Mem.wfFrom_mono (by omega) _ hm.2.2
    · rw [Mem.wfFrom_cons]
      exact ⟨hm.1, hm.2.1, ih (j + 1) hm.2.2⟩

theorem Mem.wfFrom_filter (lo : Nat) (m : Mem) (p : Host.Cell → Bool) (hm : Mem.wfFrom lo m = true) :
    Mem.wfFrom lo (m.filter p) = true := by
  induction m generalizing lo with
  | nil => rfl
  | cons e t ih =>
    obtain ⟨j, w⟩ := e
    rw [Mem.wfFrom_cons] at hm
    rw [List.filter_cons]
    split
    · rw [Mem.wfFrom_cons]
      exact ⟨hm.1, hm.2.1, ih (j + 1) hm.2.2⟩
    · exact Mem.wfFrom_mono (by omega) _ (ih (j + 1) hm.2.2)

@[simp] theorem Memory.wf_nil : Memory.wf [] = true := rfl

/-- A byte write keeps the canonical form. -/
theorem Memory.wf_put (m : Mem) (a : Nat) (b : Byte) (hm : Memory.wf m = true) : Memory.wf (m.put a b) = true := by
  unfold Mem.put
  split
  · exact Mem.wfFrom_drop 0 m a hm
  · rename_i h
    exact Mem.wfFrom_set 0 m a b hm (Nat.zero_le _) h

/-- A write of any length keeps the canonical form. -/
theorem Memory.wf_write (m : Mem) (a : Nat) (l : List Byte) (hm : Memory.wf m = true) : Memory.wf (m.write a l) = true := by
  induction l generalizing m a with
  | nil => exact hm
  | cons b bs ih => exact ih _ _ (Memory.wf_put m a b hm)

/-- Leaving bytes out keeps the canonical form. -/
theorem Memory.wf_filter (m : Mem) (p : Host.Cell → Bool) (hm : Memory.wf m = true) : Memory.wf (m.filter p) = true :=
  Mem.wfFrom_filter 0 m p hm

/-- Clearing a range keeps the canonical form. -/
theorem Memory.wf_clear (m : Mem) (lo n : Nat) (hm : Memory.wf m = true) : Memory.wf (m.clear lo n) = true :=
  Memory.wf_filter m _ hm

/-! ### Reads after writes -/

theorem Mem.get_below (lo : Nat) (m : Mem) (a : Nat) (hm : Mem.wfFrom lo m = true) (ha : a < lo) : m.get a = Mem.blank := by
  induction m generalizing lo with
  | nil => rfl
  | cons e t ih =>
    obtain ⟨j, w⟩ := e
    rw [Mem.wfFrom_cons] at hm
    unfold Mem.get
    rw [Tbl.get_cons, if_neg (by omega)]
    exact ih (j + 1) hm.2.2 (by omega)

theorem Mem.get_drop_other (m : Mem) {a c : Nat} (h : c ≠ a) : Mem.get (Tbl.drop m a) c = m.get c := by
  induction m with
  | nil => rfl
  | cons e t ih =>
    obtain ⟨j, w⟩ := e
    unfold Tbl.drop
    split
    · rename_i hj
      unfold Mem.get
      rw [Tbl.get_cons, if_neg (by omega)]
    · unfold Mem.get at ih ⊢
      rw [Tbl.get_cons, Tbl.get_cons, ih]

theorem Mem.get_drop_same (lo : Nat) (m : Mem) (a : Nat) (hm : Mem.wfFrom lo m = true) : Mem.get (Tbl.drop m a) a = Mem.blank := by
  induction m generalizing lo with
  | nil => rfl
  | cons e t ih =>
    obtain ⟨j, w⟩ := e
    rw [Mem.wfFrom_cons] at hm
    unfold Tbl.drop
    split
    · rename_i hj
      exact Mem.get_below (j + 1) t a hm.2.2 (by omega)
    · rename_i hj
      unfold Mem.get at ih ⊢
      rw [Tbl.get_cons, if_neg hj]
      exact ih (j + 1) hm.2.2

/-- A byte reads as it was written. -/
theorem Mem.get_put_same (m : Mem) (a : Nat) (b : Byte) (hm : Memory.wf m = true) : (m.put a b).get a = b := by
  unfold Mem.put
  split
  · rename_i h
    rw [Mem.get_drop_same 0 m a hm, h]
  · simp [Mem.get]

/-- A write leaves every other byte alone. -/
theorem Mem.get_put_other (m : Mem) {a c : Nat} (b : Byte) (h : c ≠ a) : (m.put a b).get c = m.get c := by
  unfold Mem.put
  split
  · exact Mem.get_drop_other m h
  · exact Tbl.get_set_other _ m b h

/-- A write of a byte string leaves the bytes outside it alone. -/
theorem Mem.get_write_outside (m : Mem) (a : Nat) (l : List Byte) (c : Nat) (h : c < a ∨ a + l.length ≤ c) :
    (m.write a l).get c = m.get c := by
  induction l generalizing m a with
  | nil => rfl
  | cons b bs ih =>
    simp only [List.length_cons] at h
    unfold Mem.write
    rw [ih (m.put a b) (a + 1) (by omega), Mem.get_put_other m b (by omega)]

/-- The bytes of a write read as they were written. -/
theorem Mem.get_write_inside (m : Mem) (a : Nat) (l : List Byte) (i : Nat) (hm : Memory.wf m = true) (hi : i < l.length) :
    (m.write a l).get (a + i) = l[i] := by
  induction l generalizing m a i with
  | nil => exact absurd hi (by simp)
  | cons b bs ih =>
    unfold Mem.write
    cases i with
    | zero =>
      rw [Mem.get_write_outside _ _ _ _ (by omega)]
      exact Mem.get_put_same m a b hm
    | succ k =>
      have := ih (m.put a b) (a + 1) k (Memory.wf_put m a b hm) (by simpa using hi)
      rw [Nat.add_assoc, Nat.add_comm 1 k] at this
      simpa using this

@[simp] theorem Mem.read_length (m : Mem) (a n : Nat) : (m.read a n).length = n := by
  induction n generalizing a with
  | zero => rfl
  | succ n ih => simp [Mem.read, ih]

theorem Mem.read_congr (m m' : Mem) (a n : Nat) (h : ∀ c, a ≤ c → c < a + n → m.get c = m'.get c) : m.read a n = m'.read a n := by
  induction n generalizing a with
  | zero => rfl
  | succ n ih =>
    unfold Mem.read
    rw [h a (by omega) (by omega), ih (a + 1) (fun c h1 h2 => h c (by omega) (by omega))]

/-- A read of what was just written gives it back. -/
theorem Mem.read_write (m : Mem) (a : Nat) (l : List Byte) (hm : Memory.wf m = true) : (m.write a l).read a l.length = l := by
  induction l generalizing m a with
  | nil => rfl
  | cons b bs ih =>
    have h1 : (Mem.write m a (b :: bs)).get a = b := by
      have := Mem.get_write_inside m a (b :: bs) 0 hm (by simp)
      simpa using this
    have h2 : (Mem.write m a (b :: bs)).read (a + 1) bs.length = bs := by
      show ((m.put a b).write (a + 1) bs).read (a + 1) bs.length = bs
      exact ih _ _ (Memory.wf_put m a b hm)
    show (Mem.write m a (b :: bs)).get a :: (Mem.write m a (b :: bs)).read (a + 1) bs.length = b :: bs
    rw [h1, h2]

/-- A range that was cleared reads as blank, and the rest as before. -/
theorem Mem.get_clear (m : Mem) (lo n c : Nat) (hm : Memory.wf m = true) :
    (m.clear lo n).get c = if lo ≤ c ∧ c < lo + n then Mem.blank else m.get c := by
  unfold Memory.wf at hm
  generalize 0 = z at hm
  induction m generalizing z with
  | nil => simp [Mem.clear, Mem.get]
  | cons e t ih =>
    obtain ⟨j, w⟩ := e
    rw [Mem.wfFrom_cons] at hm
    have hi := ih (j + 1) hm.2.2
    unfold Mem.clear Mem.get at hi ⊢
    rw [List.filter_cons]
    split
    · rename_i hk
      rw [Tbl.get_cons, Tbl.get_cons, hi]
      by_cases hj : j = c
      · subst hj
        simp only [Bool.or_eq_true, decide_eq_true_eq] at hk
        simp only [if_true]
        rw [if_neg (by omega)]
      · simp [hj]
    · rename_i hk
      simp only [Bool.or_eq_true, decide_eq_true_eq] at hk
      rw [hi, Tbl.get_cons]
      by_cases hj : j = c
      · subst hj
        rw [if_pos (by omega), if_pos (by omega)]
      · simp [hj]

end Sys2Proof.Machine
end

