-- ==== Sys2Proof/Laws/State.lean ====
section
/-! SUPPORT. What each update of the state leaves and what it sets: one lemma per field per update, and the read of each
table after its write. -/

namespace Sys2Proof.Machine

/-! ### setTile -/

@[simp] theorem State.setTile_pending (s : State) (t : Nat) (x : Tile) : (s.setTile t x).pending = s.pending := rfl
@[simp] theorem State.setTile_tick (s : State) (t : Nat) (x : Tile) : (s.setTile t x).tick = s.tick := rfl
@[simp] theorem State.setTile_fresh (s : State) (t : Nat) (x : Tile) : (s.setTile t x).fresh = s.fresh := rfl
@[simp] theorem State.setTile_stepping (s : State) (t : Nat) (x : Tile) : (s.setTile t x).stepping = s.stepping := rfl
@[simp] theorem State.setTile_retired (s : State) (t : Nat) (x : Tile) : (s.setTile t x).retired = s.retired := rfl
@[simp] theorem State.setTile_applied (s : State) (t : Nat) (x : Tile) : (s.setTile t x).applied = s.applied := rfl
@[simp] theorem State.setTile_jobs (s : State) (t : Nat) (x : Tile) : (s.setTile t x).jobs = s.jobs := rfl
@[simp] theorem State.setTile_mem (s : State) (t : Nat) (x : Tile) : (s.setTile t x).mem = s.mem := rfl
@[simp] theorem State.setTile_ostlers (s : State) (t : Nat) (x : Tile) : (s.setTile t x).ostlers = s.ostlers := rfl
@[simp] theorem State.setTile_groups (s : State) (t : Nat) (x : Tile) : (s.setTile t x).groups = s.groups := rfl
@[simp] theorem State.setTile_descs (s : State) (t : Nat) (x : Tile) : (s.setTile t x).descs = s.descs := rfl
@[simp] theorem State.setTile_nextDesc (s : State) (t : Nat) (x : Tile) : (s.setTile t x).nextDesc = s.nextDesc := rfl
@[simp] theorem State.setTile_engineDescs (s : State) (t : Nat) (x : Tile) : (s.setTile t x).engineDescs = s.engineDescs := rfl
@[simp] theorem State.setTile_engineCmds (s : State) (t : Nat) (x : Tile) : (s.setTile t x).engineCmds = s.engineCmds := rfl
@[simp] theorem State.setTile_courier (s : State) (t : Nat) (x : Tile) : (s.setTile t x).courier = s.courier := rfl
@[simp] theorem State.setTile_engines (s : State) (t : Nat) (x : Tile) : (s.setTile t x).engines = s.engines := rfl
@[simp] theorem State.setTile_updCtrl (s : State) (t : Nat) (x : Tile) : (s.setTile t x).updCtrl = s.updCtrl := rfl
@[simp] theorem State.setTile_frozenSkips (s : State) (t : Nat) (x : Tile) : (s.setTile t x).frozenSkips = s.frozenSkips := rfl
@[simp] theorem State.setTile_fallbacks (s : State) (t : Nat) (x : Tile) : (s.setTile t x).fallbacks = s.fallbacks := rfl
@[simp] theorem State.setTile_porters (s : State) (t : Nat) (x : Tile) : (s.setTile t x).porters = s.porters := rfl
@[simp] theorem State.setTile_health (s : State) (t : Nat) (x : Tile) : (s.setTile t x).health = s.health := rfl
@[simp] theorem State.setTile_host (s : State) (t : Nat) (x : Tile) : (s.setTile t x).host = s.host := rfl
@[simp] theorem State.setTile_ports (s : State) (t : Nat) (x : Tile) : (s.setTile t x).ports = s.ports := rfl
@[simp] theorem State.setTile_selfCoord (s : State) (t : Nat) (x : Tile) : (s.setTile t x).selfCoord = s.selfCoord := rfl
@[simp] theorem State.setTile_pendingTokens (s : State) (t : Nat) (x : Tile) : (s.setTile t x).pendingTokens = s.pendingTokens := rfl
@[simp] theorem State.setTile_boot (s : State) (t : Nat) (x : Tile) : (s.setTile t x).boot = s.boot := rfl
@[simp] theorem State.setTile_power (s : State) (t : Nat) (x : Tile) : (s.setTile t x).power = s.power := rfl
@[simp] theorem State.setTile_job (s : State) (t : Nat) (x : Tile) (k : Nat) : (s.setTile t x).job k = s.job k := rfl
@[simp] theorem State.setTile_port (s : State) (t : Nat) (x : Tile) (k : Nat) : (s.setTile t x).port k = s.port k := rfl
@[simp] theorem State.setTile_porter (s : State) (t : Nat) (x : Tile) (k : Nat) : (s.setTile t x).porter k = s.porter k := rfl
@[simp] theorem State.setTile_ostler (s : State) (t : Nat) (x : Tile) (k : Nat) : (s.setTile t x).ostler k = s.ostler k := rfl
@[simp] theorem State.setTile_engine (s : State) (t : Nat) (x : Tile) (k : Nat) : (s.setTile t x).engine k = s.engine k := rfl
@[simp] theorem State.setTile_ring (s : State) (t : Nat) (x : Tile) (k : Nat) : (s.setTile t x).ring k = s.ring k := rfl
@[simp] theorem State.setTile_stack (s : State) (t : Nat) (x : Tile) (k : Nat) : (s.setTile t x).stack k = s.stack k := rfl
@[simp] theorem State.tile_setTile_same (s : State) (t : Nat) (x : Tile) : (s.setTile t x).tile t = x := Tbl.get_set_same _ _ _ _
theorem State.tile_setTile_other (s : State) {t k : Nat} (x : Tile) (h : k ≠ t) : (s.setTile t x).tile k = s.tile k :=
  Tbl.get_set_other _ _ _ h
theorem State.tile_setTile (s : State) (t k : Nat) (x : Tile) : (s.setTile t x).tile k = if k = t then x else s.tile k :=
  Tbl.get_set _ _ _ _ _

/-! ### setJob -/

@[simp] theorem State.setJob_pending (s : State) (c : Nat) (x : Job) : (s.setJob c x).pending = s.pending := rfl
@[simp] theorem State.setJob_tick (s : State) (c : Nat) (x : Job) : (s.setJob c x).tick = s.tick := rfl
@[simp] theorem State.setJob_fresh (s : State) (c : Nat) (x : Job) : (s.setJob c x).fresh = s.fresh := rfl
@[simp] theorem State.setJob_stepping (s : State) (c : Nat) (x : Job) : (s.setJob c x).stepping = s.stepping := rfl
@[simp] theorem State.setJob_tiles (s : State) (c : Nat) (x : Job) : (s.setJob c x).tiles = s.tiles := rfl
@[simp] theorem State.setJob_retired (s : State) (c : Nat) (x : Job) : (s.setJob c x).retired = s.retired := rfl
@[simp] theorem State.setJob_applied (s : State) (c : Nat) (x : Job) : (s.setJob c x).applied = s.applied := rfl
@[simp] theorem State.setJob_mem (s : State) (c : Nat) (x : Job) : (s.setJob c x).mem = s.mem := rfl
@[simp] theorem State.setJob_ostlers (s : State) (c : Nat) (x : Job) : (s.setJob c x).ostlers = s.ostlers := rfl
@[simp] theorem State.setJob_groups (s : State) (c : Nat) (x : Job) : (s.setJob c x).groups = s.groups := rfl
@[simp] theorem State.setJob_descs (s : State) (c : Nat) (x : Job) : (s.setJob c x).descs = s.descs := rfl
@[simp] theorem State.setJob_nextDesc (s : State) (c : Nat) (x : Job) : (s.setJob c x).nextDesc = s.nextDesc := rfl
@[simp] theorem State.setJob_engineDescs (s : State) (c : Nat) (x : Job) : (s.setJob c x).engineDescs = s.engineDescs := rfl
@[simp] theorem State.setJob_engineCmds (s : State) (c : Nat) (x : Job) : (s.setJob c x).engineCmds = s.engineCmds := rfl
@[simp] theorem State.setJob_courier (s : State) (c : Nat) (x : Job) : (s.setJob c x).courier = s.courier := rfl
@[simp] theorem State.setJob_engines (s : State) (c : Nat) (x : Job) : (s.setJob c x).engines = s.engines := rfl
@[simp] theorem State.setJob_updCtrl (s : State) (c : Nat) (x : Job) : (s.setJob c x).updCtrl = s.updCtrl := rfl
@[simp] theorem State.setJob_frozenSkips (s : State) (c : Nat) (x : Job) : (s.setJob c x).frozenSkips = s.frozenSkips := rfl
@[simp] theorem State.setJob_fallbacks (s : State) (c : Nat) (x : Job) : (s.setJob c x).fallbacks = s.fallbacks := rfl
@[simp] theorem State.setJob_porters (s : State) (c : Nat) (x : Job) : (s.setJob c x).porters = s.porters := rfl
@[simp] theorem State.setJob_health (s : State) (c : Nat) (x : Job) : (s.setJob c x).health = s.health := rfl
@[simp] theorem State.setJob_host (s : State) (c : Nat) (x : Job) : (s.setJob c x).host = s.host := rfl
@[simp] theorem State.setJob_ports (s : State) (c : Nat) (x : Job) : (s.setJob c x).ports = s.ports := rfl
@[simp] theorem State.setJob_selfCoord (s : State) (c : Nat) (x : Job) : (s.setJob c x).selfCoord = s.selfCoord := rfl
@[simp] theorem State.setJob_pendingTokens (s : State) (c : Nat) (x : Job) : (s.setJob c x).pendingTokens = s.pendingTokens := rfl
@[simp] theorem State.setJob_boot (s : State) (c : Nat) (x : Job) : (s.setJob c x).boot = s.boot := rfl
@[simp] theorem State.setJob_power (s : State) (c : Nat) (x : Job) : (s.setJob c x).power = s.power := rfl
@[simp] theorem State.setJob_tile (s : State) (c : Nat) (x : Job) (k : Nat) : (s.setJob c x).tile k = s.tile k := rfl
@[simp] theorem State.setJob_port (s : State) (c : Nat) (x : Job) (k : Nat) : (s.setJob c x).port k = s.port k := rfl
@[simp] theorem State.setJob_porter (s : State) (c : Nat) (x : Job) (k : Nat) : (s.setJob c x).porter k = s.porter k := rfl
@[simp] theorem State.setJob_ostler (s : State) (c : Nat) (x : Job) (k : Nat) : (s.setJob c x).ostler k = s.ostler k := rfl
@[simp] theorem State.setJob_engine (s : State) (c : Nat) (x : Job) (k : Nat) : (s.setJob c x).engine k = s.engine k := rfl
@[simp] theorem State.setJob_ring (s : State) (c : Nat) (x : Job) (k : Nat) : (s.setJob c x).ring k = s.ring k := rfl
@[simp] theorem State.setJob_stack (s : State) (c : Nat) (x : Job) (k : Nat) : (s.setJob c x).stack k = s.stack k := rfl
@[simp] theorem State.job_setJob_same (s : State) (c : Nat) (x : Job) : (s.setJob c x).job c = x := Tbl.get_set_same _ _ _ _
theorem State.job_setJob_other (s : State) {c k : Nat} (x : Job) (h : k ≠ c) : (s.setJob c x).job k = s.job k :=
  Tbl.get_set_other _ _ _ h
theorem State.job_setJob (s : State) (c k : Nat) (x : Job) : (s.setJob c x).job k = if k = c then x else s.job k :=
  Tbl.get_set _ _ _ _ _

/-! ### setPort -/

@[simp] theorem State.setPort_pending (s : State) (p : Nat) (x : Port) : (s.setPort p x).pending = s.pending := rfl
@[simp] theorem State.setPort_tick (s : State) (p : Nat) (x : Port) : (s.setPort p x).tick = s.tick := rfl
@[simp] theorem State.setPort_fresh (s : State) (p : Nat) (x : Port) : (s.setPort p x).fresh = s.fresh := rfl
@[simp] theorem State.setPort_stepping (s : State) (p : Nat) (x : Port) : (s.setPort p x).stepping = s.stepping := rfl
@[simp] theorem State.setPort_tiles (s : State) (p : Nat) (x : Port) : (s.setPort p x).tiles = s.tiles := rfl
@[simp] theorem State.setPort_retired (s : State) (p : Nat) (x : Port) : (s.setPort p x).retired = s.retired := rfl
@[simp] theorem State.setPort_applied (s : State) (p : Nat) (x : Port) : (s.setPort p x).applied = s.applied := rfl
@[simp] theorem State.setPort_jobs (s : State) (p : Nat) (x : Port) : (s.setPort p x).jobs = s.jobs := rfl
@[simp] theorem State.setPort_mem (s : State) (p : Nat) (x : Port) : (s.setPort p x).mem = s.mem := rfl
@[simp] theorem State.setPort_ostlers (s : State) (p : Nat) (x : Port) : (s.setPort p x).ostlers = s.ostlers := rfl
@[simp] theorem State.setPort_groups (s : State) (p : Nat) (x : Port) : (s.setPort p x).groups = s.groups := rfl
@[simp] theorem State.setPort_descs (s : State) (p : Nat) (x : Port) : (s.setPort p x).descs = s.descs := rfl
@[simp] theorem State.setPort_nextDesc (s : State) (p : Nat) (x : Port) : (s.setPort p x).nextDesc = s.nextDesc := rfl
@[simp] theorem State.setPort_engineDescs (s : State) (p : Nat) (x : Port) : (s.setPort p x).engineDescs = s.engineDescs := rfl
@[simp] theorem State.setPort_engineCmds (s : State) (p : Nat) (x : Port) : (s.setPort p x).engineCmds = s.engineCmds := rfl
@[simp] theorem State.setPort_courier (s : State) (p : Nat) (x : Port) : (s.setPort p x).courier = s.courier := rfl
@[simp] theorem State.setPort_engines (s : State) (p : Nat) (x : Port) : (s.setPort p x).engines = s.engines := rfl
@[simp] theorem State.setPort_updCtrl (s : State) (p : Nat) (x : Port) : (s.setPort p x).updCtrl = s.updCtrl := rfl
@[simp] theorem State.setPort_frozenSkips (s : State) (p : Nat) (x : Port) : (s.setPort p x).frozenSkips = s.frozenSkips := rfl
@[simp] theorem State.setPort_fallbacks (s : State) (p : Nat) (x : Port) : (s.setPort p x).fallbacks = s.fallbacks := rfl
@[simp] theorem State.setPort_porters (s : State) (p : Nat) (x : Port) : (s.setPort p x).porters = s.porters := rfl
@[simp] theorem State.setPort_health (s : State) (p : Nat) (x : Port) : (s.setPort p x).health = s.health := rfl
@[simp] theorem State.setPort_host (s : State) (p : Nat) (x : Port) : (s.setPort p x).host = s.host := rfl
@[simp] theorem State.setPort_selfCoord (s : State) (p : Nat) (x : Port) : (s.setPort p x).selfCoord = s.selfCoord := rfl
@[simp] theorem State.setPort_pendingTokens (s : State) (p : Nat) (x : Port) : (s.setPort p x).pendingTokens = s.pendingTokens := rfl
@[simp] theorem State.setPort_boot (s : State) (p : Nat) (x : Port) : (s.setPort p x).boot = s.boot := rfl
@[simp] theorem State.setPort_power (s : State) (p : Nat) (x : Port) : (s.setPort p x).power = s.power := rfl
@[simp] theorem State.setPort_tile (s : State) (p : Nat) (x : Port) (k : Nat) : (s.setPort p x).tile k = s.tile k := rfl
@[simp] theorem State.setPort_job (s : State) (p : Nat) (x : Port) (k : Nat) : (s.setPort p x).job k = s.job k := rfl
@[simp] theorem State.setPort_porter (s : State) (p : Nat) (x : Port) (k : Nat) : (s.setPort p x).porter k = s.porter k := rfl
@[simp] theorem State.setPort_ostler (s : State) (p : Nat) (x : Port) (k : Nat) : (s.setPort p x).ostler k = s.ostler k := rfl
@[simp] theorem State.setPort_engine (s : State) (p : Nat) (x : Port) (k : Nat) : (s.setPort p x).engine k = s.engine k := rfl
@[simp] theorem State.setPort_ring (s : State) (p : Nat) (x : Port) (k : Nat) : (s.setPort p x).ring k = s.ring k := rfl
@[simp] theorem State.setPort_stack (s : State) (p : Nat) (x : Port) (k : Nat) : (s.setPort p x).stack k = s.stack k := rfl
@[simp] theorem State.port_setPort_same (s : State) (p : Nat) (x : Port) : (s.setPort p x).port p = x := Tbl.get_set_same _ _ _ _
theorem State.port_setPort_other (s : State) {p k : Nat} (x : Port) (h : k ≠ p) : (s.setPort p x).port k = s.port k :=
  Tbl.get_set_other _ _ _ h
theorem State.port_setPort (s : State) (p k : Nat) (x : Port) : (s.setPort p x).port k = if k = p then x else s.port k :=
  Tbl.get_set _ _ _ _ _

/-! ### setPorter -/

@[simp] theorem State.setPorter_pending (s : State) (c : Nat) (x : Porter) : (s.setPorter c x).pending = s.pending := rfl
@[simp] theorem State.setPorter_tick (s : State) (c : Nat) (x : Porter) : (s.setPorter c x).tick = s.tick := rfl
@[simp] theorem State.setPorter_fresh (s : State) (c : Nat) (x : Porter) : (s.setPorter c x).fresh = s.fresh := rfl
@[simp] theorem State.setPorter_stepping (s : State) (c : Nat) (x : Porter) : (s.setPorter c x).stepping = s.stepping := rfl
@[simp] theorem State.setPorter_tiles (s : State) (c : Nat) (x : Porter) : (s.setPorter c x).tiles = s.tiles := rfl
@[simp] theorem State.setPorter_retired (s : State) (c : Nat) (x : Porter) : (s.setPorter c x).retired = s.retired := rfl
@[simp] theorem State.setPorter_applied (s : State) (c : Nat) (x : Porter) : (s.setPorter c x).applied = s.applied := rfl
@[simp] theorem State.setPorter_jobs (s : State) (c : Nat) (x : Porter) : (s.setPorter c x).jobs = s.jobs := rfl
@[simp] theorem State.setPorter_mem (s : State) (c : Nat) (x : Porter) : (s.setPorter c x).mem = s.mem := rfl
@[simp] theorem State.setPorter_ostlers (s : State) (c : Nat) (x : Porter) : (s.setPorter c x).ostlers = s.ostlers := rfl
@[simp] theorem State.setPorter_groups (s : State) (c : Nat) (x : Porter) : (s.setPorter c x).groups = s.groups := rfl
@[simp] theorem State.setPorter_descs (s : State) (c : Nat) (x : Porter) : (s.setPorter c x).descs = s.descs := rfl
@[simp] theorem State.setPorter_nextDesc (s : State) (c : Nat) (x : Porter) : (s.setPorter c x).nextDesc = s.nextDesc := rfl
@[simp] theorem State.setPorter_engineDescs (s : State) (c : Nat) (x : Porter) : (s.setPorter c x).engineDescs = s.engineDescs := rfl
@[simp] theorem State.setPorter_engineCmds (s : State) (c : Nat) (x : Porter) : (s.setPorter c x).engineCmds = s.engineCmds := rfl
@[simp] theorem State.setPorter_courier (s : State) (c : Nat) (x : Porter) : (s.setPorter c x).courier = s.courier := rfl
@[simp] theorem State.setPorter_engines (s : State) (c : Nat) (x : Porter) : (s.setPorter c x).engines = s.engines := rfl
@[simp] theorem State.setPorter_updCtrl (s : State) (c : Nat) (x : Porter) : (s.setPorter c x).updCtrl = s.updCtrl := rfl
@[simp] theorem State.setPorter_frozenSkips (s : State) (c : Nat) (x : Porter) : (s.setPorter c x).frozenSkips = s.frozenSkips := rfl
@[simp] theorem State.setPorter_fallbacks (s : State) (c : Nat) (x : Porter) : (s.setPorter c x).fallbacks = s.fallbacks := rfl
@[simp] theorem State.setPorter_health (s : State) (c : Nat) (x : Porter) : (s.setPorter c x).health = s.health := rfl
@[simp] theorem State.setPorter_host (s : State) (c : Nat) (x : Porter) : (s.setPorter c x).host = s.host := rfl
@[simp] theorem State.setPorter_ports (s : State) (c : Nat) (x : Porter) : (s.setPorter c x).ports = s.ports := rfl
@[simp] theorem State.setPorter_selfCoord (s : State) (c : Nat) (x : Porter) : (s.setPorter c x).selfCoord = s.selfCoord := rfl
@[simp] theorem State.setPorter_pendingTokens (s : State) (c : Nat) (x : Porter) : (s.setPorter c x).pendingTokens = s.pendingTokens := rfl
@[simp] theorem State.setPorter_boot (s : State) (c : Nat) (x : Porter) : (s.setPorter c x).boot = s.boot := rfl
@[simp] theorem State.setPorter_power (s : State) (c : Nat) (x : Porter) : (s.setPorter c x).power = s.power := rfl
@[simp] theorem State.setPorter_tile (s : State) (c : Nat) (x : Porter) (k : Nat) : (s.setPorter c x).tile k = s.tile k := rfl
@[simp] theorem State.setPorter_job (s : State) (c : Nat) (x : Porter) (k : Nat) : (s.setPorter c x).job k = s.job k := rfl
@[simp] theorem State.setPorter_port (s : State) (c : Nat) (x : Porter) (k : Nat) : (s.setPorter c x).port k = s.port k := rfl
@[simp] theorem State.setPorter_ostler (s : State) (c : Nat) (x : Porter) (k : Nat) : (s.setPorter c x).ostler k = s.ostler k := rfl
@[simp] theorem State.setPorter_engine (s : State) (c : Nat) (x : Porter) (k : Nat) : (s.setPorter c x).engine k = s.engine k := rfl
@[simp] theorem State.setPorter_ring (s : State) (c : Nat) (x : Porter) (k : Nat) : (s.setPorter c x).ring k = s.ring k := rfl
@[simp] theorem State.setPorter_stack (s : State) (c : Nat) (x : Porter) (k : Nat) : (s.setPorter c x).stack k = s.stack k := rfl
@[simp] theorem State.porter_setPorter_same (s : State) (c : Nat) (x : Porter) : (s.setPorter c x).porter c = x := Tbl.get_set_same _ _ _ _
theorem State.porter_setPorter_other (s : State) {c k : Nat} (x : Porter) (h : k ≠ c) : (s.setPorter c x).porter k = s.porter k :=
  Tbl.get_set_other _ _ _ h
theorem State.porter_setPorter (s : State) (c k : Nat) (x : Porter) : (s.setPorter c x).porter k = if k = c then x else s.porter k :=
  Tbl.get_set _ _ _ _ _

/-! ### setOstler -/

@[simp] theorem State.setOstler_pending (s : State) (o : Nat) (x : Ostler) : (s.setOstler o x).pending = s.pending := rfl
@[simp] theorem State.setOstler_tick (s : State) (o : Nat) (x : Ostler) : (s.setOstler o x).tick = s.tick := rfl
@[simp] theorem State.setOstler_fresh (s : State) (o : Nat) (x : Ostler) : (s.setOstler o x).fresh = s.fresh := rfl
@[simp] theorem State.setOstler_stepping (s : State) (o : Nat) (x : Ostler) : (s.setOstler o x).stepping = s.stepping := rfl
@[simp] theorem State.setOstler_tiles (s : State) (o : Nat) (x : Ostler) : (s.setOstler o x).tiles = s.tiles := rfl
@[simp] theorem State.setOstler_retired (s : State) (o : Nat) (x : Ostler) : (s.setOstler o x).retired = s.retired := rfl
@[simp] theorem State.setOstler_applied (s : State) (o : Nat) (x : Ostler) : (s.setOstler o x).applied = s.applied := rfl
@[simp] theorem State.setOstler_jobs (s : State) (o : Nat) (x : Ostler) : (s.setOstler o x).jobs = s.jobs := rfl
@[simp] theorem State.setOstler_mem (s : State) (o : Nat) (x : Ostler) : (s.setOstler o x).mem = s.mem := rfl
@[simp] theorem State.setOstler_groups (s : State) (o : Nat) (x : Ostler) : (s.setOstler o x).groups = s.groups := rfl
@[simp] theorem State.setOstler_descs (s : State) (o : Nat) (x : Ostler) : (s.setOstler o x).descs = s.descs := rfl
@[simp] theorem State.setOstler_nextDesc (s : State) (o : Nat) (x : Ostler) : (s.setOstler o x).nextDesc = s.nextDesc := rfl
@[simp] theorem State.setOstler_engineDescs (s : State) (o : Nat) (x : Ostler) : (s.setOstler o x).engineDescs = s.engineDescs := rfl
@[simp] theorem State.setOstler_engineCmds (s : State) (o : Nat) (x : Ostler) : (s.setOstler o x).engineCmds = s.engineCmds := rfl
@[simp] theorem State.setOstler_courier (s : State) (o : Nat) (x : Ostler) : (s.setOstler o x).courier = s.courier := rfl
@[simp] theorem State.setOstler_engines (s : State) (o : Nat) (x : Ostler) : (s.setOstler o x).engines = s.engines := rfl
@[simp] theorem State.setOstler_updCtrl (s : State) (o : Nat) (x : Ostler) : (s.setOstler o x).updCtrl = s.updCtrl := rfl
@[simp] theorem State.setOstler_frozenSkips (s : State) (o : Nat) (x : Ostler) : (s.setOstler o x).frozenSkips = s.frozenSkips := rfl
@[simp] theorem State.setOstler_fallbacks (s : State) (o : Nat) (x : Ostler) : (s.setOstler o x).fallbacks = s.fallbacks := rfl
@[simp] theorem State.setOstler_porters (s : State) (o : Nat) (x : Ostler) : (s.setOstler o x).porters = s.porters := rfl
@[simp] theorem State.setOstler_health (s : State) (o : Nat) (x : Ostler) : (s.setOstler o x).health = s.health := rfl
@[simp] theorem State.setOstler_host (s : State) (o : Nat) (x : Ostler) : (s.setOstler o x).host = s.host := rfl
@[simp] theorem State.setOstler_ports (s : State) (o : Nat) (x : Ostler) : (s.setOstler o x).ports = s.ports := rfl
@[simp] theorem State.setOstler_selfCoord (s : State) (o : Nat) (x : Ostler) : (s.setOstler o x).selfCoord = s.selfCoord := rfl
@[simp] theorem State.setOstler_pendingTokens (s : State) (o : Nat) (x : Ostler) : (s.setOstler o x).pendingTokens = s.pendingTokens := rfl
@[simp] theorem State.setOstler_boot (s : State) (o : Nat) (x : Ostler) : (s.setOstler o x).boot = s.boot := rfl
@[simp] theorem State.setOstler_power (s : State) (o : Nat) (x : Ostler) : (s.setOstler o x).power = s.power := rfl
@[simp] theorem State.setOstler_tile (s : State) (o : Nat) (x : Ostler) (k : Nat) : (s.setOstler o x).tile k = s.tile k := rfl
@[simp] theorem State.setOstler_job (s : State) (o : Nat) (x : Ostler) (k : Nat) : (s.setOstler o x).job k = s.job k := rfl
@[simp] theorem State.setOstler_port (s : State) (o : Nat) (x : Ostler) (k : Nat) : (s.setOstler o x).port k = s.port k := rfl
@[simp] theorem State.setOstler_porter (s : State) (o : Nat) (x : Ostler) (k : Nat) : (s.setOstler o x).porter k = s.porter k := rfl
@[simp] theorem State.setOstler_engine (s : State) (o : Nat) (x : Ostler) (k : Nat) : (s.setOstler o x).engine k = s.engine k := rfl
@[simp] theorem State.setOstler_ring (s : State) (o : Nat) (x : Ostler) (k : Nat) : (s.setOstler o x).ring k = s.ring k := rfl
@[simp] theorem State.setOstler_stack (s : State) (o : Nat) (x : Ostler) (k : Nat) : (s.setOstler o x).stack k = s.stack k := rfl
@[simp] theorem State.ostler_setOstler_same (s : State) (o : Nat) (x : Ostler) : (s.setOstler o x).ostler o = x := Tbl.get_set_same _ _ _ _
theorem State.ostler_setOstler_other (s : State) {o k : Nat} (x : Ostler) (h : k ≠ o) : (s.setOstler o x).ostler k = s.ostler k :=
  Tbl.get_set_other _ _ _ h
theorem State.ostler_setOstler (s : State) (o k : Nat) (x : Ostler) : (s.setOstler o x).ostler k = if k = o then x else s.ostler k :=
  Tbl.get_set _ _ _ _ _

/-! ### setEngine -/

@[simp] theorem State.setEngine_pending (s : State) (e : Nat) (x : MicroEngine) : (s.setEngine e x).pending = s.pending := rfl
@[simp] theorem State.setEngine_tick (s : State) (e : Nat) (x : MicroEngine) : (s.setEngine e x).tick = s.tick := rfl
@[simp] theorem State.setEngine_fresh (s : State) (e : Nat) (x : MicroEngine) : (s.setEngine e x).fresh = s.fresh := rfl
@[simp] theorem State.setEngine_stepping (s : State) (e : Nat) (x : MicroEngine) : (s.setEngine e x).stepping = s.stepping := rfl
@[simp] theorem State.setEngine_tiles (s : State) (e : Nat) (x : MicroEngine) : (s.setEngine e x).tiles = s.tiles := rfl
@[simp] theorem State.setEngine_retired (s : State) (e : Nat) (x : MicroEngine) : (s.setEngine e x).retired = s.retired := rfl
@[simp] theorem State.setEngine_applied (s : State) (e : Nat) (x : MicroEngine) : (s.setEngine e x).applied = s.applied := rfl
@[simp] theorem State.setEngine_jobs (s : State) (e : Nat) (x : MicroEngine) : (s.setEngine e x).jobs = s.jobs := rfl
@[simp] theorem State.setEngine_mem (s : State) (e : Nat) (x : MicroEngine) : (s.setEngine e x).mem = s.mem := rfl
@[simp] theorem State.setEngine_ostlers (s : State) (e : Nat) (x : MicroEngine) : (s.setEngine e x).ostlers = s.ostlers := rfl
@[simp] theorem State.setEngine_groups (s : State) (e : Nat) (x : MicroEngine) : (s.setEngine e x).groups = s.groups := rfl
@[simp] theorem State.setEngine_descs (s : State) (e : Nat) (x : MicroEngine) : (s.setEngine e x).descs = s.descs := rfl
@[simp] theorem State.setEngine_nextDesc (s : State) (e : Nat) (x : MicroEngine) : (s.setEngine e x).nextDesc = s.nextDesc := rfl
@[simp] theorem State.setEngine_engineDescs (s : State) (e : Nat) (x : MicroEngine) : (s.setEngine e x).engineDescs = s.engineDescs := rfl
@[simp] theorem State.setEngine_engineCmds (s : State) (e : Nat) (x : MicroEngine) : (s.setEngine e x).engineCmds = s.engineCmds := rfl
@[simp] theorem State.setEngine_courier (s : State) (e : Nat) (x : MicroEngine) : (s.setEngine e x).courier = s.courier := rfl
@[simp] theorem State.setEngine_updCtrl (s : State) (e : Nat) (x : MicroEngine) : (s.setEngine e x).updCtrl = s.updCtrl := rfl
@[simp] theorem State.setEngine_frozenSkips (s : State) (e : Nat) (x : MicroEngine) : (s.setEngine e x).frozenSkips = s.frozenSkips := rfl
@[simp] theorem State.setEngine_fallbacks (s : State) (e : Nat) (x : MicroEngine) : (s.setEngine e x).fallbacks = s.fallbacks := rfl
@[simp] theorem State.setEngine_porters (s : State) (e : Nat) (x : MicroEngine) : (s.setEngine e x).porters = s.porters := rfl
@[simp] theorem State.setEngine_health (s : State) (e : Nat) (x : MicroEngine) : (s.setEngine e x).health = s.health := rfl
@[simp] theorem State.setEngine_host (s : State) (e : Nat) (x : MicroEngine) : (s.setEngine e x).host = s.host := rfl
@[simp] theorem State.setEngine_ports (s : State) (e : Nat) (x : MicroEngine) : (s.setEngine e x).ports = s.ports := rfl
@[simp] theorem State.setEngine_selfCoord (s : State) (e : Nat) (x : MicroEngine) : (s.setEngine e x).selfCoord = s.selfCoord := rfl
@[simp] theorem State.setEngine_pendingTokens (s : State) (e : Nat) (x : MicroEngine) : (s.setEngine e x).pendingTokens = s.pendingTokens := rfl
@[simp] theorem State.setEngine_boot (s : State) (e : Nat) (x : MicroEngine) : (s.setEngine e x).boot = s.boot := rfl
@[simp] theorem State.setEngine_power (s : State) (e : Nat) (x : MicroEngine) : (s.setEngine e x).power = s.power := rfl
@[simp] theorem State.setEngine_tile (s : State) (e : Nat) (x : MicroEngine) (k : Nat) : (s.setEngine e x).tile k = s.tile k := rfl
@[simp] theorem State.setEngine_job (s : State) (e : Nat) (x : MicroEngine) (k : Nat) : (s.setEngine e x).job k = s.job k := rfl
@[simp] theorem State.setEngine_port (s : State) (e : Nat) (x : MicroEngine) (k : Nat) : (s.setEngine e x).port k = s.port k := rfl
@[simp] theorem State.setEngine_porter (s : State) (e : Nat) (x : MicroEngine) (k : Nat) : (s.setEngine e x).porter k = s.porter k := rfl
@[simp] theorem State.setEngine_ostler (s : State) (e : Nat) (x : MicroEngine) (k : Nat) : (s.setEngine e x).ostler k = s.ostler k := rfl
@[simp] theorem State.setEngine_ring (s : State) (e : Nat) (x : MicroEngine) (k : Nat) : (s.setEngine e x).ring k = s.ring k := rfl
@[simp] theorem State.setEngine_stack (s : State) (e : Nat) (x : MicroEngine) (k : Nat) : (s.setEngine e x).stack k = s.stack k := rfl
@[simp] theorem State.engine_setEngine_same (s : State) (e : Nat) (x : MicroEngine) : (s.setEngine e x).engine e = x := Tbl.get_set_same _ _ _ _
theorem State.engine_setEngine_other (s : State) {e k : Nat} (x : MicroEngine) (h : k ≠ e) : (s.setEngine e x).engine k = s.engine k :=
  Tbl.get_set_other _ _ _ h
theorem State.engine_setEngine (s : State) (e k : Nat) (x : MicroEngine) : (s.setEngine e x).engine k = if k = e then x else s.engine k :=
  Tbl.get_set _ _ _ _ _

/-! ### setRing -/

@[simp] theorem State.setRing_pending (s : State) (n : Nat) (x : Ring) : (s.setRing n x).pending = s.pending := rfl
@[simp] theorem State.setRing_tick (s : State) (n : Nat) (x : Ring) : (s.setRing n x).tick = s.tick := rfl
@[simp] theorem State.setRing_fresh (s : State) (n : Nat) (x : Ring) : (s.setRing n x).fresh = s.fresh := rfl
@[simp] theorem State.setRing_stepping (s : State) (n : Nat) (x : Ring) : (s.setRing n x).stepping = s.stepping := rfl
@[simp] theorem State.setRing_tiles (s : State) (n : Nat) (x : Ring) : (s.setRing n x).tiles = s.tiles := rfl
@[simp] theorem State.setRing_retired (s : State) (n : Nat) (x : Ring) : (s.setRing n x).retired = s.retired := rfl
@[simp] theorem State.setRing_applied (s : State) (n : Nat) (x : Ring) : (s.setRing n x).applied = s.applied := rfl
@[simp] theorem State.setRing_jobs (s : State) (n : Nat) (x : Ring) : (s.setRing n x).jobs = s.jobs := rfl
@[simp] theorem State.setRing_mem (s : State) (n : Nat) (x : Ring) : (s.setRing n x).mem = s.mem := rfl
@[simp] theorem State.setRing_ostlers (s : State) (n : Nat) (x : Ring) : (s.setRing n x).ostlers = s.ostlers := rfl
@[simp] theorem State.setRing_groups (s : State) (n : Nat) (x : Ring) : (s.setRing n x).groups = s.groups := rfl
@[simp] theorem State.setRing_descs (s : State) (n : Nat) (x : Ring) : (s.setRing n x).descs = s.descs := rfl
@[simp] theorem State.setRing_nextDesc (s : State) (n : Nat) (x : Ring) : (s.setRing n x).nextDesc = s.nextDesc := rfl
@[simp] theorem State.setRing_engineDescs (s : State) (n : Nat) (x : Ring) : (s.setRing n x).engineDescs = s.engineDescs := rfl
@[simp] theorem State.setRing_engineCmds (s : State) (n : Nat) (x : Ring) : (s.setRing n x).engineCmds = s.engineCmds := rfl
@[simp] theorem State.setRing_courier (s : State) (n : Nat) (x : Ring) : (s.setRing n x).courier = s.courier := rfl
@[simp] theorem State.setRing_engines (s : State) (n : Nat) (x : Ring) : (s.setRing n x).engines = s.engines := rfl
@[simp] theorem State.setRing_updCtrl (s : State) (n : Nat) (x : Ring) : (s.setRing n x).updCtrl = s.updCtrl := rfl
@[simp] theorem State.setRing_frozenSkips (s : State) (n : Nat) (x : Ring) : (s.setRing n x).frozenSkips = s.frozenSkips := rfl
@[simp] theorem State.setRing_fallbacks (s : State) (n : Nat) (x : Ring) : (s.setRing n x).fallbacks = s.fallbacks := rfl
@[simp] theorem State.setRing_porters (s : State) (n : Nat) (x : Ring) : (s.setRing n x).porters = s.porters := rfl
@[simp] theorem State.setRing_health (s : State) (n : Nat) (x : Ring) : (s.setRing n x).health = s.health := rfl
@[simp] theorem State.setRing_ports (s : State) (n : Nat) (x : Ring) : (s.setRing n x).ports = s.ports := rfl
@[simp] theorem State.setRing_selfCoord (s : State) (n : Nat) (x : Ring) : (s.setRing n x).selfCoord = s.selfCoord := rfl
@[simp] theorem State.setRing_pendingTokens (s : State) (n : Nat) (x : Ring) : (s.setRing n x).pendingTokens = s.pendingTokens := rfl
@[simp] theorem State.setRing_boot (s : State) (n : Nat) (x : Ring) : (s.setRing n x).boot = s.boot := rfl
@[simp] theorem State.setRing_power (s : State) (n : Nat) (x : Ring) : (s.setRing n x).power = s.power := rfl
@[simp] theorem State.setRing_tile (s : State) (n : Nat) (x : Ring) (k : Nat) : (s.setRing n x).tile k = s.tile k := rfl
@[simp] theorem State.setRing_job (s : State) (n : Nat) (x : Ring) (k : Nat) : (s.setRing n x).job k = s.job k := rfl
@[simp] theorem State.setRing_port (s : State) (n : Nat) (x : Ring) (k : Nat) : (s.setRing n x).port k = s.port k := rfl
@[simp] theorem State.setRing_porter (s : State) (n : Nat) (x : Ring) (k : Nat) : (s.setRing n x).porter k = s.porter k := rfl
@[simp] theorem State.setRing_ostler (s : State) (n : Nat) (x : Ring) (k : Nat) : (s.setRing n x).ostler k = s.ostler k := rfl
@[simp] theorem State.setRing_engine (s : State) (n : Nat) (x : Ring) (k : Nat) : (s.setRing n x).engine k = s.engine k := rfl
@[simp] theorem State.setRing_stack (s : State) (n : Nat) (x : Ring) (k : Nat) : (s.setRing n x).stack k = s.stack k := rfl
@[simp] theorem State.ring_setRing_same (s : State) (n : Nat) (x : Ring) : (s.setRing n x).ring n = x := Tbl.get_set_same _ _ _ _
theorem State.ring_setRing_other (s : State) {n k : Nat} (x : Ring) (h : k ≠ n) : (s.setRing n x).ring k = s.ring k :=
  Tbl.get_set_other _ _ _ h
theorem State.ring_setRing (s : State) (n k : Nat) (x : Ring) : (s.setRing n x).ring k = if k = n then x else s.ring k :=
  Tbl.get_set _ _ _ _ _

/-! ### setStack -/

@[simp] theorem State.setStack_pending (s : State) (m : Nat) (x : Stack) : (s.setStack m x).pending = s.pending := rfl
@[simp] theorem State.setStack_tick (s : State) (m : Nat) (x : Stack) : (s.setStack m x).tick = s.tick := rfl
@[simp] theorem State.setStack_fresh (s : State) (m : Nat) (x : Stack) : (s.setStack m x).fresh = s.fresh := rfl
@[simp] theorem State.setStack_stepping (s : State) (m : Nat) (x : Stack) : (s.setStack m x).stepping = s.stepping := rfl
@[simp] theorem State.setStack_tiles (s : State) (m : Nat) (x : Stack) : (s.setStack m x).tiles = s.tiles := rfl
@[simp] theorem State.setStack_retired (s : State) (m : Nat) (x : Stack) : (s.setStack m x).retired = s.retired := rfl
@[simp] theorem State.setStack_applied (s : State) (m : Nat) (x : Stack) : (s.setStack m x).applied = s.applied := rfl
@[simp] theorem State.setStack_jobs (s : State) (m : Nat) (x : Stack) : (s.setStack m x).jobs = s.jobs := rfl
@[simp] theorem State.setStack_ostlers (s : State) (m : Nat) (x : Stack) : (s.setStack m x).ostlers = s.ostlers := rfl
@[simp] theorem State.setStack_groups (s : State) (m : Nat) (x : Stack) : (s.setStack m x).groups = s.groups := rfl
@[simp] theorem State.setStack_descs (s : State) (m : Nat) (x : Stack) : (s.setStack m x).descs = s.descs := rfl
@[simp] theorem State.setStack_nextDesc (s : State) (m : Nat) (x : Stack) : (s.setStack m x).nextDesc = s.nextDesc := rfl
@[simp] theorem State.setStack_engineDescs (s : State) (m : Nat) (x : Stack) : (s.setStack m x).engineDescs = s.engineDescs := rfl
@[simp] theorem State.setStack_engineCmds (s : State) (m : Nat) (x : Stack) : (s.setStack m x).engineCmds = s.engineCmds := rfl
@[simp] theorem State.setStack_courier (s : State) (m : Nat) (x : Stack) : (s.setStack m x).courier = s.courier := rfl
@[simp] theorem State.setStack_engines (s : State) (m : Nat) (x : Stack) : (s.setStack m x).engines = s.engines := rfl
@[simp] theorem State.setStack_updCtrl (s : State) (m : Nat) (x : Stack) : (s.setStack m x).updCtrl = s.updCtrl := rfl
@[simp] theorem State.setStack_frozenSkips (s : State) (m : Nat) (x : Stack) : (s.setStack m x).frozenSkips = s.frozenSkips := rfl
@[simp] theorem State.setStack_fallbacks (s : State) (m : Nat) (x : Stack) : (s.setStack m x).fallbacks = s.fallbacks := rfl
@[simp] theorem State.setStack_porters (s : State) (m : Nat) (x : Stack) : (s.setStack m x).porters = s.porters := rfl
@[simp] theorem State.setStack_health (s : State) (m : Nat) (x : Stack) : (s.setStack m x).health = s.health := rfl
@[simp] theorem State.setStack_host (s : State) (m : Nat) (x : Stack) : (s.setStack m x).host = s.host := rfl
@[simp] theorem State.setStack_ports (s : State) (m : Nat) (x : Stack) : (s.setStack m x).ports = s.ports := rfl
@[simp] theorem State.setStack_selfCoord (s : State) (m : Nat) (x : Stack) : (s.setStack m x).selfCoord = s.selfCoord := rfl
@[simp] theorem State.setStack_pendingTokens (s : State) (m : Nat) (x : Stack) : (s.setStack m x).pendingTokens = s.pendingTokens := rfl
@[simp] theorem State.setStack_boot (s : State) (m : Nat) (x : Stack) : (s.setStack m x).boot = s.boot := rfl
@[simp] theorem State.setStack_power (s : State) (m : Nat) (x : Stack) : (s.setStack m x).power = s.power := rfl
@[simp] theorem State.setStack_tile (s : State) (m : Nat) (x : Stack) (k : Nat) : (s.setStack m x).tile k = s.tile k := rfl
@[simp] theorem State.setStack_job (s : State) (m : Nat) (x : Stack) (k : Nat) : (s.setStack m x).job k = s.job k := rfl
@[simp] theorem State.setStack_port (s : State) (m : Nat) (x : Stack) (k : Nat) : (s.setStack m x).port k = s.port k := rfl
@[simp] theorem State.setStack_porter (s : State) (m : Nat) (x : Stack) (k : Nat) : (s.setStack m x).porter k = s.porter k := rfl
@[simp] theorem State.setStack_ostler (s : State) (m : Nat) (x : Stack) (k : Nat) : (s.setStack m x).ostler k = s.ostler k := rfl
@[simp] theorem State.setStack_engine (s : State) (m : Nat) (x : Stack) (k : Nat) : (s.setStack m x).engine k = s.engine k := rfl
@[simp] theorem State.setStack_ring (s : State) (m : Nat) (x : Stack) (k : Nat) : (s.setStack m x).ring k = s.ring k := rfl
@[simp] theorem State.stack_setStack_same (s : State) (m : Nat) (x : Stack) : (s.setStack m x).stack m = x := Tbl.get_set_same _ _ _ _
theorem State.stack_setStack_other (s : State) {m k : Nat} (x : Stack) (h : k ≠ m) : (s.setStack m x).stack k = s.stack k :=
  Tbl.get_set_other _ _ _ h
theorem State.stack_setStack (s : State) (m k : Nat) (x : Stack) : (s.setStack m x).stack k = if k = m then x else s.stack k :=
  Tbl.get_set _ _ _ _ _

/-! ### A task of a tile -/

@[simp] theorem Tile.setTask_nonfinite (x : Tile) (n : Nat) (t : Task) : (x.setTask n t).nonfinite = x.nonfinite := rfl
@[simp] theorem Tile.setTask_pad (x : Tile) (n : Nat) (t : Task) : (x.setTask n t).pad = x.pad := rfl
@[simp] theorem Tile.setTask_padPoison (x : Tile) (n : Nat) (t : Task) : (x.setTask n t).padPoison = x.padPoison := rfl
@[simp] theorem Tile.setTask_store (x : Tile) (n : Nat) (t : Task) : (x.setTask n t).store = x.store := rfl
@[simp] theorem Tile.setTask_routeCfg (x : Tile) (n : Nat) (t : Task) : (x.setTask n t).routeCfg = x.routeCfg := rfl
@[simp] theorem Tile.setTask_handlers (x : Tile) (n : Nat) (t : Task) : (x.setTask n t).handlers = x.handlers := rfl
@[simp] theorem Tile.setTask_lastIssued (x : Tile) (n : Nat) (t : Task) : (x.setTask n t).lastIssued = x.lastIssued := rfl
@[simp] theorem Tile.setTask_runs (x : Tile) (n : Nat) (t : Task) : (x.setTask n t).runs = x.runs := rfl
@[simp] theorem Tile.setTask_drains (x : Tile) (n : Nat) (t : Task) : (x.setTask n t).drains = x.drains := rfl
@[simp] theorem Tile.setTask_nextRun (x : Tile) (n : Nat) (t : Task) : (x.setTask n t).nextRun = x.nextRun := rfl
@[simp] theorem Tile.setTask_queued (x : Tile) (n : Nat) (t : Task) : (x.setTask n t).queued = x.queued := rfl
@[simp] theorem Tile.setTask_seqs (x : Tile) (n : Nat) (t : Task) : (x.setTask n t).seqs = x.seqs := rfl
@[simp] theorem Tile.setTask_current (x : Tile) (n : Nat) (t : Task) : (x.setTask n t).current = x.current := rfl
@[simp] theorem Tile.setTask_next (x : Tile) (n : Nat) (t : Task) : (x.setTask n t).next = x.next := rfl
@[simp] theorem Tile.setTask_rings (x : Tile) (n : Nat) (t : Task) : (x.setTask n t).rings = x.rings := rfl
@[simp] theorem Tile.setTask_delivered (x : Tile) (n : Nat) (t : Task) : (x.setTask n t).delivered = x.delivered := rfl
@[simp] theorem Tile.setTask_handling (x : Tile) (n : Nat) (t : Task) : (x.setTask n t).handling = x.handling := rfl
@[simp] theorem Tile.setTask_records (x : Tile) (n : Nat) (t : Task) : (x.setTask n t).records = x.records := rfl
@[simp] theorem Tile.setTask_recordsOver (x : Tile) (n : Nat) (t : Task) : (x.setTask n t).recordsOver = x.recordsOver := rfl
@[simp] theorem Tile.setTask_caravanRecords (x : Tile) (n : Nat) (t : Task) : (x.setTask n t).caravanRecords = x.caravanRecords := rfl
@[simp] theorem Tile.setTask_caravanOver (x : Tile) (n : Nat) (t : Task) : (x.setTask n t).caravanOver = x.caravanOver := rfl
@[simp] theorem Tile.setTask_banks (x : Tile) (n : Nat) (t : Task) : (x.setTask n t).banks = x.banks := rfl
@[simp] theorem Tile.setTask_inFlight (x : Tile) (n : Nat) (t : Task) : (x.setTask n t).inFlight = x.inFlight := rfl
@[simp] theorem Tile.setTask_recorded (x : Tile) (n : Nat) (t : Task) : (x.setTask n t).recorded = x.recorded := rfl
@[simp] theorem Tile.task_setTask_same (x : Tile) (n : Nat) (t : Task) : (x.setTask n t).task n = t := Tbl.get_set_same _ _ _ _
theorem Tile.task_setTask_other (x : Tile) {n k : Nat} (t : Task) (h : k ≠ n) : (x.setTask n t).task k = x.task k :=
  Tbl.get_set_other _ _ _ h
@[simp] theorem State.taskAt_setTaskAt (s : State) (w : Site) (t : Task) : (s.setTaskAt w t).taskAt w = t := by
  simp [State.taskAt, State.setTaskAt]

/-! ### Registers of a task -/

@[simp] theorem Task.setS_a (t : Task) (n : BitVec 5) (v : Word) (b : Bool) : (t.setS n v b).a = t.a := rfl
@[simp] theorem Task.setS_p (t : Task) (n : BitVec 5) (v : Word) (b : Bool) : (t.setS n v b).p = t.p := rfl
@[simp] theorem Task.setS_v (t : Task) (n : BitVec 5) (v : Word) (b : Bool) : (t.setS n v b).v = t.v := rfl
@[simp] theorem Task.setS_pc (t : Task) (n : BitVec 5) (v : Word) (b : Bool) : (t.setS n v b).pc = t.pc := rfl
@[simp] theorem Task.setS_tokens (t : Task) (n : BitVec 5) (v : Word) (b : Bool) : (t.setS n v b).tokens = t.tokens := rfl
@[simp] theorem Task.setS_cfg (t : Task) (n : BitVec 5) (v : Word) (b : Bool) : (t.setS n v b).cfg = t.cfg := rfl
@[simp] theorem Task.setS_slots (t : Task) (n : BitVec 5) (v : Word) (b : Bool) : (t.setS n v b).slots = t.slots := rfl
@[simp] theorem Task.setS_poisonA (t : Task) (n : BitVec 5) (v : Word) (b : Bool) : (t.setS n v b).poisonA = t.poisonA := rfl
@[simp] theorem Task.setS_poisonV (t : Task) (n : BitVec 5) (v : Word) (b : Bool) : (t.setS n v b).poisonV = t.poisonV := rfl
@[simp] theorem Task.setS_sp (t : Task) (n : BitVec 5) (v : Word) (b : Bool) : (t.setS n v b).sp = t.sp := rfl
@[simp] theorem Task.setS_is (t : Task) (n : BitVec 5) (v : Word) (b : Bool) : (t.setS n v b).is = t.is := rfl
@[simp] theorem Task.setS_acc (t : Task) (n : BitVec 5) (v : Word) (b : Bool) : (t.setS n v b).acc = t.acc := rfl
@[simp] theorem Task.setS_ovf (t : Task) (n : BitVec 5) (v : Word) (b : Bool) : (t.setS n v b).ovf = t.ovf := rfl
@[simp] theorem Task.setS_ctrl (t : Task) (n : BitVec 5) (v : Word) (b : Bool) : (t.setS n v b).ctrl = t.ctrl := rfl
@[simp] theorem Task.setS_state (t : Task) (n : BitVec 5) (v : Word) (b : Bool) : (t.setS n v b).state = t.state := rfl
@[simp] theorem Task.setS_slotMask (t : Task) (n : BitVec 5) (v : Word) (b : Bool) : (t.setS n v b).slotMask = t.slotMask := rfl
@[simp] theorem Task.setS_slotTensors (t : Task) (n : BitVec 5) (v : Word) (b : Bool) : (t.setS n v b).slotTensors = t.slotTensors := rfl
@[simp] theorem Task.setS_loads (t : Task) (n : BitVec 5) (v : Word) (b : Bool) : (t.setS n v b).loads = t.loads := rfl
@[simp] theorem Task.setS_region (t : Task) (n : BitVec 5) (v : Word) (b : Bool) : (t.setS n v b).region = t.region := rfl
@[simp] theorem Task.setS_opening (t : Task) (n : BitVec 5) (v : Word) (b : Bool) : (t.setS n v b).opening = t.opening := rfl
@[simp] theorem Task.setS_ordinal (t : Task) (n : BitVec 5) (v : Word) (b : Bool) : (t.setS n v b).ordinal = t.ordinal := rfl
@[simp] theorem Task.setS_hold (t : Task) (n : BitVec 5) (v : Word) (b : Bool) : (t.setS n v b).hold = t.hold := rfl
@[simp] theorem Task.setS_roomUsed (t : Task) (n : BitVec 5) (v : Word) (b : Bool) : (t.setS n v b).roomUsed = t.roomUsed := rfl
@[simp] theorem Task.setS_getA (t : Task) (n : BitVec 5) (v : Word) (b : Bool) (k : BitVec 4) : (t.setS n v b).getA k = t.getA k := rfl
@[simp] theorem Task.setS_getV (t : Task) (n : BitVec 5) (v : Word) (b : Bool) (k : BitVec 4) : (t.setS n v b).getV k = t.getV k := rfl
@[simp] theorem Task.setS_pred (t : Task) (n : BitVec 5) (v : Word) (b : Bool) (k : BitVec 3) : (t.setS n v b).pred k = t.pred k := rfl
@[simp] theorem Task.getS_setS_same (t : Task) (n : BitVec 5) (v : Word) (b : Bool) : (t.setS n v b).getS n = v := Tbl.get_set_same _ _ _ _
theorem Task.getS_setS_other (t : Task) {n k : BitVec 5} (v : Word) (b : Bool) (h : k ≠ n) : (t.setS n v b).getS k = t.getS k :=
  Tbl.get_set_other _ _ _ (fun e => h (BitVec.eq_of_toNat_eq e))

@[simp] theorem Task.setA_s (t : Task) (n : BitVec 4) (v : Word) (b : Bool) : (t.setA n v b).s = t.s := rfl
@[simp] theorem Task.setA_p (t : Task) (n : BitVec 4) (v : Word) (b : Bool) : (t.setA n v b).p = t.p := rfl
@[simp] theorem Task.setA_v (t : Task) (n : BitVec 4) (v : Word) (b : Bool) : (t.setA n v b).v = t.v := rfl
@[simp] theorem Task.setA_pc (t : Task) (n : BitVec 4) (v : Word) (b : Bool) : (t.setA n v b).pc = t.pc := rfl
@[simp] theorem Task.setA_tokens (t : Task) (n : BitVec 4) (v : Word) (b : Bool) : (t.setA n v b).tokens = t.tokens := rfl
@[simp] theorem Task.setA_cfg (t : Task) (n : BitVec 4) (v : Word) (b : Bool) : (t.setA n v b).cfg = t.cfg := rfl
@[simp] theorem Task.setA_slots (t : Task) (n : BitVec 4) (v : Word) (b : Bool) : (t.setA n v b).slots = t.slots := rfl
@[simp] theorem Task.setA_poisonS (t : Task) (n : BitVec 4) (v : Word) (b : Bool) : (t.setA n v b).poisonS = t.poisonS := rfl
@[simp] theorem Task.setA_poisonV (t : Task) (n : BitVec 4) (v : Word) (b : Bool) : (t.setA n v b).poisonV = t.poisonV := rfl
@[simp] theorem Task.setA_sp (t : Task) (n : BitVec 4) (v : Word) (b : Bool) : (t.setA n v b).sp = t.sp := rfl
@[simp] theorem Task.setA_is (t : Task) (n : BitVec 4) (v : Word) (b : Bool) : (t.setA n v b).is = t.is := rfl
@[simp] theorem Task.setA_acc (t : Task) (n : BitVec 4) (v : Word) (b : Bool) : (t.setA n v b).acc = t.acc := rfl
@[simp] theorem Task.setA_ovf (t : Task) (n : BitVec 4) (v : Word) (b : Bool) : (t.setA n v b).ovf = t.ovf := rfl
@[simp] theorem Task.setA_ctrl (t : Task) (n : BitVec 4) (v : Word) (b : Bool) : (t.setA n v b).ctrl = t.ctrl := rfl
@[simp] theorem Task.setA_state (t : Task) (n : BitVec 4) (v : Word) (b : Bool) : (t.setA n v b).state = t.state := rfl
@[simp] theorem Task.setA_slotMask (t : Task) (n : BitVec 4) (v : Word) (b : Bool) : (t.setA n v b).slotMask = t.slotMask := rfl
@[simp] theorem Task.setA_slotTensors (t : Task) (n : BitVec 4) (v : Word) (b : Bool) : (t.setA n v b).slotTensors = t.slotTensors := rfl
@[simp] theorem Task.setA_loads (t : Task) (n : BitVec 4) (v : Word) (b : Bool) : (t.setA n v b).loads = t.loads := rfl
@[simp] theorem Task.setA_region (t : Task) (n : BitVec 4) (v : Word) (b : Bool) : (t.setA n v b).region = t.region := rfl
@[simp] theorem Task.setA_opening (t : Task) (n : BitVec 4) (v : Word) (b : Bool) : (t.setA n v b).opening = t.opening := rfl
@[simp] theorem Task.setA_ordinal (t : Task) (n : BitVec 4) (v : Word) (b : Bool) : (t.setA n v b).ordinal = t.ordinal := rfl
@[simp] theorem Task.setA_hold (t : Task) (n : BitVec 4) (v : Word) (b : Bool) : (t.setA n v b).hold = t.hold := rfl
@[simp] theorem Task.setA_roomUsed (t : Task) (n : BitVec 4) (v : Word) (b : Bool) : (t.setA n v b).roomUsed = t.roomUsed := rfl
@[simp] theorem Task.setA_getS (t : Task) (n : BitVec 4) (v : Word) (b : Bool) (k : BitVec 5) : (t.setA n v b).getS k = t.getS k := rfl
@[simp] theorem Task.setA_getV (t : Task) (n : BitVec 4) (v : Word) (b : Bool) (k : BitVec 4) : (t.setA n v b).getV k = t.getV k := rfl
@[simp] theorem Task.setA_pred (t : Task) (n : BitVec 4) (v : Word) (b : Bool) (k : BitVec 3) : (t.setA n v b).pred k = t.pred k := rfl
@[simp] theorem Task.getA_setA_same (t : Task) (n : BitVec 4) (v : Word) (b : Bool) : (t.setA n v b).getA n = v := Tbl.get_set_same _ _ _ _
theorem Task.getA_setA_other (t : Task) {n k : BitVec 4} (v : Word) (b : Bool) (h : k ≠ n) : (t.setA n v b).getA k = t.getA k :=
  Tbl.get_set_other _ _ _ (fun e => h (BitVec.eq_of_toNat_eq e))

@[simp] theorem Task.setV_s (t : Task) (n : BitVec 4) (v : VReg) (b : Bool) : (t.setV n v b).s = t.s := rfl
@[simp] theorem Task.setV_a (t : Task) (n : BitVec 4) (v : VReg) (b : Bool) : (t.setV n v b).a = t.a := rfl
@[simp] theorem Task.setV_p (t : Task) (n : BitVec 4) (v : VReg) (b : Bool) : (t.setV n v b).p = t.p := rfl
@[simp] theorem Task.setV_pc (t : Task) (n : BitVec 4) (v : VReg) (b : Bool) : (t.setV n v b).pc = t.pc := rfl
@[simp] theorem Task.setV_tokens (t : Task) (n : BitVec 4) (v : VReg) (b : Bool) : (t.setV n v b).tokens = t.tokens := rfl
@[simp] theorem Task.setV_cfg (t : Task) (n : BitVec 4) (v : VReg) (b : Bool) : (t.setV n v b).cfg = t.cfg := rfl
@[simp] theorem Task.setV_slots (t : Task) (n : BitVec 4) (v : VReg) (b : Bool) : (t.setV n v b).slots = t.slots := rfl
@[simp] theorem Task.setV_poisonS (t : Task) (n : BitVec 4) (v : VReg) (b : Bool) : (t.setV n v b).poisonS = t.poisonS := rfl
@[simp] theorem Task.setV_poisonA (t : Task) (n : BitVec 4) (v : VReg) (b : Bool) : (t.setV n v b).poisonA = t.poisonA := rfl
@[simp] theorem Task.setV_sp (t : Task) (n : BitVec 4) (v : VReg) (b : Bool) : (t.setV n v b).sp = t.sp := rfl
@[simp] theorem Task.setV_is (t : Task) (n : BitVec 4) (v : VReg) (b : Bool) : (t.setV n v b).is = t.is := rfl
@[simp] theorem Task.setV_acc (t : Task) (n : BitVec 4) (v : VReg) (b : Bool) : (t.setV n v b).acc = t.acc := rfl
@[simp] theorem Task.setV_ovf (t : Task) (n : BitVec 4) (v : VReg) (b : Bool) : (t.setV n v b).ovf = t.ovf := rfl
@[simp] theorem Task.setV_ctrl (t : Task) (n : BitVec 4) (v : VReg) (b : Bool) : (t.setV n v b).ctrl = t.ctrl := rfl
@[simp] theorem Task.setV_state (t : Task) (n : BitVec 4) (v : VReg) (b : Bool) : (t.setV n v b).state = t.state := rfl
@[simp] theorem Task.setV_slotMask (t : Task) (n : BitVec 4) (v : VReg) (b : Bool) : (t.setV n v b).slotMask = t.slotMask := rfl
@[simp] theorem Task.setV_slotTensors (t : Task) (n : BitVec 4) (v : VReg) (b : Bool) : (t.setV n v b).slotTensors = t.slotTensors := rfl
@[simp] theorem Task.setV_loads (t : Task) (n : BitVec 4) (v : VReg) (b : Bool) : (t.setV n v b).loads = t.loads := rfl
@[simp] theorem Task.setV_region (t : Task) (n : BitVec 4) (v : VReg) (b : Bool) : (t.setV n v b).region = t.region := rfl
@[simp] theorem Task.setV_opening (t : Task) (n : BitVec 4) (v : VReg) (b : Bool) : (t.setV n v b).opening = t.opening := rfl
@[simp] theorem Task.setV_ordinal (t : Task) (n : BitVec 4) (v : VReg) (b : Bool) : (t.setV n v b).ordinal = t.ordinal := rfl
@[simp] theorem Task.setV_hold (t : Task) (n : BitVec 4) (v : VReg) (b : Bool) : (t.setV n v b).hold = t.hold := rfl
@[simp] theorem Task.setV_roomUsed (t : Task) (n : BitVec 4) (v : VReg) (b : Bool) : (t.setV n v b).roomUsed = t.roomUsed := rfl
@[simp] theorem Task.setV_getS (t : Task) (n : BitVec 4) (v : VReg) (b : Bool) (k : BitVec 5) : (t.setV n v b).getS k = t.getS k := rfl
@[simp] theorem Task.setV_getA (t : Task) (n : BitVec 4) (v : VReg) (b : Bool) (k : BitVec 4) : (t.setV n v b).getA k = t.getA k := rfl
@[simp] theorem Task.setV_pred (t : Task) (n : BitVec 4) (v : VReg) (b : Bool) (k : BitVec 3) : (t.setV n v b).pred k = t.pred k := rfl
@[simp] theorem Task.getV_setV_same (t : Task) (n : BitVec 4) (v : VReg) (b : Bool) : (t.setV n v b).getV n = v := Tbl.get_set_same _ _ _ _
theorem Task.getV_setV_other (t : Task) {n k : BitVec 4} (v : VReg) (b : Bool) (h : k ≠ n) : (t.setV n v b).getV k = t.getV k :=
  Tbl.get_set_other _ _ _ (fun e => h (BitVec.eq_of_toNat_eq e))

/-! ### The program counter -/

@[simp] theorem Task.advance_s (t : Task) (n : Nat) : (t.advance n).s = t.s := rfl
@[simp] theorem Task.advance_a (t : Task) (n : Nat) : (t.advance n).a = t.a := rfl
@[simp] theorem Task.advance_p (t : Task) (n : Nat) : (t.advance n).p = t.p := rfl
@[simp] theorem Task.advance_v (t : Task) (n : Nat) : (t.advance n).v = t.v := rfl
@[simp] theorem Task.advance_tokens (t : Task) (n : Nat) : (t.advance n).tokens = t.tokens := rfl
@[simp] theorem Task.advance_cfg (t : Task) (n : Nat) : (t.advance n).cfg = t.cfg := rfl
@[simp] theorem Task.advance_slots (t : Task) (n : Nat) : (t.advance n).slots = t.slots := rfl
@[simp] theorem Task.advance_poisonS (t : Task) (n : Nat) : (t.advance n).poisonS = t.poisonS := rfl
@[simp] theorem Task.advance_poisonA (t : Task) (n : Nat) : (t.advance n).poisonA = t.poisonA := rfl
@[simp] theorem Task.advance_poisonV (t : Task) (n : Nat) : (t.advance n).poisonV = t.poisonV := rfl
@[simp] theorem Task.advance_sp (t : Task) (n : Nat) : (t.advance n).sp = t.sp := rfl
@[simp] theorem Task.advance_is (t : Task) (n : Nat) : (t.advance n).is = t.is := rfl
@[simp] theorem Task.advance_acc (t : Task) (n : Nat) : (t.advance n).acc = t.acc := rfl
@[simp] theorem Task.advance_ovf (t : Task) (n : Nat) : (t.advance n).ovf = t.ovf := rfl
@[simp] theorem Task.advance_ctrl (t : Task) (n : Nat) : (t.advance n).ctrl = t.ctrl := rfl
@[simp] theorem Task.advance_state (t : Task) (n : Nat) : (t.advance n).state = t.state := rfl
@[simp] theorem Task.advance_slotMask (t : Task) (n : Nat) : (t.advance n).slotMask = t.slotMask := rfl
@[simp] theorem Task.advance_slotTensors (t : Task) (n : Nat) : (t.advance n).slotTensors = t.slotTensors := rfl
@[simp] theorem Task.advance_loads (t : Task) (n : Nat) : (t.advance n).loads = t.loads := rfl
@[simp] theorem Task.advance_region (t : Task) (n : Nat) : (t.advance n).region = t.region := rfl
@[simp] theorem Task.advance_opening (t : Task) (n : Nat) : (t.advance n).opening = t.opening := rfl
@[simp] theorem Task.advance_ordinal (t : Task) (n : Nat) : (t.advance n).ordinal = t.ordinal := rfl
@[simp] theorem Task.advance_hold (t : Task) (n : Nat) : (t.advance n).hold = t.hold := rfl
@[simp] theorem Task.advance_roomUsed (t : Task) (n : Nat) : (t.advance n).roomUsed = t.roomUsed := rfl
@[simp] theorem Task.advance_getS (t : Task) (n : Nat) (k : BitVec 5) : (t.advance n).getS k = t.getS k := rfl
@[simp] theorem Task.advance_getA (t : Task) (n : Nat) (k : BitVec 4) : (t.advance n).getA k = t.getA k := rfl
@[simp] theorem Task.advance_getV (t : Task) (n : Nat) (k : BitVec 4) : (t.advance n).getV k = t.getV k := rfl
@[simp] theorem Task.advance_pred (t : Task) (n : Nat) (k : BitVec 3) : (t.advance n).pred k = t.pred k := rfl
@[simp] theorem Task.advance_pc (t : Task) (n : Nat) : (t.advance n).pc = t.pc + BitVec.ofNat 16 n := rfl

/-! ### An issue -/

@[simp] theorem Tile.issued_nonfinite (x : Tile) (n : Fin 4) (t : Task) : (x.issued n t).nonfinite = x.nonfinite := rfl
@[simp] theorem Tile.issued_pad (x : Tile) (n : Fin 4) (t : Task) : (x.issued n t).pad = x.pad := rfl
@[simp] theorem Tile.issued_padPoison (x : Tile) (n : Fin 4) (t : Task) : (x.issued n t).padPoison = x.padPoison := rfl
@[simp] theorem Tile.issued_store (x : Tile) (n : Fin 4) (t : Task) : (x.issued n t).store = x.store := rfl
@[simp] theorem Tile.issued_routeCfg (x : Tile) (n : Fin 4) (t : Task) : (x.issued n t).routeCfg = x.routeCfg := rfl
@[simp] theorem Tile.issued_handlers (x : Tile) (n : Fin 4) (t : Task) : (x.issued n t).handlers = x.handlers := rfl
@[simp] theorem Tile.issued_runs (x : Tile) (n : Fin 4) (t : Task) : (x.issued n t).runs = x.runs := rfl
@[simp] theorem Tile.issued_drains (x : Tile) (n : Fin 4) (t : Task) : (x.issued n t).drains = x.drains := rfl
@[simp] theorem Tile.issued_nextRun (x : Tile) (n : Fin 4) (t : Task) : (x.issued n t).nextRun = x.nextRun := rfl
@[simp] theorem Tile.issued_queued (x : Tile) (n : Fin 4) (t : Task) : (x.issued n t).queued = x.queued := rfl
@[simp] theorem Tile.issued_seqs (x : Tile) (n : Fin 4) (t : Task) : (x.issued n t).seqs = x.seqs := rfl
@[simp] theorem Tile.issued_current (x : Tile) (n : Fin 4) (t : Task) : (x.issued n t).current = x.current := rfl
@[simp] theorem Tile.issued_next (x : Tile) (n : Fin 4) (t : Task) : (x.issued n t).next = x.next := rfl
@[simp] theorem Tile.issued_rings (x : Tile) (n : Fin 4) (t : Task) : (x.issued n t).rings = x.rings := rfl
@[simp] theorem Tile.issued_delivered (x : Tile) (n : Fin 4) (t : Task) : (x.issued n t).delivered = x.delivered := rfl
@[simp] theorem Tile.issued_handling (x : Tile) (n : Fin 4) (t : Task) : (x.issued n t).handling = x.handling := rfl
@[simp] theorem Tile.issued_records (x : Tile) (n : Fin 4) (t : Task) : (x.issued n t).records = x.records := rfl
@[simp] theorem Tile.issued_recordsOver (x : Tile) (n : Fin 4) (t : Task) : (x.issued n t).recordsOver = x.recordsOver := rfl
@[simp] theorem Tile.issued_caravanRecords (x : Tile) (n : Fin 4) (t : Task) : (x.issued n t).caravanRecords = x.caravanRecords := rfl
@[simp] theorem Tile.issued_caravanOver (x : Tile) (n : Fin 4) (t : Task) : (x.issued n t).caravanOver = x.caravanOver := rfl
@[simp] theorem Tile.issued_banks (x : Tile) (n : Fin 4) (t : Task) : (x.issued n t).banks = x.banks := rfl
@[simp] theorem Tile.issued_inFlight (x : Tile) (n : Fin 4) (t : Task) : (x.issued n t).inFlight = x.inFlight := rfl
@[simp] theorem Tile.issued_recorded (x : Tile) (n : Fin 4) (t : Task) : (x.issued n t).recorded = x.recorded := rfl
@[simp] theorem Tile.issued_lastIssued (x : Tile) (n : Fin 4) (t : Task) : (x.issued n t).lastIssued = some n := rfl
@[simp] theorem Tile.issued_task_same (x : Tile) (n : Fin 4) (t : Task) : (x.issued n t).task n.val = { t with hold := .none } :=
  Tbl.get_set_same _ _ _ _
theorem Tile.issued_task_other (x : Tile) (n : Fin 4) (t : Task) {k : Nat} (h : k ≠ n.val) :
    (x.issued n t).task k = { x.task k with hold := .none } := by
  show Tbl.get Task.reset ((x.tasks.mapAll fun e => { e with hold := Hold.none }).set n.val _) k = _
  rw [Tbl.get_set_other _ _ _ h, Tbl.get_mapAll Task.reset (fun e => { e with hold := Hold.none }) rfl]
  rfl

/-! ### Predicates -/

@[simp] theorem Task.setPred_s (t : Task) (n : BitVec 3) (b : Bool) : (t.setPred n b).s = t.s := by
  unfold Task.setPred; split <;> rfl
@[simp] theorem Task.setPred_a (t : Task) (n : BitVec 3) (b : Bool) : (t.setPred n b).a = t.a := by
  unfold Task.setPred; split <;> rfl
@[simp] theorem Task.setPred_v (t : Task) (n : BitVec 3) (b : Bool) : (t.setPred n b).v = t.v := by
  unfold Task.setPred; split <;> rfl
@[simp] theorem Task.setPred_pc (t : Task) (n : BitVec 3) (b : Bool) : (t.setPred n b).pc = t.pc := by
  unfold Task.setPred; split <;> rfl
@[simp] theorem Task.setPred_tokens (t : Task) (n : BitVec 3) (b : Bool) : (t.setPred n b).tokens = t.tokens := by
  unfold Task.setPred; split <;> rfl
@[simp] theorem Task.setPred_cfg (t : Task) (n : BitVec 3) (b : Bool) : (t.setPred n b).cfg = t.cfg := by
  unfold Task.setPred; split <;> rfl
@[simp] theorem Task.setPred_slots (t : Task) (n : BitVec 3) (b : Bool) : (t.setPred n b).slots = t.slots := by
  unfold Task.setPred; split <;> rfl
@[simp] theorem Task.setPred_poisonS (t : Task) (n : BitVec 3) (b : Bool) : (t.setPred n b).poisonS = t.poisonS := by
  unfold Task.setPred; split <;> rfl
@[simp] theorem Task.setPred_poisonA (t : Task) (n : BitVec 3) (b : Bool) : (t.setPred n b).poisonA = t.poisonA := by
  unfold Task.setPred; split <;> rfl
@[simp] theorem Task.setPred_poisonV (t : Task) (n : BitVec 3) (b : Bool) : (t.setPred n b).poisonV = t.poisonV := by
  unfold Task.setPred; split <;> rfl
@[simp] theorem Task.setPred_sp (t : Task) (n : BitVec 3) (b : Bool) : (t.setPred n b).sp = t.sp := by
  unfold Task.setPred; split <;> rfl
@[simp] theorem Task.setPred_is (t : Task) (n : BitVec 3) (b : Bool) : (t.setPred n b).is = t.is := by
  unfold Task.setPred; split <;> rfl
@[simp] theorem Task.setPred_acc (t : Task) (n : BitVec 3) (b : Bool) : (t.setPred n b).acc = t.acc := by
  unfold Task.setPred; split <;> rfl
@[simp] theorem Task.setPred_ovf (t : Task) (n : BitVec 3) (b : Bool) : (t.setPred n b).ovf = t.ovf := by
  unfold Task.setPred; split <;> rfl
@[simp] theorem Task.setPred_ctrl (t : Task) (n : BitVec 3) (b : Bool) : (t.setPred n b).ctrl = t.ctrl := by
  unfold Task.setPred; split <;> rfl
@[simp] theorem Task.setPred_state (t : Task) (n : BitVec 3) (b : Bool) : (t.setPred n b).state = t.state := by
  unfold Task.setPred; split <;> rfl
@[simp] theorem Task.setPred_slotMask (t : Task) (n : BitVec 3) (b : Bool) : (t.setPred n b).slotMask = t.slotMask := by
  unfold Task.setPred; split <;> rfl
@[simp] theorem Task.setPred_slotTensors (t : Task) (n : BitVec 3) (b : Bool) : (t.setPred n b).slotTensors = t.slotTensors := by
  unfold Task.setPred; split <;> rfl
@[simp] theorem Task.setPred_loads (t : Task) (n : BitVec 3) (b : Bool) : (t.setPred n b).loads = t.loads := by
  unfold Task.setPred; split <;> rfl
@[simp] theorem Task.setPred_region (t : Task) (n : BitVec 3) (b : Bool) : (t.setPred n b).region = t.region := by
  unfold Task.setPred; split <;> rfl
@[simp] theorem Task.setPred_opening (t : Task) (n : BitVec 3) (b : Bool) : (t.setPred n b).opening = t.opening := by
  unfold Task.setPred; split <;> rfl
@[simp] theorem Task.setPred_ordinal (t : Task) (n : BitVec 3) (b : Bool) : (t.setPred n b).ordinal = t.ordinal := by
  unfold Task.setPred; split <;> rfl
@[simp] theorem Task.setPred_hold (t : Task) (n : BitVec 3) (b : Bool) : (t.setPred n b).hold = t.hold := by
  unfold Task.setPred; split <;> rfl
@[simp] theorem Task.setPred_roomUsed (t : Task) (n : BitVec 3) (b : Bool) : (t.setPred n b).roomUsed = t.roomUsed := by
  unfold Task.setPred; split <;> rfl
@[simp] theorem Task.setPred_getS (t : Task) (n : BitVec 3) (b : Bool) (k : BitVec 5) : (t.setPred n b).getS k = t.getS k := by
  simp [Task.getS]
@[simp] theorem Task.setPred_getA (t : Task) (n : BitVec 3) (b : Bool) (k : BitVec 4) : (t.setPred n b).getA k = t.getA k := by
  simp [Task.getA]
@[simp] theorem Task.setPred_getV (t : Task) (n : BitVec 3) (b : Bool) (k : BitVec 4) : (t.setPred n b).getV k = t.getV k := by
  simp [Task.getV]
/-- A predicate other than p0 reads as written. -/
theorem Task.pred_setPred_same (t : Task) (n : BitVec 3) (b : Bool) (h : n ≠ 0) : (t.setPred n b).pred n = b := by
  unfold Task.setPred Task.pred putBit
  rw [if_neg h]
  have h0 : (n == 0) = false := by simpa using h
  have hn : n.toNat < 8 := by omega
  rw [h0, Bool.false_or]
  cases b <;> simp [hn]
/-- A write of one predicate leaves the others alone. -/
theorem Task.pred_setPred_other (t : Task) (n k : BitVec 3) (b : Bool) (h : k ≠ n) : (t.setPred n b).pred k = t.pred k := by
  unfold Task.setPred
  split
  · rfl
  · have hk : k.toNat ≠ n.toNat := fun e => h (BitVec.eq_of_toNat_eq e)
    have h1 : k.toNat < 8 := by omega
    unfold Task.pred putBit
    cases b <;> simp [h1] <;> (congr 1; (by_cases hlt : k.toNat < n.toNat <;> simp [hlt] <;> intro <;> omega))

end Sys2Proof.Machine
end

