-- ==== Sys2Proof/Laws/Ops.lean ====
section
/-! SUPPORT. What each shared operation can do, said once: which parts of the state it can change. -/

namespace Sys2Proof.Machine

/-! ### Operations that change the host interface alone -/

/-- The two states differ in the host interface at most. -/
def HostOnly (s t : State) : Prop := ∃ h, t = { s with host := h }

theorem HostOnly.refl (s : State) : HostOnly s s := ⟨s.host, rfl⟩

theorem HostOnly.trans {s t u : State} (h : HostOnly s t) (k : HostOnly t u) : HostOnly s u := by
  obtain ⟨a, rfl⟩ := h
  obtain ⟨b, rfl⟩ := k
  exact ⟨b, rfl⟩

/-- What such a step leaves: every field but the host interface. -/
theorem HostOnly.fields {s t : State} (h : HostOnly s t) :
    t.pending = s.pending ∧ t.tick = s.tick ∧ t.fresh = s.fresh ∧ t.tiles = s.tiles ∧ t.jobs = s.jobs ∧ t.mem = s.mem ∧
      t.ostlers = s.ostlers ∧ t.descs = s.descs ∧ t.courier = s.courier ∧ t.engines = s.engines ∧ t.porters = s.porters ∧
      t.health = s.health ∧ t.ports = s.ports ∧ t.boot = s.boot ∧ t.power = s.power ∧ t.stepping = s.stepping := by
  obtain ⟨a, rfl⟩ := h
  simp

theorem State.setRing_hostOnly (s : State) (n : Nat) (r : Ring) : HostOnly s (s.setRing n r) := ⟨_, rfl⟩
theorem State.due_hostOnly (s : State) (v : Nat) : HostOnly s (s.due v) := ⟨_, rfl⟩
theorem State.lose_hostOnly (s : State) : HostOnly s s.lose := ⟨_, rfl⟩

theorem State.emit_hostOnly (s : State) (w : HostWrite) : HostOnly s (s.emit w) := by
  unfold State.emit
  split <;> exact ⟨_, rfl⟩

theorem State.putEvent_hostOnly (s : State) (n : Nat) (e : Ev) : HostOnly s (s.putEvent n e) := by
  unfold State.putEvent
  dsimp only
  split
  · exact ((s.emit_hostOnly _).trans (State.setRing_hostOnly _ _ _)).trans (State.due_hostOnly _ _)
  · exact (s.emit_hostOnly _).trans (State.setRing_hostOnly _ _ _)

theorem State.deliver_hostOnly (s : State) (n : Nat) (e : Ev) : HostOnly s (s.deliver n e) := by
  unfold State.deliver
  dsimp only
  split
  · exact s.putEvent_hostOnly n e
  · exact (State.setRing_hostOnly _ _ _).trans (State.lose_hostOnly _)

theorem State.deliverDevice_hostOnly (s : State) (e : Ev) : HostOnly s (s.deliverDevice e) := by
  unfold State.deliverDevice
  dsimp only
  split
  · exact s.deliver_hostOnly _ e
  · exact s.lose_hostOnly

/-- Raising an event changes the host interface alone. -/
theorem State.raise_hostOnly (s : State) (e : Ev) : HostOnly s (s.raise e) := by
  unfold State.raise
  dsimp only
  split
  · split
    · exact s.deliver_hostOnly _ e
    · exact s.deliverDevice_hostOnly e
  · exact s.deliverDevice_hostOnly e

theorem State.event_hostOnly (s : State) (code : BitVec 16) (kind : BitVec 4) (ctx src a b : Nat) :
    HostOnly s (s.event code kind ctx src a b) := s.raise_hostOnly _

theorem flushRing_hostOnly (s : State) (n : Nat) (l : List Entry) : HostOnly s (flushRing s n l) := by
  induction l generalizing s with
  | nil => exact s.setRing_hostOnly n _
  | cons e es ih =>
    unfold flushRing
    dsimp only
    split
    · exact s.setRing_hostOnly n _
    · refine HostOnly.trans ?_ (ih _)
      split
      · exact ((s.emit_hostOnly _).trans (State.setRing_hostOnly _ _ _)).trans (State.due_hostOnly _ _)
      · exact (s.emit_hostOnly _).trans (State.setRing_hostOnly _ _ _)

/-- Completing a command changes the host interface alone. -/
theorem State.complete_hostOnly (s : State) (ring : Nat) (index : BitVec 16) (status : Byte) (a b c : Dword) :
    HostOnly s (s.complete ring index status a b c) := flushRing_hostOnly _ _ _

theorem State.startEntry_hostOnly (s : State) (ring : Nat) (index : BitVec 16) : HostOnly s (s.startEntry ring index) :=
  s.setRing_hostOnly _ _

theorem abandonRings_hostOnly (s : State) (c : Nat) (l : List Nat) : HostOnly s (abandonRings s c l) := by
  induction l generalizing s with
  | nil => exact HostOnly.refl s
  | cons n ns ih =>
    unfold abandonRings
    dsimp only
    refine HostOnly.trans ?_ (ih _)
    split
    · exact flushRing_hostOnly _ _ _
    · exact HostOnly.refl s

theorem abandonSteps_hostOnly (s : State) (c : Nat) (l : List Nat) : HostOnly s (abandonSteps s c l) := by
  induction l generalizing s with
  | nil => exact HostOnly.refl s
  | cons n ns ih =>
    unfold abandonSteps
    dsimp only
    refine HostOnly.trans ?_ (ih _)
    split
    · exact flushRing_hostOnly _ _ _
    · exact HostOnly.refl s

/-! ### Stopping a job and halting a task -/

/-- What stopping work can change: jobs, descriptors, queues, the Courier, the engines, the Porters and the host
interface; never a tile, memory, a port, the boot or the power state. -/
def WorkOnly (s t : State) : Prop :=
  t.pending = s.pending ∧ t.tick = s.tick ∧ t.tiles = s.tiles ∧ t.retired = s.retired ∧ t.mem = s.mem ∧ t.health = s.health ∧
    t.ports = s.ports ∧ t.boot = s.boot ∧ t.power = s.power ∧ t.stepping = s.stepping ∧ t.selfCoord = s.selfCoord

theorem WorkOnly.refl (s : State) : WorkOnly s s := by simp [WorkOnly]

theorem WorkOnly.trans {s t u : State} (h : WorkOnly s t) (k : WorkOnly t u) : WorkOnly s u := by
  simp only [WorkOnly] at *
  simp [h, k]

theorem HostOnly.work {s t : State} (h : HostOnly s t) : WorkOnly s t := by
  obtain ⟨a, rfl⟩ := h
  simp [WorkOnly]

theorem State.setJob_work (s : State) (c : Nat) (j : Job) : WorkOnly s (s.setJob c j) := by simp [WorkOnly]

theorem State.tallyAdd_work (s : State) (c cause n : Nat) : WorkOnly s (s.tallyAdd c cause n) := s.setJob_work _ _

theorem State.contractStall_work (s : State) (tile n : Nat) : WorkOnly s (s.contractStall tile n) := by
  unfold State.contractStall
  split
  · exact s.tallyAdd_work _ _ _
  · exact WorkOnly.refl s

theorem State.abandon_work (s : State) (c : Nat) : WorkOnly s (s.abandon c) := by
  unfold State.abandon
  dsimp only
  refine WorkOnly.trans ?_ ((abandonRings_hostOnly _ _ _).trans (abandonSteps_hostOnly _ _ _)).work
  simp [WorkOnly]

theorem State.stopNow_work (s : State) (c : Nat) : WorkOnly s (s.stopNow c) := by
  unfold State.stopNow
  exact (s.abandon_work c).trans (State.setJob_work _ _ _)

/-- Stopping a job at its Curfew touches no tile and no memory. -/
theorem State.stopAtCurfew_work (s : State) (c : Nat) : WorkOnly s (s.stopAtCurfew c) := by
  unfold State.stopAtCurfew
  dsimp only
  split
  · exact s.stopNow_work c
  · exact s.stopNow_work c
  · exact s.setJob_work _ _
  · exact s.setJob_work _ _
  · exact WorkOnly.refl s

/-- What a change of one tile can reach: that tile, and what stopping work changes. -/
def TileAndWork (u : Nat) (s t : State) : Prop :=
  (∀ v, v ≠ u → t.tile v = s.tile v) ∧ t.pending = s.pending ∧ t.tick = s.tick ∧ t.mem = s.mem ∧ t.health = s.health ∧
    t.ports = s.ports ∧ t.boot = s.boot ∧ t.power = s.power ∧ t.stepping = s.stepping

theorem TileAndWork.trans {u : Nat} {s t v : State} (h : TileAndWork u s t) (k : TileAndWork u t v) : TileAndWork u s v := by
  obtain ⟨h1, h2, h3, h4, h5, h6, h7, h8, h9⟩ := h
  obtain ⟨k1, k2, k3, k4, k5, k6, k7, k8, k9⟩ := k
  exact ⟨fun x hx => (k1 x hx).trans (h1 x hx), k2.trans h2, k3.trans h3, k4.trans h4, k5.trans h5, k6.trans h6, k7.trans h7,
    k8.trans h8, k9.trans h9⟩

theorem WorkOnly.tileAndWork {s t : State} (u : Nat) (h : WorkOnly s t) : TileAndWork u s t := by
  obtain ⟨h1, h2, h3, -, h5, h6, h7, h8, h9, h10, -⟩ := h
  exact ⟨fun v _ => by simp [State.tile, h3], h1, h2, h5, h6, h7, h8, h9, h10⟩

theorem State.setTile_tileAndWork (s : State) (u : Nat) (x : Tile) : TileAndWork u s (s.setTile u x) := by
  refine ⟨fun v hv => State.tile_setTile_other s x hv, ?_⟩
  simp

theorem State.passFrom_tileAndWork (s : State) (u : Nat) (l : List Delivered) : TileAndWork u s (s.passFrom u l) := by
  induction l generalizing s with
  | nil => exact s.setTile_tileAndWork u _
  | cons m ms ih =>
    unfold State.passFrom
    dsimp only
    split
    · exact ih s
    · split
      · refine TileAndWork.trans ?_ (ih _)
        exact ((s.setTile_tileAndWork u _).trans ((State.event_hostOnly _ _ _ _ _ _ _).work.tileAndWork u)).trans
          ((State.stopAtCurfew_work _ _).tileAndWork u)
      · exact s.setTile_tileAndWork u _

/-- A task's halt reaches its own tile, its job and the host interface, and no memory. -/
theorem State.haltTask_tileAndWork (s : State) (w : Site) (code : BitVec 16) (a b : Nat) :
    TileAndWork w.tile s (s.haltTask w code a b) := by
  unfold State.haltTask
  dsimp only
  refine TileAndWork.trans ?_ (((State.event_hostOnly _ _ _ _ _ _ _).work.trans (State.stopAtCurfew_work _ _)).tileAndWork _)
  have h1 := s.setTile_tileAndWork w.tile ((s.tile w.tile).halted w.task)
  split
  · split
    · exact h1.trans (State.passFrom_tileAndWork _ _ _)
    · exact h1
  · exact h1

theorem State.retire_tileAndWork (s : State) (w : Site) (t : Task) : TileAndWork w.tile s (s.retire w t) :=
  s.setTile_tileAndWork _ _

theorem State.holdTask_tileAndWork (s : State) (w : Site) (h : Hold) : TileAndWork w.tile s (s.holdTask w h) :=
  s.setTile_tileAndWork _ _

/-! ### The offer of an instruction -/

/-- An offered instruction that does not take effect is not taken, faults at its fetch or opcode, or is passed over. -/
theorem State.issue_cases (s : State) (i : Instr) (w : Site) (eff : State → Out) :
    s.issue i w eff = .next s ∨ (∃ code a b, s.issue i w eff = .next (s.haltTask w code a b)) ∨
      (∃ n, s.issue i w eff = .next (s.retire w ((s.taskAt w).advance n))) ∨ (s.issueOf i w = .take ∧ s.issue i w eff = eff s) := by
  unfold State.issue
  split
  · exact .inl rfl
  · exact .inr (.inl ⟨_, _, _, rfl⟩)
  · exact .inr (.inl ⟨_, _, _, rfl⟩)
  · exact .inr (.inr (.inl ⟨_, rfl⟩))
  · rename_i h
    exact .inr (.inr (.inr ⟨h, rfl⟩))

/-- An instruction that takes effect has its effect. -/
theorem State.issue_take (s : State) (i : Instr) (w : Site) (eff : State → Out) (h : s.issueOf i w = .take) :
    s.issue i w eff = eff s := by
  unfold State.issue
  rw [h]

/-- An instruction whose guard is false is passed over (R119). -/
theorem State.issue_skip (s : State) (i : Instr) (w : Site) (eff : State → Out) (n : Nat) (h : s.issueOf i w = .skip n) :
    s.issue i w eff = .next (s.retire w ((s.taskAt w).advance n)) := by
  unfold State.issue
  rw [h]

/-- A register instruction whose operands are in order retires with its result. -/
theorem State.regOp_take (s : State) (i : Instr) (w : Site) (o : RegOp) (h : s.issueOf i w = .take) (h1 : o.ok = true)
    (h2 : (s.taskAt w).waits o.ss o.vs = false) (h3 : o.eats (s.taskAt w) = false) (h4 : o.bad (s.taskAt w) = false) :
    s.regOp i w o =
      .next (s.setTile w.tile (((s.tile w.tile).issued w.task (o.run (s.taskAt w))).noteNonfinite (o.nonfinite (s.taskAt w)))) := by
  rw [State.regOp, State.issue_take s i w _ h]
  simp [State.regEffect, h1, h2, h3, h4]

/-- A register instruction reaches its own tile, its job and the host interface alone, whatever it answers. -/
theorem State.regOp_frame (s t : State) (i : Instr) (w : Site) (o : RegOp) (h : s.regOp i w o = .next t) :
    TileAndWork w.tile s t := by
  have refl : TileAndWork w.tile s s := (WorkOnly.refl s).tileAndWork _
  unfold State.regOp at h
  rcases s.issue_cases i w (fun s => s.regEffect i w o) with h1 | ⟨c, a, b, h1⟩ | ⟨n, h1⟩ | ⟨-, h1⟩
  · rw [h1] at h; cases h; exact refl
  · rw [h1] at h; cases h; exact s.haltTask_tileAndWork _ _ _ _
  · rw [h1] at h; cases h; exact s.retire_tileAndWork _ _
  · rw [h1] at h
    unfold State.regEffect at h
    dsimp only at h
    split at h
    · cases h; exact s.haltTask_tileAndWork _ _ _ _
    · split at h
      · cases h; exact s.holdTask_tileAndWork _ _
      · split at h
        · cases h
          unfold State.eatTag
          obtain ⟨a1, a2, a3, a4, a5, a6, a7, a8, a9⟩ :=
            s.haltTask_tileAndWork w 0x0202 (s.where_ w) (Config.consumedAddress s.fresh).toNat
          exact ⟨a1, a2, a3, a4, a5, a6, a7, a8, a9⟩
        · split at h
          · cases h; exact s.haltTask_tileAndWork _ _ _ _
          · cases h; exact s.setTile_tileAndWork _ _

end Sys2Proof.Machine
end

