-- ==== Sys2Proof/Tests/Fixtures.lean ====
section
/-! SUPPORT. Small states for the tests and the witnesses. -/

namespace Sys2Proof.Tests
open Sys2Proof Sys2Proof.Machine Sys2Proof.Claims
set_option Elab.async false

/-- Task 0 of tile 0. -/
def site : Site := ⟨0, 0⟩

/-- The guard p0, which is always true. -/
def always : Guard := ⟨0, 0⟩

/-- A running task with all of the scratchpad, one line of instruction store, and both drain regions. -/
def task : Task :=
  { Task.reset with
    ctrl := 0x80000000, state := .running, sp := 0x10000000, is := 0x00020000, acc := 0x00040000, ovf := 0x00040004 }

/-- A job that computes on one tile. -/
def job : Job := { Job.reset with phase := .compute, cfg := { JobCtx.none with rows := 1, cols := 1 } }

/-- The module with a tile whose task 0 is `t`, in a partition whose job computes. -/
def withTask (t : Task) (x : Tile) : State :=
  { State.reset with jobs := [(0, job)], tiles := [(0, { x with tasks := [(0, t)] })] }

/-- The words of a tile instruction as stored bytes. -/
def stored (i : Instr) : List Byte :=
  toBytes 4 ((tileWord i).getD 0).toNat ++ toBytes 4 ((tileSecond i).getD 0).toNat

/-- The same with the instruction's words at the program counter. -/
def offeredIn (i : Instr) (t : Task) (x : Tile) : State := withTask t { x with store := Mem.write [] t.pc.toNat (stored i) }

/-- The same in an empty tile. -/
def offered (i : Instr) (t : Task) : State := offeredIn i t Tile.reset

/-- The module with a job in context 0 and its one tile. -/
def withJob (j : Job) (x : Tile) : State := { State.reset with jobs := [(0, j)], tiles := [(0, x)] }

/-- A 512-bit entry with the given values at the given bits. -/
def bits (l : List (Nat × Nat)) : BitVec 512 := BitVec.ofNat 512 ((l.map fun e => e.2 * 2 ^ e.1).sum)

/-- An entry of slot 0xFFFF that has been fetched. -/
def entry (raw : BitVec 512) : Entry := ⟨0xFFFF, raw, false, false, none⟩

/-- The module with one ring, number 63, of a kind and a context, and the entry in it. -/
def ringed (kind ctx : Nat) (raw : BitVec 512) (s : State) : State :=
  { s with host := { s.host with
      busMaster := true
      rings := [(63, { Ring.reset with
        cfg := BitVec.ofNat 32 (2 ^ 31 + kind * 2 ^ 28 + ctx * 2 ^ 24), active := true, entries := [entry raw] })] } }

/-- Local memory with the 2 MiB page at VA 0 of context 0 in frames 288 to 319, its tables in frame 256, every stack
trained, and some bytes of the page. -/
def paged (data : List (Nat × List Byte)) : Memory :=
  let table := (((Mem.write [] 0x1000000 (toBytes 8 (2 ^ 62 + 0x1001000))).write 0x1001000 (toBytes 8 (2 ^ 62 + 0x1002000))).write
    0x1002000 (toBytes 8 (2 ^ 63 + 2 ^ 61 + 2 ^ 60 + 0x1200000)))
  { Memory.reset with
    data := data.foldl (fun m d => m.write (0x1200000 + d.1) d.2) table
    owner := (256, 0) :: (List.range 32).map fun i => (288 + i, 0)
    stackTbl := (List.range 8).map fun m => (m, { Stack.reset with trained := true }) }

/-- A job whose page-table root is that page's. -/
def pagedJob : Job := { job with cfg := { job.cfg with ptRoot := 0x1000000, tag := 7 } }

/-- An entry of context 0 with an opcode and its body's fields, on a ring that serves every context. -/
def commandRaw (op : Nat) (l : List (Nat × Nat)) : BitVec 512 := bits ((504, op) :: l)

/-- An accepted flit that carries what a sent one does. -/
def flitOf (t : TxFlit) : Flit :=
  { type := t.type, seq := 0, ack := 0, nak := false, credit1 := 0, credit0 := 0, poison := t.poison, nonfinite := t.nonfinite
    granules := 0, courier := t.courier, payload := t.payload }

/-- A port that carries a session, with accepted flits to take. -/
def linkedWith (l : List TxFlit) : Port := { Port.reset with enable := true, link := .run, session := some 1, rx := l.map flitOf }

/-- The module whose port 0 carries a session and has these flits to take. -/
def flitted (s : State) (l : List TxFlit) : State := { s with ports := [(0, linkedWith l)] }

theorem hasFlit_of (x : Port) (l : List TxFlit) (f : TxFlit) (hx : x.rx = l.map flitOf) (h : f ∈ l) : x.hasFlit f = true := by
  rw [Port.hasFlit, hx]
  exact List.any_eq_true.2 ⟨flitOf f, List.mem_map_of_mem h, by simp [isFlit, flitOf]⟩

theorem accepts_of (s : State) (l : List TxFlit) (f : TxFlit) (h : f ∈ l) : Accepts (flitted s l) 0 f :=
  ⟨rfl, hasFlit_of _ l f rfl h⟩

theorem heard_of (x : Port) (step : Nat) (content : List Byte) (h : x.authIn = authPieces step content) :
    x.heard step content = true := by
  simp [Port.heard, h]

theorem no_adds (s : State) (c : Nat) (h1 : s.descs = []) (h2 : s.engineDescs = []) (h3 : s.host.rings = []) : NoAdds s c := by
  simp [NoAdds, h1, h2, State.ring, h3, Tbl.get, Ring.reset]

def fineSt {α : Type} (r : State × Option α) : Bool := r.2.isNone

def okSt {α β : Type} (r : State × Except α β) : Bool :=
  match r.2 with
  | .ok _ => true
  | .error _ => false

def okVal {α β : Type} (r : Except α β) : Bool :=
  match r with
  | .ok _ => true
  | .error _ => false

end Sys2Proof.Tests
end

