-- ==== Sys2Proof/Tests/DeviceWitnesses.lean ====
section
/-! SUPPORT. States and operands that meet the hypotheses of the statements about the Health Engine, local memory, the host
interface, the ports, boot, power and the machine as a whole: one witness for each statement. -/

namespace Sys2Proof.Tests
open Sys2Proof Sys2Proof.Machine Sys2Proof.Claims
set_option Elab.async false

/-- The module with its boot done. -/
def booted (s : State) : State := { s with boot := { s.boot with done := true, phase := .done } }

/-- A failure of one tile's array test. -/
def failure : TestFailure := ⟨1, 1, 77, 3⟩

theorem witness_FieldTestsRun :
    (∀ n ∈ [1, 60000], let raw := commandRaw 0x40 [(0, 31), (8, 15), (32, n)]
      let s := ringed 5 0xE raw State.reset
      s.entryOf 63 0x40 = some (entry raw) ∧ headerFault (s.ring 63) raw 8 = none ∧ bodyAt raw 0 1 = 31 ∧ bodyAt raw 1 1 = 15 ∧
        bodyAt raw 4 4 = n ∧ s.anyJob = false ∧ s.health.running = none ∧
        ({ s with jobs := [(0, job)] } : State).anyJob = true) ∧
    (∀ l ∈ [0x0A, 0x02], let s := { State.reset with health := { Health.reset with running := some (63, 0), tests := BitVec.ofNat 5 l } };
      s.health.running = some (63, 0) ∧ s.health.tests.getLsbD failure.test.val = true ∧ failure.kind = 1 ∧
        failure.test.val < 3 ∧ s.health.tests.getLsbD 3 = (l == 0x0A)) ∧
    (let raw := commandRaw 0x40 [(0, 31), (8, 15), (32, 1)];
      let s := { ringed 5 0xE raw State.reset with health := { Health.reset with running := some (63, 0) } };
      s.entryOf 63 0x40 = some (entry raw) ∧ s.anyJob = false ∧ s.health.running.isSome = true) ∧
    (∀ b ∈ [true, false], let s := { State.reset with ports := [(7, { Port.reset with link := .run, loopback := b })] }
      (s.port 7).loopback = b) ∧
    (∀ n ∈ [0, 0x400000 - 64], let raw := commandRaw 0x41 [(0, 0x8000), (64, n), (96, 64)]
      let s := ringed 5 0xE raw State.reset
      s.entryOf 63 0x41 = some (entry raw) ∧ headerFault (s.ring 63) raw 16 = none ∧ bodyAt raw 0 8 % 64 = 0 ∧
        bodyAt raw 12 4 % 64 = 0 ∧ bodyAt raw 8 4 + bodyAt raw 12 4 ≤ 2 ^ 22) ∧ State.reset.health.running = none := by
  refine ⟨?_, ?_, ?_, ?_, ?_, ?_⟩ <;> decide +kernel

theorem witness_RecordsAreAppended :
    let r : LogRec := ⟨1, 0x0702, 77, 5, 0, 1, 0⟩
    let s := { State.reset with health := { Health.reset with pendingRecs := [r, { r with kind := 2 }] } }
    s.health.pendingRecs = r :: [{ r with kind := 2 }] ∧ 5 ≤ s.health.erased ∧ r.kind = 1 ∧ r.code = 0x0702 ∧
      2 ≤ ((((({ s.health with pendingRecs := [r] } : Health).put r).compact 0).history 1 r.unit 0).countP (·.code == 0x0702)) := by
  decide +kernel

theorem witness_LinesAreRead :
    (∀ armed ∈ [true, false],
      let s := { State.reset with mem := { paged [] with inject := if armed then 2 ^ 63 + 0x48000 * 2 ^ 6 else 0 } }
      s.served 0x1200000 = none ∧ s.mem.errors = [] ∧ s.linePoison 0x48000 = false ∧
        (s.mem.inject.getLsbD 63 && (s.mem.inject.extractLsb' 6 34).toNat == 0x48000) = armed) ∧
    (∀ n ∈ [1, 35], (0 / 36 : Nat) = n / 36 ∧ n < 72) ∧ (0x1000000 / 65536 : Nat) = 256 ∧
    (let s := { State.reset with mem := paged [] }; (0xFFFFC0 / 65536 : Nat) < 256 ∧ (s.stack (stackOfPA 0xFFFFC0)).trained = true) ∧
    (State.reset.stack (stackOfPA 0x1000000)).trained = false := by
  refine ⟨?_, ?_, ?_, ?_, ?_⟩ <;> decide +kernel

theorem witness_LinesAreWritten :
    (∀ a ∈ [0x1200000, 0x120003F], let s := { State.reset with mem := paged [] }
      s.served a = none ∧ 256 ≤ a / 65536 ∧ a % 64 + 1 ≤ 64 ∧ Memory.wf s.mem.data = true ∧ s.mem.errors = [] ∧
        s.mem.inject.getLsbD 63 = false) ∧
    (let s := { State.reset with mem := paged [] }; s.served 0xFFFFC0 = none ∧ s.mem.errors = []) ∧
    (∀ v ∈ [2 ^ 63 + 2 * 2 ^ 61, 2 ^ 63 + 35, 2 ^ 63 + 2 ^ 61], (booted State.reset).blocksOpen = true ∧
      (BitVec.ofNat 64 v).getLsbD 63 = true ∧
      (((BitVec.ofNat 64 v).extractLsb' 61 2).toNat = 2 ∨
        ((BitVec.ofNat 64 v).extractLsb' 61 2).toNat < 2 ∧ ((BitVec.ofNat 64 v).extractLsb' 0 6).toNat < 36)) ∧
    (booted State.reset).anyJob = false ∧ (booted (withJob job Tile.reset)).anyJob = true := by
  refine ⟨?_, ?_, ?_, ?_⟩ <;> decide +kernel

theorem witness_FramesChangeHands :
    (let raw := commandRaw 0x10 [(0, 320), (32, 2)];
      let s := ringed 1 0xE raw { State.reset with mem := paged [] };
      headerFault (s.ring 63) raw 8 = none ∧ s.mem.errors = [] ∧ s.mem.inject.getLsbD 63 = false ∧ s.entryOf 63 0x10 = some (entry raw) ∧ bodyAt raw 0 4 = 320 ∧ bodyAt raw 4 4 = 2 ∧
        (∀ f ∈ [320, 321], s.ownerOf f = 0xF ∧ (s.stack (stackOfPA (f * 65536))).trained = true) ∧ s.ownerOf 319 ≠ 0xF) ∧
    (let raw := commandRaw 0x11 [(0, 288), (32, 2)];
      let s := ringed 1 0xE raw { State.reset with mem := paged [] };
      headerFault (s.ring 63) raw 8 = none ∧ s.entryOf 63 0x11 = some (entry raw) ∧ bodyAt raw 0 4 = 288 ∧ bodyAt raw 4 4 = 2 ∧
        (∀ f ∈ [288, 289], s.owns 0 f = true) ∧ s.owns 0 320 = false) ∧
    (let r : Release := ⟨63, 0, 0, [288, 289]⟩;
      let s := { State.reset with mem := { paged [] with releases := [r] } };
      s.mem.releases.find? (fun r => 288 ∈ r.frames) = some r ∧ (∃ g ∈ r.frames, g ≠ 288) ∧ s.mem.inject.getLsbD 63 = false ∧
        s.mem.errors = [] ∧
        s.mem.releases.find? (fun r => 290 ∈ r.frames) = none) := by
  refine ⟨?_, ?_, ?_⟩ <;> decide +kernel

theorem witness_RecordsAreInRingOrder :
    let e := entry (commandRaw 0x30 [])
    let x := { e with index := 1 }
    let s := ringed 4 0 (commandRaw 0x30 []) State.reset
    let t := s.setRing 63 { s.ring 63 with entries := [e, x] }
    s.host.busMaster = true ∧ (s.ring 63).entries = [e] ∧ e.done = none ∧ t.host.busMaster = true ∧ (t.ring 63).entries = [e, x] ∧
      x.done = none ∧ x.index = 1 ∧ e.index ≠ 1 := by
  decide +kernel

/-- A booted module with ring 5 of a kind and a context, of depth 64 and enabled. -/
def served (kind ctx : Nat) : State :=
  booted { State.reset with host := { HostIf.reset with
    busMaster := true
    rings := [(5, { Ring.reset with
      cfg := BitVec.ofNat 32 (2 ^ 31 + kind * 2 ^ 28 + ctx * 2 ^ 24), active := true, bell := 3 })] } }

theorem witness_RingsServe :
    (∀ v ∈ [0x8E000000, 0xFE000000], (booted State.reset).blocksOpen = true ∧ (BitVec.ofNat 32 v).getLsbD 31 = true ∧
      ((booted State.reset).ring 5).enabled = false ∧
      ringCfgOk ((BitVec.ofNat 32 v) &&& 0xFFFFFE00) = decide (v = 0x8E000000)) ∧
    (let s := served 0 0xE;
      s.blocksOpen = true ∧ (s.ring 5).enabled = true ∧ (s.ring 5).kind = 0 ∧
        ((0x8E100000 : Word) &&& 0x7FFFFE00) ≠ ((s.ring 5).cfg &&& 0x7FFFFFFF) ∧
        ((0x0E000000 : Word) &&& 0x7FFFFE00) = ((s.ring 5).cfg &&& 0x7FFFFFFF) ∧ (s.ring 5).depth = 64 ∧
        (s.ring 5).outstanding 63 < 64 ∧ s.turn 0 = some 5 ∧ opcodeOk (s.ring 5) (commandRaw 1 []) = true) ∧
    (let r := (served 0 0xE).ring 5;
      let x := { r with entries := List.replicate 4 (entry (commandRaw 1 [])) };
      r.depth ≤ 64 ∧ x.depth ≤ x.outstanding 60) ∧
    (∀ n ∈ [0, 3], let s := served 6 0xE
      let r := { s.ring 5 with lostHere := n, read := 0, write := 10 }
      s.blocksOpen = true ∧ r.enabled = true ∧ r.kind = 6 ∧ 63 < r.depth ∧ r.lostHere = n ∧ r.depth ≤ 64 ∧
        2 ≤ ({ r with read := 63 } : Ring).free) ∧
    (let s := served 6 0xE; s.turn 6 ≠ some 5) ∧
    (let s := served 0 0xE; opcodeOk (s.ring 5) (commandRaw 0xFF []) = false) ∧
    (let raw := commandRaw 1 [];
      let s := ringed 0 0xE raw State.reset;
      (s.ring 63).kind = 0 ∧ s.host.busMaster = true ∧ (s.ring 63).nextEntry headerOrder = some (entry raw) ∧
        readsHost raw = true) := by
  refine ⟨?_, ?_, ?_, ?_, ?_, ?_, ?_⟩ <;> decide +kernel

theorem witness_FunctionResets :
    ((withJob job Tile.reset).job 0).present = true ∧ ((withJob job Tile.reset).job 1).phase = .empty ∧
    (State.reset.boot.done = false ∧ State.reset.boot.hostLoading = false ∧ (booted State.reset).boot.done = true) ∧
    (∀ r ∈ [4, 5], let s := booted { State.reset with host := { HostIf.reset with perst := false } }
      s.host.perst = false ∧ s.power.mainOff = false ∧ s.boot.phase ≠ .romState ∧ 4 ≤ r ∧ r ≤ s.boot.topRate ∧
        (16 : BitVec 6).toNat ∈ [4, 8, 16]) ∧
    State.reset.host.perst = true := by
  refine ⟨?_, ?_, ?_, ?_, ?_⟩ <;> decide +kernel

theorem witness_RegistersAndInterrupts :
    (let s := booted State.reset;
      s.boot.done = true ∧ s.power.mainOff = false ∧ s.boot.running ≠ .recovery ∧ s.host.halves = [] ∧
        ∀ n ∈ [0, 63], (s.ring n).enabled = false) ∧
    (∀ a ∈ [(2, 4), (4, 8), (0x40008, 2)], (booted State.reset).barOpen = true ∧ accessOk a.1 a.2 = false) ∧
    (∀ a ∈ [0x40008, 0x200008, 0x301000], (booted State.reset).counter a = some 0 ∧ (booted State.reset).present a = true) ∧
    ((booted State.reset).counter 4 = none ∧ (booted State.reset).counter 0 = none) ∧
    (let s := { State.reset with tick := 5000, host := { HostIf.reset with
        busMaster := true, msixDue := 2 ^ 63, msix := [(63, ⟨0xFEE00000, 7, false⟩)], msixLast := [(63, 4999)] } };
      s.host.msixDue.getLsbD 63 = true ∧ s.host.mayFire 63 s.tick = false) ∧
    (∀ masked ∈ [false, true], let s := { State.reset with tick := 5000, host := { HostIf.reset with
        busMaster := true, msixDue := 2 ^ 63, msix := [(63, ⟨0xFEE00000, 7, masked⟩)] } }
      s.host.msixDue.getLsbD 63 = true ∧ s.host.busMaster = true ∧ (s.host.msix.get Msix.reset 63).masked = masked ∧
        s.host.mayFire 63 s.tick = true) ∧
    ((booted State.reset).blocksOpen = true ∧ State.reset.host.msixDue.getLsbD 63 = false) := by
  refine ⟨?_, ?_, ?_, ?_, ?_, ?_, ?_⟩ <;> decide +kernel

/-- The module with port 1 as given. -/
def ported (x : Port) : State := booted { State.reset with ports := [(1, x)] }

theorem witness_LinksComeUp :
    (∀ hot ∈ [true, false], let s := ported { Port.reset with laser := true, hot := hot }
      s.blocksOpen = true ∧ (s.port 1).hot = hot ∧ (s.port 1).link = .off ∧ (s.port 1).laser = true ∧
        (0x80000000 : Word).getLsbD 31 = true ∧ (0x80000000 : Word).getLsbD 30 = false ∧ (0 : Word).getLsbD 31 = false) ∧
    (∀ l ∈ [Link.detect, .train, .auth, .run], let s := ported { Port.reset with enable := true, link := l }
      (s.port 1).enable = true ∧ (s.port 1).link = l ∧ l ≠ .off ∧ l ≠ .quarantine) ∧
    (∀ l ∈ [Link.off, .holdoff, .quarantine], (({ Port.reset with link := l } : Port).link = .off ∨ l ∈ [.off, .holdoff, .quarantine])) ∧
    (Port.reset.enable = false) ∧
    ((lanesOf 0xFFFF).length = 16 ∧ (lanesOf 0x7FFF).length = 15) ∧
    (∀ n ∈ [3, 4], let s := ported { Port.reset with link := .holdoff, holdoffs := n }
      (s.port 1).link = .holdoff ∧ (s.port 1).holdoffs = n) := by
  refine ⟨?_, ?_, ?_, ?_, ?_, ?_⟩ <;> decide +kernel

/-- A port that runs on the lanes of a mask. -/
def running (m : BitVec 34) : Port :=
  { Port.reset with
    enable := true, laser := true, link := .run, session := some 1, txKey := some [], rxKey := some [], activeRx := m, goodRx := m
    activeTx := m }

theorem witness_LanesAreKept :
    (∀ a ∈ [(0x7FFF, 0), (0xFFFF, 16), (0x1FFFF, 16), (0x3FFFFFFFF, 32)],
      let s := ported { Port.reset with link := .train }
      (s.port 1).link = .train ∧ (s.port 1).retrained = false ∧ activeLanes (s.goodLanes 1 (BitVec.ofNat 34 a.1)).length = a.2) ∧
    (∀ e ∈ [none, some 1], let x := { running 0xFFFFFFFF with goodRx := 0x3FFFFFFFF, erased := e }
      x.live = true ∧ x.goodRx.getLsbD 33 = true ∧ x.activeRx.getLsbD 33 = false ∧ x.activeRx.getLsbD 0 = true ∧
        x.wanted.2.getLsbD 33 = false ∧
        activeLanes ((ported x).goodLanes 1 (x.goodRx &&& ~~~(laneMask [0]))).length ≠ 0 ∧ x.erased = e ∧
        20 ≤ (lanesOf x.activeRx).length ∧ x.berCount.get 0 0 < 15) ∧
    (let x := { running 0xFFFFFFFF with goodRx := 0x3FFFFFFFF, mapAsked := [(1, 0x2FFFFFFFE)] };
      x.live = true ∧ x.goodRx.getLsbD 33 = true ∧ x.activeRx.getLsbD 33 = false ∧ x.wanted.2.getLsbD 33 = true ∧
        activeLanes ((ported x).goodLanes 1 (x.goodRx &&& ~~~(laneMask [33]))).length ≠ 0) ∧
    (let x := running 0x3FFFF;
      x.live = true ∧ x.activeRx.getLsbD 0 = true ∧
        activeLanes ((ported x).goodLanes 1 (x.goodRx &&& ~~~(laneMask [0]))).length ≠ 0 ∧ (lanesOf x.activeRx).length < 20) ∧
    (let x := running 0xFFFF;
      x.activeRx.getLsbD 0 = true ∧ activeLanes ((ported x).goodLanes 1 (x.goodRx &&& ~~~(laneMask [0]))).length = 0) ∧
    (let x := { running 0xFFFF with berCount := [(0, 15)] }; x.live = true ∧ x.goodRx.getLsbD 0 = true ∧ x.berCount.get 0 0 = 15) ∧
    (let x := { running 0xFFFF with naks := 257 }; x.live = true ∧ nakLimit x < x.naks) ∧
    (Port.reset.naks ≤ nakLimit Port.reset ∧ Port.reset.live = false) := by
  refine ⟨?_, ?_, ?_, ?_, ?_, ?_, ?_, ?_⟩ <;> decide +kernel

theorem witness_LanesAreKept_notices (f : TxFlit) :
    let x : Port := { running 0xFFFF with rx := [flitOf f] }
    x.live = true ∧ x.hasFlit f = true := ⟨rfl, hasFlit_of _ [f] f rfl (by simp)⟩

/-- A HELLO of port 0 to port 1. -/
def greeting (version port : Nat) (serial : BitVec 128) : Hello := ⟨BitVec.ofNat 8 version, 9, serial, BitVec.ofNat 3 port, 5⟩

/-- A port in an exchange at a step, with a message to hear. -/
def talking (r : Bool) (step mine heard : Nat) (content : List Byte) : Port :=
  { Port.reset with
    enable := true, link := if r then .run else .auth, session := if r then some 1 else none, authStep := step, mySteps := mine
    reauth := r, authIn := authPieces heard content }

theorem witness_PartnersAuthenticate :
    (∀ r step mine k content, (talking r step mine k content).heard k content = true ∧ (talking r step mine k content).authing = true ∧
      (talking r step mine k content).authStep = step ∧ (talking r step mine k content).mySteps = mine ∧
      (talking r step mine k content).reauth = r) ∧
    (∀ a ∈ [(1, 0), (2, 0), (1, 1)], let h := greeting a.1 a.2 7
      let s := ported { talking false 0 0 1 [] with expectEn := true, peerExpect := 5 }
      h.serial ≠ s.boot.serial ∧ decide (h.version = 1 ∧ h.port.toNat = 1 ^^^ 1 ∧ (s.port 1).peerExpect.extractLsb' 0 20 = h.coord) =
        decide (a = (1, 0))) ∧
    (let h := greeting 1 1 State.reset.boot.serial;
      let s := { ported { talking false 0 0 1 [] with nonce := 9 } with
        health := { Health.reset with running := some (63, 0), tests := 16, body := BitVec.ofNat 512 (2 ^ 25) } };
      h.serial = s.boot.serial ∧ h.nonce = (s.port 1).nonce ∧ s.healthOwns 1 = true ∧ (s.port 1).expectEn = false) ∧
    (∀ content, let x : Port := { talking true 0 0 1 content with reauth := false }
      x.carries = true ∧ x.reauth = false ∧ x.authStep % 4 = 0 ∧ x.heard 1 content = true ∧ x.expectEn = false) ∧
    (∀ n ∈ [0, 1], decide ((BitVec.ofNat 3 n).toNat = Port.reset.peerNumber 1) = (n == 0)) ∧
    (let s := ported { Port.reset with enable := true, link := .run, session := some 1 };
      let u := { s with boot := { s.boot with identity := true } };
      u.blocksOpen = true ∧ (0xC0000000 : Word).getLsbD 30 = true ∧ (0xC0000000 : Word).getLsbD 31 = true ∧ (u.port 1).link = .run ∧
        (u.port 1).session.isSome = true ∧ (u.port 1).reauth = false ∧ u.boot.identity = true) := by
  refine ⟨fun r step mine k content => ⟨heard_of _ k content rfl, by cases r <;> rfl, rfl, rfl, rfl⟩, ?_, ?_,
    fun content => ⟨rfl, rfl, rfl, heard_of _ 1 content rfl, rfl⟩, ?_, ?_⟩ <;> decide +kernel

/-- A COURIER flit to send. -/
def txFlit : TxFlit := ⟨1, 0, [], 0, false⟩

theorem witness_SlotsAreSent :
    (let x := running 0xFFFF; x.live = true ∧ x.txSlot % 257 = 0 ∧ x.txEpoch ≠ 0xFFFF ∧ State.reset.courier.held = []) ∧
    (let x := { running 0xFFFF with txSlot := 1, resend := [(0, txFlit)] }; x.live = true ∧ x.txSlot % 257 ≠ 0 ∧ x.resend = [(0, txFlit)]) ∧
    (let x := { running 0xFFFF with txSlot := 1284, class0 := [txFlit] };
      x.resend = [] ∧ x.retry.length < 4096 ∧ x.pick x.class0 = some (txFlit, []) ∧ 0 < x.credit0) ∧
    (let x := { running 0xFFFF with txSlot := 1, class1 := [txFlit] };
      x.resend = [] ∧ x.retry.length < 4096 ∧ x.pick x.class0 = none ∧ x.pick x.class1 = some (txFlit, []) ∧ 0 < x.credit1) ∧
    (let x := { running 0xFFFF with txSlot := 1, class1 := [txFlit], credit1 := 0 };
      x.resend = [] ∧ x.pick x.class0 = none ∧ x.credit1 = 0) ∧
    Port.reset.live = false := by
  refine ⟨?_, ?_, ?_, ?_, ?_, ?_⟩ <;> decide +kernel

/-- A block that passed the decoder, with its CRC-32C; a marker of FRAME 0 with a POSITION; and a slot that failed. -/
def block (l : List Byte) : RxSlot := ⟨true, withCrc (l ++ List.replicate (252 - l.length) 0)⟩
def marker (position : Byte) (tag : Byte) : RxSlot := block [0, 0, 0, 0, 0, 0, 0, position, tag]
def lostSlot : RxSlot := ⟨false, []⟩

/-- Two markers of one batch cannot both carry its tag. -/
theorem one_tag_differs (t : BitVec 128) (h : (marker 0 0).tag ≠ (marker 0 1).tag) : t ≠ (marker 0 0).tag ∨ t ≠ (marker 0 1).tag := by
  by_cases h0 : t = (marker 0 0).tag
  · exact .inr (h0 ▸ h)
  · exact .inl h0

theorem witness_FramesAreTaken :
    ((marker 4 0).good = true ∧ (marker 4 0).badMarker = false ∧ (marker 5 0).good = true ∧ (marker 5 0).badMarker = true ∧
      lostSlot.good = false ∧ (block []).good = true) ∧
    (let x := running 0xFFFF;
      x.live = true ∧ x.session.isSome = true ∧ x.naks + 1 ≤ nakLimit x ∧ x.inOrder (marker 4 0) = false ∧
        ({ x with rxEpoch := 0xFFFF } : Port).inOrder (marker 4 0) = true ∧ x.dropNext = false ∧ x.rxMark = none ∧
        [lostSlot].all RxSlot.good = false) ∧
    (let x := { running 0xFFFF with rxEpoch := 0xFFFF, rxMark := some (List.replicate 8 0) };
      x.inOrder (marker 0 0) = true ∧ x.inOrder (marker 0 1) = true ∧ [block []].all RxSlot.good = true ∧
        x.frameKey (marker 0 0).tag = some [] ∧ x.frameKey (marker 0 1).tag = some [] ∧ (marker 0 0).tag ≠ (marker 0 1).tag) ∧
    (∀ b ∈ [true, false], let x := { Port.reset with enable := true, link := .auth, rxMark := some (List.replicate 8 0) }
      let l := [if b then block [] else block [0xFF]]
      x.live = true ∧ x.frameKey (marker 0 0).tag = none ∧ x.session = none ∧ (marker 0 0).tag = 0 ∧
        x.inOrder (marker 0 0) = true ∧ l.all RxSlot.good = true ∧
        (x.acceptAll (l.mapIdx fun n (z : RxSlot) => z.flit none 0 n)).2 = b ∧
        (x.acceptAll (l.mapIdx fun n (z : RxSlot) => z.flit none 0 n)).1.naks = 0) := by
  refine ⟨?_, ?_, ?_, ?_⟩ <;> decide +kernel

theorem witness_FramesAreTaken_flits :
    (∀ f ∈ ([(1, 0), (5, 0), (1, 1)] : List (Nat × Nat)), let g : Flit := ⟨BitVec.ofNat 4 f.1, BitVec.ofNat 16 f.2, 0, false, 0, 0, 0, false, 15, 0, []⟩
      decide (g.seq = (running 0xFFFF).rxSeq) = (f.2 == 0) ∧ g.type ≠ 0) ∧
    (∀ nak ∈ [true, false], let x := { running 0xFFFF with rx := [⟨0, 0, 0, nak, 3, 1, 0, false, 0, 0, []⟩] }
      x.live = true ∧ x.rx.any (isIdle 0 nak 3 1) = true ∧ x.rx.any (isIdle 1 nak 3 1) = false ∧ x.naks + 1 ≤ nakLimit x) ∧
    (let x := { running 0xFFFF with rx := [⟨0, 0, 0, true, 3, 1, 0, false, 0, 0, []⟩], naks := 256 };
      x.rx.any (isIdle 0 true 3 1) = true ∧ nakLimit x ≤ x.naks) ∧
    (∀ l ∈ [[], [0]], let s := { withJob job Tile.reset with
        ports := [(1, { running 0xFFFF with class1 := [txFlit], credit1 := 0, starved := l })] }
      (s.port 1).carries = true ∧ (s.port 1).class1 ≠ [] ∧ (s.port 1).credit1 = 0 ∧ (s.job 0).present = true ∧
        decide (0 ∈ (s.port 1).starved) = !l.isEmpty) := by
  refine ⟨?_, ?_, ?_, ?_⟩ <;> decide +kernel

/-- A firmware image with a sequence number, and without a fault. -/
def image (n : Nat) : Image := ⟨false, BitVec.ofNat 32 n, 1, 0, 1, 2, 3, 4⟩

/-- The boot that has found images in the slots. -/
def bootOf (a b r : Image) (p : BootPhase) : Boot :=
  { Boot.reset with slotA := a, slotB := b, recovery := r, aValid := !a.blank, bValid := !b.blank, phase := p }

/-- Power with every main rail up. -/
def powered : Power := { Power.reset with mainGood := true, vinGood := true, railsUp := List.range 10, rootLock := true }

theorem witness_BootRuns :
    (let x := bootOf (image 4) (image 5) blankImage .rom;
      (x.bValid && !x.bBad) = true ∧ newerB x.slotA.sequence x.slotB.sequence = true) ∧
    (let x := bootOf (image 5) (image 4) blankImage .rom;
      (x.aValid && !x.aBad) = true ∧ newerB x.slotA.sequence x.slotB.sequence = false) ∧
    (let x := bootOf blankImage blankImage (image 1) .rom; (x.aValid && !x.aBad) = false ∧ (x.bValid && !x.bBad) = false ∧
      x.reason x.recovery false = 0) ∧
    (let x := bootOf blankImage blankImage blankImage .rom; x.reason x.recovery false ≠ 0) ∧
    (∀ r ∈ [Running.slotA, .slotB, .recovery],
      ({ bootOf (image 4) (image 5) (image 1) .firmware with running := r } : Boot).phase = .firmware) ∧
    (let x := bootOf blankImage blankImage blankImage .hostWait; x.reason (image 1) true = 0 ∧ x.reason blankImage true ≠ 0) ∧
    (powered.mainGood = true ∧ powered.rootLock = true) := by
  refine ⟨?_, ?_, ?_, ?_, ?_, ?_, ?_⟩ <;> decide +kernel

theorem witness_RailsAndClocks :
    (∀ l ∈ [[], [4]], let p := { Power.reset with vinGood := true, railsUp := l }
      let s := { State.reset with power := p, boot := { Boot.reset with phase := .rails } }
      s.boot.phase = .rails ∧ p.vinGood = true ∧ p.mainOff = false ∧ p.mainGood = false ∧
        p.rising = (if l.isEmpty then [4] else [0, 1, 2, 3])) ∧
    (powered.mainGood = true ∧ powered.mainOff = false ∧ powered.rootLock = true ∧ powered.rising = []) ∧
    (∀ h ∈ [true, false], let p := { powered with rootLock := false, lossHandling := h, relockTries := 2 }
      p.rootLock = false ∧ p.mainGood = true ∧ p.lossHandling = h ∧ 2 ≤ p.relockTries) ∧
    (({ powered with critical := [3] } : Power).critical ≠ [] ∧ powered.critical = []) ∧
    (∀ mV ∈ [37999, 38000, 39999, 40000, 60000, 60001, 62001], (BitVec.ofNat 16 mV).toNat = mV) ∧
    (State.reset.boot.phase ≠ .rails ∧ Power.reset.rootLock = false ∧ Power.reset.mainGood = false) := by
  refine ⟨?_, ?_, ?_, ?_, ?_, ?_⟩ <;> decide +kernel

theorem witness_ThrottleFollows :
    (powered.limit.toNat < 2401 ∧ ({ powered with overRun := 1 } : Power).overRun = 1 ∧ powered.overRun = 0) ∧
    (let p := { powered with underRun := 9, powerReq := 2 }; 2159 * 10 < p.limit.toNat * 9 ∧ 9 ≤ p.underRun ∧ p.powerReq ≠ 0) ∧
    (powered.alertIn = false ∧ ({ powered with alertIn := true } : Power).alertIn = true) ∧
    (let s := { withJob { job with phase := .loaded } Tile.reset with power := { powered with requested := 3 } };
      s.power.step ≠ s.power.requested ∧ s.power.rootLock = true ∧ s.stepMay = true ∧ (s.job 0).present = true) ∧
    (let s := { withJob job Tile.reset with power := { powered with requested := 3 } }; s.stepMay = false) := by
  refine ⟨?_, ?_, ?_, ?_, ?_⟩ <;> decide +kernel

/-- A settings package for block 5, which has no generation yet. -/
def package : Package := ⟨true, 0, 5, 0xFF, []⟩

theorem witness_SidebandAnswers :
    ((booted State.reset).sideband = true ∧ (booted State.reset).sidebandFull = true ∧ State.reset.sideband = false) ∧
    (∀ w ∈ [1200, 2400], 1200 ≤ (BitVec.ofNat 16 w).toNat ∧ (BitVec.ofNat 16 w).toNat ≤ 2400) ∧
    (State.reset.boot.packageReason package = 0 ∧ State.reset.boot.packageReason { package with sigOk := false } ≠ 0) ∧
    (let s := booted { State.reset with boot := bootOf (image 4) (image 3) blankImage .done };
      s.boot.reason (image 5) true = 0 ∧ s.boot.phase ≠ .romState ∧ (image 5).sequence = s.boot.image.sequence + 1 ∧
        s.boot.running = .slotA ∧ (image 6).sequence ≠ s.boot.image.sequence + 1) := by
  refine ⟨?_, ?_, ?_, ?_⟩ <;> decide +kernel

theorem witness_AttestationAndTestPort :
    (∀ b ∈ [true, false], let s := booted { State.reset with boot := { Boot.reset with identity := b, debugOpen := b } }
      s.sidebandFull = true ∧ s.boot.identity = b ∧ s.boot.debugOpen = b) ∧
    ((1 : Byte).toNat = 1 ∧ (6 : Byte).toNat = 6) ∧ (State.reset.anyJob = false ∧ State.reset.host.perst = true) ∧
    (withJob job Tile.reset).anyJob = true := by
  refine ⟨?_, ?_, ?_, ?_⟩ <;> decide +kernel

theorem witness_StepsTakeTheFront : State.reset.pending = [] := rfl

theorem witness_TimePasses :
    (∀ n ∈ [0, 1], let s := { State.reset with power := powered, jobs := [(7, { job with phase := .caravan, frozen := n })] }
      s.pending = [] ∧ s.power.coreEdge s.tick = true ∧ (s.job 7).phase = .caravan ∧ (s.job 7).frozen = n) ∧
    State.reset.power.coreEdge State.reset.tick = false := by
  refine ⟨?_, ?_⟩ <;> decide +kernel

theorem witness_StopsAndQueue :
    ∃ t, exec .vinGood State.reset = .next t ∧ t.pending = [] := ⟨_, rfl, rfl⟩

theorem witness_TileWordsRoundTrip : ∃ i, decodeTile site 0x681C8000 0 = some i ∧ tileWord i = some 0x681C8000 := by
  refine ⟨(decodeTile site 0x681C8000 0).getD .vinGood, ?_, ?_⟩ <;> decide +kernel

theorem witness_CanonicalStoresStay : ∃ t, StoresCanonical State.reset ∧ step State.reset = .next t := by
  refine ⟨_, ⟨by decide, fun u => ?_, by decide⟩, rfl⟩
  cases u <;> exact ⟨rfl, rfl⟩

end Sys2Proof.Tests
end

