-- ==== Sys2Proof/Tests/EngineWitnesses.lean ====
section
/-! SUPPORT. Witnesses for the hypotheses of the statements on the Ostlers, the Courier and the jobs. -/

namespace Sys2Proof.Tests
open Sys2Proof Sys2Proof.Machine Sys2Proof.Claims
set_option Elab.async false

/-! ### Ostlers -/

/-- A COPY of `n` FP32 from VA 0 into line 0 of the one tile, with token 15. -/
def copyRaw (n : Nat) : BitVec 512 := bits [(504, 1), (501, 7), (498, 7), (490, 15), (320, 64 * ((n + 15) / 16)), (240, n - 1), (0, 4)]

/-- A FILL of memory at VA 0 with 16 FP32. -/
def fillRaw : BitVec 512 := bits [(508, 6), (507, 1), (504, 3), (501, 7), (240, 15), (0, 4)]

/-- A SCATTER_ACC from a tile, which runs whole. -/
def addRaw : BitVec 512 := bits [(508, 5), (507, 1), (504, 1), (501, 7), (498, 7), (448, 1), (240, 15), (0, 4)]

def paging (s : State) : State := { s with mem := paged [(0, [1, 2, 3, 4])] }

theorem witness_DescriptorOrder :
    0 < (odesc (copyRaw 16)).total ∧ 15 < (odesc (copyRaw 16)).total ∧ (odesc (BitVec.allOnes 512)).total = 65536 ^ 5 ∧
      (odesc (bits [(508, 2), (240, 3), (256, 1)])).transposes = true ∧ 7 < (odesc (bits [(508, 2), (240, 3), (256, 1)])).total := by
  decide +kernel

/-- A descriptor under way at Ostler 39, with `chunks` chunks outstanding. -/
def under_ (raw : BitVec 512) (next chunks : Nat) : Desc :=
  { id := 5, src := .ring 63, index := 0xFFFF, ctx := 0, raw := raw, action := none, ostler := 39, bounced := false, next := next
    chunksLeft := chunks, ended := none, poisonMoved := false, fills := 0, dropped := 0, bits := 0, granted := 0, lines := [], ctrl := some 0x80000000 }

/-- A conversion of 16 FP32 at VA 0 to E4M3 under tensor 0, in line 1 of the one tile. -/
def convRaw : BitVec 512 := bits [(508, 1), (504, 1), (501, 7), (498, 2), (490, 15), (320, 64), (240, 15), (0, 4)]

/-- The page with a scale table of one entry at VA 0, whose extent of four bytes stands at VA 128. -/
def withTable (ctl : Nat) (s : State) : State :=
  { s with
    mem := paged [(64, toBytes 4 ctl), (80, toBytes 8 128 ++ toBytes 8 4)]
    jobs := [(0, { pagedJob with cfg := { pagedJob.cfg with scaleEntries := 1 } })] }

/-- A copy of memory onto itself: bounced, or an overlap where it is strict. -/
def selfRaw (strict : Bool) : BitVec 512 := bits [(501, 7), (498, 7), (497, if strict then 1 else 0), (240, 15), (0, 4)]

/-- Whether the conversion's entry has this bit of its control word, and its extent can be read. -/
def entryIs (s : State) (b : Nat) : Bool :=
  match s.tensorEntry 0 (odesc convRaw) with
  | .ok (some (some e)) => (e.seeded == (b == 31)) && (e.isProbing == (b == 26)) && okVal (s.extentMax 0 e)
  | _ => false

/-- Whether ring 63 offers a descriptor that its running job may take. -/
def fetchable (s : State) (raw : BitVec 512) : Bool :=
  s.nextDescriptor (.ring 63) == some (0xFFFF, 0, none, raw, false) && (s.job 0).running && !s.addsBefore (.ring 63) raw

def walkOk (w : Walk) : Bool :=
  match w with
  | .ok _ => true
  | _ => false

theorem witness_DescriptorsAreChecked_forms :
    (∀ b ∈ ([0, 26, 31] : List Nat), let s := withTable (if b = 0 then 0 else 2 ^ b) (ringed 1 0 convRaw State.reset)
      fetchable s convRaw = true ∧ (odesc convRaw).check (s.job 0).cfg (some 0) = .good ∧ entryIs s b = true ∧ walkOk (s.pages 0 (s.scaleVA 0 0) 80 true).1 = true) ∧
    ((withTable 0 State.reset).mem.errors = [] ∧ (odesc convRaw).fp8Dst = true) ∧
    (∀ b ∈ [true, false], let s := ringed 1 0 (selfRaw b) (withJob pagedJob Tile.reset)
      s.nextDescriptor (.ring 63) = some (0xFFFF, 0, none, selfRaw b, false) ∧ (odesc (selfRaw b)).fp8Dst = false ∧
        (odesc (selfRaw b)).check (s.job 0).cfg (some 0) = if b then .overlap 64 else .bounced 64) ∧
    (∀ far ∈ [true, false],
      let cfg : JobCtx := { pagedJob.cfg with scaleBase := if far then 0x800000000000 else 0, scaleEntries := if far then 1 else 0 }
      let s := { ringed 1 0 convRaw (withJob { pagedJob with cfg := cfg } Tile.reset) with mem := paged [] }
      (odesc convRaw).check (s.job 0).cfg (some 0) = .good ∧ s.mem.errors = [] ∧
        (match s.tensorEntry 0 (odesc convRaw) with
          | .ok none => !far
          | .error _ => far
          | _ => false) = true) := by
  refine ⟨?_, ?_, ?_, ?_⟩ <;> decide +kernel

theorem witness_DescriptorsAreChecked_waits :
    (let s := { State.reset with host := { State.reset.host with busMaster := true, rings := [(63, { Ring.reset with
        cfg := 0x90000000, active := true, entries := [{ entry (copyRaw 16) with ep := true }] })] } };
      s.nextDescriptor (.ring 63) = some (0xFFFF, 0, none, copyRaw 16, true)) ∧
    (let s := ringed 1 0 (copyRaw 16) (withJob { pagedJob with phase := .stopped } Tile.reset);
      s.nextDescriptor (.ring 63) = some (0xFFFF, 0, none, copyRaw 16, false) ∧ (s.job 0).present = true ∧
        (s.job 0).running = false) ∧
    (let s := { ringed 1 0 addRaw (withJob pagedJob Tile.reset) with descs := [under_ addRaw 16 1] };
      s.nextDescriptor (.ring 63) = some (0xFFFF, 0, none, addRaw, false) ∧ (s.job 0).present = true ∧
        s.addsBefore (.ring 63) addRaw = true) ∧
    State.reset.nextDescriptor (.ring 63) = none ∧ State.reset.nextDescriptor (.engine 0) = none := by
  refine ⟨?_, ?_, ?_, ?_, ?_⟩ <;> decide +kernel

theorem witness_DescriptorsAreChecked :
    (let s := ringed 1 0 (copyRaw 16) (withJob pagedJob Tile.reset);
      s.nextDescriptor (.ring 63) = some (0xFFFF, 0, none, copyRaw 16, false) ∧ (s.job 0).running = true ∧
        s.addsBefore (.ring 63) (copyRaw 16) = false ∧ (odesc (copyRaw 16)).check (s.job 0).cfg (some 0) = .good ∧
        (odesc (copyRaw 16)).fp8Dst = false ∧ (odesc (copyRaw 16)).fp8Src = false ∧
        (match s.tensorEntry 0 (odesc (copyRaw 16)) with
          | .ok (some none) => true
          | _ => false) = true) ∧
    (let s := { withJob pagedJob Tile.reset with engineDescs := [(0, some 3, fillRaw)] };
      s.nextDescriptor (.engine 0) = some (0, 0, some 3, fillRaw, false) ∧ (odesc fillRaw).check (s.job 0).cfg none = .good ∧
        (odesc fillRaw).fp8Dst = false ∧ (odesc fillRaw).fp8Src = false) ∧
    (let raw := bits [(508, 7)];
      let s := ringed 1 0 raw (withJob pagedJob Tile.reset);
      s.nextDescriptor (.ring 63) = some (0xFFFF, 0, none, raw, false) ∧ (odesc raw).check (s.job 0).cfg (some 0) = .invalid ∧
        (odesc raw).fp8Dst = false ∧ (odesc raw).fp8Src = false ∧ (s.job 0).phase = .compute) := by
  refine ⟨?_, ?_, ?_⟩ <;> decide +kernel

def working (q : Desc) (queue : List Chunk) : State :=
  { paging (withJob pagedJob { Tile.reset with tasks := [(0, task)] }) with
    descs := [q], nextDesc := 6, ostlers := [(39, { Ostler.reset with queue := queue })] }

theorem witness_ChunksAreDealt :
    (∀ n ∈ [0, 63, 64], let s := working (under_ (copyRaw 16) 0 0) (List.replicate n ⟨5, 0, 1⟩)
      (s.descs.find? fun q => decide (q.ostler = (39 : Fin 40).val) && decide (q.next < (odesc q.raw).total)) = some (under_ (copyRaw 16) 0 0) ∧
        s.desc 5 = some (under_ (copyRaw 16) 0 0) ∧ (s.ostler 39).queue.length ≤ 64) ∧
    (let s := working (under_ (copyRaw 16) 16 1) [⟨5, 0, 16⟩];
      (s.ostler 35).queue = [] ∧ (s.ostler 35).current = none ∧ (s.groups.get 0x80000001 7).getLsbD 31 = true ∧
        39 / 5 = 35 / 5 ∧ (s.ostler 39).queue ≠ [] ∧
        [35, 36, 37, 38, 39].all (fun v => (s.ostler v).queue.all s.takeable) = true) ∧
    (let s := working (under_ addRaw 16 1) [⟨5, 0, 16⟩];
      [35, 36, 37, 38, 39].all (fun v => (s.ostler v).queue.all fun k => !s.takeable k) = true) ∧
    ((working (under_ (copyRaw 16) 16 1) [⟨5, 0, 16⟩]).ostler 39).queue ≠ [] := by
  refine ⟨?_, ?_, ?_, ?_⟩ <;> decide +kernel

theorem witness_ChunksRun :
    (let s := { working (under_ (copyRaw 16) 16 1) [⟨5, 0, 16⟩] with jobs := [(0, { pagedJob with frozen := 32 })] };
      s.headChunk (s.ostler 39).queue = some (⟨5, 0, 16⟩, under_ (copyRaw 16) 16 1) ∧ (odesc (copyRaw 16)).crossesMesh = true ∧
        0 < (s.job 0).frozen) ∧
    (let s := { working (under_ convRaw 16 1) [⟨5, 0, 16⟩] with jobs := [(0, { pagedJob with probing := [(0, 7)] })] };
      s.desc 5 = some (under_ convRaw 16 1) ∧ s.scaleWait (under_ convRaw 16 1) = true ∧ (s.ostler 39).queue = [⟨5, 0, 16⟩]) ∧
    (∀ b ∈ [true, false], let q := under_ (if b then copyRaw 16 else fillRaw) 16 1
      let s := working q [⟨5, 0, 16⟩]
      s.headChunk (s.ostler 39).queue = some (⟨5, 0, 16⟩, q) ∧ s.chunkReady q ⟨5, 0, 16⟩ = true ∧ s.desc q.id = some q ∧
        s.mem.errors = []) ∧
    ((odesc (copyRaw 16)).dstTile.isSome = true ∧ (odesc (copyRaw 16)).fp8Dst = false ∧ (odesc (copyRaw 16)).mxDst = false ∧
      (odesc (copyRaw 16)).mark = false) := by
  refine ⟨?_, ?_, ?_, ?_⟩ <;> decide +kernel

theorem witness_DescriptorsComplete :
    (∀ e ∈ [(none : Option Byte), some 4, some 3], let q := { under_ (copyRaw 16) 16 0 with ended := e }
      (working q []).desc 5 = some q ∧ q.chunksLeft = 0 ∧ q.next = (odesc q.raw).total ∧ (odesc q.raw).dstTile.isSome = true) ∧
    (let q := under_ fillRaw 16 0;
      (working q []).desc 5 = some q ∧ q.chunksLeft = 0 ∧ q.next = (odesc q.raw).total ∧ (odesc q.raw).dstTile = none) ∧
    (let q := under_ (copyRaw 16) 16 1; (working q []).desc 5 = some q ∧ q.chunksLeft ≠ 0) := by
  refine ⟨?_, ?_, ?_⟩ <;> decide +kernel

/-! ### The scale table -/

theorem witness_ScaleEntryRules :
    (∀ n ∈ [0, 15], let e := { scaleEntry (List.replicate 128 0) with ctl := BitVec.ofNat 32 (2 ^ 31 + n * 2 ^ 16) }
      e.hist.length = 16) ∧
    (∃ e : ScaleEntry, e.hist.length = 16 ∧ e.seeded = true) ∧ (scaleEntry (List.replicate 128 0)).seeded = false ∧
      (1 : Word) ≠ 0 ∧
      (let e := { scaleEntry (List.replicate 128 0) with ctl := 0x80000000 };
        e.seeded = true ∧ e.hist.length = 16 ∧ (e.hist.set e.head 0).all (· == 0) = true) ∧
      (nonfinite32 0x7F7FFFFF = false ∧ nonfinite32 (fadd 0x7F7FFFFF 0x7F7FFFFF) = true) ∧
      (nonfinite32 1 = false ∧ nonfinite32 (fadd 1 1) = false) := by
  refine ⟨by decide +kernel, ⟨(scaleEntry (List.replicate 128 0)).push 1 0, by decide +kernel, by decide +kernel⟩, ?_, ?_, ?_, ?_, ?_⟩ <;>
    decide +kernel

/-- A job with a scale table of one unseeded entry at VA 0, whose extent of four bytes stands at VA 128. -/
def scaled : State :=
  { withJob { pagedJob with cfg := { pagedJob.cfg with scaleEntries := 1 } } Tile.reset with
    mem := paged [(80, toBytes 8 128 ++ toBytes 8 4)] }

theorem witness_ProbesAndPushes :
    ((scaled.job 0).running = true ∧ (0 : BitVec 16).toNat < (scaled.job 0).cfg.scaleEntries.toNat ∧ scaled.mem.errors = [] ∧
      (match scaled.scaleRead 0 0 with
       | .ok e => !e.seeded && !e.isProbing && (match scaled.extentMax 0 e with
           | .ok _ => true
           | .error _ => false)
       | .error _ => false) = true ∧
      (match (scaled.pages 0 (scaled.scaleVA 0 0) 80 true).1 with
       | .ok _ => true
       | _ => false) = true) ∧
    ((withJob { pagedJob with probing := [(65535, 7)] } Tile.reset).job 0).probing.find (65535 : BitVec 16).toNat = some 7 ∧
    (65535 : BitVec 16) ∈ ((withJob { pagedJob with pushesLeft := [3, 65535] } Tile.reset).job 0).pushesLeft := by
  refine ⟨?_, ?_, ?_⟩ <;> decide +kernel

/-! ### The Courier -/

/-- A job of two modules along D, of which this is the first; both ports of the axis are joined. -/
def pair : State :=
  { withJob { pagedJob with cfg := { pagedJob.cfg with curfewAxes := 1, extent := 2 } } Tile.reset with
    mem := paged [], ports := [(0, { Port.reset with link := .run, session := some 1 })] }

/-- A command along D with a TAG, and its other fields. -/
def courierRaw (op tag : Nat) (l : List (Nat × Nat)) : BitVec 512 := bits ([(508, op), (498, 1), (464, tag)] ++ l)

/-- ALL_GATHER, REDUCE_SCATTER, ALL_REDUCE, ALL_TO_ALL, PERMUTE of no move and BROADCAST. -/
def dataRaw (op tag : Nat) : BitVec 512 :=
  courierRaw op tag (if op = 4 then [(304, 0x10000), (256, 0x20000), (160, 1)]
    else [(503, 7), (501, if op = 1 ∨ op = 2 then 1 else 0), (400, 0x10000), (352, 0x20000), (216, 16), (176, 16)])

/-- Whether a ring's next command is this one. -/
def offers (s : State) (op : Nat) (raw : BitVec 512) : Bool :=
  s.nextCommand (.ring 63) op == some (BitVec.ofNat 16 0xFFFF, 0, none, raw, false)

/-- Whether a command's fields and its table pass their checks. -/
def passesChecks (s : State) (src : Source) (f : CF) : Bool :=
  f.fieldsOk (ofEngine src) && (match s.vuse 0 f.table (f.tableBytes (s.group 0 f.named).size) with
    | .ok tbl => f.tableOk tbl (s.group 0 f.named) (s.job 0).cfg
    | .error _ => false)

theorem witness_CommandsExchangeCheck :
    ((pair.job 0).running = true ∧ pair.courier.cmds = [] ∧ pair.mem.errors = [] ∧ (pair.port 0).joined = true ∧
      (courierForms (.ring 63)).map (·.2) = [0, 1, 2, 3, 4, 5, 6, 7]) ∧
    (∀ op ∈ [0, 1, 2, 3, 4, 5], let raw := dataRaw op 0x1234
      let s := ringed 2 0 raw pair
      offers s op raw = true ∧
        passesChecks s (.ring 63) (courierFields raw) = true ∧ s.checkPorts 0 (courierFields raw) = [0]) ∧
    (let raw := dataRaw 0 0xF000;
      let s := { pair with engineCmds := [(0, some 3, raw)] };
      s.nextCommand (.engine 0) 0 = some (BitVec.ofNat 16 0, 0, some 3, raw, false) ∧
        (courierFields raw).fieldsOk (ofEngine (.engine 0)) = true) := by
  refine ⟨?_, ?_, ?_⟩ <;> decide +kernel

/-- The same job of one module: it has no port to ask. -/
def alone : State := pair.setJob 0 { pair.job 0 with cfg := { (pair.job 0).cfg with extent := 1 } }

theorem witness_CommandsExchangeCheck_lost :
    (let raw := dataRaw 0 0x1234;
      let s := ringed 2 0 raw { pair with ports := [] };
      offers s 0 raw = true ∧ passesChecks s (.ring 63) (courierFields raw) = true ∧
        s.checkPorts 0 (courierFields raw) = [0] ∧ (s.port 0).joined = false) ∧
    (∀ op ∈ [0, 1, 2, 3, 4, 5], let raw := dataRaw op 0x1234
      let s := ringed 2 0 raw alone
      offers s op raw = true ∧ passesChecks s (.ring 63) (courierFields raw) = true ∧
        s.checkPorts 0 (courierFields raw) = [] ∧ (courierFields raw).srcKind = 0) := by
  refine ⟨?_, ?_⟩ <;> decide +kernel

/-- A command of context 0 that has exchanged no CHECK. -/
def cmd (raw : BitVec 512) : CCmd :=
  { src := .ring 63, index := 0xFFFF, ctx := 0, raw := raw, action := none, tag := (courierFields raw).tag, table := [], checks := [0]
    started := false, collected := false, granted := [], sentTo := [], pieces := [], grantedTo := 0, foldedTo := 0, got := 0
    round := 0, ownDone := false, dones := [], fills := 0, txBytes := 0, poisonMoved := false, nonfinite := false
    delivered := false, status := none, segment := 0, dest := [], landed := [], clean := [], nfLines := [], failed := false
    since := 0 }

def withCmd (k : CCmd) : State := { pair with courier := { pair.courier with cmds := [k] } }

theorem witness_WrongCommandsAreRejected :
    (let raw := courierRaw 0 0x1234 [(480, 1)];
      let s := ringed 2 0 raw pair;
      s.nextCommand (.ring 63) 0 = some (BitVec.ofNat 16 0xFFFF, 0, none, raw, false) ∧ (s.job 0).phase = .compute ∧
        s.courier.cmds = [] ∧ (courierFields raw).fieldsOk (ofEngine (.ring 63)) = false) ∧
    (let raw := dataRaw 0 0x1234;
      let s := ringed 2 0 raw (withCmd (cmd raw));
      s.nextCommand (.ring 63) 0 = some (BitVec.ofNat 16 0xFFFF, 0, none, raw, false) ∧ s.courier.cmds = [cmd raw] ∧
        (cmd raw).tag = (courierFields raw).tag) ∧
    (let raw := courierRaw 8 0x1234 [];
      let s := ringed 2 0 raw pair;
      offers s 0 raw = true ∧ (s.job 0).phase = .compute ∧ s.courier.cmds = [] ∧ 8 ≤ (courierFields raw).op) ∧
    (let raw := courierRaw 0 0x1234 [(503, 7), (400, 0x10000), (352, 0x20000), (216, 16), (176, 8)];
      let s := ringed 2 0 raw pair;
      offers s 0 raw = true ∧ (courierFields raw).fieldsOk (ofEngine (.ring 63)) = true ∧ s.mem.errors = [] ∧
        passesChecks s (.ring 63) (courierFields raw) = false) := by
  refine ⟨?_, ?_, ?_, ?_⟩ <;> decide +kernel

def queue (sender : Bool) (credits landed released : Nat) : PipeQueue :=
  ⟨0x77, false, sender, 0x30000, 7, 2, 4, 0, credits, 0, landed, 0, released, [], []⟩

/-- The same job with an open queue. -/
def queueing (q : PipeQueue) : State := pair.setJob 0 { pair.job 0 with queues := [(0, q)] }

/-- The same along the P axis, where a sender's partner is joined on port 6. -/
def pipeline (s : State) : State :=
  { s.setJob 0 { s.job 0 with cfg := { (s.job 0).cfg with extent := 2 * 2 ^ 18 + 1 } } with
    ports := [(6, linkedWith [])] }

def openRaw (src : Nat) : BitVec 512 := courierRaw 6 0x1234 [(503, 7), (487, src), (352, 0x30000), (216, 2), (176, 4096)]
def closeRaw : BitVec 512 := courierRaw 7 0x1234 [(503, 7)]

theorem witness_QueuesOpenAndClose :
    (∀ src ∈ [0, 1], let s := ringed 2 0 (openRaw src) pair
      let f := courierFields (openRaw src)
      f.fieldsOk (ofEngine (.ring 63)) = true ∧ offers s 6 (openRaw src) = true ∧ (s.job 0).queues.find f.queueKey = none ∧
        s.needPorts 0 f = []) ∧
    (∀ q ∈ [queue true 4 0 0, queue false 0 3 2], let s := ringed 2 0 closeRaw (queueing q)
      let f := courierFields closeRaw
      f.fieldsOk (ofEngine (.ring 63)) = true ∧ offers s 7 closeRaw = true ∧
        (s.job 0).queues.find f.queueKey = some q ∧ s.needPorts 0 f = []) ∧
    (let s := ringed 2 0 (openRaw 1) (pipeline pair);
      let f := courierFields (openRaw 1);
      offers s 6 (openRaw 1) = true ∧ (s.job 0).queues.find f.queueKey = none ∧ s.needPorts 0 f = [6] ∧ (s.port 6).joined = true) ∧
    (let s := ringed 2 0 closeRaw (pipeline (queueing (queue true 4 0 0)));
      let f := courierFields closeRaw;
      offers s 7 closeRaw = true ∧ (s.job 0).queues.find f.queueKey ≠ none ∧ s.needPorts 0 f = [6] ∧ (s.port 6).joined = true) ∧
    (offers (ringed 2 0 (openRaw 1) (queueing (queue true 4 0 0))) 6 (openRaw 1) = true ∧
      offers (ringed 2 0 closeRaw pair) 7 closeRaw = true) := by
  refine ⟨?_, ?_, ?_, ?_, ?_⟩ <;> decide +kernel

/-- The CHECK of a CRC for the command of TAG 0x1234, and an ABORT. -/
def checkOf (crc : Word) : TxFlit := ctrlFlit 1 0 (Config.ctrlPayload 1 0x1234 crc.toNat)
def abortFlit : TxFlit := ctrlFlit 5 0 (Config.ctrlPayload 5 0x1234 0)

theorem other_crc (k : CCmd) : k.crc ≠ k.crc + 1 := by
  intro h
  have := congrArg (· - k.crc) h
  simp at this

/-- A command whose CHECKs of these ports are awaited; its source is a gate's where `gate` says so. -/
def checking (ports : List Nat) (gate : Bool) : CCmd :=
  { cmd (if gate then courierRaw 0 0x1234 [(487, 1)] else dataRaw 0 0x1234) with checks := ports }

theorem witness_ChecksAndAborts :
    (∀ gate ports crc, Accepts (flitted (withCmd (checking ports gate)) [checkOf crc, abortFlit]) 0 (checkOf crc) ∧
      Accepts (flitted (withCmd (checking ports gate)) [checkOf crc, abortFlit]) 0 abortFlit ∧
      (checking ports gate).crc ≠ (checking ports gate).crc + 1) ∧
    (∀ gate ∈ [true, false], ∀ ports ∈ ([[0], [0, 1]] : List (List Nat)), let k := checking ports gate
      (withCmd k).cmdOf 0x1234 = some k ∧ k.status = none ∧ (dropFrom k.checks 0 = [] ↔ ports = [0]) ∧ k.started = false ∧
        k.f.op < 6 ∧ k.f.srcKind = (if gate then 1 else 0) ∧ k.collected = false) ∧
    (let k := cmd (openRaw 1); (withCmd k).cmdOf 0x1234 = some k ∧ dropFrom k.checks 0 = [] ∧ k.f.op = 6) ∧
    (let k := checking [0] false;
      let s := { pair with courier := { pair.courier with ended := [k] } };
      s.cmdOf 0x1234 = none ∧ s.routeOf 0x1234 = some k) ∧
    pair.routeOf 0x1234 = none := by
  refine ⟨fun gate ports crc => ⟨accepts_of _ _ _ (by simp), accepts_of _ _ _ (by simp), other_crc _⟩, ?_, ?_, ?_, ?_⟩ <;>
    decide +kernel

/-- A REDUCE_SCATTER under way, owner 1 of which has been permitted nothing. -/
def reducing (started : Bool) : CCmd := { cmd (dataRaw 1 0x1234) with checks := [], started := started }

theorem witness_ControlFlitsAreTaken :
    (∀ fl, Accepts (flitted pair [fl]) 0 fl ∧ Accepts (flitted (withCmd (reducing true)) [fl]) 0 fl ∧
      Accepts (flitted (queueing (queue true 0 0 0)) [fl]) 0 fl) ∧
    (∀ b ∈ [true, false], let s := withCmd (reducing b)
      let g := (reducing b).group s
      s.cmdOf 0x1234 = some (reducing b) ∧ g.me = 0 ∧ g.size = 2 ∧ (reducing b).f.op = 1 ∧ (reducing b).status = none ∧
        g.hop 1 0 = some 0 ∧ (reducing b).sentTo.get 0 1 < min (max 64 ((reducing b).granted.get 0 1)) 64 ∧
        okVal (s.vtake 0 ((reducing b).f.src + (reducing b).f.offset ((reducing b).f.cnt []) 1 * (reducing b).f.es) 64).2 = true) ∧
    (let s := queueing (queue true 0 0 0); s.queueOf 0x77 true = some (0, 0, queue true 0 0 0)) ∧
    (let k := { cmd (dataRaw 4 0x1234) with dones := [(0, 1)] };
      let s := withCmd k;
      s.cmdOf 0x1234 = some k ∧ (k.f.rounds k.table)[k.round]? = none ∧ (0, 1) ∈ k.dones ∧ (1, 1) ∉ k.dones ∧ (k.group s).me = 0) ∧
    (let s := withCmd (cmd (dataRaw 0 0x1234));
      let onward := (cmd (dataRaw 0 0x1234)).passOn ((cmd (dataRaw 0 0x1234)).group s) 0 1 0 0;
      s.routeOf 0x1234 ≠ none ∧ s.mayOpen onward = true ∧ (onward.map (·.1)).Nodup) ∧
    (pair.port 1).carries = false ∧ pair.routeOf 0x1234 = none ∧ pair.queueOf 0x1234 false = none := by
  refine ⟨fun fl => ⟨accepts_of _ _ _ (by simp), accepts_of _ _ _ (by simp), accepts_of _ _ _ (by simp)⟩, ?_, ?_, ?_, ?_, ?_, ?_, ?_⟩ <;>
    decide +kernel

/-- Stream 63 of port 0, of a segment of 16 FP32 from participant 1. -/
def stream (tag : BitVec 16) (relays : List (Nat × Nat)) : Stream := ⟨tag, 1, 0, 0, 16, 0, relays⟩

def streaming (s : State) (st : Stream) : State := { s with courier := { s.courier with streams := [(63, st)] } }

/-- Flit 0 of that stream. -/
def dataFlit (n : Nat) : TxFlit := ⟨1, BitVec.ofNat 28 (63 * 2 ^ 22 + 0), List.replicate n 1, 0, false⟩

theorem witness_FlitsAreHeldForTheFold :
    (∀ s st n, Accepts (flitted (streaming s st) [dataFlit n]) 0 (dataFlit n)) ∧
    (∀ b ∈ [true, false], let k := { reducing b with grantedTo := if b then 64 else 0 }
      let s := streaming (withCmd k) (stream 0x1234 [])
      s.courier.streams.find (64 * (0 : Fin 8).val + (63 : BitVec 6).toNat) = some (stream 0x1234 []) ∧
        s.cmdOf 0x1234 = some k ∧ k.status = none ∧ k.f.op = 1 ∧ k.relayed (k.group s) 0 0 = false ∧ (k.group s).me = 0 ∧
        (k.started = false ∨ (0 < (k.group s).size ∧ 0 ≠ (stream 0x1234 []).origin ∧ k.upTo 0 < k.grantedTo))) ∧
    (∀ op ∈ [0, 5], let k := { cmd (dataRaw op 0x1234) with started := true }
      let s := streaming (withCmd k) (stream 0x1234 [(0, 5)])
      s.cmdOf 0x1234 = some k ∧ (k.f.op = 0 ∨ k.f.op = 5) ∧
        fineSt (s.vput 0 (k.f.dst + 0) (markedFlit (List.replicate 64 1) 0 false)) = true) ∧
    (let s := streaming (queueing (queue false 0 0 0)) (stream 0x77 []);
      s.routeOf 0x77 = none ∧ s.queueOf 0x77 false = some (0, 0, queue false 0 0 0) ∧
        fineSt (s.vput 0 0x30000 (markedFlit (List.replicate 128 1) 0 false)) = true) ∧
    (let s := streaming pair (stream 0x88 []);
      s.routeOf 0x88 = none ∧ s.queueOf 0x88 false = none ∧
        fineSt (s.vput 0 0x30000 (markedFlit (List.replicate 128 1) 0 false)) = true) ∧
    (stream 0x88 []).nextIndex ≠ (1 : BitVec 22).toNat := by
  refine ⟨fun s st n => accepts_of _ _ _ (by simp), ?_, ?_, ?_, ?_, ?_⟩ <;> decide +kernel

theorem witness_CommandsEnd :
    (∀ failed ∈ [true, false], let k := { cmd (dataRaw 0 0x1234) with status := some 3, failed := failed }
      cmdAt (withCmd k) 0 0x1234 = some k ∧ (withCmd k).cmdDone k = true ∧
        (withCmd k).courier.cmds.all (fun x => x.f.op != 1 && x.f.op != 2) = true) ∧
    (∀ t ∈ [159999999, 160000000], let k := cmd (dataRaw 0 0x1234)
      let s := { withCmd k with tick := t }
      cmdAt s 0 0x1234 = some k ∧ s.cmdDone k = false ∧
        decide (k.since + (s.job 0).cfg.timeoutTicks ≤ s.tick) = (t == 160000000)) ∧
    (∀ t ∈ [159999999, 160000000], let s := { withJob { pagedJob with probing := [(65535, 7)] } Tile.reset with tick := t }
      (s.job 0).probing.find (65535 : BitVec 16).toNat = some 7 ∧
        decide ((s.job 0).probeSince.get 0 65535 + (s.job 0).cfg.timeoutTicks ≤ s.tick) = (t == 160000000)) := by
  refine ⟨?_, ?_, ?_⟩ <;> decide +kernel

/-! ### Jobs -/

theorem witness_StepsAndInputs :
    (∀ n ∈ [1, 4096], ∀ stopped ∈ [true, false],
      let raw := commandRaw 3 [(0, 7), (32, 0x3C23D70A), (64, 64), (128, n), (144, 65535), (192, 128)]
      let s := ringed 0 0xE raw (withJob { job with phase := if stopped then .stopped else .curfew } Tile.reset)
      s.entryOf 63 3 = some (entry raw) ∧ JobCmd s 63 (entry raw) 32 ∧ bodyAt raw 20 4 = 0 ∧ bodyAt raw 8 8 % 64 = 0 ∧
        bodyAt raw 16 2 = n ∧ bodyAt raw 24 8 % 64 = 0 ∧ (s.job 0).held = false ∧
        decide ((s.job 0).phase = .stopped) = stopped) ∧
    (∀ len ∈ [0, 64, 128], let raw := commandRaw 2 [(0, 0x4000), (64, 0), (128, len), (192, 7)]
      let s := ringed 0 0xE raw (paging (withJob pagedJob Tile.reset))
      let e := entry raw
      s.hostEntryOf 63 2 (fun _ => true) = some e ∧ JobCmd s 63 e 28 ∧ (s.job 0).phase ≠ .stopped ∧
        (match (s.fromHost 0 ⟨[(0x4000, 1)], [], []⟩ (bodyAt raw 0 8) (bodyAt raw 8 8) (bodyAt raw 16 8)).2 with
         | .done _ => true
         | _ => false) = true) ∧
    (let raw := commandRaw 3 [(0, 7), (32, 0x3C23D70A), (64, 64), (128, 1), (144, 65535), (192, 128)];
      let s := ringed 0 0xE raw (withJob { job with held := true } Tile.reset);
      s.entryOf 63 3 = some (entry raw) ∧ JobCmd s 63 (entry raw) 32 ∧ (s.job 0).held = true) ∧
    (∀ k ∈ [0, 1, 2], let raw := commandRaw 2 [(0, 0x4000), (64, if k = 1 then 2 ^ 47 else 0), (128, 64), (192, 7)]
      let j : Job := { pagedJob with phase := if k = 2 then .stopped else .compute }
      let s := ringed 0 0xE raw (paging (withJob j Tile.reset))
      s.hostEntryOf 63 2 (fun _ => true) = some (entry raw) ∧ JobCmd s 63 (entry raw) 28 ∧
        ((s.job 0).phase = .stopped ↔ k = 2) ∧
        (k < 2 → (match (s.fromHost 0 ⟨[], [], if k = 0 then [0x100] else []⟩ (bodyAt raw 0 8) (bodyAt raw 8 8) (bodyAt raw 16 8)).2 with
         | .fail _ => k == 0
         | .stop _ => k == 1
         | _ => false) = true)) := by
  refine ⟨?_, ?_, ?_, ?_⟩ <;> decide +kernel

theorem witness_JobsEnd :
    (∀ op ∈ [4, 5], ∀ p ∈ [Phase.compute, .stopped, .curfew, .loaded], let raw := commandRaw op []
      let s := ringed 0 0xE raw (withJob { job with phase := p } Tile.reset)
      s.entryOf 63 op = some (entry raw) ∧ headerFault (s.ring 63) raw 0 = none ∧ (s.job 0).phase = p ∧
        (s.job 0).present = true) ∧
    (∀ op ∈ [4, 5], ∀ p ∈ [Phase.scrubbing, .empty], let raw := commandRaw op []
      let s := ringed 0 0xE raw (withJob { job with phase := p } Tile.reset)
      s.entryOf 63 op = some (entry raw) ∧ headerFault (s.ring 63) raw 0 = none ∧ (s.job 0).phase = p) ∧
    ((withJob { job with phase := .scrubbing } Tile.reset).job 0).phase = .scrubbing ∧
    ((withJob job Tile.reset).job 0).phase ≠ .scrubbing := by
  refine ⟨?_, ?_, ?_, ?_⟩ <;> decide +kernel

/-- Host memory with a context block at 0x4000, a list of one tile record at 0x8000 and its block of tasks at 0x9000. -/
def hostView (record : Nat) : HostView :=
  let pieces : List (Nat × List Byte) :=
    [(0x4000, toBytes 8 0x1000000), (0x4012, [7]), (0x4020, toBytes 4 (1 + 2 ^ 6 + 2 ^ 12 + 2 ^ 18)),
      (0x4024, toBytes 4 (2 ^ 14 + 2 ^ 21)), (0x4028, [62]), (0x8000, toBytes 4 1), (0x8004, toBytes 4 1),
      (0x8008, toBytes 8 0x1010B0628000000), (0x8048, toBytes 8 record)]
  ⟨pieces.flatMap fun d => d.2.zipIdx.map fun b => (d.1 + b.2, b.1), [], []⟩

/-- A module that may take a job, with a superstep list of one superstep at VA 0. -/
def loading : State :=
  let s := ringed 0 0xE (commandRaw 1 [(0, 0x4000), (64, 0x8000)]) State.reset
  { s with
    mem := paged [(0, [1])], boot := { s.boot with usable := [(0, 1)] }
    host := { s.host with rings := (62, { Ring.reset with cfg := 0xE0000000, active := true }) :: s.host.rings } }

/-- With no tile fused out or retired the repair map changes nothing. -/
theorem applyRepairs_clean (s : State) (hf : s.boot.fused = []) (hr : s.retired = []) (ha : s.applied = []) :
    s.applyRepairs = s := by
  have h : ∀ l : List Nat, l.foldl (fun s row =>
      if s.atBoundary row ∧ s.marked row ≠ s.applied.get [] row then s.applyRow row else s) s = s := by
    intro l
    induction l with
    | nil => rfl
    | cons x xs ih =>
      have : ¬(s.atBoundary x ∧ s.marked x ≠ s.applied.get [] x) := by simp [State.marked, hf, hr, ha, Tbl.get]
      simp only [List.foldl_cons, if_neg this, ih]
  exact h _

theorem loading_clean : loading.applyRepairs = loading :=
  applyRepairs_clean loading (by decide +kernel) rfl rfl

def contextBlock : List Byte := (HostView.bytes (hostView 0x9000) 0x4000 128)
def listHead : List Byte := (HostView.bytes (hostView 0x9000) 0x8000 64)
def loaded : State :=
  (loading.freshContext 0).setJob 0 { Job.reset with cfg := jobContext contextBlock, phase := .loaded }

/-- How a load goes: 0 well, 1 badly with no tile record taken, 2 badly after one. -/
def outcome (v : HostView) : Nat :=
  match loaded.loadJob 0 v 0x8000 listHead with
  | (_, .ok _) => 0
  | (s, .error _) => if (s.tile 0).recorded then 2 else 1

/-- The same with a handler table at 0xA000 that cannot be read. -/
def failing : HostView :=
  { hostView 0x9000 with cells := (hostView 0x9000).cells ++ [(0x8059, 0xA0)], fail := [0xA000 / 64] }

/-- Host memory whose list header cannot be read, and one whose list header is wrong. -/
def lost : HostView := { hostView 0x9000 with fail := [0x8000 / 64] }
def wrong : HostView := { hostView 0x9000 with cells := (0x8000, 2) :: (hostView 0x9000).cells }

theorem witness_JobLoadsWholeOrNotAtAll_refused :
    ({ loading with jobs := [(0, { Job.reset with phase := .scrubbing })] } : State).loadHeld 0 (jobContext contextBlock) = true ∧
    ((match hostRecord lost 0x8000 64 with
      | .ok _ => false
      | .error (.read _) => true
      | .error _ => false) = true ∧
     (match hostRecord wrong 0x8000 64 with
      | .ok l => !listHeaderOk l
      | .error _ => false) = true) ∧
    loading.loadHeld 0 (jobContext (List.replicate 128 0)) = false := by
  refine ⟨?_, ?_, ?_⟩ <;> decide +kernel

theorem witness_JobLoadsWholeOrNotAtAll :
    (let e := entry (commandRaw 1 [(0, 0x4000), (64, 0x8000)]);
      loading.hostEntryOf 63 1 (fun _ => true) = some e ∧ headerFault (loading.ring 63) e.raw 16 = none ∧
        bodyAt e.raw 0 8 = 0x4000 ∧ bodyAt e.raw 8 8 = 0x8000 ∧ headerCtx e.raw = 0 ∧ (loading.job 0).present = false ∧
        (loading.boot.straps.partition = 1 ∨ headerCtx e.raw = 0) ∧ loading.power.noLoads = false ∧
        loading.boot.lifecycle ≠ 3 ∧ loading.boot.running ≠ .recovery) ∧
    ((match hostRecord (hostView 0x9000) 0x4000 128 with
      | .ok l => l == contextBlock
      | .error _ => false) = true ∧
     (match hostRecord (hostView 0x9000) 0x8000 64 with
      | .ok l => l == listHead
      | .error _ => false) = true) ∧
    (loading.loadHeld 0 (jobContext contextBlock) = false ∧ listHeaderOk listHead = true ∧
      bitsOf (numAt listHead 8 8) 47 24 = bitsOf loading.timing.toNat 47 24 ∧ loading.pendingTokens = []) ∧
    loading.applyRepairs.contextOk 0 contextBlock = true ∧ loading.applyRepairs.contextOk 0 (List.replicate 128 0) = false ∧
    (outcome (hostView 0x9000) = 0 ∧ outcome (hostView 0x9001) = 1 ∧ outcome failing = 2) := by
  rw [loading_clean]
  refine ⟨?_, ?_, ?_, ?_, ?_, ?_⟩ <;> decide +kernel

end Sys2Proof.Tests
end

