-- ==== Sys2Proof/Tests/ExchangeWitnesses.lean ====
section
/-! SUPPORT. Witnesses for the hypotheses of the statements on the Curfew and the Caravan. -/

namespace Sys2Proof.Tests
open Sys2Proof Sys2Proof.Machine Sys2Proof.Claims
set_option Elab.async false

/-- A task at the Curfew. -/
def arrived : Task := { task with state := .atCurfew }

def arrivedTile : Tile := { Tile.reset with tasks := [(0, arrived)], recorded := true }

/-- A step of one superstep list entry of two. -/
def inStep : Job := { job with listS := 2, measured := 128, cfg := { job.cfg with tag := 7 } }

/-- Port 0 carries a session, and its partner lies along +D (port 0). -/
def linked : Port := { Port.reset with enable := true, link := .run, session := some 1 }

def withPorts (s : State) : State := { s with ports := [(0, linked), (7, linked)] }

theorem witness_LocalArrival :
    (∀ b ∈ [0, 128], let s := withJob inStep { arrivedTile with current := ⟨BitVec.ofNat 32 b, [], []⟩ }
      (s.job 0).phase = .compute ∧ (s.tile 0).atCurfew = true ∧ (s.job 0).cfg.tiles = [0] ∧
        (s.budget 0 = 0 ∨ (s.job 0).measured * 128 ≤ s.budget 0 * (128 + 0)) ∧ (s.job 0).stop = false ∧
        (s.job 0).isFinal = false) ∧
    (let s := withJob { inStep with stop := true } arrivedTile;
      (s.tile 0).atCurfew = true ∧ s.budget 0 = 0 ∧ (s.job 0).stop = true ∧ (s.job 0).closing = []) ∧
    ((withTask task Tile.reset).tile 0).atCurfew = false := by
  refine ⟨?_, ?_, ?_⟩ <;> decide +kernel

/-- The last superstep of a step whose STEP names the layer table at VA 0 of the page. -/
def ending : Job := { pagedJob with listS := 2, superstep := 1, step := some ⟨1, 2, 3, 0, 0, 1, 0, 0⟩ }

def inPage (j : Job) (x : Tile) : State := { withJob j x with mem := paged [] }

/-- At a step's end: one table entry that is not valid, and one of an unknown shape, which R327 refuses. -/
theorem witness_LocalArrival_final :
    (∀ b ∈ [0, 0x80], let s := { withJob ending arrivedTile with mem := paged [(63, [b])] }
      (s.job 0).phase = .compute ∧ (s.tile 0).atCurfew = true ∧ (s.job 0).cfg.tiles = [0] ∧ s.budget 0 = 0 ∧
        (s.job 0).stop = false ∧ (s.job 0).isFinal = true ∧ (s.job 0).held = false ∧ (s.job 0).evaluation = false ∧
        (s.job 0).passOneBegun = false ∧ (s.job 0).step = some ⟨1, 2, 3, 0, 0, 1, 0, 0⟩ ∧ s.mem.errors = [] ∧
        (s.job 0).closing = [] ∧
        (match s.vuse 0 (0 : Int) 64 with
          | .ok l =>
            let layers : List Layer := [⟨0, BitVec.ofNat 512 (ofBytes l), false, false, 0, 0, 0, 0, false⟩]
            (firstBad (s.job 0) (layers.filter fun x => (layerFields x.raw).valid) []).isNone == (b == 0)
          | .error _ => false) = true) ∧
    (let s := withJob { ending with evaluation := true } arrivedTile;
      (s.job 0).phase = .compute ∧ (s.tile 0).atCurfew = true ∧ s.budget 0 = 0 ∧ (s.job 0).isFinal = true ∧
        (s.job 0).evaluation = true ∧ (s.job 0).cfg.scaleEntries = 0) ∧
    NoAdds (withJob ending arrivedTile) 0 := by
  refine ⟨?_, ?_, no_adds _ _ rfl rfl rfl⟩ <;> decide +kernel

theorem witness_TokensAreNoted :
    (let s := { withJob { inStep with curfew := 0xFFFFFFFF } arrivedTile with
        ports := [(0, linkedWith [tokenFlit 7 0, tokenFlit 7 1]), (7, linkedWith [tokenFlit 7 0xFFFFFFFF])] };
      (s.port 0).carries = true ∧ (s.port 7).carries = true ∧ (s.port 7).hasFlit (tokenFlit 7 0xFFFFFFFF) = true ∧
        (s.port 0).hasFlit (tokenFlit 7 0) = true ∧ (s.port 0).hasFlit (tokenFlit 7 1) = true ∧
        s.ctxOfTag 7 = some 0 ∧ (s.job 0).running = true ∧ (s.job 0).curfew + 1 = 0 ∧
        (s.job 0).phase = .compute ∧ (1 : Word) ≠ (s.job 0).curfew ∧ (1 : Word) ≠ (s.job 0).curfew + 1) ∧
    (let s := { withJob { inStep with phase := .stopped } arrivedTile with ports := [(0, linkedWith [tokenFlit 7 0])] };
      (s.port 0).carries = true ∧ (s.port 0).hasFlit (tokenFlit 7 0) = true ∧ s.ctxOfTag 7 = some 0 ∧ (s.job 0).running = false) ∧
    (let s := { State.reset with ports := [(0, linkedWith [tokenFlit 7 0])], pendingTokens := List.replicate 8 (0, 1, 2, 3) };
      (s.port 0).carries = true ∧ (s.port 0).hasFlit (tokenFlit 7 0) = true ∧ s.ctxOfTag 7 = none ∧ s.pendingTokens.length ≤ 8) ∧
    (State.reset.port 0).carries = false ∧ linked.hasFlit (tokenFlit 7 0) = false := by
  refine ⟨?_, ?_, ?_, ?_, ?_⟩ <;> decide +kernel

/-- A job in the Curfew between two supersteps, with a D axis of two modules, of which this is the first. -/
def waiting : Job :=
  { inStep with phase := .curfew, curfew := 5, cfg := { inStep.cfg with curfewAxes := 1, extent := 2, curfewTimeout := 1 } }

theorem witness_CurfewWaitsEnd :
    (∀ w ∈ [0, 1600], let s := withJob { waiting with waited := w } arrivedTile
      let u := if w = 0 then s else withPorts s
      (u.job 0).phase = .curfew ∧ (u.job 0).held = false ∧ u.tokenPorts 0 = [(0, 0)] ∧ (u.job 0).tokens = [] ∧
        ((u.port 0).joined = false ∨ (u.job 0).cfg.timeoutTicks ≤ (u.job 0).waited)) ∧
    ((withJob { waiting with held := true } arrivedTile).job 0).held = true ∧
    (let s := { State.reset with tick := 1600000003, pendingTokens := [(0, 1, 2, 3)] };
      s.pendingTokens[0]? = some (0, 1, 2, 3) ∧ s.ctxOfTag 1 = none ∧ 3 + 1600000000 ≤ s.tick) ∧
    (let s := { State.reset with tick := 1600000002, pendingTokens := [(0, 1, 2, 3)] };
      s.pendingTokens[0]? = some (0, 1, 2, 3) ∧ s.tick < 3 + 1600000000) := by
  refine ⟨?_, ?_, ?_, ?_⟩ <;> decide +kernel

theorem witness_NoReleaseWithoutTokens :
    let s := withJob { waiting with tokens := [(0, 6), (1, 5)] } arrivedTile
    (s.job 0).phase = .curfew ∧ (0, 0) ∈ s.tokenPorts 0 ∧ ((0 : Fin 8), (s.job 0).curfew) ∉ (s.job 0).tokens := by
  decide +kernel

/-- A STEP that waits for no INPUT. -/
def aStep : StepCmd := ⟨1, 2, 3, 0x3C23D70A, 64, 1, 0, 0⟩

theorem witness_ReleaseBegins :
    (let s := withJob { inStep with phase := .loaded, waitingSteps := [aStep] } { arrivedTile with tasks := [(0, { task with state := .idle })] };
      s.blocks 0 = [] ∧ (s.job 0).held = false ∧ (s.job 0).phase = .loaded ∧ (s.job 0).restored = false ∧
        ((s.tile 0).task 0).enabled = true) ∧
    (let s := withJob { inStep with phase := .loaded, restored := true, waitingSteps := [aStep] } arrivedTile;
      s.blocks 0 = [] ∧ (s.job 0).held = false ∧ (s.job 0).phase = .loaded ∧ (s.job 0).restored = true) ∧
    (let j := { inStep with phase := .curfew, superstep := 1, decision := .applied, passOneBegun := true, waitingSteps := [aStep] };
      let s := withJob j arrivedTile;
      s.blocks 0 = [] ∧ (s.job 0).held = false ∧ (s.job 0).phase = .curfew ∧ (s.job 0).isFinal = true ∧ NoAdds s 0) ∧
    (∀ f ∈ [true, false], let s := withJob { waiting with tokens := [(0, 5)], throttleFreeze := f } arrivedTile
      s.blocks 0 = [] ∧ (s.job 0).held = false ∧ (s.job 0).phase = .curfew ∧ (s.job 0).isFinal = false ∧
        (s.job 0).throttleFreeze = f) := by
  refine ⟨?_, ?_, ⟨?_, ?_, ?_, ?_, no_adds _ _ rfl rfl rfl⟩, ?_⟩ <;> decide +kernel

/-- A route from tile 0 on outbound channel 15: POINT by default, or a chain entry. -/
def route (mode : BitVec 3) (pred final : Bool) (point : BitVec 2) : SourceEntry :=
  ⟨15, mode, 14, pred, final, point, 0, 0, 4096, 100⟩

/-- The one tile with a route, a ring for inbound channel 14 of eight lines, and a next image. -/
def routed (e : SourceEntry) (sinks : List SinkEntry) : Tile :=
  { arrivedTile with current := ⟨0, [e], sinks⟩, next := some ⟨0, [], []⟩ }

/-- A job in its Caravan at cycle 100. -/
def moving (ms : List Msg) : Job := { inStep with phase := .caravan, clock := 100, msgs := ms, nextMsg := ms.length }

def queuedSend (lines : Nat) : Queued := ⟨0, 0x40, 15, 63, 128, lines, false⟩

theorem witness_RequestsDepart :
    (∀ n ∈ [1, 4096], let e := route 0 false false 0
      let s := withJob (moving []) { routed e [] with queued := [queuedSend n] }
      s.ctxOf 0 = some 0 ∧ (s.job 0).moves = true ∧ (s.tile 0).current.source 15 = some e ∧ e.start.toNat = (s.job 0).clock ∧
        (s.tile 0).queued.find? (fun q => q.ch == 15) = some (queuedSend n) ∧ (s.tile 0).readWaits (queuedSend n) = false ∧
        e.isReduce = false ∧ (s.job 0).channelFree 0 15 = true ∧ (s.tile 0).inFlight = []) ∧
    (let e := route 2 false false 0;
      let s := withJob (moving []) { routed e [] with queued := [queuedSend 1] };
      e.isReduce = true ∧ e.pred = false ∧ (0, 15) ∉ (s.job 0).chainDone ∧ (s.tile 0).readWaits (queuedSend 1) = false) ∧
    (let e := route 4 false false 0;
      let s := withJob (moving []) (routed e []);
      s.ctxOf 0 = some 0 ∧ (s.tile 0).current.source 15 = some e ∧ (s.tile 0).queued.find? (fun q => q.ch == 15) = none ∧
        e.isReduce = true ∧ e.pred = false ∧ (0, 15) ∉ (s.job 0).chainDone) := by
  refine ⟨?_, ?_, ?_⟩ <;> decide +kernel

/-- A message from tile 0 to tile 0 of two lines. -/
def msgOf (e : SourceEntry) (null : Bool) (stage : MsgStage) (written : Nat) : Msg :=
  { id := 0, source := 0, last := 0, outCh := 15, task := 0, pc := 0, addr := 128, lines := 2, handler := 63, seq := 9,
    nonfinite := false, entry := e, gate := none, pred := none, own := true, dests := [⟨0, stage, 0, 100, written, false, 0⟩],
    payload := [(List.replicate 64 1, false), (List.replicate 64 2, true)], null := null, complete := false }

def traffic (m : Msg) (sinks : List SinkEntry) : State := withJob (moving [m]) (routed m.entry sinks)

/-- The same with a task whose region is open, which the queued line lies in. -/
def openTile : Tile :=
  { routed (route 0 false false 0) [] with
    tasks := [(0, { arrived with region := some ⟨15, 1⟩ })], queued := [⟨0, 0x40, 15, 63, 0, 1, false⟩] }

/-- A partial of two lines that has arrived from tile 1 for a chain entry of outbound channel 15. -/
def partial_ (stage : MsgStage) : Msg :=
  { msgOf { route 2 false false 0 with outCh := 3, destCh := 15 } false stage 0 with id := 9, source := 1, last := 1, outCh := 3 }

def aGate : GateOut := ⟨0x77, 0, 0, 15, 63, 2, 0, 100⟩

theorem witness_RequestsDepart_waits :
    (let s := withJob (moving []) openTile;
      (s.tile 0).current.source 15 = some (route 0 false false 0) ∧ (s.job 0).channelFree 0 15 = true ∧
        (match (s.tile 0).queued with
          | [q] => q.ch == 15 && (s.tile 0).readWaits q
          | _ => false) = true) ∧
    (∀ n ∈ [0, 1, 2], let e := route 2 true false 0
      let s := withJob (moving [partial_ .arrived]) { routed e [] with queued := if n = 0 then [] else [queuedSend n] }
      s.ctxOf 0 = some 0 ∧ (s.job 0).moves = true ∧ (s.tile 0).current.source 15 = some e ∧ e.start.toNat ≤ (s.job 0).clock ∧
        e.isReduce = true ∧ e.pred = true ∧ (0, 15) ∉ (s.job 0).chainDone ∧
        (s.job 0).predecessor 0 e = some (partial_ .arrived) ∧ (partial_ .arrived).null = false ∧
        (s.tile 0).queued.find? (fun q => q.ch == 15) = (if n = 0 then none else some (queuedSend n)) ∧
        (s.tile 0).readWaits (queuedSend n) = false ∧ (partial_ .arrived).lines = 2 ∧ (partial_ .arrived).handler = 63) ∧
    (let s := inPage { pagedJob with phase := .caravan, clock := 100, gateOut := [aGate] } arrivedTile;
      s.ctxOf 0 = some 0 ∧ (s.job 0).moves = true ∧ (s.tile 0).current.source 15 = none ∧
        (s.job 0).gateReady 0 15 = some aGate ∧ okVal (s.vtake 0 aGate.va (64 * aGate.lines)).2 = true) := by
  refine ⟨?_, ?_, ?_⟩ <;> decide +kernel

def aSink (lines : BitVec 13) : SinkEntry := ⟨14, 0, 100, lines⟩

/-- A flit of message 8 that has an output of tile 0's router in this Caravan cycle. -/
def ahead (out : Nat) : LinkUse := ⟨0, out, 0, true, 8, 0, 2, false⟩

/-- A message from tile 0 to tile 1, which leaves tile 0 by its east link. -/
def crossing (stage : MsgStage) : Msg := { msgOf (route 0 false false 0) false stage 0 with dests := [⟨1, stage, 0, 100, 0, false, 0⟩] }

/-- A descriptor at Ostler point 0 that takes the lines of inbound channel 14: 16 FP32, one line. -/
def pointDesc (granted : Nat) : Desc :=
  { id := 5, src := .ring 63, index := 0, ctx := 0, raw := bits [(505, 1), (501, 7), (498, 7), (490, 14), (240, 15)]
    action := none, ostler := 0, bounced := false, next := 0, chunksLeft := 0, ended := none, poisonMoved := false, fills := 0
    dropped := 0, bits := 0, granted := granted, lines := [], ctrl := none }

def atPoint (m : Msg) (granted : Nat) : State := { traffic m [] with descs := [pointDesc granted] }

/-- The message for a point, of one line. -/
def pointMsg (point : BitVec 2) (stage : MsgStage) : Msg := { msgOf (route 0 false false point) false stage 0 with lines := 1 }

theorem witness_RequestsArrive :
    (let m := msgOf (route 0 false false 0) true .requested 0;
      let s := traffic m [];
      (s.job 0).moves = true ∧ (s.job 0).msg 0 = some m ∧ (m.at_ 0).map (·.stage) = some .requested ∧ m.chains = false ∧
        (s.job 0).outOfTurn m 0 = false ∧ Gets s 0 m true 0 (s.pathTo m 0 0)) ∧
    (let m := crossing .requested;
      let s := withJob { moving [m] with flits := [ahead 1] } (routed m.entry []);
      (s.job 0).msg 0 = some m ∧ (m.at_ 1).map (·.stage) = some .requested ∧ ¬ Gets s 0 m true 0 (s.pathTo m 1 0)) ∧
    (let m := msgOf (route 0 false false 0) false .requested 0;
      let s := traffic m [];
      m.entry.point = 0 ∧ (s.tile 0).recorded = true ∧ (s.tile 0).current.sink m.entry.destCh = none ∧
        Gets s 0 m true 0 (s.pathTo m 0 0)) ∧
    (let m := pointMsg 2 .requested;
      let s := traffic m [];
      m.chains = false ∧ m.entry.point = 2 ∧ s.boundDesc 0 0 m.entry.destCh = none ∧ Gets s 0 m true 0 (s.pathTo m 0 0)) ∧
    (∀ p ∈ [true, false], let m := msgOf { route 2 false false 0 with destCh := 15 } false .requested 0
      let s := withJob (moving [m]) (routed (route 2 p false 0) [])
      m.chains = true ∧ (s.tile 0).takesChain m.entry.destCh = p ∧ (s.job 0).outOfTurn m 0 = false ∧
        Gets s 0 m true 0 (s.pathTo m 0 0)) := by
  refine ⟨?_, ?_, ?_, ?_, ?_⟩ <;> decide +kernel

theorem witness_RequestsArrive_granted :
    (∀ st ∈ [MsgStage.requested, .refused], let m := pointMsg 1 st
      let s := traffic m []
      (s.job 0).moves = true ∧ (s.job 0).msg 0 = some m ∧ m.null = false ∧ m.chains = false ∧ m.entry.point = 1 ∧
        (s.job 0).msgs = [m] ∧ ComesTo s 0 m ⟨0, st, 0, 100, 0, false, 0⟩ ∧ m.at_ 0 = some ⟨0, st, 0, 100, 0, false, 0⟩) ∧
    (let m := msgOf (route 1 false false 0) false .requested 0;
      let s := withJob (moving [m]) { routed m.entry [] with recorded := false };
      m.entry.point = 0 ∧ (s.tile 0).recorded = false ∧ m.entry.mode = 1 ∧ m.chains = false ∧
        ComesTo s 0 m ⟨0, .requested, 0, 100, 0, false, 0⟩) ∧
    (let m := pointMsg 2 .requested;
      let s := atPoint m 0;
      s.boundDesc 0 0 m.entry.destCh = some (pointDesc 0) ∧ s.desc 5 = some (pointDesc 0) ∧
        64 * ((pointDesc 0).granted + m.lines) ≤ (pointDesc 0).consumes ∧ ComesTo s 0 m ⟨0, .requested, 0, 100, 0, false, 0⟩) ∧
    (∀ k ∈ [3, 8191], let m := msgOf (route 0 false false 0) false .requested 0
      let s := traffic m [aSink (BitVec.ofNat 13 k)]
      (s.tile 0).current.sink m.entry.destCh = some (aSink (BitVec.ofNat 13 k)) ∧ Memory.wf (s.tile 0).pad = true ∧
        (s.job 0).indexCount 0 false < 512 ∧ (s.tile 0).recorded = true ∧ ComesTo s 0 m ⟨0, .requested, 0, 100, 0, false, 0⟩ ∧
        ((s.tile 0).rings.get ⟨0, 0, 0⟩ 14).place k (m.lines + 1) = some (0, false)) := by
  refine ⟨?_, ?_, ?_, ?_⟩ <;> decide +kernel

theorem witness_GrantsAndAcks :
    (∀ st ∈ [MsgStage.granted, .delivered, .refused], let m := msgOf (route 0 false false 0) false st 0
      let s := traffic m [aSink 8]
      (s.job 0).moves = true ∧ (s.job 0).msg 0 = some m ∧ (m.at_ 0).map (·.stage) = some st ∧
        Gets s 0 m true 2 (s.pathBack m 0) ∧ Gets s 0 m true 3 (s.pathBack m 0)) ∧
    (∀ st ∈ [MsgStage.granted, .delivered], let m := crossing st
      let s := withJob { moving [m] with flits := [⟨1, 3, 0, true, 8, 0, 2, false⟩] } (routed m.entry [])
      (s.job 0).msg 0 = some m ∧ (m.at_ 1).map (·.stage) = some st ∧ ¬ Gets s 0 m true 4 (s.pathBack m 1) ∧
        ¬ Gets s 0 m true 5 (s.pathBack m 1)) := by
  refine ⟨?_, ?_⟩ <;> decide +kernel

/-- The next contributor's message, which takes the partial of message 0. -/
def taker (own : Bool) : Msg := { msgOf (route 2 true true 0) false .requested 0 with id := 1, pred := some 0, own := own }

theorem witness_PayloadLinesLand :
    (∀ n ∈ [0, 1], let m := msgOf (route 0 false false 0) false .sending n
      let s := traffic m [aSink 8]
      (s.job 0).moves = true ∧ (s.job 0).msg 0 = some m ∧ (m.at_ 0).map (·.written) = some n ∧ m.entry.point = 0 ∧
        m.chains = false ∧ (s.tile 0).recorded = true ∧ Memory.wf (s.tile 0).pad = true ∧ n < m.lines ∧
        (s.job 0).lineReady m n = true ∧ Gets s 0 m false 1 (s.pathTo m 0 n)) ∧
    (∀ p ∈ [1, 2], let m := pointMsg (BitVec.ofNat 2 p) .sending
      let s := atPoint m 1
      (s.job 0).moves = true ∧ (s.job 0).msg 0 = some m ∧ (m.at_ 0).map (·.written) = some 0 ∧ m.chains = false ∧
        (s.job 0).lineReady m 0 = true ∧ Gets s 0 m false 1 (s.pathTo m 0 0) ∧
        s.boundDesc 0 0 m.entry.destCh = some (pointDesc 1) ∧ s.desc 5 = some (pointDesc 1)) ∧
    (∀ own ∈ [true, false], let m := msgOf (route 2 false false 0) false .sending 0
      let s := withJob (moving [m, taker own]) (routed m.entry [])
      m.entry.point = 0 ∧ m.chains = true ∧ (s.job 0).msg 0 = some m ∧ (s.job 0).msg 1 = some (taker own) ∧
        0 < (taker own).payload.length ∧ (s.job 0).lineReady m 0 = true ∧ Gets s 0 m false 1 (s.pathTo m 0 0) ∧
        (s.job 0).msgs.find? (fun n => n.pred == some 0 && n.source == 0) = some (taker own)) ∧
    (let m := { msgOf (route 0 false false 0) false .sending 0 with
        dests := [⟨0, .sending, 0, 100, 0, false, 0⟩, ⟨1, .refused, 0, 0, 0, false, 0⟩] };
      ((traffic m []).job 0).msg 0 = some m ∧ (m.dests.map (·.stage)) = [.sending, .refused]) := by
  refine ⟨?_, ?_, ?_, ?_⟩ <;> decide +kernel

theorem witness_EscapesAndFreezes :
    (∀ e ∈ ([(4095, 0), (4096, 0), (4096, 3)] : List (Nat × Nat)), let m := msgOf (route 0 false false 0) false .refused 0
      let sinks := if e.2 = 0 then [] else [aSink 2]
      let s := withJob { moving [m] with clock := e.1 } (routed m.entry sinks)
      (s.job 0).moves = true ∧ (s.job 0).msg 0 = some m ∧ (s.job 0).closing = [] ∧ m.chains = false ∧ m.entry.point = 0 ∧
        (s.tile 0).current.sink m.entry.destCh = sinks.head? ∧ (s.tile 0).recorded = true ∧ (s.job 0).indexCount 0 true < 64 ∧
        ((s.tile 0).task 0).roomUsed + (m.lines + 1) ≤ ((s.tile 0).task 0).ovfLines) ∧
    (∀ b ∈ [true, false], let j := { waiting with phase := .caravan, clock := if b then 0 else 32, thawed := b }
      let s := { withJob j Tile.reset with ports := [(0, { linked with naks := 1 })] }
      (s.job 0).phase = .caravan ∧ (s.job 0).frozen = 0 ∧ (s.job 0).clock % 32 = 0 ∧
        (0 < (s.job 0).clock ∨ (s.job 0).thawed = true) ∧ s.retrying 0 = true ∧ (withPorts s).retrying 0 = false) := by
  refine ⟨?_, ?_⟩ <;> decide +kernel

theorem witness_CaravanEnds :
    (∀ b ∈ [true, false], let s := withJob { moving [] with stop := b } (routed (route 0 false false 0) [])
      (s.job 0).moves = true ∧ s.caravanQuiet 0 = true ∧ (s.job 0).cfg.tiles.Nodup ∧ (s.job 0).msgs = [] ∧ s.courier.cmds = [] ∧
        (s.job 0).closing = []) ∧
    (let m := msgOf (route 0 false false 0) false .sending 0; m.complete = false ∧ ((traffic m []).job 0).msgs = [m]) := by
  refine ⟨?_, ?_⟩ <;> decide +kernel

end Sys2Proof.Tests
end

