-- ==== Sys2Proof/Tests/Slice0.lean ====
section
/-! SUPPORT. The model's own tests: ill-formed commands refused, tile words written out from the encodings of
spec/04_tile_instructions.md, and the worked values that the spec gives. Each says where its expected value stands. -/

namespace Sys2Proof.Tests
open Sys2Proof Sys2Proof.Machine Sys2Proof.Claims
set_option Elab.async false

/-! ### Well-formedness: one command refused for each check -/

theorem test_wf_site : (Instr.nop ⟨10000, 0⟩ ⟨always, 0, 0, 0, 0⟩).wellFormed = false := by decide
theorem test_wf_tile : (Instr.arrayRunStart 10000).wellFormed = false := by decide
theorem test_wf_tile_last : (Instr.arrayRunStart 9999).wellFormed = true := by decide
theorem test_wf_upset : (Instr.memoryRead 0 [(73, 1)]).wellFormed = false := by decide
theorem test_wf_line : (Instr.memoryWrite 63 [0, 0] false).wellFormed = false := by decide
theorem test_wf_line_empty : (Instr.memoryWrite 0 [] false).wellFormed = false := by decide
theorem test_wf_payload : (Instr.dataFlit 0 0 0 (List.replicate 241 0) 0 false).wellFormed = false := by decide +kernel
theorem test_wf_bank : (Instr.refresh 0 4096).wellFormed = false := by decide
theorem test_wf_frame : (Instr.frameZero (2 ^ 24)).wellFormed = false := by decide
theorem test_wf_register : (Instr.registerWrite 2 4 0).wellFormed = false := by decide
theorem test_wf_doorbell_page : (Instr.registerWrite 0x4040004 4 0).wellFormed = false := by decide
theorem test_wf_invalid_access : (Instr.registerAccessInvalid 8 4 true).wellFormed = false := by decide
theorem test_wf_counter : (Instr.counterLowRead 0x4000000).wellFormed = false := by decide
theorem test_wf_flits : (Instr.markerReceive 0 ⟨true, []⟩ ⟨List.replicate 257 ⟨true, []⟩, 0, 0⟩).wellFormed = false := by
  decide +kernel
theorem test_wf_rail : (Instr.railUp 11).wellFormed = false ∧ (Instr.railFault 11).wellFormed = false := by decide
theorem test_wf_sensor : (Instr.sensorRead [(120, 0)]).wellFormed = false := by decide
theorem test_wf_trip : (Instr.thermtrip 80).wellFormed = false := by decide
theorem test_wf_pldm : (Instr.pldmSensorRead 256).wellFormed = false := by decide

/-! ### Tile words, from the formats of R119 and R120 and the opcodes of spec/04_tile_instructions.md -/

/-- The spec's example of R134: RSUM v7, v2. -/
theorem test_decode_rsum : decodeTile site 0x681C8000 0 = some (.vred site ⟨⟨0, 0⟩, 7, 2, 0, 0, 0⟩) := by decide
/-- The spec's example under "Array instructions": ACFG with both slots 0 and both formats BF16. -/
theorem test_decode_acfg : decodeTile site 0x80000000 0 = some (.acfg site ⟨⟨0, 0⟩, 0, 0, 0, 0⟩) := by decide
/-- The same: ARUN a2, a3, s5 with L = 32. -/
theorem test_decode_arun : (match decodeTile site 0x8408CA00 0 with
    | some (.arun _ f) => f.x == 2 && f.y == 3 && f.s == 5
    | _ => false) = true := by decide
/-- The same: ADRN a6 to FP32. -/
theorem test_decode_adrn : (match decodeTile site 0x88180000 0 with
    | some (.adrn _ f) => f.x == 6
    | _ => false) = true := by decide
/-- The spec's example under R146: SEND with CH 3, HID 17, AS 4 and SL 9. -/
theorem test_decode_send : decodeTile site 0xA00D1448 0 = some (.send site ⟨⟨0, 0⟩, 3, 17, 4, 9, 0⟩) := by decide
/-- F-J: opcode 0x08 in [31:26], D 7 in [21:17], 14 in [16:0]. -/
theorem test_decode_li : decodeTile site 0x200E000E 0 = some (.li site ⟨⟨0, 0⟩, 7, 14⟩) := by decide
/-- F-I under the guard !p3: opcode 0x03, PG 3 in [25:23], PN in [22], D 1, A 2, −1 in [11:0]. -/
theorem test_decode_addi : decodeTile site (0x0DC22FFF) 0 = some (.addi site ⟨⟨3, 1⟩, 1, 2, 0xFFF⟩) := by decide
/-- F-L: the second word is the immediate. -/
theorem test_decode_lil : decodeTile site 0x24020000 0xCAFEF00D = some (.lil site ⟨⟨0, 0⟩, 1, 0, 0, 0xCAFEF00D⟩) := by decide
/-- No opcode 0x33 (R121). -/
theorem test_decode_none : decodeTile site 0xCC000000 0 = none := by decide
/-- No row of the opcode table gives bits. -/
theorem test_table_word : decodeTableWord 32 0x681C8000 = none := rfl

/-! ### Arithmetic -/

/-- The tree of R134's example: 1.0, 2^−24 three times and zeros sum to 0x3F80_0001. -/
theorem test_rsum_tree : reduceLanes 0 ([0x3F800000, 0x33800000, 0x33800000, 0x33800000] ++ List.replicate 28 0) = 0x3F800001 := by
  decide +kernel
/-- The example after R44: 3.1 in E4M3 gives e = 7, so SCALE_EXP 6. -/
theorem test_scale_e4m3 : scaleExp 0x40466666 false 1 = some 6 := by decide +kernel
/-- The same: 0.0021 in E5M2 gives SCALE_EXP 23, and doubled 22 (R288's example). -/
theorem test_scale_e5m2 : scaleExp 0x3B09A027 true 1 = some 23 ∧ scaleExp 0x3B89A027 true 1 = some 22 := by decide +kernel
/-- The same: 3.1 at 2^6 rounds to 192, encoded 0x74, which reads back as 3.0. -/
theorem test_e4m3_round_trip : (e4m3.convert false ((of32 0x40466666).scale 6)).bits = 0x74 ∧
    fp8Read (e4m3.value 0x74) 6 = 0x40400000 := by decide +kernel
/-- R43's exception: 448 read at exponent −127 is an infinity. -/
theorem test_fp8_beyond : fp8Read (e4m3.value 0x7E) (-127) = 0x7F800000 := by decide +kernel

/-! ### The worked step of spec/09_update_engine.md -/

/-- The gradient of the example, as FP32. -/
def workedG : List Word :=
  [0x3F800000, 0x40000000, 0x40000000, 0x40400000, 0, 0, 0x3F800000, 0x3F800000, 0x40000000, 0x40000000, 0x3F800000, 0x3F800000]

/-- c0 to c11 of its slot: 0.5, 0.5, 0, 1, 0, 10^−8, −0.5, 0.1, 0, 0, 4, 0. -/
def workedC : List Word :=
  [0x3F000000, 0x3F000000, 0, 0x3F800000, 0, 0x322BCC77, 0xBF000000, 0x3DCCCCCD, 0, 0, 0x40800000, 0]

/-- Its shard: 4 × 3 in FP32, factored. -/
def workedL : LF :=
  { layerFields 0 with rows := 4, cols := 3, gBf16 := false, sBf16 := false, stat := 2 }

/-- A value lies within a millionth of so many millionths. -/
def near (w : Word) (micro : Int) : Bool :=
  match of32 w with
  | .fin neg m e =>
    let v : Int := if neg then -(m : Int) else m
    decide (e < 0) && decide ((v * 1000000 - micro * 2 ^ e.natAbs).natAbs < 2 ^ e.natAbs)
  | _ => false

/-- The element of row-major index `i` with weight `w`. -/
def worked (i : Nat) (w : Word) : Word × Stored :=
  let v := factoredV [0x40400000, 0x40400000, 0x40000000, 0x40000000] [0x40700000, 0x3FC00000, 0x40100000] 0x40200000 3 i
  let k := coefAt workedC 0 0x3C23D70A 0x3F000000
  let e : Elem := ⟨i, workedG.getD i 0, w, 0, 0, 0, 0⟩
  let m := k.move false (some v) e
  (m.d, k.store false false e m m.d)

/-- Pass one: the squares sum to 30. -/
theorem test_worked_squares : laneSquares ((List.range 12).map fun i => (i, workedG.getD i 0)) = 0x41F00000 := by decide +kernel
/-- The means: ρ = (3, 3, 2, 2) and γ = (3.75, 1.5, 2.25). -/
theorem test_worked_means : workedL.means workedG =
    ([0x40400000, 0x40400000, 0x40000000, 0x40000000], [0x40700000, 0x3FC00000, 0x40100000]) := by decide +kernel
/-- κ = 4 / √64 = 0.5. -/
theorem test_worked_kappa : kappaOf 0x40800000 0x42800000 = 0x3F000000 := by decide +kernel
/-- Element (0, 0): d = 0.235702, w′ = 0.498321, s1′ = g / 2. -/
theorem test_worked_first : near (worked 0 0x3F000000).1 235702 = true ∧
    near (BitVec.ofNat 32 (worked 0 0x3F000000).2.w) 498321 = true ∧ (worked 0 0x3F000000).2.s1 = 0x3F000000 := by decide +kernel
/-- Element (1, 1), with no gradient: d = 0 and w′ = 0.749250. -/
theorem test_worked_decay : (worked 4 0x3F400000).1 = 0 ∧ near (BitVec.ofNat 32 (worked 4 0x3F400000).2.w) 749250 = true := by
  decide +kernel
/-- Element (3, 0): d = 0.577350, w′ = −0.502387. -/
theorem test_worked_last_row : near (worked 9 0xBF000000).1 577350 = true ∧
    near (BitVec.ofNat 32 (worked 9 0xBF000000).2.w) (-502387) = true := by decide +kernel

/-! ### Records and registers -/

/-- The event of R298 after R450: its low quadword. -/
theorem test_event_record : (eventRecord ⟨0x0501, kStep, 2, 0, 0x13FD, 1, 1⟩ 0 true).extractLsb' 0 64 = 0x8900000002000501 ∧
    (eventRecord ⟨0x0501, kStep, 2, 0, 0x13FD, 1, 1⟩ 0 true).extractLsb' 128 64 = 0x13FD := by decide +kernel

/-- The default-policy block of the example after R564: generation 1 spent, generation 2 written. -/
def workedOtp : Boot :=
  let gens : Tbl Generation := [(20, ⟨true, true, true, [3, 0, 0, 0]⟩), (21, ⟨true, false, false, []⟩), (22, ⟨true, true, true, [5, 0, 0, 0]⟩)]
  { Boot.reset with otp := gens, otpBoot := gens }

/-- Its OTP_STATUS reads 0x0AE0_0000. -/
theorem test_otp_status : ({ State.reset with boot := { workedOtp with done := true } } : State).read32 0x2100014 = 0x0AE00000 := by
  decide +kernel

/-! ### The queue -/

/-- A step runs the command in front, and keeps the rest. -/
theorem test_step_front : step { State.reset with pending := [.vinGood, .bypass] } =
    .next { State.reset with pending := [.bypass], power := { Power.reset with vinGood := true } } := rfl
/-- ID_TIMING on both steppings, as spec/13_loader_contract.md states it. -/
theorem test_timing : ({ State.reset with stepping := .a1 } : State).timing = 0xA1010B0628000000 ∧
    ({ State.reset with stepping := .b0 } : State).timing = 0xB0010D0530000000 := by decide

/-- An empty queue lets a tick pass (log entry 3). -/
theorem test_step_idle : step State.reset = .next { State.reset with tick := 1 } := rfl
/-- The one refusal: the debug instruction while debug is open. -/
theorem test_debug_refused : exec (.managementDebug 0) { State.reset with boot := { Boot.reset with debugOpen := true } } =
    .refused .debugUnit := rfl

/-! ### One tile instruction, and one line of memory -/

/-- LI s7, 14 writes 14 and goes on to the next word. -/
theorem test_li : (match exec (.li site ⟨always, 7, 14⟩) (offered (.li site ⟨always, 7, 14⟩) task) with
    | .next t => (t.taskAt site).getS 7 == 14 && (t.taskAt site).pc == 4
    | _ => false) = true := by decide +kernel
/-- No requester reads the frame table (R226): MEMORY_READ of its last line does nothing. -/
theorem test_frame_table : let s := { State.reset with mem := paged [] }
    exec (.memoryRead 0xFFFFC0 []) s = .next s := rfl
/-- A stack that training has not taken up answers nothing. -/
theorem test_stack_absent : exec (.memoryRead 0x1000000 []) State.reset = .fault .stackAbsent := rfl

end Sys2Proof.Tests
end

