-- ==== Sys2Proof/Tests/TileWitnesses.lean ====
section
/-! SUPPORT. Witnesses for the hypotheses of the statements on tile instructions: for each clause a state and operands
that meet them together, at the ends of a field's range where it has one. -/

namespace Sys2Proof.Tests
open Sys2Proof Sys2Proof.Machine Sys2Proof.Claims
set_option Elab.async false

/-- A task with values in its registers at both ends of each file. -/
def full : Task :=
  { task with
    s := [(0, 0xFFFFFFFF), (1, 5), (31, 0x80000000)], a := [(0, 64), (1, 0xFFFFFFC0), (15, 128)], p := 0x81
    v := [(0, 0x3F800000), (15, 0x40000000)] }

theorem witness_AluResults :
    ((0x0E, fun a b : Word => if a.toNat ≤ b.toNat then b else a) ∈ aluForms ∧ ((0x00, fun a b : Word => a + b) ∈ aluForms)) ∧
      (∀ fn ∈ aluForms.map (·.1), let f : FR := ⟨always, 0, 1, 31, fn⟩
        Takes (.alu site f) site (offered (.alu site f) full) ∧
          Clear ((offered (.alu site f) full).taskAt site) [f.d, f.a, f.b] [f.a, f.b] []) ∧
      (let f : FR := ⟨always, 31, 0, 0, 0x0F⟩;
        Takes (.alu site f) site (offered (.alu site f) full) ∧
          Clear ((offered (.alu site f) full).taskAt site) [f.d, f.a] [] []) := by
  refine ⟨by simp [aluForms], ?_⟩
  refine ⟨?_, ?_⟩ <;> decide +kernel

theorem witness_ImmediateResults :
    (∀ imm ∈ [0, 0xFFF, 0x800], let f : FI := ⟨always, 31, 0, BitVec.ofNat 12 imm⟩
      Clear (full) [f.d, f.a] [f.a] [] ∧ Takes (.addi site f) site (offered (.addi site f) full) ∧
        Takes (.andi site f) site (offered (.andi site f) full) ∧ Takes (.ori site f) site (offered (.ori site f) full) ∧
        Takes (.xori site f) site (offered (.xori site f) full)) ∧
    (∀ imm ∈ [0x01F, 0x03F, 0x05F, 0x000], let f : FI := ⟨always, 0, 31, BitVec.ofNat 12 imm⟩
      Clear (full) [f.d, f.a] [f.a] [] ∧ Takes (.shi site f) site (offered (.shi site f) full) ∧
        f.imm.extractLsb' 7 5 = 0 ∧ f.imm.extractLsb' 5 2 ≠ 3) ∧
    (let f : FJ := ⟨always, 14, 0x10000⟩;
      Takes (.li site f) site (offered (.li site f) full) ∧ Clear full [f.d] [] []) ∧
    (∀ f ∈ [(⟨always, 31, 0, 0, 0xFFFFFFFF⟩ : FL)], f.rsv = 0 ∧ f.k = 0 ∧ Takes (.lil site f) site (offered (.lil site f) full) ∧
      Clear full [f.d] [] []) ∧
    (∀ f ∈ [(⟨always, 15, 1, 0, 0xFFFFFFFF⟩ : FL)], f.rsv = 0 ∧ f.k = 1 ∧ f.d.getLsbD 4 = false ∧
      Takes (.lil site f) site (offered (.lil site f) full)) := by
  refine ⟨?_, ?_, ?_, ?_, ?_⟩ <;> decide +kernel

theorem witness_PredicateResults :
    ((5, fun a b : Word => decide (b.toNat ≤ a.toNat)) ∈ conditions) ∧
    (∀ fn ∈ conditions.map (·.1), ∀ d ∈ [0, 7], let f : FR := ⟨always, BitVec.ofNat 5 d, 1, 31, BitVec.ofNat 7 fn⟩
      Takes (.cmp site f) site (offered (.cmp site f) full) ∧ Clear full [f.a, f.b] [f.a, f.b] [] ∧ f.d.toNat < 8 ∧
        f.fn.toNat = fn) ∧
    (∀ fn ∈ conditions.map (·.1), let f : FC := ⟨always, 7, BitVec.ofNat 3 fn, 31, 0x400⟩
      Takes (.cmpi site f) site (offered (.cmpi site f) full) ∧ Clear full [f.a] [f.a] [] ∧ f.cond.toNat = fn) ∧
    (∀ f ∈ [(⟨always, 7, 0, 7, 0⟩ : FR), ⟨always, 7, 0, 7, 1⟩, ⟨always, 7, 0, 7, 2⟩, ⟨always, 7, 0, 7, 3⟩, ⟨always, 7, 0, 0, 4⟩,
        ⟨always, 7, 0, 0, 5⟩, ⟨always, 0, 7, 0, 6⟩],
      Takes (.plog site f) site (offered (.plog site f) full) ∧ f.d.toNat < 8 ∧ f.a.toNat < 8 ∧ f.b.toNat < 8 ∧
        ((f.fn = 4 ∨ f.fn = 5) → f.a = 0 ∧ f.b = 0) ∧ (f.fn = 6 → f.b = 0)) ∧
    (let f : FR := ⟨always, 31, 0, 0, 0⟩;
      Takes (.pmov site f) site (offered (.pmov site f) full) ∧ f.b = 0 ∧ f.fn = 0 ∧ f.a = 0 ∧ Clear full [f.d] [] []) ∧
    (let f : FR := ⟨always, 0, 31, 0, 1⟩;
      Takes (.pmov site f) site (offered (.pmov site f) full) ∧ f.b = 0 ∧ f.fn = 1 ∧ f.d = 0 ∧ Clear full [f.a] [f.a] []) ∧
    (let f : FT := ⟨always, 7, 0, 0, 0⟩;
      Takes (.tflag site f) site (offered (.tflag site f) full) ∧ f.tn.toNat < 8 ∧ f.s = 0 ∧ f.rsv = 0 ∧ f.n = 0) ∧
    (let f : FR := ⟨always, 0, 0, 0, 0⟩;
      Takes (.nop site f) site (offered (.nop site f) full) ∧ f.d = 0 ∧ f.a = 0 ∧ f.b = 0 ∧ f.fn = 0) := by
  refine ⟨by simp [conditions], ?_⟩
  refine ⟨?_, ?_, ?_, ?_, ?_, ?_, ?_⟩ <;> decide +kernel

theorem witness_AddressResults :
    (∀ fn ∈ [(0 : BitVec 7), 1], let f : FR := ⟨always, 15, 0, 31, fn⟩
      Takes (.aop site f) site (offered (.aop site f) full) ∧ f.d.toNat < 16 ∧ f.a.toNat < 16 ∧
        Clear full [f.b] [f.b] [f.a.setWidth 4] ∧ (f.fn = 0 ∨ f.fn = 1)) ∧
    (let f : FR := ⟨always, 31, 15, 0, 2⟩;
      Takes (.aop site f) site (offered (.aop site f) full) ∧ f.fn = 2 ∧ f.b = 0 ∧ f.a.toNat < 16 ∧ Clear full [f.d] [] []) ∧
    (let f : FR := ⟨always, 15, 31, 0, 3⟩;
      Takes (.aop site f) site (offered (.aop site f) full) ∧ f.fn = 3 ∧ f.b = 0 ∧ f.d.toNat < 16 ∧ Clear full [f.a] [] []) ∧
    (let f : FR := ⟨always, 15, 0, 0, 4⟩;
      Takes (.aop site f) site (offered (.aop site f) full) ∧ f.fn = 4 ∧ f.b = 0 ∧ f.d.toNat < 16 ∧ f.a.toNat < 16) ∧
    (let f : FI := ⟨always, 15, 0, 0x800⟩;
      Takes (.aaddi site f) site (offered (.aaddi site f) full) ∧ f.d.toNat < 16 ∧ f.a.toNat < 16 ∧
        Clear full [] [] [f.a.setWidth 4]) := by
  refine ⟨?_, ?_, ?_, ?_, ?_⟩ <;> decide +kernel

/-- With no drain pending an access in bounds reaches its bytes. -/
theorem reaches_of (s : State) (f : FM) (ss : List (BitVec 5)) (vs : List (BitVec 4)) (n : Nat)
    (h : (s.taskAt site).waits ss vs = false ∧ (s.taskAt site).tagA f.ab = false ∧
      (s.taskAt site).offset f + n ≤ 64 * (s.taskAt site).spBound)
    (hd : (s.tile site.tile).drains = []) : Reaches s site f ss vs n :=
  ⟨h.1, h.2.1, h.2.2, fun l _ _ => by simp [Tile.markedByDrain, hd]⟩

/-- Seven loads outstanding, none for the registers named. -/
def seven : Task := { full with loads := List.replicate 7 ⟨false, 0, 9, 0, false⟩ }

theorem witness_LoadsIssue :
    (∀ f ∈ [(⟨always, 31, 15, 0, 0⟩ : FM), ⟨always, 31, 15, 1, 0⟩, ⟨always, 31, 15, 2, 0x7FF⟩, ⟨always, 31, 15, 3, 0⟩],
      Takes (.ld site f) site (offered (.ld site f) seven)) ∧
    Reaches (offered (.ld site ⟨always, 31, 15, 2, 0x780⟩) seven) site ⟨always, 31, 15, 2, 0x780⟩ [31] [] 4 ∧
    seven.loads.length < 8 ∧
    (let f : FM := ⟨always, 15, 15, 0, 0⟩;
      Takes (.vld site f) site (offered (.vld site f) seven) ∧ f.sz = 0 ∧ f.d.toNat < 16) ∧
    Reaches (offered (.vld site ⟨always, 15, 15, 0, 0⟩) seven) site ⟨always, 15, 15, 0, 0⟩ [] [15] 128 := by
  refine ⟨by decide +kernel, reaches_of _ _ _ _ _ (by decide +kernel) rfl, by decide +kernel,
    by decide +kernel, reaches_of _ _ _ _ _ (by decide +kernel) rfl⟩

theorem witness_LoadReturns :
    (∃ l, ((withTask seven Tile.reset).taskAt site).loads[6]? = some l ∧ l.vector = false) ∧
    (∃ l, ((withTask { task with loads := [⟨true, 4, 15, 7, true⟩] } Tile.reset).taskAt site).loads[0]? = some l ∧
      (l.vector = true → l.dest.toNat < 16)) ∧
    (∀ pc ∈ [0, 8], let x := { Tile.reset with bankWaits := [⟨11, 3, 0, BitVec.ofNat 16 pc⟩] }
      let s := withTask { task with loads := [⟨true, 8, 15, 7, true⟩] } x
      ((s.tile 0).bankWaits.any fun u => u.prio == 3 && u.task == 0 && u.pc == 8) = (pc == 8)) := by
  exact ⟨⟨_, rfl, rfl⟩, ⟨_, rfl, by decide +kernel⟩, by decide +kernel⟩

/-- A drain of one line about to write line 1, and a run whose panels are lines 1 and 2 and whose checker has not settled it. -/
def lineDrain : Drain :=
  { run := 7, task := 0, pc := 0, addr := 64, target := 0, ovf := false, slot := 0, lines := 16, written := 0, undo := [] }
def openRun : Run :=
  { id := 7, task := 0, pc := 0, panelA := 64, panelB := 128, k := 16, len := 32, cfg := ⟨0, 0, 0, 0⟩, expA := 0, expB := 0,
    checked := true, stage := .queued, fed := 0, aVals := [], bVals := [], aScale := [], bScale := [], totals := [],
    arb := none, ready := false, settled := false, dropped := false }

/-- Eight loads outstanding, none for the registers named. -/
def eight : Task := { full with loads := List.replicate 8 ⟨false, 0, 9, 0, false⟩ }

theorem witness_AccessesWait :
    let f : FM := ⟨always, 2, 0, 2, 0⟩
    let t := { full with loads := [⟨false, 0, 2, 0, false⟩, ⟨true, 0, 2, 0, false⟩] }
    let marked := { Tile.reset with drains := [lineDrain], runs := [openRun] }
    let held := { Tile.reset with runs := [openRun] }
    (Takes (.ld site f) site (offered (.ld site f) t) ∧ Takes (.st site f) site (offered (.st site f) t) ∧ f.sz ≠ 3 ∧
      t.waits [f.d] [] = true) ∧
    (full.waits [f.d] [] = false ∧ full.tagA f.ab = false ∧ (full.getA f.ab + f.off.signExtend 32).toNat + 4 ≤ 64 * full.spBound ∧
      Takes (.ld site f) site (offeredIn (.ld site f) full marked) ∧ Takes (.st site f) site (offeredIn (.st site f) full marked) ∧
      ((offeredIn (.ld site f) full marked).tile 0).markedByDrain 1 = true ∧ Touches (64 * full.spBase + 64) 4 1) ∧
    (Takes (.ld site f) site (offered (.ld site f) eight) ∧ 8 ≤ eight.loads.length ∧ eight.waits [f.d] [] = false ∧
      ((offered (.ld site f) eight).tile 0).drains = []) ∧
    (Takes (.st site f) site (offeredIn (.st site f) full held) ∧ held.drains = [] ∧
      ((offeredIn (.st site f) full held).tile 0).heldByChecker 1 = true) ∧
    (let g : FM := ⟨always, 2, 0, 0, 0⟩;
      Takes (.vld site g) site (offered (.vld site g) t) ∧ Takes (.vst site g) site (offered (.vst site g) t) ∧ g.sz = 0 ∧
        g.d.toNat < 16 ∧ t.waits [] [g.d.setWidth 4] = true ∧ full.waits [] [g.d.setWidth 4] = false ∧
        (full.getA g.ab + g.off.signExtend 32).toNat + 128 ≤ 64 * full.spBound ∧ Touches (64 * full.spBase + 64) 128 2 ∧
        Takes (.vld site g) site (offeredIn (.vld site g) full marked) ∧ Takes (.vst site g) site (offeredIn (.vst site g) full marked) ∧
        Takes (.vld site g) site (offered (.vld site g) eight) ∧ Takes (.vst site g) site (offeredIn (.vst site g) full held) ∧
        ((offeredIn (.vst site g) full held).tile 0).heldByChecker 2 = true) := by
  refine ⟨?_, ?_, ?_, ?_, ?_⟩ <;> decide +kernel

theorem witness_StoresWrite :
    (∀ f ∈ [(⟨always, 31, 15, 0, 0⟩ : FM), ⟨always, 31, 15, 1, 0⟩, ⟨always, 31, 15, 2, 0x780⟩],
      Takes (.st site f) site (offered (.st site f) full) ∧ Memory.wf ((offered (.st site f) full).tile 0).pad = true) ∧
    Reaches (offered (.st site ⟨always, 31, 15, 2, 0x780⟩) full) site ⟨always, 31, 15, 2, 0x780⟩ [31] [] 4 ∧
    (∀ l, ((offered (.st site ⟨always, 31, 15, 2, 0x780⟩) full).tile site.tile).heldByChecker l = false) ∧
    (let f : FM := ⟨always, 15, 0, 0, 0x7C0⟩;
      Takes (.vst site f) site (offered (.vst site f) full) ∧ f.sz = 0 ∧ f.d.toNat < 16) ∧
    Reaches (offered (.vst site ⟨always, 15, 0, 0, 0x7C0⟩) full) site ⟨always, 15, 0, 0, 0x7C0⟩ [] [15] 128 := by
  refine ⟨by decide +kernel, reaches_of _ _ _ _ _ (by decide +kernel) rfl, fun _ => rfl,
    by decide +kernel, reaches_of _ _ _ _ _ (by decide +kernel) rfl⟩

theorem witness_OutOfBoundsHalts :
    (∀ f ∈ [(⟨always, 31, 1, 0, 0⟩ : FM), ⟨always, 31, 1, 1, 0⟩, ⟨always, 31, 1, 2, 0x03F⟩],
      let off := (full.getA f.ab + f.off.signExtend 32).toNat
      Clear full [f.d] [] [f.ab] ∧ Takes (.ld site f) site (offered (.ld site f) full) ∧
        Takes (.st site f) site (offered (.st site f) full) ∧ f.sz ≠ 3 ∧
        64 * full.spBound < off + (if f.sz = 1 then 2 else if f.sz = 2 then 4 else 1)) ∧
    (let t := { full with a := [(0, 262017)] };
      let f : FM := ⟨always, 15, 0, 0, 0⟩
      f.sz = 0 ∧ f.d.toNat < 16 ∧ t.waits [] [f.d.setWidth 4] = false ∧ t.tagA f.ab = false ∧
        64 * t.spBound + 1 = (t.getA f.ab + f.off.signExtend 32).toNat + 128 ∧
        Takes (.vld site f) site (offered (.vld site f) t) ∧ Takes (.vst site f) site (offered (.vst site f) t)) ∧
    ((withTask full Tile.reset).ctxOf site.tile = some 0 ∧ ((withTask full Tile.reset).job 0).phase = .compute) := by
  refine ⟨?_, ?_, ?_⟩ <;> decide +kernel

theorem witness_Branches :
    (∀ f ∈ [(⟨always, 0, 0, 0, 0⟩ : FB), ⟨always, 0, 0, 0, 0x1FFF⟩], Takes (.br site f) site (offered (.br site f) full) ∧ f.rsv = 0 ∧
      f.l = 0 ∧ f.s = 0 ∧ (0 : Int) ≤ full.pc.toNat + 4 * f.off.toInt ∧ (full.pc.toNat + 4 * f.off.toInt : Int) < 65536) ∧
    (let f : FB := ⟨always, 31, 1, 0, 1⟩;
      Takes (.br site f) site (offered (.br site f) full) ∧ f.l = 1 ∧ Clear full [f.s] [] []) ∧
    (let t := { full with s := [(31, 0xFFFC)] };
      (let f : FB := ⟨always, 0, 0, 0, 0x3E00⟩;
        Takes (.jr site f) site (offered (.jr site f) t) ∧ f.rsv = 0 ∧ f.off.extractLsb' 0 9 = 0 ∧ f.l = 0 ∧ f.s = 0 ∧
          f.off.extractLsb' 9 5 = 31 ∧ (t.getS 31).toNat % 4 = 0 ∧ (t.getS 31).toNat < 65536 ∧ Clear t [31] [31] []) ∧
      (let f : FB := ⟨always, 31, 1, 0, 0x3E00⟩;
        Takes (.jr site f) site (offered (.jr site f) t) ∧ f.l = 1 ∧ Clear t [31, f.s] [31] [])) ∧
    (∀ v ∈ [1, 0, 2], let t := { full with pc := 4, s := [(31, BitVec.ofNat 32 v)] }
      let f : FB := ⟨always, 31, 0, 0, 0x3FFF⟩
      Takes (.loop site f) site (offered (.loop site f) t) ∧ f.rsv = 0 ∧ f.l = 0 ∧ Clear t [f.s] [f.s] [] ∧
        (t.pc.toNat + 4 * f.off.toInt : Int) = 0) := by
  refine ⟨?_, ?_, ?_, ?_⟩ <;> decide +kernel

theorem witness_GuardFalsePassesOver :
    ∀ i ∈ [Instr.nop site ⟨⟨0, 1⟩, 0, 0, 0, 0⟩, .lil site ⟨⟨1, 0⟩, 3, 0, 0, 9⟩],
      let s := offered i full
      s.mayIssue site = true ∧ (s.taskAt site).fetchable (s.taskAt site).pc.toNat = true ∧
        tileWord i = some ((s.tile 0).wordAt (s.taskAt site) 0) ∧
        decodeTile site ((s.tile 0).wordAt (s.taskAt site) 0) ((s.tile 0).wordAt (s.taskAt site) 4) = some i ∧
        guardHolds (guardOf ((s.tile 0).wordAt (s.taskAt site) 0)) (s.taskAt site) = false := by
  decide +kernel

theorem witness_VectorArithmetic :
    (∀ fn ∈ [(0 : BitVec 6), 1, 2, 3, 6, 7], let f : FV := ⟨always, 15, 0, 15, 0, fn⟩
      Takes (.vop site f) site (offered (.vop site f) full) ∧ ClearV full [] [15, 0, 15] [] [0, 15]) ∧
    (let f : FV := ⟨always, 15, 0, 15, 15, 4⟩;
      Takes (.vop site f) site (offered (.vop site f) full) ∧ ClearV full [] [15, 0, 15, 15] [] [0, 15, 15]) ∧
    (∀ fn ∈ [(5 : BitVec 6), 8, 9, 10, 11], let f : FV := ⟨always, 0, 15, 0, 0, fn⟩
      Takes (.vop site f) site (offered (.vop site f) full) ∧ ClearV full [] [0, 15] [] [0, 15]) := by
  refine ⟨?_, ?_, ?_⟩ <;> decide +kernel

theorem witness_VectorTransfers :
    (let f : FR := ⟨always, 15, 31, 0, 0⟩;
      Takes (.vxfer site f) site (offered (.vxfer site f) full) ∧ f.d.toNat < 16 ∧ full.waits [f.a] [15] = false) ∧
    (let f : FR := ⟨always, 31, 15, 31, 1⟩;
      Takes (.vxfer site f) site (offered (.vxfer site f) full) ∧ f.a.toNat < 16 ∧ full.waits [f.d] [15] = false) ∧
    (let f : FR := ⟨always, 15, 31, 31, 2⟩;
      Takes (.vxfer site f) site (offered (.vxfer site f) full) ∧ f.d.toNat < 16 ∧ full.waits [f.a] [15] = false) := by
  refine ⟨?_, ?_, ?_⟩ <;> decide +kernel

/-- Slot 15 filled for E4M3, slot 0 for E5M2. -/
def slotted : Task :=
  { full with slots := [(0, ⟨true, 9, 1, false, 0, 0, 0⟩), (15, ⟨true, 8, 0, false, 0, 0, 0⟩)], cfg := some ⟨15, 0, 2, 3⟩ }

theorem witness_VectorConversionsAndReductions :
    (∀ e ∈ ([(0, 0, 1), (1, 1, 0), (2, 15, 3), (3, 0, 3), (4, 15, 3), (5, 15, 7), (6, 0, 0)] : List (Nat × Nat × Nat)), ∀ pack ∈ [0, 1],
      let code := e.1
      let f : FV := ⟨always, 0, 15, BitVec.ofNat 4 e.2.2, BitVec.ofNat 4 (if code = 1 then pack else e.2.1),
        BitVec.ofNat 6 (32 * pack + 4 * code)⟩
      let sc : BitVec 5 := f.vc.setWidth 5
      Takes (.vcvt site f) site (offered (.vcvt site f) slotted) ∧ f.fn.extractLsb' 0 2 = 0 ∧
        (f.fn.extractLsb' 2 3).toNat = code ∧ f.vb.toNat < 32 / widthOf code ∧ (code = 6 → f.vc = 0) ∧
        (code < 2 → f.vc = 0 ∨ (f.vc = 1 ∧ f.fn.getLsbD 5 = true)) ∧
        ClearV slotted [sc] [f.vd, f.va] [sc] [f.va] ∧
        ((code = 2 ∨ code = 3) → (slotted.slot f.vc).filled = true ∧ (slotted.slot f.vc).format.toNat + 2 = code)) ∧
    (∀ fn ∈ [(0 : BitVec 6), 1, 2, 3], let f : FV := ⟨always, 15, 0, 0, 0, fn⟩
      Takes (.vred site f) site (offered (.vred site f) full) ∧ ClearV full [] [15, 0] [] [0]) ∧
    (∀ f ∈ [(⟨always, 15, 1, 0, 2, 4⟩ : FV), ⟨always, 15, 0, 0, 2, 5⟩, ⟨always, 15, 0, 0, 2, 6⟩],
      Takes (.vred site f) site (offered (.vred site f) full) ∧ f.vb ≠ f.vc ∧ f.vb ≠ f.vd ∧ f.vc ≠ f.vd ∧
        ClearV full [] [f.vd, f.va, f.vb, f.vc] [] [f.va, f.vb, f.vc, f.vd]) ∧
    (full.merged ⟨always, 15, 0, 3, 2, 5⟩).n = 0 := by
  refine ⟨?_, ?_, ?_, ?_⟩ <;> decide +kernel

/-- An array configuration in force and K in s1. -/
def arrayTask (a b : BitVec 3) (k : Word) : Task := { slotted with cfg := some ⟨15, 0, a, b⟩, s := [(1, k)] }

theorem witness_ArrayIssues :
    (∀ md ∈ [0x000, 0x048, 0x090, 0x0D8, 0x120, 0x168], let f : FA := ⟨always, 15, 0, 0, BitVec.ofNat 9 md⟩
      Takes (.acfg site f) site (offered (.acfg site f) full) ∧ f.md.extractLsb' 0 3 = 0 ∧ f.s = 0 ∧
        f.md.extractLsb' 6 3 = f.md.extractLsb' 3 3 ∧ (f.md.extractLsb' 6 3).toNat < 6) ∧
    (∀ md ∈ [0x000, 0x080, 0x100, 0x1C0], let f : FA := ⟨always, 0, 15, 1, BitVec.ofNat 9 md⟩
      let t := arrayTask 2 3 16
      let c : ArrayCfg := ⟨15, 0, 2, 3⟩
      Takes (.arun site f) site (offered (.arun site f) t) ∧ f.md.extractLsb' 0 6 = 0 ∧ t.cfg = some c ∧
        Clear t [f.s] [f.s] [f.x, f.y] ∧ (t.getA f.x).toNat % 64 = 0 ∧ (t.getA f.y).toNat % 64 = 0) ∧
    (let f : FA := ⟨always, 0, 15, 1, 0⟩;
      let t := arrayTask 4 5 65504;
      t.cfg = some ⟨15, 0, 4, 5⟩ ∧ Clear t [f.s] [f.s] [f.x, f.y] ∧ (t.getS f.s).toNat % 32 = 0) ∧
    (∀ k ∈ [0, 16, 8192], let t := arrayTask 2 3 (BitVec.ofNat 32 k)
      let s := offered (.arun site ⟨always, 0, 15, 1, 0⟩) t
      Takes (.arun site ⟨always, 0, 15, 1, 0⟩) site s ∧
      (t.getA 0).toNat + 64 * (⟨15, 0, 2, 3⟩ : ArrayCfg).linesA k ≤ 64 * t.spBound ∧
        (t.getA 15).toNat + 64 * (⟨15, 0, 2, 3⟩ : ArrayCfg).linesB k ≤ 64 * t.spBound ∧
        (t.slot 15).filled = true ∧ (t.slot 15).format.toNat + 2 = 2 ∧ (t.slot 0).filled = true ∧ (t.slot 0).format.toNat + 2 = 3 ∧
        (s.tile 0).runs = [] ∧ (s.tile 0).drains = [] ∧ ((s.tile 0).seen s.fresh).padPoison = []) := by
  refine ⟨?_, ?_, ?_, ?_⟩ <;> decide +kernel

/-- A run of K 0 in a format pair, and a drain of it. -/
def oneRun (stage : RunStage) (checked : Bool) (cfg : ArrayCfg) : Run :=
  { id := 7, task := 0, pc := 0, panelA := 64, panelB := 128, k := 0, len := 32, cfg := cfg, expA := 0, expB := 0,
    checked := checked, stage := stage, fed := 0, aVals := [], bVals := [], aScale := [], bScale := [], totals := List.replicate 256 0,
    arb := none, ready := false, settled := false, dropped := false }

def oneDrain (target : BitVec 2) (lines written : Nat) : Drain :=
  { run := 7, task := 0, pc := 0, addr := 64, target := target, ovf := false, slot := 15, lines := lines, written := written, undo := [] }

def withRun (r : Run) : Tile := { Tile.reset with runs := [r], nextRun := 8 }

theorem witness_ArrayIssues_adrn :
    ∀ e ∈ ([(0, 0, 0, 16), (1, 0x40, 0, 8), (2, 0, 15, 4)] : List (Nat × Nat × Nat × Nat)),
      let f : FA := ⟨always, 0, BitVec.ofNat 4 e.2.2.1, 0, BitVec.ofNat 9 (128 * e.1 + e.2.1)⟩
      let r := oneRun .running false ⟨0, 0, 0, 0⟩
      let t := { slotted with acc := 0x00040100 }
      let x := withRun r
      Takes (.adrn site f) site (offeredIn (.adrn site f) t x) ∧ f.md.extractLsb' 0 6 = 0 ∧ f.s = 0 ∧
        (f.md.extractLsb' 7 2).toNat = e.1 ∧ (e.1 ≠ 1 → f.md.getLsbD 6 = false) ∧ (e.1 ≠ 2 → f.y = 0) ∧
        (e.1 = 2 → (t.slot f.y).filled = true) ∧ t.tagA f.x = false ∧ (t.getA f.x).toNat % 64 = 0 ∧
        e.2.2.2 = 16 * r.cols * (if e.1 = 0 then 4 else if e.1 = 1 then 2 else 1) / 64 ∧
        (t.getA f.x).toNat + 64 * e.2.2.2 ≤ 64 * t.spBound ∧ x.unbound 0 = some r ∧ x.drains = [] ∧
        ((List.range e.2.2.2).all fun i => !t.inAcc (1 + i)) = true := by
  decide +kernel

theorem witness_CheckerAndRegion :
    (let f : FA := ⟨always, 0, 0, 0, 0⟩;
      Takes (.achk site f) site (offered (.achk site f) full) ∧ Tile.reset.unsettled 0 = false) ∧
    (∀ v ∈ [1, 65535], let t := { full with s := [(31, BitVec.ofNat 32 v)] }
      let f : FT := ⟨always, 15, 31, 0, 0⟩
      Takes (.accopen site f) site (offered (.accopen site f) t) ∧ Clear t [31] [31] [] ∧ 0 < t.accLines ∧ t.region = none ∧
        (t.getS 31).toNat = v) ∧
    (((withTask { full with opening := some ⟨15, 1⟩ } Tile.reset).taskAt site).opening = some ⟨15, 1⟩) ∧
    (let f : FA := ⟨always, 0, 0, 0, 0⟩;
      let x := { Tile.reset with drains := [oneDrain 0 16 0], runs := [oneRun .queued true ⟨0, 0, 0, 0⟩] };
      Takes (.achk site f) site (offeredIn (.achk site f) full x) ∧
        (x.drains.any fun d => d.task == 0 && x.runs.any fun r => r.id == d.run && r.checked && !r.settled) = true) ∧
    (let t := { full with s := [(31, 1)], region := some ⟨15, 1⟩ };
      let f : FT := ⟨always, 15, 31, 0, 0⟩
      Takes (.accopen site f) site (offered (.accopen site f) t) ∧ t.region.isSome = true ∧ Clear t [31] [31] [] ∧
        (({ Tile.reset with drains := [oneDrain 0 16 0] } : Tile).drains.map (·.task)) = [0]) := by
  refine ⟨?_, ?_, ?_, ?_, ?_⟩ <;> decide +kernel

theorem witness_ArrayBlocks :
    (let r := oneRun .queued false ⟨0, 0, 0, 0⟩;
      let s := withTask full (withRun r);
      (s.tile 0).runs.find? (fun r => r.stage == .queued) = some r ∧ s.arrayBusy 0 = false) ∧
    (∀ checked ∈ [true, false], let r := oneRun .running checked ⟨0, 0, 0, 0⟩
      let s := withTask full (withRun r)
      (s.tile 0).runs.find? (fun r => r.stage == .running) = some r ∧ r.dropped = false) ∧
    (let q := oneRun .queued false ⟨0, 0, 0, 0⟩;
      let s := withTask full { Tile.reset with runs := [{ oneRun .running true ⟨0, 0, 0, 0⟩ with id := 6, dropped := true }, q] };
      (s.tile 0).runs.find? (fun r => r.stage == .queued) = some q ∧ s.arrayBusy 0 = true ∧
        ((s.tile 0).runs.find? (fun r => r.stage == .running)).map (·.dropped) = some true) := by
  refine ⟨?_, ?_, ?_⟩ <;> decide +kernel

/-- A checked block in arbitration. -/
def disputed (a : Arbitration) : Run := { oneRun .buffered true ⟨0, 0, 0, 0⟩ with arb := some a, totals := 1 :: List.replicate 255 0 }

theorem witness_ArbitrationKeeps :
    (let a : Arbitration := ⟨false, 0, none, some 1, none, false⟩;
      (withRun (disputed a)).disputed = some (disputed a, a) ∧ a.short = false ∧ a.repeated = none ∧ a.spareTotals = none) ∧
    (let a : Arbitration := ⟨false, 0, none, some 1, some (List.replicate 256 0), true⟩;
      (withRun (disputed a)).disputed = some (disputed a, a) ∧ a.spareOk = true ∧ List.replicate 256 0 ≠ (disputed a).totals) ∧
    (let a : Arbitration := ⟨true, 0, none, some 1, none, false⟩;
      (withRun (disputed a)).disputed = some (disputed a, a) ∧ a.short = true ∧ a.spare = some 1 ∧
        ((disputed a).firstFailing (disputed a).block).isNone = true) ∧
    (let a : Arbitration := ⟨false, 0, none, some 1, none, false⟩;
      let r := { disputed a with totals := (disputed a).block };
      (withRun r).disputed = some (r, a) ∧ flipTotals [] r.block = r.totals) ∧
    (∀ spare ∈ [none, some 1], let a : Arbitration := ⟨false, 0, none, spare, none, false⟩
      let s : State := { withTask full (withRun (disputed a)) with
        jobs := [(0, { job with cfg := { job.cfg with rows := 1, cols := 2 } })], tiles :=
          [(0, withRun (disputed a)), (1, { Tile.reset with recorded := true })] }
      (s.tile 0).disputed = some (disputed a, a) ∧ s.ctxOf 0 = some 0 ∧ (a.spare = some 1 ∨ (a.spare = none ∧ s.pickSpare 0 0 = some 1)) ∧
        (s.tile 1).runs = [] ∧ ((disputed a).firstFailing (flipTotals [] (disputed a).block)).isNone = true ∧
        ((disputed a).firstFailing (flipTotals [(0, 0x3F800000)] (disputed a).block)).isNone = false ∧
        flipTotals [] (disputed a).block ≠ (disputed a).totals) := by
  refine ⟨?_, ?_, ?_, ?_, ?_⟩ <;> decide +kernel

theorem witness_DrainWritesLine :
    (∀ e ∈ ([(0, 16, 0), (0, 16, 15), (1, 8, 7), (2, 4, 3)] : List (Nat × Nat × Nat)),
      let r := { oneRun .buffered false ⟨0, 0, 0, 0⟩ with ready := true }
      let d := oneDrain (BitVec.ofNat 2 e.1) e.2.1 e.2.2
      let x := { withRun r with drains := [d] }
      Memory.wf x.pad = true ∧ x.draining = some (r, d) ∧
        ((d.target == 0 && ({ slotted with acc := 0x00040100 } : Task).inAcc (d.addr.toNat / 64 + d.written)) = false)) ∧
    (let d := oneDrain 0 16 15;
      (({ slotted with acc := 0x00040010 } : Task).inAcc (d.addr.toNat / 64 + d.written)) = true ∧ slotted.region = none) ∧
    (let t := { slotted with acc := 0x00040010, region := some ⟨15, 1⟩ };
      let r := { oneRun .buffered false ⟨0, 0, 0, 0⟩ with ready := true };
      let s := withTask t { withRun r with drains := [oneDrain 0 16 15] };
      (s.tile 0).draining = some (r, oneDrain 0 16 15) ∧ Memory.wf (s.tile 0).pad = true ∧
        (((s.tile 0).task 0).inAcc ((oneDrain 0 16 15).addr.toNat / 64 + 15)) = true ∧ ((s.tile 0).task 0).region.isSome = true) := by
  refine ⟨?_, ?_, ?_⟩ <;> decide +kernel

/-- A POINT route of outbound channel 15 to tile 1. -/
def pointRoute : SourceEntry := ⟨15, 0, 15, false, false, 0, 1, 0, 4096, 0⟩

theorem witness_SendQueues :
    (∀ n ∈ [1, 4096], let t := { full with s := [(31, BitVec.ofNat 32 n)], a := [] }
      let f : FX := ⟨always, 15, 63, 15, 31, 0⟩
      let x := { Tile.reset with current := ⟨0, [pointRoute], []⟩ }
      Takes (.send site f) site (offeredIn (.send site f) t x) ∧ f.rsv = 0 ∧ Clear t [31] [31] [15] ∧
        x.current.source f.ch = some pointRoute ∧ (t.getS 31).toNat = n ∧ n ≤ pointRoute.maxLines.toNat ∧
        (t.getA 15).toNat % 64 = 0 ∧ (t.getA 15).toNat + 64 * n ≤ 64 * t.spBound) ∧
    (∀ n ∈ [0, 64], let f : FT := ⟨always, 0, 0, 0, BitVec.ofNat 7 n⟩
      Takes (.swait site f) site (offered (.swait site f) full) ∧ f.n.toNat ≤ 64 ∧ Tile.reset.queued.length ≤ f.n.toNat) ∧
    (let t := { full with s := [(31, 1)], a := [] };
      let x := { Tile.reset with current := ⟨0, [pointRoute], []⟩, queued := List.replicate 64 ⟨0, 0, 3, 0, 0, 1, false⟩ };
      let f : FX := ⟨always, 15, 63, 15, 31, 0⟩
      let g : FT := ⟨always, 0, 0, 0, 63⟩
      Takes (.send site f) site (offeredIn (.send site f) t x) ∧ 64 ≤ x.queued.length ∧
        Takes (.swait site g) site (offeredIn (.swait site g) t x) ∧ g.n.toNat < (x.queued.filter fun q => q.task == 0).length) := by
  refine ⟨?_, ?_, ?_⟩ <;> decide +kernel

/-- T-format fields that are all zero. -/
def bare : FT := ⟨always, 0, 0, 0, 0⟩

theorem witness_TaskControl :
    (Takes (.fence site bare) site (offered (.fence site bare) full) ∧ Takes (.curf site bare) site (offered (.curf site bare) full) ∧
      full.loads = [] ∧ ((offered (.curf site bare) full).tile 0).handling = none ∧
      ((offered (.curf site bare) full).tile 0).drains = []) ∧
    (Takes (.curf site bare) site (offered (.curf site bare) seven) ∧ seven.loads ≠ []) ∧
    (let x := { Tile.reset with drains := [oneDrain 0 16 0] };
      Takes (.curf site bare) site (offeredIn (.curf site bare) full x) ∧ x.drains.map (·.task) = [0]) ∧
    Takes (.tend site bare) site (offered (.tend site bare) full) ∧
    (∀ e ∈ ([(0, 0), (0x7FFF, 0), (0, 1), (0x8000, 0)] : List (Nat × Nat)),
      let t := { full with tokens := [(15, BitVec.ofNat 16 e.1)], s := [(31, BitVec.ofNat 32 e.2)] }
      let f : FT := ⟨always, 15, 31, 0, 0⟩
      Takes (.twait site f) site (offered (.twait site f) t) ∧ Clear t [31] [31] [] ∧ (t.getS 31).toNat < 65536 ∧
        (decide ((t.tokens.get 0 15 - (t.getS 31).setWidth 16).toNat < 32768) = (e.1 != 0x8000 && e.2 == 0))) := by
  refine ⟨?_, ?_, ?_, ?_, ?_⟩ <;> decide +kernel

/-- A message for task 3 of the tile, of handler 63. -/
def message (task : BitVec 2) : Delivered := ⟨15, 3, 1, 9, 63, task, 100, 2, false, 0⟩

/-- A tile whose task 0 runs a handler, with messages left. -/
def handlingTile (ms : List Delivered) (h : Word) : Tile :=
  { Tile.reset with handling := some ⟨0, .atCurfew, 0x40, message 0⟩, delivered := ms, handlers := [(63, h)] }

theorem witness_HandlersRun :
    (let x := handlingTile [] 0;
      Takes (.hend site bare) site (offeredIn (.hend site bare) full x) ∧ (x.handling.map (·.task)) = some 0 ∧ x.delivered = []) ∧
    (let h : Word := 0x8003FFFC;
      let x := handlingTile [message 3] h;
      let s := offeredIn (.hend site bare) full x;
      Takes (.hend site bare) site s ∧ x.delivered = [message 3] ∧ (message 3).task.toNat ≠ 0 ∧
        (s.taskAt ⟨0, 3⟩).state ≠ .faulted ∧ (x.handlers.get 0 63).getLsbD 31 = true ∧ (x.handlers.get 0 63).extractLsb' 16 2 = 3) ∧
    (Takes (.hend site bare) site (offered (.hend site bare) full) ∧ Tile.reset.handling = none) := by
  refine ⟨?_, ?_, ?_⟩ <;> decide +kernel

theorem witness_InvalidHalts :
    (let s := withTask full { Tile.reset with store := Mem.write [] 0 (toBytes 4 0xFC000000) };
      s.mayIssue site = true ∧ (s.taskAt site).fetchable 0 = true ∧ (s.tile 0).wordAt (s.taskAt site) 0 = 0xFC000000 ∧
        decodeTile site 0xFC000000 ((s.tile 0).wordAt (s.taskAt site) 4) = none ∧ guardHolds (guardOf 0xFC000000) full = true) ∧
    (let x := handlingTile [] 0;
      x.handling.isSome = true ∧ Takes (.curf site bare) site (offeredIn (.curf site bare) full x) ∧
        Takes (.tend site bare) site (offeredIn (.tend site bare) full x)) ∧
    (let f : FM := ⟨always, 31, 15, 3, 0⟩;
      Takes (.st site f) site (offered (.st site f) full) ∧ f.sz = 3) := by
  refine ⟨?_, ?_, ?_⟩ <;> decide +kernel

theorem witness_RegisterInstructionsStayInTheirTile :
    ∃ t, exec (.nop site ⟨always, 0, 0, 0, 0⟩) State.reset = .next t := ⟨_, rfl⟩

end Sys2Proof.Tests
end

