-- ==== Sys2Proof/Tests/UpdateWitnesses.lean ====
section
/-! SUPPORT. Witnesses for the hypotheses of the statements on the update, the Porter, Health and memory. -/

namespace Sys2Proof.Tests
open Sys2Proof Sys2Proof.Machine Sys2Proof.Claims
set_option Elab.async false

/-! ### The update of a step -/

/-- A dense layer of four weights: W, G and S1 at VAs 0x1000, 0x2000 and 0x3000; frozen where asked. -/
def layerRaw (freeze : Bool) : BitVec 512 :=
  bits [(511, 1), (510, if freeze then 1 else 0), (448, 1), (424, 4), (392, 1), (344, 0x1000), (296, 0x2000), (248, 0x3000)]

def layer (freeze one two : Bool) : Layer := ⟨9, layerRaw freeze, one, two, 0, 0, 0, 0, false⟩

/-- Engine 15 with a layer at the head of its queue. -/
def updating (x : Layer) (d : Decision) (gs : List Nat) : State :=
  let j := { pagedJob with phase := .curfew, listS := 1, layers := [x], decision := d, step := some ⟨1, 2, 3, 0, 64, 1, 0, 0⟩ }
  { withJob j Tile.reset with
    mem := paged (gs.zipIdx.map fun g => (0x2000 + 4 * g.2, toBytes 4 g.1)), engines := [(15, ⟨false, 0, [(0, 9)]⟩)] }

def handoff (descs : Nat) : Action := ⟨4096, BitVec.ofNat 256 (2 * 2 ^ 252), 1, descs, true, false⟩

def handing (descs : Nat) : State := { withJob { pagedJob with actions := [handoff descs] } Tile.reset with mem := paged [(0, [1])] }

theorem witness_PassesRun_handoff :
    ∀ n ∈ [0, 4095], ((handing n).job 0).actions.find? (fun a => a.id == 4096 && a.kind == 2 && a.cmdDue) = some (handoff n) ∧
      ((handing n).job 0).running = true ∧ (handoff n).descsLeft = n ∧ fineSt ((handing 0).queueCommand 0 0 (handoff 0)) = true := by
  decide +kernel

/-- The same layer with its arrays where nothing is mapped. -/
def farRaw : BitVec 512 := bits [(511, 1), (448, 1), (424, 4), (392, 1), (344, 2 ^ 46), (296, 2 ^ 46), (248, 2 ^ 46)]

theorem witness_PassesRun :
    (∀ f ∈ [true, false], let s := (updating (layer f false false) .pending [0x3F800000, 0x40000000, 0, 0xBF800000]).beginDue
      s.headLayer 15 = some (0, layer f false false) ∧ s.gradientReady 0 9 = true ∧ s.mem.errors = [] ∧
        okSt ((s.takeHead 15 1).passOneWork 0 (layerFields (layerRaw f))) = true ∧ (layerFields (layerRaw f)).freeze = f ∧
        (layerFields (layerRaw f)).sparse = false ∧ (layerFields (layerRaw f)).factored = false) ∧
    (∀ f ∈ [true, false], let s := updating (layer f true false) .applied [0x3F800000, 0x40000000, 0, 0xBF800000]
      s.headLayer 15 = some (0, layer f true false) ∧ (s.job 0).decision = .applied ∧
        fineSt ((s.takeHead 15 2).passTwoWork 0 15 (layer f true false)) = true) ∧
    (let s := updating (layer false true true) .applied [];
      s.headLayer 15 = some (0, layer false true true) ∧ (s.engine 0).queue = [] ∧ (s.engine 0).busy = false ∧
        s.updCtrl.getLsbD 31 = true ∧ (s.engine 15).queue ≠ []) := by
  refine ⟨?_, ?_, ?_⟩ <;> decide +kernel

theorem witness_PassesRun_failing :
    (let x : Layer := ⟨9, farRaw, false, false, 0, 0, 0, 0, false⟩;
      let s := (updating x .pending []).beginDue;
      s.headLayer 15 = some (0, x) ∧ s.gradientReady 0 9 = true ∧
        okSt ((s.takeHead 15 1).passOneWork 0 (layerFields farRaw)) = false) ∧
    (let x : Layer := ⟨9, farRaw, true, false, 0, 0, 0, 0, false⟩;
      let s := updating x .applied [];
      s.headLayer 15 = some (0, x) ∧ (s.job 0).decision = .applied ∧ fineSt ((s.takeHead 15 2).passTwoWork 0 15 x) = false) ∧
    ((List.range 8).all fun c => !State.reset.passOneDue c) = true ∧ State.reset.beginDue.headLayer 15 = none ∧
    (∀ d ∈ [Decision.pending, .skipped], let s := updating (layer false true false) d []
      s.beginDue.headLayer 15 = some (0, layer false true false) ∧ (s.job 0).decision ≠ .applied) ∧
    (let s := updating (layer false false false) .pending [];
      let u := s.setJob 0 { s.job 0 with phase := .compute };
      u.beginDue.headLayer 15 = some (0, layer false false false) ∧ u.gradientReady 0 9 = false) := by
  refine ⟨?_, ?_, ?_, ?_, ?_, ?_⟩ <;> decide +kernel

def deciding (flag : Bool) : State :=
  let s := updating (layer false true false) .pending []
  (s.setJob 0 { s.job 0 with passOneBegun := true, nonfinite := flag, cfg := { (s.job 0).cfg with extent := 1 + 2 ^ 6 + 2 ^ 12 + 2 ^ 18 } })

theorem witness_StepsAreDecided :
    (∀ flag ∈ [true, false], let s := deciding flag
      let j := s.job 0
      j.step = some ⟨1, 2, 3, 0, 64, 1, 0, 0⟩ ∧ j.phase = .curfew ∧ j.isFinal = true ∧ j.evaluation = false ∧ j.held = false ∧
        j.decision = .pending ∧ j.passOneBegun = true ∧ j.layers = [layer false true false] ∧ j.actions = []) ∧
    (∀ flag ∈ [true, false], let s := deciding flag
      let j := s.job 0
      s.mem.errors = [] ∧ (s.group 0 [0, 1, 2, 3]).me = 0 ∧ j.cfg.modules = 1 ∧ (s.stepFlags 0).1 = flag ∧
        (match (s.pages 0 0 32772 true).1 with
         | .ok _ => true
         | _ => false) = true) ∧
    (∀ flag, NoAdds (deciding flag) 0) ∧
    (let s := deciding false;
      let e := s.setJob 0 { s.job 0 with evaluation := true };
      (s.job 0).step.isSome = true ∧ (e.job 0).step.isSome = true ∧ (e.job 0).evaluation = true) := by
  refine ⟨?_, ?_, fun _ => no_adds _ _ rfl rfl rfl, ?_⟩ <;> decide +kernel

/-- Whether entry 9 of the table reads as the layer. -/
def entryRead (s : State) : Bool :=
  match (s.layerRaw 0 9).2 with
  | .ok (some x) => x == layerRaw false
  | _ => false

theorem witness_RulesWriteBacksAndElements :
    (∀ slot ∈ [0, 31], ∀ top ∈ [0x00, 0x7F], let raw := commandRaw 0x20 [(0, 0x4000), (64, slot)]
      let s := ringed 0 0xE raw (withJob job Tile.reset)
      let bytes := HostView.bytes ⟨[(0x4003, top), (0x4002, 0x80)], [], []⟩ 0x4000 64
      let cs := (List.range 16).map fun i => BitVec.ofNat 32 (numAt bytes (4 * i) 4)
      s.hostEntryOf 63 0x20 (fun _ => true) = some (entry raw) ∧ JobCmd s 63 (entry raw) 9 ∧ bodyAt raw 0 8 % 64 = 0 ∧
        bodyAt raw 8 1 = slot ∧ ((List.range 16).all fun i => ruleOk cs i) = (top == 0x00)) ∧
    (let raw := commandRaw 0x20 [(0, 0x4000), (64, 31)];
      let s := ringed 0 0xE raw (withJob job Tile.reset);
      s.hostEntryOf 63 0x20 (fun _ => true) = some (entry raw) ∧
        (match HostView.read ⟨[], [], [0x100]⟩ 0x4000 64 with
         | .fail _ => true
         | _ => false) = true) ∧
    (∀ k ∈ [0, 1], let raw := commandRaw 0x21 [(0, 0x4000), (64, 5), (96, if k = 0 then 65535 else 9)]
      let s := ringed 0 0xE raw (updating (layer false true true) .applied [])
      s.hostEntryOf 63 0x21 (fun _ => true) = some (entry raw) ∧ JobCmd s 63 (entry raw) 14 ∧
        (match (s.layerRaw 0 (bodyAt raw 12 2)).2 with
         | .ok none => k == 0
         | .ok (some x) => k == 1 && (match (s.setEngine 1 { s.engine 1 with busy := true, pass := 3 }).copyPieces 0 ⟨[], [], [0x100]⟩ 0x4000
              false (layerFields x).pieces with
            | (_, .fail _) => true
            | _ => false)
         | .error _ => false) = true) ∧
    (let raw := commandRaw 0x21 [(0, 0x4000), (64, 5), (96, 9)];
      let s := ringed 0 0xE raw (updating (layer false true true) .applied []);
      s.hostEntryOf 63 0x21 (fun _ => true) = some (entry raw) ∧ JobCmd s 63 (entry raw) 14 ∧ bodyAt raw 0 8 % 64 = 0 ∧
        entryRead s = true ∧ (s.job 0).layers.any (fun y => y.index == 9) = true ∧
        (match s.translate 0 (layerFields (layerRaw false)).w false with
         | .ok pa => stackOfPA pa == 0
         | _ => false) = true ∧
        (let r := (s.setEngine 1 { s.engine 1 with busy := true, pass := 3 }).copyPieces 0 ⟨[(0x4000, 1)], [], []⟩ 0x4000 false
            (layerFields (layerRaw false)).pieces
         (match r.2 with
          | .done _ => true
          | _ => false) = true ∧
           fineSt (r.1.vwrite 0 ((s.job 0).layerTable + 64 * 9 + 49) (toBytes 4 5) false) = true)) ∧
    (let k : Coef := ⟨List.replicate 16 0, 0, 0, 0x3F800000, 0x3F800000⟩;
      let e : Elem := ⟨0, 0, 0x40000000, 0, 0, 7, 8⟩;
      (k.store false true e ⟨0, 0, 0⟩ 0x7F800000).left = true ∧ (k.store false true e ⟨0, 0, 0⟩ 0x3F800000).left = false) := by
  refine ⟨?_, ?_, ?_, ?_, ?_⟩ <;> decide +kernel

/-! ### The Porter -/

/-- The same module at the end of a step, with a shadow region at VA 0x10000 that covers its own frame. -/
def capturing (p : Porter) : State :=
  let s := updating (layer false true true) .applied []
  ({ s.setJob 0 { s.job 0 with cfg := { (s.job 0).cfg with shadowVA := 0x10000 } } with
    mem := { paged [(0x10000, [1]), (0x10012, [1]), (0x1001A, [1])] with dirty := [(289, 0), (289, 1)] } }).setPorter 0 p

def snapOf (step : Word) (valid : Bool) : Snap := { Snap.empty with valid := valid, step := step, tag := 7 }

theorem witness_SnapshotsProceed :
    (∀ stopped ∈ [true, false], let raw := commandRaw 0x30 [(0, 0xFFFFFFFF)]
      let s := ringed 0 0xE raw (withJob { job with phase := if stopped then .stopped else .caravan } Tile.reset)
      s.entryOf 63 0x30 = some (entry raw) ∧ JobCmd s 63 (entry raw) 4 ∧ decide ((s.job 0).phase = .stopped) = stopped) ∧
    (let s := capturing { Porter.reset with capturing := true };
      (s.porter 0).capturing = true ∧ s.captureReady 0 = true ∧ s.mem.errors = [] ∧
        (match s.ranges 0 with
         | .ok rs => rs == [(0x10000, 0x10000)] && (match s.rangeFrames 0 (frameVAs rs) with
             | .ok fs => fs == [(0x10000, 289)]
             | .error _ => false)
         | .error _ => false) = true ∧
        okVal (s.vtake 0 (s.job 0).cfg.scaleBase.toNat (128 * (s.job 0).cfg.scaleEntries.toNat)).2 = true) ∧
    (let s := capturing { Porter.reset with capturing := true };
      let u := s.setJob 0 { s.job 0 with cfg := { (s.job 0).cfg with shadowVA := 0x400000000000 } };
      (u.porter 0).capturing = true ∧ u.captureReady 0 = true ∧ okVal (u.ranges 0) = false ∧ (u.job 0).closing = []) ∧
    (let s := capturing { Porter.reset with copying := true, framesLeft := [(0x400000000000, 289)] };
      (s.porter 0).framesLeft = [(0x400000000000, 289)] ∧ (s.porter 0).copying = true ∧
        (match s.translate 0 0x400000000000 false with
         | .fail _ => true
         | _ => false) = true) ∧
    (let s := capturing { Porter.reset with copying := true, framesLeft := [(0x10000, 289)] };
      (s.porter 0).framesLeft = [(0x10000, 289)] ∧ (s.porter 0).copying = true ∧ (s.porter 0).capturing = false ∧
        s.mem.errors = [] ∧ (match s.translate 0 0x10000 false with
         | .ok _ => true
         | _ => false) = true) ∧
    (∀ m ∈ [0, 1], let s := capturing { Porter.reset with copying := true }
      let u := s.setJob 0 { s.job 0 with cfg := { (s.job 0).cfg with mirrors := BitVec.ofNat 8 m } }
      (u.porter 0).copying = true ∧ (u.porter 0).framesLeft = [] ∧ decide (u.mirrorPorts 0 = []) = (m == 0)) ∧
    (∀ l ∈ [[1], [0, 1]], let s := capturing { Porter.reset with mirroring := true, acksLeft := l }
      (s.porter 0).mirroring = true ∧ (1 : Fin 8).val ∈ (s.porter 0).acksLeft) := by
  refine ⟨?_, ?_, ?_, ?_, ?_, ?_, ?_⟩ <;> decide +kernel

theorem witness_MirrorsHoldAndServe :
    let s := ({ withJob pagedJob Tile.reset with ports := [(1, { Port.reset with link := .run, session := some 1 })] }).setPorter 0
      { Porter.reset with mirrors := [(3, snapOf 5 true)] }
    (1 : Fin 8).val ≤ 1 ∧ (s.port (1 : Fin 8).val).carries = true ∧ (s.job 0).present = true ∧ (s.job 0).cfg.tag = 7 ∧
      pickSnap (s.porter 0).mirrors 2 5 = some (1, snapOf 5 true) ∧ pickSnap (s.porter 0).mirrors 2 6 = none := by
  decide +kernel

/-- The slot has a header of 4 KiB, at most 64 KiB of a Step Engine record, and nothing else. -/
theorem snapOf_bytes (step : Word) (valid : Bool) :
    4096 ≤ (snapOf step valid).bytes.length ∧ (snapOf step valid).bytes.length ≤ 69632 := by
  simp only [Snap.bytes, snapOf, Snap.empty, cleanBytes, fitBytes, markBytes, List.length_append, List.length_map, List.length_take,
    List.length_replicate, List.flatMap_nil, List.length_nil, List.length_mapIdx]
  omega

/-- A SHIP of this capacity, with this Porter. -/
def shipping (kind cap : Nat) (p : Porter) (ports : Tbl Port) : State :=
  (ringed 0 0xE (commandRaw 0x31 [(0, 0x8000), (64, kind), (128, cap)]) { withJob pagedJob Tile.reset with ports := ports }).setPorter 0 p

def shippable : Porter := { Porter.reset with slots := [(0, snapOf 5 true)], recoveryStep := 5 }

theorem witness_CopiesAreDelivered_not :
    (∀ p ∈ [{ shippable with capturing := true }, { shippable with deferred := true, ready := true }],
      let s := shipping 0 69632 p []
      (s.entryOf 63 0x31).isSome = true ∧ ((s.porter 0).capturing = true ∨ ((s.porter 0).deferred = true ∧ (s.porter 0).ready = true))) ∧
    (∀ cap ∈ [0, 69632], let s := shipping 1 cap shippable []
      s.entryOf 63 0x31 = some (entry (commandRaw 0x31 [(0, 0x8000), (64, 1), (128, cap)])) ∧ (s.porter 0).capturing = false ∧
        (s.porter 0).deferred = false ∧ pickSnap (s.porter 0).slots 0 5 = some (0, snapOf 5 true) ∧ (s.port 0).joined = false) ∧
    (let s := shipping 0 69632 Porter.reset [];
      pickSnap (s.porter 0).slots 0 (s.porter 0).recoveryStep = none ∧ (s.porter 0).capturing = false) ∧
    (let raw := commandRaw 0x32 [(0, 0x8000), (64, 65535)];
      let s := ringed 0 0xE raw (updating (layer false true true) .applied []);
      s.entryOf 63 0x32 = some (entry raw) ∧ JobCmd s 63 (entry raw) 10 ∧
        (match (s.layerRaw 0 (bodyAt raw 8 2)).2 with
         | .ok none => true
         | _ => false) = true) ∧
    (Porter.reset.source 0 0 5 [] = none ∧ Porter.reset.source 1 0 5 [] = none) := by
  refine ⟨?_, ?_, ?_, ?_, ?_⟩ <;> decide +kernel

theorem witness_CopiesAreDelivered :
    (∀ kind ∈ [0, 1], let raw := commandRaw 0x31 [(0, 0x8000), (64, kind), (128, 69632)]
      let p := { Porter.reset with slots := [(0, snapOf 5 true)], recoveryStep := 5 }
      let s := (ringed 0 0xE raw { withJob pagedJob Tile.reset with ports := [(0, { Port.reset with link := .run, session := some 1 })] }).setPorter 0 p
      s.entryOf 63 0x31 = some (entry raw) ∧ JobCmd s 63 (entry raw) 24 ∧ bodyAt raw 0 8 % 64 = 0 ∧ bodyAt raw 8 1 = kind ∧
        bodyAt raw 9 1 = 0 ∧ bodyAt raw 10 1 = 0 ∧ bodyAt raw 11 5 = 0 ∧ (s.port 0).joined = true ∧
        pickSnap p.slots 0 p.recoveryStep = some (0, snapOf 5 true) ∧ 69632 ≤ bodyAt raw 16 8) ∧
    (4096 ≤ (snapOf 5 true).bytes.length ∧ (snapOf 5 true).bytes.length ≤ 69632) ∧
    (pickSnap ([] : Tbl Snap) 0 5 = none) ∧
    (let raw := commandRaw 0x32 [(0, 0x8000), (64, 9)];
      let s := ringed 0 0xE raw (updating (layer false true true) .applied []);
      s.entryOf 63 0x32 = some (entry raw) ∧ JobCmd s 63 (entry raw) 10 ∧ bodyAt raw 8 2 = 9 ∧ entryRead s = true ∧
        okSt (s.takeArrays 0 (layerFields (layerRaw false)).shipped) = true ∧ s.mem.errors = []) ∧
    (∀ only ∈ [0, 1], let raw := commandRaw 0x33 [(24, only), (32, 5)]
      let s := (ringed 0 0xE raw { withJob { pagedJob with phase := .loaded } Tile.reset with mem := paged [] }).setPorter 0
        { Porter.reset with slots := [(1, snapOf 5 true)] }
      s.hostEntryOf 63 0x33 (fun raw => bodyAt raw 16 8 != 0) = some (entry raw) ∧ JobCmd s 63 (entry raw) 32 ∧
        bodyAt raw 0 1 = 0 ∧ bodyAt raw 3 1 = only ∧ bodyAt raw 8 8 = 0 ∧ bodyAt raw 16 8 = 0 ∧ bodyAt raw 4 4 = 5 ∧
        (s.job 0).stepsBegun = 0 ∧ (s.job 0).waitingSteps = [] ∧
        pickSnap (s.porter 0).slots 0 5 = some (1, snapOf 5 true) ∧ (snapOf 5 true).tag = (s.job 0).cfg.tag ∧
        fineSt (s.restoreFrom 0 (snapOf 5 true) (only == 1) 0 ((List.range 100).map fun k => BitVec.ofNat 8 k) 0) = true) := by
  refine ⟨?_, snapOf_bytes 5 true, ?_, ?_, ?_⟩ <;> decide +kernel

end Sys2Proof.Tests
end

section
/-! The registers of BAR0 as the host accesses them, and the interrupt vectors (R6 to R8, R453). No 64-bit register overlaps another
register, so an offset tells a half of one from a 32-bit register; each command then has one equation per case. -/

namespace Sys2Proof.Machine

/-! ### Where the registers of BAR0 lie (R595 to R601) -/

/-- An indexed register: the offset of its first entry, the stride and the number of entries. -/
structure RegGrid where
  base : Nat
  stride : Nat
  count : Nat

/-- Whether an entry lies at an offset. -/
abbrev RegGrid.has (g : RegGrid) (off : Nat) : Prop := (indexOf off g.base g.stride g.count).isSome = true

/-- Whether an entry of one of these registers lies at an offset. -/
abbrev Placed (l : List RegGrid) (off : Nat) : Prop := ∃ g ∈ l, g.has off

/-- The offset of the last entry. -/
def RegGrid.last (g : RegGrid) : Nat := g.base + g.stride * (g.count - 1)

/-- A check that no entry of `g` lies `d` bytes above an entry of `w`: one range ends before the other begins, or the residues
by a common divisor of the strides differ. -/
def RegGrid.apart (d : Nat) (w g : RegGrid) : Bool :=
  decide (g.last < w.base + d) || decide (w.last + d < g.base) ||
    (w.base + d) % w.stride.gcd g.stride != g.base % w.stride.gcd g.stride

theorem indexOf_isSome (off base stride count : Nat) :
    (indexOf off base stride count).isSome = true ↔
      base ≤ off ∧ (off - base) % stride = 0 ∧ (off - base) / stride < count := by
  unfold indexOf
  split <;> simp_all

/-- An entry of an indexed register has its own index. -/
theorem indexOf_entry (base : Nat) {n stride count : Nat} (hs : 0 < stride) (hn : n < count) :
    indexOf (base + stride * n) base stride count = some n := by
  simp [indexOf, Nat.mul_div_cancel_left n hs, hn]

theorem RegGrid.has.exists_eq {g : RegGrid} {off : Nat} (h : g.has off) : ∃ i < g.count, off = g.base + g.stride * i := by
  obtain ⟨hb, hm, hc⟩ := (indexOf_isSome _ _ _ _).1 h
  refine ⟨_, hc, ?_⟩
  have := Nat.div_add_mod (off - g.base) g.stride
  omega

theorem RegGrid.has.range {g : RegGrid} {off : Nat} (h : g.has off) : g.base ≤ off ∧ off ≤ g.last := by
  obtain ⟨i, hi, rfl⟩ := h.exists_eq
  exact ⟨Nat.le_add_right _ _, Nat.add_le_add_left (Nat.mul_le_mul_left _ (by omega)) _⟩

theorem RegGrid.has.mod_eq {g : RegGrid} {off m : Nat} (h : g.has off) (hm : m ∣ g.stride) : off % m = g.base % m := by
  obtain ⟨i, -, rfl⟩ := h.exists_eq
  obtain ⟨k, hk⟩ := hm
  rw [hk, Nat.mul_assoc, Nat.add_mul_mod_self_left]

theorem RegGrid.apart_sound {d off : Nat} {w g : RegGrid} (h : RegGrid.apart d w g = true) (hw : w.has off) : ¬ g.has (off + d) := by
  intro hg
  have hwr := hw.range
  have hgr := hg.range
  have hmod : (w.base + d) % w.stride.gcd g.stride = g.base % w.stride.gcd g.stride := by
    rw [← hg.mod_eq (Nat.gcd_dvd_right _ _), Nat.add_mod, ← hw.mod_eq (Nat.gcd_dvd_left _ _), ← Nat.add_mod]
  simp only [RegGrid.apart, Bool.or_eq_true, decide_eq_true_eq, bne_iff_ne, ne_eq, hmod, not_true_eq_false, or_false] at h
  omega

/-- Registers that are pairwise apart share no offset. -/
theorem Placed.apart {d off : Nat} {l k : List RegGrid} (h : (l.all fun w => k.all fun g => RegGrid.apart d w g) = true)
    (hl : Placed l off) : ¬ Placed k (off + d) := by
  rintro ⟨g, hg, hk⟩
  obtain ⟨w, hw, hl⟩ := hl
  exact RegGrid.apart_sound (List.all_eq_true.1 (List.all_eq_true.1 h w hw) g hg) hl hk

/-- Where the 64-bit counters of R7 lie; TLY_COUNT stands as the whole range of its contexts. -/
def counterGrids : List RegGrid :=
  [⟨0x40008, 8, 1⟩, ⟨0x200008, 0x100, 40⟩, ⟨0x200010, 0x100, 40⟩, ⟨0x301000, 0x100, 8⟩, ⟨0x301008, 0x100, 8⟩, ⟨0x301010, 0x100, 8⟩,
    ⟨0x401000, 0x10, 8⟩, ⟨0x401008, 0x10, 8⟩, ⟨0x600008, 0x1000, 8⟩, ⟨0x600010, 0x1000, 8⟩, ⟨0x800020, 0x1000, 8⟩,
    ⟨0x800028, 0x1000, 8⟩, ⟨0x800030, 0x1000, 8⟩, ⟨0x2200000, 8, 256⟩]

/-- HST_RING_BASE. -/
def ringBases : RegGrid := ⟨0x41000, 0x40, 64⟩

/-- The 64-bit registers. -/
def wideGrids : List RegGrid :=
  counterGrids ++ [⟨0x10, 8, 1⟩, ⟨0x20, 8, 2⟩, ringBases, ⟨0x41008, 0x40, 64⟩, ⟨0x608010, 8, 1⟩, ⟨0x800008, 0x1000, 8⟩,
    ⟨0x2100100, 8, 6⟩]

/-- The 32-bit registers. -/
def narrowGrids : List RegGrid :=
  [⟨0x400, 4, 64⟩, ⟨0x1000, 4, 313⟩, ⟨0x20100, 4, 11⟩, ⟨0x20200, 4, 80⟩, ⟨0x41010, 0x40, 64⟩, ⟨0x41018, 0x40, 64⟩,
    ⟨0x200000, 0x100, 40⟩, ⟨0x204000, 0x40, 8⟩, ⟨0x400100, 0x10, 16⟩, ⟨0x500000, 0x10, 8⟩, ⟨0x500008, 0x10, 8⟩,
    ⟨0x600000, 0x1000, 8⟩, ⟨0x800000, 0x1000, 8⟩, ⟨0x800004, 0x1000, 8⟩, ⟨0x800010, 0x1000, 8⟩, ⟨0x800018, 0x1000, 8⟩,
    ⟨0x2100000, 4, 6⟩, ⟨0x10000, 4, 1⟩, ⟨0x20000, 4, 1⟩, ⟨0x20008, 4, 2⟩, ⟨0x40000, 4, 1⟩, ⟨0x40010, 4, 1⟩, ⟨0x300000, 4, 2⟩,
    ⟨0x400000, 4, 1⟩, ⟨0x580000, 4, 1⟩, ⟨0x608000, 4, 1⟩, ⟨0x808000, 4, 1⟩, ⟨0x2000000, 4, 3⟩, ⟨0x2000010, 4, 1⟩]

/-- TLY_COUNT of a context and a cause lies in that range. -/
theorem tally_placed {off : Nat} {f : Nat → Nat → Dword}
    (h : ((indexOf (off % 0x100) 0 8 14).bind fun n =>
      (indexOf (off - off % 0x100) 0x2200000 0x100 8).map fun c => f n c).isSome = true) :
    (indexOf off 0x2200000 8 256).isSome = true := by
  obtain ⟨v, hv⟩ := Option.isSome_iff_exists.1 h
  obtain ⟨k, hk, hc⟩ := Option.bind_eq_some_iff.1 hv
  have cause := (indexOf_isSome _ _ _ _).1 (Option.isSome_of_eq_some hk)
  have context := Option.isSome_of_eq_some hc
  rw [Option.isSome_map, indexOf_isSome] at context
  rw [indexOf_isSome]
  omega

theorem State.counter_placed {s : State} {off : Nat} (h : (s.counter off).isSome = true) : Placed counterGrids off := by
  unfold State.counter at h
  split at h
  · subst off; decide
  · have tally := tally_placed (off := off) (f := fun n c => (s.job c).tally.get 0 n)
    simp only [Option.orElse_eq_orElse, Option.orElse_eq_or, Option.isSome_or, Option.isSome_map, Bool.or_eq_true] at h
    simp only [Placed, counterGrids, List.mem_cons, exists_eq_or_imp, RegGrid.has]
    tauto

theorem State.reg64_placed {s : State} {off : Nat} (h : (s.reg64 off).isSome = true) : Placed wideGrids off := by
  unfold State.reg64 at h
  split at h
  case h_5 =>
    simp only [Option.orElse_eq_orElse, Option.orElse_eq_or, Option.isSome_or, Option.isSome_map, Bool.or_eq_true] at h
    rcases h with h | h
    · obtain ⟨g, hg, hoff⟩ := State.counter_placed h
      exact ⟨g, List.mem_append_left _ hg, hoff⟩
    · simp only [Placed, wideGrids, List.mem_append, List.mem_cons, or_and_right, exists_or, exists_eq_left, RegGrid.has, ringBases]
      tauto
  all_goals decide

theorem State.reg32_placed {s : State} {off : Nat} (h : (s.reg32 off).isSome = true) : Placed narrowGrids off := by
  unfold State.reg32 at h
  split at h
  case h_17 =>
    simp only [Option.orElse_eq_orElse, Option.orElse_eq_or, Option.isSome_or, Option.isSome_map, Bool.or_eq_true] at h
    simp only [Placed, narrowGrids, List.mem_cons, exists_eq_or_imp, RegGrid.has]
    tauto
  all_goals decide

/-- Where a 64-bit register lies, no 32-bit register lies at its lower half. -/
theorem State.reg32_eq_none_low {s : State} {off : Nat} (h : (s.reg64 off).isSome = true) : s.reg32 off = none := by
  have apart := Placed.apart (d := 0) (k := narrowGrids) (by decide) (State.reg64_placed h)
  exact Option.not_isSome_iff_eq_none.1 fun h32 => apart (State.reg32_placed h32)

/-- Where a 64-bit register lies, no 32-bit register lies at its upper half. -/
theorem State.reg32_eq_none_high {s : State} {off : Nat} (h : (s.reg64 off).isSome = true) : s.reg32 (off + 4) = none := by
  have apart := Placed.apart (d := 4) (k := narrowGrids) (by decide) (State.reg64_placed h)
  exact Option.not_isSome_iff_eq_none.1 fun h32 => apart (State.reg32_placed h32)

/-- No 64-bit register begins at the upper half of another. -/
theorem State.reg64_eq_none_high {s : State} {off : Nat} (h : (s.reg64 off).isSome = true) : s.reg64 (off + 4) = none := by
  have apart := Placed.apart (d := 4) (k := wideGrids) (by decide) (State.reg64_placed h)
  exact Option.not_isSome_iff_eq_none.1 fun h64 => apart (State.reg64_placed h64)

theorem State.reg64_of_counter {s : State} {off : Nat} {v : Dword} (h : s.counter off = some v) : s.reg64 off = some v := by
  unfold State.reg64
  split
  case h_5 => simp [h]
  all_goals exact absurd (State.counter_placed (Option.isSome_of_eq_some h)) (by decide)

/-- No counter begins at the upper half of another. -/
theorem State.counter_eq_none_high {s : State} {off : Nat} {v : Dword} (h : s.counter off = some v) : s.counter (off + 4) = none := by
  have wide := s.reg64_eq_none_high (Option.isSome_of_eq_some (State.reg64_of_counter h))
  refine Option.eq_none_iff_forall_ne_some.2 fun w hw => ?_
  rw [State.reg64_of_counter hw] at wide
  cases wide

/-- HST_RING_BASE of a ring reads as its 64-bit register. -/
theorem State.reg64_ringBase (s : State) {n : Nat} (hn : n < 64) : s.reg64 (0x41000 + 0x40 * n) = some (s.ring n).base := by
  have entry := indexOf_entry 0x41000 (stride := 0x40) (by decide) hn
  have hc : s.counter (0x41000 + 0x40 * n) = none := by
    have apart := Placed.apart (d := 0) (l := [ringBases]) (k := counterGrids) (by decide)
      ⟨ringBases, List.mem_singleton_self _, Option.isSome_of_eq_some entry⟩
    exact Option.not_isSome_iff_eq_none.1 fun h => apart (State.counter_placed h)
  unfold State.reg64
  split
  case h_5 => simp [hc, entry]
  all_goals omega

/-! ### Held halves (R6) -/

theorem Tbl.find_eq_none_of_lt {α : Type} (t : Tbl α) (k : Nat) (h : ∀ j ∈ t.map (·.1), k < j) : Tbl.find t k = none := by
  induction t with
  | nil => rfl
  | cons e t ih =>
    obtain ⟨j, w⟩ := e
    simp only [List.map_cons, List.forall_mem_cons] at h
    rw [Tbl.find, if_neg (by omega), ih h.2]

/-- A key of a rising table that is set and then dropped is gone. -/
theorem Tbl.find_drop_set {α : Type} (t : Tbl α) (k : Nat) (v : α) (h : (t.map (·.1)).Pairwise (· < ·)) :
    Tbl.find ((t.set k v).drop k) k = none := by
  induction t with
  | nil => simp [Tbl.set, Tbl.drop, Tbl.find]
  | cons e t ih =>
    obtain ⟨j, w⟩ := e
    obtain ⟨hj, ht⟩ := List.pairwise_cons.1 h
    unfold Tbl.set
    split
    · rename_i hlt
      rw [Tbl.drop, if_pos rfl]
      exact Tbl.find_eq_none_of_lt _ _ (List.forall_mem_cons.2 ⟨hlt, fun i hi => Nat.lt_trans hlt (hj i hi)⟩)
    · split
      · rename_i hkj
        rw [Tbl.drop, if_pos rfl]
        exact Tbl.find_eq_none_of_lt _ _ (hkj ▸ hj)
      · rename_i hkj
        rw [Tbl.drop, if_neg (Ne.symm hkj), Tbl.find, if_neg (Ne.symm hkj)]
        exact ih ht

theorem State.blocksOpen_iff (s : State) :
    s.blocksOpen = true ↔ s.boot.done = true ∧ s.power.mainOff = false ∧ s.boot.running ≠ .recovery := by
  simp [State.blocksOpen, and_assoc]

theorem State.barOpen_of_blocksOpen {s : State} (h : s.blocksOpen = true) : s.barOpen = true := by
  obtain ⟨hdone, hmain, -⟩ := s.blocksOpen_iff.1 h
  simp [State.barOpen, hdone, hmain]

theorem State.present_of_blocksOpen {s : State} (h : s.blocksOpen = true) (off : Nat) : s.present off = true := by
  obtain ⟨hdone, hmain, hrun⟩ := s.blocksOpen_iff.1 h
  simp [State.present, hdone, hmain, hrun]

/-- A 32-bit write in BAR0 that nothing hides is a write of a register or of half of one. -/
theorem exec_registerWrite_half {s : State} {off : Nat} (v : Dword) (ho : s.blocksOpen = true) (ha : off % 4 = 0) (hb : off < bar4) :
    exec (.registerWrite off 4 v) s = .next (s.writeHalf off (v.extractLsb' 0 32)) := by
  have hok : accessOk off 4 = true := by
    have : ¬ bar2 ≤ off := by unfold bar4 at hb; unfold bar2; omega
    simp [accessOk, this, ha]
  obtain ⟨hdone, -, -⟩ := s.blocksOpen_iff.1 ho
  show execRegisterWrite off 4 v s = _
  simp [execRegisterWrite, State.writeBar0, State.presentAll, State.barOpen_of_blocksOpen ho, State.present_of_blocksOpen ho, hok, hb,
    hdone]

/-- A lower half alone is held. -/
theorem State.writeHalf_low {s : State} {off : Nat} (v : Word) (h : (s.reg64 off).isSome = true) :
    s.writeHalf off v = { s with host := { s.host with halves := s.host.halves.set off v } } := by
  simp [State.writeHalf, State.reg32_eq_none_low h, h]

/-- The lower half that a 64-bit register's upper half is written with: the held one, or the current one. -/
def State.lowHalf (s : State) (off : Nat) (old : Dword) : Word := (s.host.halves.find off).getD (old.extractLsb' 0 32)

/-- An upper half is written with the lower half, which is no longer held. -/
theorem State.writeHalf_high {s : State} {off : Nat} {old : Dword} (v : Word) (h : s.reg64 off = some old) :
    s.writeHalf (off + 4) v =
      ({ s with host := { s.host with halves := s.host.halves.drop off } } : State).write64 off (v ++ s.lowHalf off old) := by
  have hsome := Option.isSome_of_eq_some h
  unfold State.lowHalf
  cases hfind : s.host.halves.find off <;>
    simp [State.writeHalf, State.reg32_eq_none_high hsome, State.reg64_eq_none_high hsome, h, hfind]

theorem State.write64_ringBase (s : State) {n : Nat} (v : Dword) (hn : n < 64) (hd : (s.ring n).enabled = false) :
    s.write64 (0x41000 + 0x40 * n) v = s.setRing n { s.ring n with base := v &&& 0xFFFFFFFFFFFFF000 } := by
  simp [State.write64, indexOf_entry 0x41000 (stride := 0x40) (by decide) hn, hd]

/-- The upper half of HST_RING_BASE of a disabled ring sets the whole register. -/
theorem exec_registerWrite_ringBase_high {s : State} {n : Nat} (v : Dword) (ho : s.blocksOpen = true) (hn : n < 64)
    (hd : (s.ring n).enabled = false) :
    exec (.registerWrite (0x41000 + 0x40 * n + 4) 4 v) s =
      .next (({ s with host := { s.host with halves := s.host.halves.drop (0x41000 + 0x40 * n) } } : State).setRing n
        { s.ring n with
          base := (v.extractLsb' 0 32 ++ s.lowHalf (0x41000 + 0x40 * n) (s.ring n).base : Dword) &&& 0xFFFFFFFFFFFFF000 }) := by
  rw [exec_registerWrite_half v ho (by omega) (by unfold bar4; omega), State.writeHalf_high _ (s.reg64_ringBase hn)]
  exact congrArg Host.Outcome.next (State.write64_ringBase _ _ hn hd)

/-- The lower half of HST_RING_BASE is held. -/
theorem exec_registerWrite_ringBase_low {s : State} {n : Nat} (v : Dword) (ho : s.blocksOpen = true) (hn : n < 64) :
    exec (.registerWrite (0x41000 + 0x40 * n) 4 v) s =
      .next { s with host := { s.host with halves := s.host.halves.set (0x41000 + 0x40 * n) (v.extractLsb' 0 32) } } := by
  rw [exec_registerWrite_half v ho (by omega) (by unfold bar4; omega),
    State.writeHalf_low _ (Option.isSome_of_eq_some (s.reg64_ringBase hn))]

/-! ### Accesses of another width or alignment (R8) -/

/-- What raising an event can change: the rings, the count of lost events, what is due, and what the device writes. -/
def EventOnly (s t : State) : Prop :=
  ∃ rings lost due out held, t = { s with host := { s.host with
    rings := rings, eventsLost := lost, msixDue := due, out := out, heldOut := held } }

theorem EventOnly.trans {s t u : State} (h : EventOnly s t) (k : EventOnly t u) : EventOnly s u := by
  obtain ⟨_, _, _, _, _, rfl⟩ := h
  obtain ⟨_, _, _, _, _, rfl⟩ := k
  exact ⟨_, _, _, _, _, rfl⟩

theorem State.setRing_eventOnly (s : State) (n : Nat) (r : Ring) : EventOnly s (s.setRing n r) := ⟨_, _, _, _, _, rfl⟩
theorem State.due_eventOnly (s : State) (v : Nat) : EventOnly s (s.due v) := ⟨_, _, _, _, _, rfl⟩
theorem State.lose_eventOnly (s : State) : EventOnly s s.lose := ⟨_, _, _, _, _, rfl⟩

theorem State.emit_eventOnly (s : State) (w : HostWrite) : EventOnly s (s.emit w) := by
  unfold State.emit
  split <;> exact ⟨_, _, _, _, _, rfl⟩

theorem State.putEvent_eventOnly (s : State) (n : Nat) (e : Ev) : EventOnly s (s.putEvent n e) := by
  have written := (s.emit_eventOnly (.data ((s.ring n).base + BitVec.ofNat 64 (32 * (s.ring n).write))
    (toBytes 32 (eventRecord e s.time (s.ring n).phase).toNat) false)).trans (State.setRing_eventOnly _ n (s.ring n).advance)
  unfold State.putEvent
  dsimp only
  split
  · exact written.trans (State.due_eventOnly _ _)
  · exact written

theorem State.deliver_eventOnly (s : State) (n : Nat) (e : Ev) : EventOnly s (s.deliver n e) := by
  unfold State.deliver
  dsimp only
  split
  · exact s.putEvent_eventOnly n e
  · exact (State.setRing_eventOnly _ _ _).trans (State.lose_eventOnly _)

theorem State.deliverDevice_eventOnly (s : State) (e : Ev) : EventOnly s (s.deliverDevice e) := by
  unfold State.deliverDevice
  dsimp only
  split
  · exact s.deliver_eventOnly _ e
  · exact s.lose_eventOnly

theorem State.event_eventOnly (s : State) (code : BitVec 16) (kind : BitVec 4) (ctx src a b : Nat) :
    EventOnly s (s.event code kind ctx src a b) := by
  unfold State.event State.raise
  dsimp only
  split
  · split
    · exact s.deliver_eventOnly _ _
    · exact s.deliverDevice_eventOnly _
  · exact s.deliverDevice_eventOnly _

theorem State.badAccess_eventOnly (s : State) (off width : Nat) (write : Bool) : EventOnly s (s.badAccess off width write) :=
  s.event_eventOnly _ _ _ _ _ _

theorem exec_registerAccessInvalid_write {s : State} {off width : Nat} (hb : s.barOpen = true) (ha : accessOk off width = false) :
    exec (.registerAccessInvalid off width true) s = .next (s.badAccess off width true) := by
  show execRegisterAccessInvalid off width true s = _
  simp [execRegisterAccessInvalid, hb, ha]

theorem exec_registerAccessInvalid_read {s : State} {off width : Nat} (hb : s.barOpen = true) (ha : accessOk off width = false) :
    exec (.registerAccessInvalid off width false) s =
      .next { s.badAccess off width false with host := { (s.badAccess off width false).host with readData := 0 } } := by
  show execRegisterAccessInvalid off width false s = _
  simp [execRegisterAccessInvalid, State.readReturns, State.hostRead, hb, ha]

theorem exec_registerAccessInvalid_valid {s : State} {off width : Nat} (write : Bool)
    (h : s.barOpen = false ∨ accessOk off width = true) : exec (.registerAccessInvalid off width write) s = .next s := by
  show execRegisterAccessInvalid off width write s = _
  rcases h with h | h <;> simp [execRegisterAccessInvalid, h]

/-! ### The halves of a counter (R7) -/

/-- Where a counter lies: below the staging window, and in no block that is presented outside normal operation. -/
theorem State.counter_offset {s : State} {off : Nat} {v : Dword} (h : s.counter off = some v) :
    off % 8 = 0 ∧ 4 ≤ off ∧ off + 8 ≤ 0x2400000 ∧ recoveryBlock off = false ∧ hostLoadBlock off = false := by
  obtain ⟨g, hg, hoff⟩ := State.counter_placed (Option.isSome_of_eq_some h)
  have aligned := hoff.mod_eq (m := 8) ((by decide : ∀ g ∈ counterGrids, 8 ∣ g.stride) g hg)
  have base := (by decide : ∀ g ∈ counterGrids, g.base % 8 = 0) g hg
  have place := (by decide : ∀ g ∈ counterGrids,
    (0x10000 ≤ g.base ∧ g.last < 0x2000000) ∨ (0x2200000 ≤ g.base ∧ g.last + 8 ≤ 0x2400000)) g hg
  have range := hoff.range
  simp only [recoveryBlock, hostLoadBlock, Bool.or_eq_false_iff, Bool.and_eq_false_iff, beq_eq_false_iff_ne, decide_eq_false_iff_not]
  omega

/-- A counter is presented in normal operation alone. -/
theorem State.blocksOpen_of_counter {s : State} {off : Nat} {v : Dword} (h : s.counter off = some v) (hp : s.present off = true) :
    s.blocksOpen = true := by
  obtain ⟨-, -, -, hrec, hload⟩ := State.counter_offset h
  unfold State.present at hp
  split at hp
  · rename_i hdone
    rw [State.blocksOpen_iff]
    simpa [hrec, hdone] using hp
  · simp [hload] at hp

/-- A 32-bit read of BAR0 returns the register's value, and leaves the latched halves as `afterRead32` does. -/
theorem State.readReturns_narrow {s : State} {off : Nat} (ho : s.blocksOpen = true) (ha : off % 4 = 0) (hb : off < bar4) :
    s.readReturns off 4 =
      { s.afterRead32 off with host := { (s.afterRead32 off).host with readData := (s.read32 off).setWidth 64 } } := by
  have h4 : ¬ bar4 ≤ off := by omega
  have h2 : ¬ bar2 ≤ off := by unfold bar4 at hb; unfold bar2; omega
  simp [State.readReturns, State.hostRead, State.barOpen_of_blocksOpen ho, accessOk, ha, h2, h4]

/-- The read of a counter's lower half latches its upper half. -/
theorem exec_counterLowRead_low {s : State} {off : Nat} {v : Dword} (h : s.counter off = some v) (hp : s.present off = true) :
    exec (.counterLowRead off) s = .next { s with host := { s.host with
      latched := s.host.latched.set (off + 4) (v.extractLsb' 32 32), readData := (v.extractLsb' 0 32).setWidth 64 } } := by
  have ho := State.blocksOpen_of_counter h hp
  obtain ⟨halign, -, hbelow, -, -⟩ := State.counter_offset h
  obtain ⟨hdone, -, -⟩ := s.blocksOpen_iff.1 ho
  have hreg := State.reg64_of_counter h
  have hread : s.read32 off = v.extractLsb' 0 32 := by
    simp [State.read32, hp, hdone, hreg, State.reg32_eq_none_low (Option.isSome_of_eq_some hreg)]
  show execCounterLowRead off s = _
  rw [execCounterLowRead, State.readReturns_narrow ho (by omega) (by unfold bar4; omega), hread]
  simp [State.afterRead32, hp, h]

/-- The read of a counter's upper half returns the latched half, and takes it. -/
theorem exec_counterLowRead_high {s : State} {off : Nat} {v : Dword} {w : Word} (h : s.counter off = some v)
    (hp : s.present off = true) (hw : s.host.latched.find (off + 4) = some w) :
    exec (.counterLowRead (off + 4)) s = .next { s with host := { s.host with
      latched := s.host.latched.drop (off + 4), readData := w.setWidth 64 } } := by
  have ho := State.blocksOpen_of_counter h hp
  obtain ⟨halign, -, hbelow, -, -⟩ := State.counter_offset h
  obtain ⟨hdone, -, -⟩ := s.blocksOpen_iff.1 ho
  have hreg := State.reg64_of_counter h
  have hsome := Option.isSome_of_eq_some hreg
  have hp4 := State.present_of_blocksOpen ho (off + 4)
  have hread : s.read32 (off + 4) = w := by
    simp [State.read32, hp4, hdone, State.reg32_eq_none_high hsome, State.reg64_eq_none_high hsome, hreg, hw]
  show execCounterLowRead (off + 4) s = _
  rw [execCounterLowRead, State.readReturns_narrow ho (by omega) (by unfold bar4; omega), hread]
  simp [State.afterRead32, hp4, h, State.counter_eq_none_high h]

/-- A read of neither half of a counter is no command of this kind. -/
theorem exec_counterLowRead_none {s : State} {off : Nat} (h : s.counter off = none) (h4 : 4 ≤ off → s.counter (off - 4) = none) :
    exec (.counterLowRead off) s = .next s := by
  show execCounterLowRead off s = _
  simpa [execCounterLowRead, h] using fun hle hsome => by simp [h4 hle] at hsome

/-! ### Interrupt vectors (R453) -/

theorem getLsbD_clearBit (x : Dword) (v k : Nat) : (x &&& ~~~(1#64 <<< v)).getLsbD k = (x.getLsbD k && decide (k ≠ v)) := by
  by_cases hk : k < 64
  · simp [hk]
    by_cases hv : k = v
    · simp [hv]
    · simp [hv]; omega
  · simp [BitVec.getLsbD_of_ge x k (by omega)]

theorem getLsbD_setBit_same (x : Dword) {v : Nat} (hv : v < 64) : (x ||| 1#64 <<< v).getLsbD v = true := by
  simp [hv]

theorem exec_msixMessage_idle {s : State} {vector : Fin 64}
    (h : s.host.msixDue.getLsbD vector.val = false ∨ s.host.busMaster = false) : exec (.msixMessage vector) s = .next s := by
  show execMsixMessage vector s = _
  rcases h with h | h <;> simp only [execMsixMessage, h, Bool.not_false, Bool.true_or, Bool.or_true, if_true]

/-- A vector that has sent within the microsecond waits. -/
theorem exec_msixMessage_early {s : State} {vector : Fin 64} (hm : (s.host.msix.get Msix.reset vector.val).masked = false)
    (hf : s.host.mayFire vector.val s.tick = false) : exec (.msixMessage vector) s = .next s := by
  show execMsixMessage vector s = _
  simp [execMsixMessage, hm, hf]

section
variable {s : State} {vector : Fin 64} (hdue : s.host.msixDue.getLsbD vector.val = true) (hbus : s.host.busMaster = true)
include hdue hbus

/-- A masked vector pends. -/
theorem exec_msixMessage_masked (hm : (s.host.msix.get Msix.reset vector.val).masked = true) :
    exec (.msixMessage vector) s = .next { s with host := { s.host with
      msixPending := s.host.msixPending ||| 1#64 <<< vector.val, msixDue := s.host.msixDue &&& ~~~(1#64 <<< vector.val) } } := by
  show execMsixMessage vector s = _
  simp [execMsixMessage, hdue, hbus, hm]

/-- A due vector sends its message. -/
theorem exec_msixMessage_sends (hm : (s.host.msix.get Msix.reset vector.val).masked = false)
    (hf : s.host.mayFire vector.val s.tick = true) :
    exec (.msixMessage vector) s = .next { s with host := { s.host with
      msixDue := s.host.msixDue &&& ~~~(1#64 <<< vector.val), msixLast := s.host.msixLast.set vector.val s.tick
      out := s.host.out ++ [.msix vector.val (s.host.msix.get Msix.reset vector.val).addr
        (s.host.msix.get Msix.reset vector.val).data] } } := by
  show execMsixMessage vector s = _
  simp [execMsixMessage, State.emit, hdue, hbus, hm, hf]

end

theorem exec_msixVectorUnmask {s : State} (vector : Fin 64) (ho : s.blocksOpen = true) :
    exec (.msixVectorUnmask vector) s = .next { s with host := s.host.unmask vector.val } := by
  show execMsixVectorUnmask vector s = _
  simp [execMsixVectorUnmask, ho]

theorem HostIf.unmask_msix (h : HostIf) (v : Nat) :
    (h.unmask v).msix = h.msix.set v { h.msix.get Msix.reset v with masked := false } := by
  unfold HostIf.unmask
  dsimp only
  split <;> rfl

/-- A vector that is unmasked pends no longer. -/
theorem HostIf.unmask_pending (h : HostIf) (v : Nat) : (h.unmask v).msixPending.getLsbD v = false := by
  unfold HostIf.unmask
  dsimp only
  split
  · simp
  · rename_i hp
    simpa using hp

/-- What pended is due again. -/
theorem HostIf.unmask_due {h : HostIf} {v : Nat} (hv : v < 64) (hp : h.msixPending.getLsbD v = true) :
    (h.unmask v).msixDue.getLsbD v = true := by
  simp only [HostIf.unmask, hp, if_true]
  exact getLsbD_setBit_same _ hv

end Sys2Proof.Machine

namespace Sys2Proof
open Sys2Proof.Machine

/-- Settles O45: each clause from the equation of its command. -/
theorem registersAndInterrupts : Obligations.RegistersAndInterrupts := by
  unfold Obligations.RegistersAndInterrupts
  refine ⟨fun s n lo hi hdone hmain hrun hn hd => ?_, fun s off width hb ha hoff => ?_, fun s off width write hb ha => ?_,
    fun s off width write h => exec_registerAccessInvalid_valid write h, fun s off v hv hp => ?_,
    fun s off h h4 => exec_counterLowRead_none h h4, fun s vector hdue hbus => ⟨fun hm hf => ?_, fun hm => ?_,
      exec_msixMessage_early⟩, fun s vector h => exec_msixMessage_idle h, fun s vector ho => ?_⟩
  -- The two halves of a ring's base (R6).
  · have ho : s.blocksOpen = true := s.blocksOpen_iff.2 ⟨hdone, hmain, hrun⟩
    refine ⟨_, _, exec_registerWrite_ringBase_low lo ho hn, exec_registerWrite_ringBase_high hi ho hn hd, fun _ => rfl, rfl, ?_,
      ?_, ?_, fun m hm => State.ring_setRing_other _ _ hm, rfl, rfl, fun hs => Tbl.find_drop_set _ _ _ hs, fun hnone =>
      ⟨_, exec_registerWrite_ringBase_high hi ho hn hd, rfl, ?_, fun m hm => State.ring_setRing_other _ _ hm⟩⟩
    · simp [State.lowHalf]
    · rw [State.ring_setRing_same]; rfl
    · rw [State.ring_setRing_same]; rfl
    · simp [State.lowHalf, hnone]
  -- The event of an invalid access (R8).
  · rw [exec_registerAccessInvalid_write hb ha, exec_registerAccessInvalid_read hb ha]
    simp [State.badAccess, hoff]
  -- What an invalid access leaves (R8).
  · obtain ⟨_, _, _, _, _, hevent⟩ := s.badAccess_eventOnly off width write
    cases write with
    | true => exact ⟨_, exec_registerAccessInvalid_write hb ha, by rw [hevent]; exact ⟨rfl, rfl, rfl, rfl, rfl⟩⟩
    | false => exact ⟨_, exec_registerAccessInvalid_read hb ha, by rw [hevent]; exact ⟨rfl, rfl, rfl, rfl, rfl⟩⟩
  -- The two halves of a counter (R7).
  · have hfind := Tbl.find_set_same s.host.latched (off + 4) (v.extractLsb' 32 32)
    exact ⟨_, _, exec_counterLowRead_low hv hp, rfl, rfl, rfl, hfind,
      exec_counterLowRead_high (off := off) (v := v) hv hp hfind, rfl, rfl, rfl, rfl⟩
  -- A due vector that is not masked sends (R453).
  · refine ⟨_, exec_msixMessage_sends hdue hbus hm hf, rfl, rfl, ?_, fun k hk => ?_, rfl⟩
    · rw [getLsbD_clearBit]; simp
    · rw [getLsbD_clearBit]; simp [hk]
  -- A due vector that is masked pends (R453).
  · refine ⟨_, exec_msixMessage_masked hdue hbus hm, rfl, rfl, getLsbD_setBit_same _ vector.isLt, ?_⟩
    rw [getLsbD_clearBit]; simp
  -- An unmasked vector pends no longer (R453).
  · refine ⟨_, exec_msixVectorUnmask vector ho, rfl, ?_, HostIf.unmask_pending _ _, HostIf.unmask_due vector.isLt, fun k hk => ?_⟩
    · simp [HostIf.unmask_msix]
    · simp [HostIf.unmask_msix, Tbl.get_set_other _ _ _ hk]

end Sys2Proof
end

section
/-! The passing of time: the edges of the core clock by its step (R22), and what a tick does to the time of a job (R192, R198; log
entry 3). Of a job's record only its phase, its Caravan clock, its frozen cycles and its measured time bear on that; a tick changes
these as a function of themselves, once in a core cycle and not at all in a tick without an edge. -/

namespace Sys2Proof.Machine

/-! ### Edges of the core clock (R22) -/

/-- No step passes more than eight edges in eight ticks. -/
theorem edges_le (step : BitVec 2) : edges step ≤ 8 := by
  revert step; decide

/-- The edges of each step, as R22 lists them. -/
theorem edges_eq (step : BitVec 2) :
    edges step = if step = 0 then 8 else if step = 1 then 7 else if step = 2 then 6 else 4 := by
  revert step; decide

/-- Eight ticks in a row take each residue by 8 once, so `e` of them lie below `e`, wherever the eight begin. -/
theorem countP_residues_lt {e : Nat} (he : e ≤ 8) (n : Nat) :
    ((List.range 8).countP fun i => decide ((n + i) % 8 < e)) = e := by
  have window : ∀ e ≤ 8, ∀ r < 8, ((List.range 8).countP fun i => decide ((r + i) % 8 < e)) = e := by decide
  simpa only [Nat.mod_add_mod] using window e he (n % 8) (Nat.mod_lt _ (by decide))

/-- The edges of the core clock in any eight ticks. -/
theorem Power.countP_coreEdge (p : Power) (n : Nat) :
    ((List.range 8).countP fun i => p.coreEdge (n + i)) = if p.rootLock then edges p.step else 0 := by
  unfold Power.coreEdge
  cases p.rootLock with
  | false => simp
  | true => simpa using countP_residues_lt (edges_le p.step) n

/-! ### The time of a job -/

/-- What of a job's record the passing of time turns on. -/
structure JobTime where
  phase : Phase
  clock : Nat
  frozen : Nat
  measured : Nat

/-- Those of a job. -/
def Job.time (j : Job) : JobTime := ⟨j.phase, j.clock, j.frozen, j.measured⟩

/-- One core cycle: a frozen cycle of a Caravan is counted down, any other moves its clock and the measured time (R192); a cycle
of compute moves the measured time alone (R198). -/
def JobTime.cycle (x : JobTime) : JobTime :=
  match x.phase with
  | .caravan =>
    if 0 < x.frozen then { x with frozen := x.frozen - 1 } else { x with clock := x.clock + 1, measured := x.measured + 1 }
  | .compute => { x with measured := x.measured + 1 }
  | _ => x

theorem JobTime.cycle_frozen {x : JobTime} (hp : x.phase = .caravan) (hf : 0 < x.frozen) :
    x.cycle = { x with frozen := x.frozen - 1 } := by
  simp [JobTime.cycle, hp, hf]

theorem JobTime.cycle_moving {x : JobTime} (hp : x.phase = .caravan) (hf : x.frozen = 0) :
    x.cycle = { x with clock := x.clock + 1, measured := x.measured + 1 } := by
  simp [JobTime.cycle, hp, hf]

theorem JobTime.cycle_compute {x : JobTime} (hp : x.phase = .compute) : x.cycle = { x with measured := x.measured + 1 } := by
  simp [JobTime.cycle, hp]

theorem JobTime.cycle_idle {x : JobTime} (hcaravan : x.phase ≠ .caravan) (hcompute : x.phase ≠ .compute) : x.cycle = x := by
  unfold JobTime.cycle
  split
  · next hp => exact absurd hp hcaravan
  · next hp => exact absurd hp hcompute
  · rfl

theorem State.time_setJob (s : State) (c k : Nat) (x : Job) :
    ((s.setJob c x).job k).time = if k = c then x.time else (s.job k).time := by
  rw [State.job_setJob, apply_ite Job.time]

/-- The two states differ in what stopping work can change at most, and in no job's time. -/
def TimeKept (s t : State) : Prop := WorkOnly s t ∧ ∀ k, (t.job k).time = (s.job k).time

theorem TimeKept.refl (s : State) : TimeKept s s := ⟨WorkOnly.refl s, fun _ => rfl⟩

theorem TimeKept.trans {s t u : State} (h : TimeKept s t) (k : TimeKept t u) : TimeKept s u :=
  ⟨h.1.trans k.1, fun c => (k.2 c).trans (h.2 c)⟩

theorem TimeKept.tiles_eq {s t : State} (h : TimeKept s t) : t.tiles = s.tiles := by
  obtain ⟨⟨-, -, tiles, -⟩, -⟩ := h
  exact tiles

theorem State.setJob_timeKept {s : State} {c : Nat} {x : Job} (h : x.time = (s.job c).time) : TimeKept s (s.setJob c x) := by
  refine ⟨s.setJob_work c x, fun k => ?_⟩
  rw [State.time_setJob]
  split
  · next hk => rw [h, hk]
  · rfl

theorem State.tallyAdd_timeKept (s : State) (c cause n : Nat) : TimeKept s (s.tallyAdd c cause n) :=
  State.setJob_timeKept (by rfl)

theorem State.contractStall_timeKept (s : State) (tile n : Nat) : TimeKept s (s.contractStall tile n) := by
  unfold State.contractStall
  split
  · exact s.tallyAdd_timeKept _ _ _
  · exact TimeKept.refl s

/-! ### One core cycle -/

/-- From the first state to the second the job of `c` has lived one core cycle, and the others none. -/
def Cycled (c : Nat) (s t : State) : Prop :=
  ∀ k, (t.job k).time = if k = c then (s.job k).time.cycle else (s.job k).time

theorem Cycled.setJob {s : State} {c : Nat} {x : Job} (h : x.time = (s.job c).time.cycle) : Cycled c s (s.setJob c x) := by
  intro k
  rw [State.time_setJob]
  split
  · next hk => rw [h, hk]
  · rfl

theorem Cycled.of_timeKept {c : Nat} {s t : State} (h : TimeKept s t) (hc : (s.job c).time.cycle = (s.job c).time) :
    Cycled c s t := by
  intro k
  rw [h.2 k]
  split
  · next hk => rw [hk, hc]
  · rfl

theorem Cycled.after {c : Nat} {s t u : State} (h : TimeKept s t) (k : Cycled c t u) : Cycled c s u := by
  intro j
  rw [k j, h.2 j]

theorem Cycled.before {c : Nat} {s t u : State} (h : Cycled c s t) (k : TimeKept t u) : Cycled c s u :=
  fun j => (k.2 j).trans (h j)

/-- A core cycle of a context is one of its job's time, and leaves the other jobs' time. -/
theorem State.jobCycle_cycled (s : State) (c : Nat) : Cycled c s (s.jobCycle c) := by
  unfold State.jobCycle
  extract_lets t j l s1 met
  have stalled : TimeKept s t := by
    unfold t
    split
    · exact s.tallyAdd_timeKept _ _ _
    · exact TimeKept.refl s
  refine Cycled.after stalled ?_
  split
  · next hp =>
    split
    · next hf => exact Cycled.setJob (JobTime.cycle_frozen (x := j.time) hp hf).symm
    · next hf => exact Cycled.setJob (JobTime.cycle_moving (x := j.time) hp (Nat.eq_zero_of_not_pos hf)).symm
  · next hp =>
    have counted : Cycled c t s1 := Cycled.setJob (JobTime.cycle_compute (x := j.time) hp).symm
    split
    · exact counted.before (s1.tallyAdd_timeKept _ _ _)
    · exact counted
  · next hp =>
    have idle : j.time.cycle = j.time := JobTime.cycle_idle (by simp [Job.time, hp]) (by simp [Job.time, hp])
    split
    · exact Cycled.of_timeKept (TimeKept.refl t) idle
    · exact Cycled.of_timeKept (State.setJob_timeKept (by rfl)) idle
  · next hcar hcom hcur => exact Cycled.of_timeKept (TimeKept.refl t) (JobTime.cycle_idle hcar hcom)

/-- Folding a function that acts at one index alone applies it once for each place of that index. -/
theorem foldl_ite_eq_iterate {α : Type} (f : α → α) (c : Nat) (l : List Nat) (x : α) :
    l.foldl (fun x k => if c = k then f x else x) x = f^[l.count c] x := by
  induction l generalizing x with
  | nil => rfl
  | cons k l ih =>
    rw [List.foldl_cons, ih]
    by_cases h : c = k
    · subst h
      simp
    · simp [h, Ne.symm h]

/-- The core cycle of the module is one cycle of the time of each of its eight contexts. -/
theorem State.time_coreCycle (s : State) {c : Nat} (hc : c < 8) : (s.coreCycle.job c).time = (s.job c).time.cycle := by
  have once : (List.range 8).count c = 1 := List.count_eq_one_of_mem List.nodup_range (List.mem_range.2 hc)
  have jobs : (((List.range 8).foldl State.jobCycle s).job c).time = (s.job c).time.cycle := by
    calc (((List.range 8).foldl State.jobCycle s).job c).time
        = (List.range 8).foldl (fun x k => if c = k then x.cycle else x) (s.job c).time :=
          (List.foldl_hom (fun t : State => (t.job c).time) fun t k => (t.jobCycle_cycled k c).symm).symm
      _ = (s.job c).time.cycle := by rw [foldl_ite_eq_iterate, once, Function.iterate_one]
  unfold State.coreCycle
  refine List.foldlRecOn _ _ (motive := fun t : State => (t.job c).time = (s.job c).time.cycle) jobs fun t ht e _ => ?_
  rw [(State.contractStall_timeKept _ _ _).2, State.setTile_job, ht]

/-! ### One tick -/

theorem State.jobTick_timeKept (s : State) (c : Nat) : TimeKept s (s.jobTick c) := by
  unfold State.jobTick
  extract_lets j s1
  have waited : TimeKept s s1 := by
    unfold s1
    split
    · exact State.setJob_timeKept (by rfl)
    · exact TimeKept.refl s
  split
  · exact waited.trans (State.tallyAdd_timeKept _ _ _ _)
  · exact waited

/-- The ticks of the contexts. -/
theorem State.jobTicks_timeKept (s : State) (l : List Nat) : TimeKept s (l.foldl State.jobTick s) :=
  List.foldlRecOn l _ (motive := TimeKept s) (TimeKept.refl s) fun t ht c _ => ht.trans (t.jobTick_timeKept c)

/-- What a tick leaves in the jobs' table and the tiles: the contexts' ticks, and with an edge the core cycle. -/
theorem State.tickOnce_jobs_tiles (s : State) :
    let ticked := (List.range 8).foldl State.jobTick s
    let t := if s.power.coreEdge s.tick then ticked.coreCycle else ticked
    s.tickOnce.jobs = t.jobs ∧ s.tickOnce.tiles = t.tiles := ⟨rfl, rfl⟩

/-- A tick with an edge of the core clock is one cycle of the time of each of its eight contexts. -/
theorem State.time_tickOnce_edge {s : State} (he : s.power.coreEdge s.tick = true) {c : Nat} (hc : c < 8) :
    (s.tickOnce.job c).time = (s.job c).time.cycle := by
  obtain ⟨jobs, -⟩ := s.tickOnce_jobs_tiles
  rw [if_pos he] at jobs
  calc (s.tickOnce.job c).time
      = (((List.range 8).foldl State.jobTick s).coreCycle.job c).time := by rw [State.job, jobs, State.job]
    _ = (((List.range 8).foldl State.jobTick s).job c).time.cycle := State.time_coreCycle _ hc
    _ = (s.job c).time.cycle := by rw [(s.jobTicks_timeKept _).2]

/-- A tick without an edge of the core clock leaves every tile and every job's time. -/
theorem State.tickOnce_noEdge {s : State} (he : s.power.coreEdge s.tick = false) :
    s.tickOnce.tiles = s.tiles ∧ ∀ c, (s.tickOnce.job c).time = (s.job c).time := by
  have kept := s.jobTicks_timeKept (List.range 8)
  obtain ⟨jobs, tiles⟩ := s.tickOnce_jobs_tiles
  rw [if_neg (by simp [he])] at jobs tiles
  refine ⟨tiles.trans kept.tiles_eq, fun c => ?_⟩
  rw [State.job, jobs]
  exact kept.2 c

/-- With no command waiting, a step is a tick (log entry 3). -/
theorem step_of_idle {s : State} (h : s.pending = []) : step s = .next s.tickOnce := by
  unfold step
  rw [h]

end Sys2Proof.Machine

namespace Sys2Proof
open Sys2Proof.Machine

/-- Settles O56: the edges by residues, and the tick's effect on a job's time by whether it passes an edge. -/
theorem timePasses : Obligations.TimePasses := by
  unfold Obligations.TimePasses
  refine ⟨fun p n => ?_, fun s c hs hc he hp => ⟨_, step_of_idle hs, fun hf => ?_, fun hf => ?_⟩, fun s c hs he => ?_⟩
  -- The edges in eight ticks (R22).
  · rw [p.countP_coreEdge, edges_eq]
  -- A frozen cycle of a Caravan (R192).
  · have time := (State.time_tickOnce_edge he hc).trans (JobTime.cycle_frozen hp hf)
    simp only [Job.time, JobTime.mk.injEq] at time
    obtain ⟨-, clock, frozen, measured⟩ := time
    exact ⟨frozen, clock, measured⟩
  -- A cycle that is not frozen (R192, R198).
  · have time := (State.time_tickOnce_edge he hc).trans (JobTime.cycle_moving hp hf)
    simp only [Job.time, JobTime.mk.injEq] at time
    obtain ⟨-, clock, frozen, measured⟩ := time
    exact ⟨frozen.trans hf, clock, measured⟩
  -- A tick without an edge (R22).
  · obtain ⟨tiles, time⟩ := State.tickOnce_noEdge he
    exact ⟨_, step_of_idle hs, tiles, congrArg JobTime.clock (time c), congrArg JobTime.measured (time c)⟩

end Sys2Proof
end

section
/-! The array's issues (R135, R136, R139): each instruction has one equation for the case in which nothing refuses it, and its
frame comes from that of an issue slot. -/

namespace Sys2Proof.Machine
open Sys2Proof.Claims

/-! ### An issue slot and its frame -/

@[simp] theorem Tile.noteNonfinite_false (x : Tile) : x.noteNonfinite false = x := by
  simp [Tile.noteNonfinite]

section
variable {s : State} {w : Site} {x : Tile} {t : Task}

/-- A tile that has changed in what no other task sees leaves the other tasks and the rest of the module. -/
theorem ownTaskOnly_issued (hpad : x.pad = (s.tile w.tile).pad) (hpoison : x.padPoison = (s.tile w.tile).padPoison)
    (hstore : x.store = (s.tile w.tile).store) (htasks : x.tasks = (s.tile w.tile).tasks) :
    OwnTaskOnly w s (s.setTile w.tile (x.issued w.task t)) := by
  have htask (k : Nat) : x.task k = (s.tile w.tile).task k := by rw [Tile.task, htasks, Tile.task]
  refine ⟨rfl, fun v hv => State.tile_setTile_other _ _ hv, ?_, ?_, ?_, fun k hk => ?_⟩ <;> rw [State.tile_setTile_same]
  · exact hpad
  · exact hpoison
  · exact hstore
  · rw [Tile.issued_task_other _ _ _ hk, htask]

/-- A task that has issued lands at the next word, whatever its configuration and its count of runs have become. -/
theorem lands_issued {t' : State} {cfg : Option ArrayCfg} {ordinal : Word}
    (h : t'.tile w.tile = x.issued w.task ({ s.taskAt w with cfg := cfg, ordinal := ordinal }.advance 4)) :
    Lands w ((s.taskAt w).pc + 4) [] [] [] [] s t' := by
  have htask : t'.taskAt w =
      { ({ s.taskAt w with cfg := cfg, ordinal := ordinal } : Task).advance 4 with hold := .none } := by
    rw [State.taskAt, h, Tile.issued_task_same]
  unfold Lands KeepsRegs
  rw [htask, h]
  exact ⟨⟨fun _ _ => ⟨rfl, rfl⟩, fun _ _ => ⟨rfl, rfl⟩, fun _ _ => ⟨rfl, rfl⟩, fun _ _ => rfl⟩,
    rfl, rfl, rfl, rfl, rfl, rfl, rfl, rfl, rfl⟩

end

/-! ### ACFG -/

/-- The pairs of formats that R30 lists are those that ACFG takes. -/
theorem pairOk_toNat {a b : BitVec 3}
    (h : (a = 0 ∧ b = 0) ∨ (a = 1 ∧ b = 1) ∨ ((a = 2 ∨ a = 3) ∧ (b = 2 ∨ b = 3)) ∨ ((a = 4 ∨ a = 5) ∧ (b = 4 ∨ b = 5))) :
    pairOk a.toNat b.toNat = true := by
  revert a b; decide

theorem exec_acfg {s : State} {w : Site} {f : FA} (h : Takes (.acfg w f) w s)
    (hp : pairOk (f.md.extractLsb' 6 3).toNat (f.md.extractLsb' 3 3).toNat = true) (hm : f.md.extractLsb' 0 3 = 0) (hs : f.s = 0) :
    exec (.acfg w f) s = .next (s.setTile w.tile ((s.tile w.tile).issued w.task
      ({ s.taskAt w with cfg := some ⟨f.x, f.y, f.md.extractLsb' 6 3, f.md.extractLsb' 3 3⟩ }.advance 4))) := by
  have hw : (s.taskAt w).waits [] [] = false := by simp [Task.waits]
  show execAcfg w f s = _
  unfold execAcfg
  rw [State.regOp_take _ _ _ _ h (by simp only [RegOp.plain, hp, hm, hs]; rfl) hw rfl rfl]
  simp [RegOp.plain, never]

/-! ### ARUN -/

theorem isMx_toNat (x : BitVec 3) : isMx x.toNat = (x == 4 || x == 5) := by
  revert x; decide

/-- The operands that R136 allows pass the checks of ARUN. -/
theorem Task.arunBad_eq_false {t : Task} {f : FA} {c : ArrayCfg} (hc : t.cfg = some c) (hk : (t.getS f.s).toNat < 65536)
    (ha : (t.getA f.x).toNat % 64 = 0) (hb : (t.getA f.y).toNat % 64 = 0)
    (hmx : (c.fmtA = 4 ∨ c.fmtA = 5 ∨ c.fmtB = 4 ∨ c.fmtB = 5) → (t.getS f.s).toNat % 32 = 0)
    (hslot : ∀ g slot, ((g, slot) = (c.fmtA, c.slotA) ∨ (g, slot) = (c.fmtB, c.slotB)) → g = 2 ∨ g = 3 →
      (t.slot slot).filled = true ∧ (t.slot slot).format.toNat + 2 = g.toNat) :
    t.arunBad f = false := by
  have high : (t.getS f.s).extractLsb' 16 16 = 0 := by
    apply BitVec.eq_of_toNat_eq
    simp [Nat.shiftRight_eq_div_pow]
    omega
  have fp8 (g : BitVec 3) (slot : BitVec 4) (h : (g, slot) = (c.fmtA, c.slotA) ∨ (g, slot) = (c.fmtB, c.slotB)) :
      ((g == 2 || g == 3) && !(t.slot slot).matches g.toNat) = false := by
    by_cases hg : g = 2 ∨ g = 3
    · obtain ⟨hfilled, hformat⟩ := hslot g slot h hg
      simp [Slot.matches, hfilled, hformat]
    · simpa using fun h => absurd h hg
  have mx : ((isMx c.fmtA.toNat || isMx c.fmtB.toNat) && (t.getS f.s).toNat % 32 != 0) = false := by
    rw [isMx_toNat, isMx_toNat]
    simpa [or_assoc] using hmx
  unfold Task.arunBad
  simp only [hc, high, ha, hb, mx, fp8 _ _ (.inl rfl), fp8 _ _ (.inr rfl)]
  rfl

/-- A panel that ends within the region has no line out of bounds. -/
theorem Task.badLine_eq_none {t : Task} {off n : Nat} (h : off + 64 * n ≤ 64 * t.spBound) : t.badLine off n = none := by
  simp only [Task.badLine, List.find?_eq_none, List.mem_map, List.mem_range, Task.inBounds]
  rintro _ ⟨i, hi, rfl⟩
  simp
  omega

/-- The state after an ARUN has queued its run. -/
def State.runQueued (s : State) (w : Site) (f : FA) (c : ArrayCfg) : State :=
  let x := s.tile w.tile
  let x1 : Tile := { x with runs := x.runs ++ [s.newRun w f c], nextRun := x.nextRun + 1 }
  { s.setTile w.tile (x1.issued w.task ({ s.taskAt w with ordinal := (s.taskAt w).ordinal + 1 }.advance 4)) with
    fresh := s.fresh + x.inFlight.length }

theorem exec_arun {s : State} {w : Site} {f : FA} {c : ArrayCfg} (h : Takes (.arun w f) w s) (hm : f.md.extractLsb' 0 6 = 0)
    (hc : (s.taskAt w).cfg = some c) (hclear : Clear (s.taskAt w) [f.s] [f.s] [f.x, f.y])
    (hbad : (s.taskAt w).arunBad f = false)
    (ha : (s.taskAt w).badLine ((s.taskAt w).getA f.x).toNat (c.linesA ((s.taskAt w).getS f.s).toNat) = none)
    (hb : (s.taskAt w).badLine ((s.taskAt w).getA f.y).toNat (c.linesB ((s.taskAt w).getS f.s).toNat) = none)
    (hlines : ∀ l,
      (l ∈ (s.taskAt w).panelLinesAt ((s.taskAt w).getA f.x).toNat (c.linesA ((s.taskAt w).getS f.s).toNat) ∨
        l ∈ (s.taskAt w).panelLinesAt ((s.taskAt w).getA f.y).toNat (c.linesB ((s.taskAt w).getS f.s).toNat)) →
      (s.tile w.tile).markedByDrain l = false ∧ l ∉ ((s.tile w.tile).seen s.fresh).padPoison)
    (hqueued : ∀ r ∈ (s.tile w.tile).runs, r.stage ≠ .queued) :
    exec (.arun w f) s = .next (s.runQueued w f c) := by
  obtain ⟨hwaits, htagS, htagA⟩ := hclear
  have clean : ((s.taskAt w).tagA f.x || (s.taskAt w).tagA f.y || (s.taskAt w).tagS f.s) = false := by
    simp [htagA f.x (by simp), htagA f.y (by simp), htagS f.s (by simp)]
  simp only [← List.mem_append] at hlines
  generalize hls : (s.taskAt w).panelLinesAt _ _ ++ (s.taskAt w).panelLinesAt _ _ = ls at hlines
  have unmarked : ls.any (s.tile w.tile).markedByDrain = false := by
    simpa using fun l hl => (hlines l hl).1
  have unpoisoned : ls.find? (fun l => decide (l ∈ ((s.tile w.tile).seen s.fresh).padPoison)) = none := by
    simpa using fun l hl => (hlines l hl).2
  have free : (s.tile w.tile).runs.any (fun r => r.stage == .queued) = false := by
    simpa using hqueued
  have htask : (s.tile w.tile).task w.task.val = s.taskAt w := rfl
  show execArun w f s = _
  unfold execArun
  rw [State.issue_take _ _ _ _ h]
  simp [htask, hm, hwaits, clean, hbad, hc, ha, hb, hls, unmarked, free, unpoisoned, State.runQueued]

theorem State.tile_runQueued (s : State) (w : Site) (f : FA) (c : ArrayCfg) :
    (s.runQueued w f c).tile w.tile =
      ({ s.tile w.tile with runs := (s.tile w.tile).runs ++ [s.newRun w f c], nextRun := (s.tile w.tile).nextRun + 1 } : Tile).issued
        w.task ({ s.taskAt w with ordinal := (s.taskAt w).ordinal + 1 }.advance 4) :=
  State.tile_setTile_same _ _ _

/-- Queueing a run leaves all but its tile, its task and the choice of the next free value. -/
theorem State.runQueued_frame (s : State) (w : Site) (f : FA) (c : ArrayCfg) :
    OwnTileOnly w s (s.runQueued w f c) ∧ PadSame w.tile s (s.runQueued w f c) ∧
      Lands w ((s.taskAt w).pc + 4) [] [] [] [] s (s.runQueued w f c) := by
  have htile := s.tile_runQueued w f c
  obtain ⟨-, hother, hpad, hpoison, hstore, htasks⟩ := ownTaskOnly_issued (s := s) (w := w)
    (x := { s.tile w.tile with runs := (s.tile w.tile).runs ++ [s.newRun w f c], nextRun := (s.tile w.tile).nextRun + 1 })
    (t := { s.taskAt w with ordinal := (s.taskAt w).ordinal + 1 }.advance 4) rfl rfl rfl rfl
  exact ⟨⟨rfl, fun _ => rfl, hother, hstore, htasks⟩, ⟨hpad, hpoison⟩, lands_issued htile⟩

/-- The run lengths that MOD[8:7] selects (R136). -/
theorem runLength_eq (md : BitVec 9) :
    runLength md = if md.extractLsb' 7 2 = 0 then 32 else if md.extractLsb' 7 2 = 1 then 8 else if md.extractLsb' 7 2 = 2 then 16 else 64 := by
  unfold runLength
  generalize md.extractLsb' 7 2 = n
  revert n; decide

/-! ### ADRN -/

theorem targetBytes_eq (target : BitVec 2) : targetBytes target = if target = 0 then 4 else if target = 1 then 2 else 1 := by
  revert target; decide

/-- The fields of an ADRN that R121 and R139 allow. -/
theorem adrnOk_iff (f : FA) :
    adrnOk f = true ↔ f.md.extractLsb' 7 2 ≠ 3 ∧ (f.md.extractLsb' 7 2 ≠ 1 → f.md.getLsbD 6 = false) ∧ f.md.extractLsb' 0 6 = 0 ∧
      f.s = 0 ∧ (f.md.extractLsb' 7 2 ≠ 2 → f.y = 0) := by
  have code (n : BitVec 2) : (n.toNat ≤ 2 ↔ n ≠ 3) ∧ (n.toNat = 1 ↔ n = 1) ∧ (n.toNat = 2 ↔ n = 2) := by
    revert n; decide
  unfold adrnOk
  generalize f.md.extractLsb' 7 2 = n
  obtain ⟨h3, h1, h2⟩ := code n
  simp only [Bool.and_eq_true, Bool.or_eq_true, decide_eq_true_eq, beq_iff_eq, h3, h1, h2, Bool.not_eq_true']
  tauto

/-- The drain of an ADRN that issues. -/
def State.newDrain (s : State) (w : Site) (f : FA) (r : Run) : Drain :=
  { run := r.id, task := w.task, pc := (s.taskAt w).pc, addr := (s.taskAt w).getA f.x, target := f.md.extractLsb' 7 2,
    ovf := f.md.getLsbD 6, slot := f.y, lines := 16 * r.cols * targetBytes (f.md.extractLsb' 7 2) / 64, written := 0, undo := [] }

theorem exec_adrn {s : State} {w : Site} {f : FA} {r : Run} (h : Takes (.adrn w f) w s) (hok : adrnOk f = true)
    (hslot : f.md.extractLsb' 7 2 = 2 → ((s.taskAt w).slot f.y).filled = true) (htag : (s.taskAt w).tagA f.x = false)
    (hoff : ((s.taskAt w).getA f.x).toNat % 64 = 0) (hrun : (s.tile w.tile).unbound w.task = some r)
    (hline : (s.taskAt w).badLine ((s.taskAt w).getA f.x).toNat (s.newDrain w f r).lines = none)
    (hacc : f.md.extractLsb' 7 2 ≠ 0 → ∀ i, i < (s.newDrain w f r).lines →
      (s.taskAt w).inAcc (((s.taskAt w).getA f.x).toNat / 64 + i) = false)
    (hdrains : ∀ d ∈ (s.tile w.tile).drains, d.written ≠ 0) :
    exec (.adrn w f) s = .next (s.setTile w.tile
      (({ s.tile w.tile with drains := (s.tile w.tile).drains ++ [s.newDrain w f r] } : Tile).issued w.task
        ((s.taskAt w).advance 4))) := by
  have htask : (s.tile w.tile).task w.task.val = s.taskAt w := rfl
  have free : (s.tile w.tile).drains.any (fun d => d.written == 0) = false := by simpa using hdrains
  simp only [State.newDrain] at hline hacc
  show execAdrn w f s = _
  unfold execAdrn
  rw [State.issue_take _ _ _ _ h]
  simp only [htask, hok, htag, hrun, free, Bool.not_true, Bool.false_eq_true, if_false]
  rw [if_neg, hline]
  · rfl
  · rintro (hunaligned | ⟨htarget, hempty⟩ | ⟨htarget, hin⟩)
    · exact hunaligned hoff
    · simp [hslot htarget] at hempty
    · obtain ⟨i, hi, hin⟩ := List.any_eq_true.1 hin
      simp [hacc htarget i (List.mem_range.1 hi)] at hin

end Sys2Proof.Machine

namespace Sys2Proof
open Sys2Proof.Machine Sys2Proof.Claims

/-- Settles O9: each instruction from its equation where nothing refuses it. -/
theorem arrayIssues : Obligations.ArrayIssues := by
  unfold Obligations.ArrayIssues
  refine ⟨fun s w f h hm hs hp => ?_, fun s w f c h hm hc hclear hk ha hb hmx hslot hpanelA hpanelB hlines hqueued => ?_,
    fun s w f r h hm hs htarget hovf hy hslot htag hoff hbound hrun hacc hdrains => ?_⟩
  -- ACFG sets the configuration (R135).
  · have htile := State.tile_setTile_same s w.tile ((s.tile w.tile).issued w.task
      ({ s.taskAt w with cfg := some ⟨f.x, f.y, f.md.extractLsb' 6 3, f.md.extractLsb' 3 3⟩ }.advance 4))
    refine ⟨_, exec_acfg h (pairOk_toNat hp) hm hs, ⟨ownTaskOnly_issued rfl rfl rfl rfl, lands_issued htile⟩, ?_, ?_, ?_⟩
    · rw [State.taskAt, htile, Tile.issued_task_same]; rfl
    · rw [State.taskAt, htile, Tile.issued_task_same]; rfl
    · rw [htile]; rfl
  -- ARUN queues a run of the configuration in force (R136).
  · obtain ⟨hframe, hpad, hlands⟩ := s.runQueued_frame w f c
    refine ⟨_, s.newRun w f c, exec_arun h hm hc hclear (Task.arunBad_eq_false hc hk ha hb hmx hslot) (Task.badLine_eq_none hpanelA)
      (Task.badLine_eq_none hpanelB) hlines hqueued, hframe, rfl, hpad, hlands, ?_, rfl, rfl, rfl, rfl, rfl, rfl, ?_⟩
    · rw [s.tile_runQueued]; rfl
    · have hlen : (s.newRun w f c).len = runLength f.md := rfl
      rw [hlen, runLength_eq]
      refine ⟨fun e => by simp [e], fun e => by simp [e], fun e => by simp [e], fun e => by simp [e], fun e => ?_⟩
      simp [State.newRun, e]
  -- ADRN binds the oldest unbound run (R139).
  · have hlines : (s.newDrain w f r).lines = 16 * r.cols *
        (if f.md.extractLsb' 7 2 = 0 then 4 else if f.md.extractLsb' 7 2 = 1 then 2 else 1) / 64 := by
      rw [State.newDrain, targetBytes_eq]
    rw [← hlines] at hbound hacc
    have htile := State.tile_setTile_same s w.tile
      (({ s.tile w.tile with drains := (s.tile w.tile).drains ++ [s.newDrain w f r] } : Tile).issued w.task
        ((s.taskAt w).advance 4))
    refine ⟨_, s.newDrain w f r, exec_adrn h ((adrnOk_iff f).2 ⟨htarget, hovf, hm, hs, hy⟩) hslot htag hoff hrun
      (Task.badLine_eq_none hbound) hacc hdrains, ownTaskOnly_issued rfl rfl rfl rfl, lands_issued htile, ?_, ?_,
      rfl, rfl, rfl, rfl, hlines, rfl⟩
    · rw [htile]; rfl
    · rw [htile]; rfl

end Sys2Proof
end

section
/-! The drain of a block, line by line (R60 to R62, R104, R105, R107, R140). What a line's write does to the tile is one function of the
tile, `drainAdvanced`, with a lemma for each part of the tile that it sets or leaves. -/

namespace Sys2Proof.Machine
open Sys2Proof.Claims

/-! ### Banks and the Tally -/

/-- What a request for a bank can change of a tile: who has the banks, who waits, and the contract records. -/
def BanksOnly (x y : Tile) : Prop :=
  ∃ banks waits records extra, y = { x with banks := banks, bankWaits := waits, records := records, recordsOver := extra }

theorem BanksOnly.refl (x : Tile) : BanksOnly x x := ⟨_, _, _, _, rfl⟩

theorem BanksOnly.trans {x y z : Tile} (h : BanksOnly x y) (k : BanksOnly y z) : BanksOnly x z := by
  obtain ⟨_, _, _, _, rfl⟩ := h
  obtain ⟨_, _, _, _, rfl⟩ := k
  exact ⟨_, _, _, _, rfl⟩

theorem Tile.loseBank_banksOnly (x : Tile) (u : BankUse) (clash : Bool) : BanksOnly x (x.loseBank u clash).1 := by
  unfold Tile.loseBank
  dsimp only
  split
  · exact ⟨_, _, _, _, rfl⟩
  · exact ⟨_, _, _, _, rfl⟩

theorem Tile.useBank_banksOnly (x : Tile) (u : BankUse) : BanksOnly x (x.useBank u).1 := by
  unfold Tile.useBank
  split
  · exact ⟨_, _, _, _, rfl⟩
  · next v _ =>
    dsimp only
    split
    · exact BanksOnly.refl x
    · split
      · have taken : BanksOnly x { x with banks := u :: x.banks.erase v } := ⟨_, _, _, _, rfl⟩
        exact taken.trans (Tile.loseBank_banksOnly _ _ _)
      · exact x.loseBank_banksOnly _ _

theorem Tile.useBanks_banksOnly (x : Tile) (l : List BankUse) : BanksOnly x (x.useBanks l).1 := by
  induction l generalizing x with
  | nil => exact BanksOnly.refl x
  | cons u us ih => exact (x.useBank_banksOnly u).trans (ih _)

theorem Tile.useLines_banksOnly (x : Tile) (prio : Nat) (task : Fin 4) (pc : BitVec 16) (ls : List Nat) :
    BanksOnly x (x.useLines prio task pc ls).1 := x.useBanks_banksOnly _

/-- Interlock cycles go to the Tally of the tile's job, and nowhere else. -/
theorem State.contractStall_tally (s : State) (u n : Nat) :
    { s.contractStall u n with jobs := s.jobs } = s ∧ TallyOnly s (s.contractStall u n) := by
  unfold State.contractStall
  split
  · next c _ =>
    refine ⟨rfl, fun k => ?_⟩
    rw [State.tallyAdd, State.job_setJob]
    split
    · next hk => subst hk; rfl
    · rfl
  · exact ⟨rfl, fun _ => rfl⟩

@[simp] theorem State.contractStall_tile (s : State) (u n k : Nat) : (s.contractStall u n).tile k = s.tile k := by
  obtain ⟨-, -, tiles, -⟩ := s.contractStall_work u n
  rw [State.tile, tiles, State.tile]

/-! ### Writes of the scratchpad, and a run that is taken out -/

@[simp] theorem Tile.padWrite_pad (x : Tile) (pa : Nat) (l : List Byte) (p q : Bool) : (x.padWrite pa l p q).pad = x.pad.write pa l := rfl
@[simp] theorem Tile.padWrite_tasks (x : Tile) (pa : Nat) (l : List Byte) (p q : Bool) : (x.padWrite pa l p q).tasks = x.tasks := rfl
@[simp] theorem Tile.padWrite_runs (x : Tile) (pa : Nat) (l : List Byte) (p q : Bool) : (x.padWrite pa l p q).runs = x.runs := rfl
@[simp] theorem Tile.padWrite_drains (x : Tile) (pa : Nat) (l : List Byte) (p q : Bool) : (x.padWrite pa l p q).drains = x.drains := rfl
@[simp] theorem Tile.padWrite_nonfinite (x : Tile) (pa : Nat) (l : List Byte) (p q : Bool) :
    (x.padWrite pa l p q).nonfinite = x.nonfinite := rfl

/-- The block that enters the drain buffer keeps its name, and the rest of the tile is as it was. -/
theorem Tile.promote_runs (x : Tile) : ∃ runs, x.promote = { x with runs := runs } ∧ runs.map (·.id) = x.runs.map (·.id) := by
  unfold Tile.promote
  split
  · exact ⟨_, rfl, rfl⟩
  · split
    · exact ⟨_, rfl, rfl⟩
    · refine ⟨_, rfl, ?_⟩
      rw [List.map_map]
      refine List.map_congr_left fun r _ => ?_
      dsimp only [Function.comp]
      split <;> rfl

/-- A run that is taken out is gone, and the tile's scratchpad, tasks and flag are as they were. -/
theorem Tile.dropRun_keeps (x : Tile) (id : Nat) :
    (x.dropRun id).pad = x.pad ∧ (x.dropRun id).tasks = x.tasks ∧ (x.dropRun id).nonfinite = x.nonfinite ∧
      ∀ q ∈ (x.dropRun id).runs, q.id ≠ id := by
  obtain ⟨runs, heq, hids⟩ :=
    Tile.promote_runs { x with runs := x.runs.filter (fun r => r.id ≠ id), drains := x.drains.filter (fun d => d.run ≠ id) }
  unfold Tile.dropRun
  rw [heq]
  refine ⟨rfl, rfl, rfl, fun q hq => ?_⟩
  have mem : q.id ∈ runs.map (·.id) := List.mem_map_of_mem hq
  rw [hids] at mem
  obtain ⟨r, hr, hid⟩ := List.mem_map.1 mem
  rw [← hid]
  simpa using (List.mem_filter.1 hr).2

/-! ### One line of a drain -/

/-- The place of a drain's next line, row-major from its address (R140). -/
def Tile.drainPlace (x : Tile) (d : Drain) : Nat := (x.task d.task.val).padAddr (d.addr.toNat + 64 * d.written)

/-- What the next line of a drain writes: its bytes, its slot and whether a value is non-finite (R60 to R62). -/
def Tile.drainOut (x : Tile) (r : Run) (d : Drain) : List Byte × Slot × Bool :=
  let per := 64 / targetBytes d.target
  drainLine r d ((x.task d.task.val).slot d.slot) ((r.totals.drop (per * d.written)).take per)
    (if x.drainAdds d then some (x.pad.read (x.drainPlace d) 64) else none)

/-- The tile with a drain's next line written. -/
def Tile.drainWritten (x : Tile) (r : Run) (d : Drain) : Tile :=
  let out := x.drainOut r d
  let x1 := ((x.useLines 1 d.task d.pc [x.drainPlace d / 64]).1.padWrite (x.drainPlace d) out.1 false true).noteNonfinite out.2.2
  if d.target = 2 then x1.setTask d.task.val ((x1.task d.task.val).setSlot d.slot out.2.1) else x1

/-- A drain after its next line: what it takes to undo a line that adds nothing is noted (R220). -/
def Tile.drainNoted (x : Tile) (r : Run) (d e : Drain) : Drain :=
  if e.run = d.run then { e with
    written := e.written + 1
    undo := if d.target = 0 then e.undo ++ [⟨x.drainPlace d / 64, x.pad.read (x.drainPlace d) 64,
      decide (x.drainPlace d / 64 ∈ x.padPoison), (x.drainOut r d).1⟩] else e.undo } else e

/-- The tile after a drain's next line: the last one frees the buffer (R140). -/
def Tile.drainAdvanced (x : Tile) (r : Run) (d : Drain) : Tile :=
  if d.written + 1 = d.lines then (x.drainWritten r d).dropRun r.id
  else { x.drainWritten r d with drains := (x.drainWritten r d).drains.map (x.drainNoted r d) }

/-- An add waits while the region is open (R107). -/
theorem exec_arrayDrainLineWrite_waits {s : State} {u : Nat} {r : Run} {d : Drain} (hd : (s.tile u).draining = some (r, d))
    (hadds : (s.tile u).drainAdds d = true) (hregion : ((s.tile u).task d.task.val).region.isSome = true) :
    exec (.arrayDrainLineWrite u) s = .next s := by
  show execArrayDrainLineWrite u s = _
  simp [execArrayDrainLineWrite, hd, hadds, hregion]

/-- A line that does not add, or adds into a clean line while no region is open, is written. -/
theorem exec_arrayDrainLineWrite_writes {s : State} {u : Nat} {r : Run} {d : Drain} (hd : (s.tile u).draining = some (r, d))
    (hclean : (s.tile u).drainAdds d = true → ((s.tile u).task d.task.val).region = none ∧
      (s.tile u).drainPlace d / 64 ∉ (s.tile u).padPoison) :
    exec (.arrayDrainLineWrite u) s = .next ((s.setTile u ((s.tile u).drainAdvanced r d)).contractStall u
      ((s.tile u).useLines 1 d.task d.pc [(s.tile u).drainPlace d / 64]).2) := by
  have unopened : ¬ ((s.tile u).drainAdds d = true ∧ ((s.tile u).task d.task.val).region.isSome = true) :=
    fun ⟨hadds, hopen⟩ => by simp [(hclean hadds).1] at hopen
  have unpoisoned : ¬ ((s.tile u).drainAdds d = true ∧ (s.tile u).drainPlace d / 64 ∈ (s.tile u).padPoison) :=
    fun ⟨hadds, hin⟩ => (hclean hadds).2 hin
  show execArrayDrainLineWrite u s = _
  unfold execArrayDrainLineWrite
  dsimp only
  rw [hd]
  dsimp only
  rw [if_neg unopened]
  exact if_neg unpoisoned

theorem Tile.drainWritten_keeps (x : Tile) (r : Run) (d : Drain) :
    (x.drainWritten r d).pad = x.pad.write (x.drainPlace d) (x.drainOut r d).1 ∧
      (x.drainWritten r d).nonfinite = (x.nonfinite || (x.drainOut r d).2.2) ∧
      (x.drainWritten r d).runs = x.runs ∧ (x.drainWritten r d).drains = x.drains := by
  obtain ⟨banks, waits, records, extra, hbanks⟩ := x.useLines_banksOnly 1 d.task d.pc [x.drainPlace d / 64]
  unfold Tile.drainWritten
  rw [hbanks]
  dsimp only
  split <;> exact ⟨rfl, rfl, rfl, rfl⟩

/-- A drain into an FP8 tensor leaves its slot with the tensor's statistics (R61). -/
theorem Tile.drainWritten_slot (x : Tile) (r : Run) {d : Drain} (h : d.target = 2) :
    ((x.drainWritten r d).task d.task.val).slot d.slot = (x.drainOut r d).2.1 := by
  simp [Tile.drainWritten, h, Tile.setTask, Tile.task, Task.setSlot, Task.slot]

theorem Tile.drainAdvanced_keeps (x : Tile) (r : Run) (d : Drain) :
    (x.drainAdvanced r d).pad = (x.drainWritten r d).pad ∧ (x.drainAdvanced r d).tasks = (x.drainWritten r d).tasks ∧
      (x.drainAdvanced r d).nonfinite = (x.drainWritten r d).nonfinite := by
  unfold Tile.drainAdvanced
  split
  · obtain ⟨hpad, htasks, hflag, -⟩ := (x.drainWritten r d).dropRun_keeps r.id
    exact ⟨hpad, htasks, hflag⟩
  · exact ⟨rfl, rfl, rfl⟩

/-- The last line frees the buffer. -/
theorem Tile.drainAdvanced_last (x : Tile) (r : Run) {d : Drain} (h : d.written + 1 = d.lines) :
    ∀ q ∈ (x.drainAdvanced r d).runs, q.id ≠ r.id := by
  obtain ⟨-, -, -, hgone⟩ := (x.drainWritten r d).dropRun_keeps r.id
  rwa [Tile.drainAdvanced, if_pos h]

/-- A line that is not the last counts with its drain. -/
theorem Tile.drainAdvanced_next (x : Tile) (r : Run) {d : Drain} (h : d.written + 1 ≠ d.lines) :
    (x.drainAdvanced r d).runs = x.runs ∧ (x.drainAdvanced r d).drains.map (fun e => (e.run, e.written)) =
      x.drains.map fun e => (e.run, if e.run = d.run then e.written + 1 else e.written) := by
  obtain ⟨-, -, hruns, hdrains⟩ := x.drainWritten_keeps r d
  rw [Tile.drainAdvanced, if_neg h]
  refine ⟨hruns, ?_⟩
  rw [hdrains, List.map_map]
  refine List.map_congr_left fun e _ => ?_
  dsimp only [Function.comp, Tile.drainNoted]
  split <;> rfl

end Sys2Proof.Machine

namespace Sys2Proof
open Sys2Proof.Machine Sys2Proof.Claims

/-- Settles O12: an open region holds an add back, and every other line is that of `drainAdvanced`. -/
theorem drainWritesLine : Obligations.DrainWritesLine := by
  unfold Obligations.DrainWritesLine
  intro s u r d hwf hd
  refine ⟨exec_arrayDrainLineWrite_waits hd, fun hclean => ?_⟩
  dsimp only
  rw [← targetBytes_eq]
  change ∃ t : State, _ ∧ (∀ i, i < ((s.tile u).drainOut r d).1.length →
      (t.tile u).pad.get ((s.tile u).drainPlace d + i) = ((s.tile u).drainOut r d).1.getD i 0) ∧
    (∀ a, a < (s.tile u).drainPlace d ∨ (s.tile u).drainPlace d + ((s.tile u).drainOut r d).1.length ≤ a → _) ∧
    (_ → _ = ((s.tile u).drainOut r d).2.1) ∧ (_ = ((s.tile u).nonfinite || ((s.tile u).drainOut r d).2.2)) ∧ _
  generalize hn : ((s.tile u).useLines 1 d.task d.pc [(s.tile u).drainPlace d / 64]).2 = n
  obtain ⟨hrest, htally⟩ := (s.setTile u ((s.tile u).drainAdvanced r d)).contractStall_tally u n
  obtain ⟨hpad, htasks, hflag⟩ := (s.tile u).drainAdvanced_keeps r d
  obtain ⟨hwritten, hnonfinite, -, -⟩ := (s.tile u).drainWritten_keeps r d
  have htile : ((s.setTile u ((s.tile u).drainAdvanced r d)).contractStall u n).tile u = (s.tile u).drainAdvanced r d := by
    rw [State.contractStall_tile, State.tile_setTile_same]
  refine ⟨_, hn ▸ exec_arrayDrainLineWrite_writes hd hclean, fun i hi => ?_, fun a ha => ?_, fun htarget => ?_, ?_, fun v hv => ?_,
    htally, congrArg (fun t : State => { t with tiles := s.tiles }) hrest, fun hlast => ?_, fun hnext => ?_⟩
  · rw [htile, hpad, hwritten]
    rw [Mem.get_write_inside _ _ _ _ hwf hi, List.getD_eq_getElem _ _ hi]
  · rw [htile, hpad, hwritten]
    exact Mem.get_write_outside _ _ _ _ ha
  · rw [htile, Tile.task, htasks]
    exact (s.tile u).drainWritten_slot r htarget
  · rw [htile, hflag, hnonfinite]
  · rw [State.contractStall_tile, State.tile_setTile_other _ _ hv]
  · rw [htile]
    exact (s.tile u).drainAdvanced_last r hlast
  · rw [htile]
    exact (s.tile u).drainAdvanced_next r hnext

end Sys2Proof
end

section
/-! The lines of a message on their way (R168, R170, R172, R174, R183). A flit's travel touches the records of the routers and the
links of its own job alone; what its line then does is one function of the state for each kind of destination. -/

namespace Sys2Proof.Machine
open Sys2Proof.Claims

/-! ### The frame of an exchange -/

theorem InJob.refl (c : Nat) (s : State) : InJob c s s := ⟨rfl, rfl, rfl, rfl, rfl, rfl, fun _ _ => rfl⟩

theorem InJob.trans {c : Nat} {s t u : State} (h : InJob c s t) (k : InJob c t u) : InJob c s u := by
  obtain ⟨mem, ports, boot, power, courier, pending, jobs⟩ := h
  obtain ⟨mem', ports', boot', power', courier', pending', jobs'⟩ := k
  exact ⟨mem'.trans mem, ports'.trans ports, boot'.trans boot, power'.trans power, courier'.trans courier, pending'.trans pending,
    fun d hd => (jobs' d hd).trans (jobs d hd)⟩

theorem State.setTile_inJob (s : State) (c u : Nat) (x : Tile) : InJob c s (s.setTile u x) :=
  ⟨rfl, rfl, rfl, rfl, rfl, rfl, fun _ _ => rfl⟩

theorem State.setJob_inJob (s : State) (c : Nat) (j : Job) : InJob c s (s.setJob c j) :=
  ⟨rfl, rfl, rfl, rfl, rfl, rfl, fun _ hd => State.job_setJob_other _ _ hd⟩

theorem State.mapMsg_inJob (s : State) (c id : Nat) (f : Msg → Msg) : InJob c s (s.mapMsg c id f) := s.setJob_inJob _ _

@[simp] theorem State.mapMsg_tile (s : State) (c id : Nat) (f : Msg → Msg) (u : Nat) : (s.mapMsg c id f).tile u = s.tile u := rfl
@[simp] theorem State.mapMsg_descs (s : State) (c id : Nat) (f : Msg → Msg) : (s.mapMsg c id f).descs = s.descs := rfl
@[simp] theorem State.mapMsg_job (s : State) (c id : Nat) (f : Msg → Msg) : (s.mapMsg c id f).job c = (s.job c).mapMsg id f :=
  State.job_setJob_same _ _ _

/-- Two states whose tiles differ in the records of the Caravan at most. -/
def RecordsOnly (s t : State) : Prop :=
  ∀ u, ∃ records extra, t.tile u = { s.tile u with caravanRecords := records, caravanOver := extra }

theorem RecordsOnly.refl (s : State) : RecordsOnly s s := fun _ => ⟨_, _, rfl⟩

theorem RecordsOnly.trans {s t u : State} (h : RecordsOnly s t) (k : RecordsOnly t u) : RecordsOnly s u := by
  intro v
  obtain ⟨_, _, h⟩ := h v
  obtain ⟨_, _, k⟩ := k v
  exact ⟨_, _, by rw [k, h]⟩

/-! ### A flit's travel (R170) -/

/-- What a flit's travel leaves: the tiles but for their records, the messages of the job, and everything outside it. -/
def Travelled (c : Nat) (s t : State) : Prop :=
  InJob c s t ∧ RecordsOnly s t ∧ t.descs = s.descs ∧ (t.job c).msgs = (s.job c).msgs

theorem Travelled.refl (c : Nat) (s : State) : Travelled c s s := ⟨InJob.refl c s, RecordsOnly.refl s, rfl, rfl⟩

theorem Travelled.trans {c : Nat} {s t u : State} (h : Travelled c s t) (k : Travelled c t u) : Travelled c s u := by
  obtain ⟨frame, records, descs, msgs⟩ := h
  obtain ⟨frame', records', descs', msgs'⟩ := k
  exact ⟨InJob.trans frame frame', RecordsOnly.trans records records', descs'.trans descs, msgs'.trans msgs⟩

theorem State.noteLoss_travelled (s : State) (c : Nat) (u : LinkUse) : Travelled c s (s.noteLoss c u) := by
  refine ⟨s.setTile_inJob _ _ _, fun v => ?_, rfl, rfl⟩
  rw [State.noteLoss, State.tile_setTile]
  split
  · next hv => exact ⟨_, _, by rw [hv]; rfl⟩
  · exact ⟨_, _, rfl⟩

theorem State.setFlits_travelled (s : State) (c : Nat) (l : List LinkUse) : Travelled c s (s.setJob c { s.job c with flits := l }) := by
  refine ⟨s.setJob_inJob _ _, fun _ => ⟨_, _, rfl⟩, rfl, ?_⟩
  rw [State.job_setJob_same]

/-- The losers that a flit displaces are noted, and no job changes. -/
theorem State.noteLosses_travelled (s : State) (c : Nat) (l : List LinkUse) :
    Travelled c s (l.foldl (fun s v => s.noteLoss c v) s) ∧ (l.foldl (fun s v => s.noteLoss c v) s).jobs = s.jobs :=
  List.foldlRecOn l _ (motive := fun t => Travelled c s t ∧ t.jobs = s.jobs) ⟨Travelled.refl c s, rfl⟩
    fun t ht v _ => ⟨ht.1.trans (t.noteLoss_travelled c v), ht.2⟩

theorem State.travel_travelled (s : State) (c : Nat) (m : Msg) (control : Bool) (part : Nat) (path : List (Nat × Nat × Nat)) :
    Travelled c s (s.travel c m control part path).1 := by
  unfold State.travel
  extract_lets j uses clash lost
  clear_value lost
  cases lost with
  | some u =>
    dsimp only
    split
    · exact Travelled.refl c s
    · exact (s.noteLoss_travelled c u).trans (State.setFlits_travelled _ _ _)
  | none =>
    obtain ⟨travelled, jobs⟩ := s.noteLosses_travelled c (uses.filterMap clash)
    have hjob : j = ((uses.filterMap clash).foldl (fun s v => s.noteLoss c v) s).job c := by rw [State.job, jobs]; rfl
    rw [hjob]
    exact travelled.trans (State.setFlits_travelled _ _ _)

/-! ### Messages, destinations and descriptors by name -/

section
variable {α : Type} {key : α → Nat} {f : α → α} {n : Nat}

/-- The first entry of a name after a change of the entries of that name. -/
theorem find?_map_ite_same (hf : ∀ x, key x = n → key (f x) = n) (l : List α) :
    (l.map fun x => if key x = n then f x else x).find? (fun x => key x == n) = (l.find? fun x => key x == n).map f := by
  induction l with
  | nil => rfl
  | cons x xs ih =>
    by_cases hx : key x = n
    · simp [hx, hf x hx]
    · simp [hx, ih]

/-- A change of the entries of one name leaves the first of another. -/
theorem find?_map_ite_other (hf : ∀ x, key x = n → key (f x) = n) {k : Nat} (hk : k ≠ n) (l : List α) :
    (l.map fun x => if key x = n then f x else x).find? (fun x => key x == k) = l.find? fun x => key x == k := by
  induction l with
  | nil => rfl
  | cons x xs ih =>
    by_cases hx : key x = n
    · simp [hx, hf x hx, Ne.symm hk, ih]
    · simp only [List.map_cons, if_neg hx, List.find?_cons, ih]

end

theorem Job.msg_mapMsg_same {j : Job} {id : Nat} {m : Msg} {f : Msg → Msg} (hf : ∀ m, m.id = id → (f m).id = id)
    (h : j.msg id = some m) : (j.mapMsg id f).msg id = some (f m) :=
  (find?_map_ite_same hf j.msgs).trans (congrArg (Option.map f) h)

theorem Job.msg_mapMsg_other {j : Job} {id k : Nat} {f : Msg → Msg} (hf : ∀ m, m.id = id → (f m).id = id) (hk : k ≠ id) :
    (j.mapMsg id f).msg k = j.msg k := find?_map_ite_other hf hk j.msgs

theorem Msg.at_mapDest {m : Msg} {dest : Nat} {d : MsgDest} {f : MsgDest → MsgDest} (hf : ∀ d, (f d).dest = d.dest)
    (h : m.at_ dest = some d) : (m.mapDest dest f).at_ dest = some (f d) :=
  (find?_map_ite_same (fun d hd => (hf d).trans hd) m.dests).trans (congrArg (Option.map f) h)

theorem Msg.dest_of_at {m : Msg} {dest : Nat} {d : MsgDest} (h : m.at_ dest = some d) : d.dest = dest := by
  simpa using List.find?_some h

@[simp] theorem State.mapDesc_tiles (s : State) (id : Nat) (f : Desc → Desc) : (s.mapDesc id f).tiles = s.tiles := rfl
@[simp] theorem State.mapDesc_job (s : State) (id : Nat) (f : Desc → Desc) (c : Nat) : (s.mapDesc id f).job c = s.job c := rfl

theorem State.mapDesc_inJob (s : State) (c id : Nat) (f : Desc → Desc) : InJob c s (s.mapDesc id f) :=
  ⟨rfl, rfl, rfl, rfl, rfl, rfl, fun _ _ => rfl⟩

theorem State.desc_mapDesc {s : State} {id : Nat} {q : Desc} {f : Desc → Desc} (hf : ∀ q, (f q).id = q.id)
    (h : s.desc id = some q) : (s.mapDesc id f).desc id = some (f q) :=
  (find?_map_ite_same (fun q hq => (hf q).trans hq) s.descs).trans (congrArg (Option.map f) h)

/-! ### Lines of a scratchpad -/

@[simp] theorem Tile.noteNonfinite_pad (x : Tile) (b : Bool) : (x.noteNonfinite b).pad = x.pad := rfl
@[simp] theorem Tile.noteNonfinite_padPoison (x : Tile) (b : Bool) : (x.noteNonfinite b).padPoison = x.padPoison := rfl

@[simp] theorem fitBytes_length (n : Nat) (l : List Byte) : (fitBytes n l).length = n := by
  simp [fitBytes]

theorem Waybill.line_length (w : Waybill) : w.line.length = 64 := fitBytes_length 64 _

theorem mem_addTo {l : List Nat} {n a : Nat} : a ∈ addTo l n ↔ a = n ∨ a ∈ l := by
  unfold addTo
  split
  · next h => exact ⟨.inr, fun ha => ha.elim (fun e => e ▸ h) id⟩
  · simp only [List.mem_append, List.mem_cons, List.mem_filter, decide_eq_true_eq]
    constructor
    · tauto
    · rintro (h | h)
      · exact .inr (.inl h)
      · rcases Nat.lt_trichotomy a n with hlt | heq | hgt
        · exact .inl ⟨h, hlt⟩
        · exact .inr (.inl heq)
        · exact .inr (.inr ⟨h, hgt⟩)

/-- A member is what it was set to, and every other is as it was. -/
theorem mem_setMember {l : List Nat} {n a : Nat} {b : Bool} : a ∈ setMember l n b ↔ if a = n then b = true else a ∈ l := by
  cases b with
  | true =>
    rw [setMember, if_pos rfl, mem_addTo]
    by_cases h : a = n <;> simp [h]
  | false =>
    rw [setMember, if_neg (by simp), dropFrom, List.mem_filter]
    by_cases h : a = n <;> simp [h]

/-- A line at a line's address is one line. -/
theorem linesOf_line (n : Nat) : linesOf (64 * n) 64 = [n] := by
  have count : (64 * n + 64 + 63) / 64 - n = 1 := by omega
  simp [linesOf, count]

/-- The physical line of a task's line. -/
def Task.padLine (t : Task) (line : Nat) : Nat := t.spBase + line

theorem Task.padAddr_line (t : Task) (line : Nat) : t.padAddr (64 * line) = 64 * t.padLine line := by
  rw [Task.padAddr, Task.padLine, Nat.mul_add]

@[simp] theorem Tile.putLine_pad (x : Tile) (task line : Nat) (l : List Byte) (p : Bool) :
    (x.putLine task line l p).pad = x.pad.write ((x.task task).padAddr (64 * line)) l := rfl
@[simp] theorem Tile.putLine_task (x : Tile) (task line : Nat) (l : List Byte) (p : Bool) (n : Nat) :
    (x.putLine task line l p).task n = x.task n := rfl
@[simp] theorem Tile.putLine_ringTask (x : Tile) (task line : Nat) (l : List Byte) (p : Bool) (ch : BitVec 4) :
    (x.putLine task line l p).ringTask ch = x.ringTask ch := rfl
@[simp] theorem Tile.putLine_recorded (x : Tile) (task line : Nat) (l : List Byte) (p : Bool) :
    (x.putLine task line l p).recorded = x.recorded := rfl

/-- A whole line's write sets its poison (R216). -/
theorem Tile.putLine_padPoison (x : Tile) (task line : Nat) {l : List Byte} (p : Bool) (h : l.length = 64) :
    (x.putLine task line l p).padPoison = setMember x.padPoison ((x.task task).padLine line) p := by
  simp [Tile.putLine, Tile.padWrite, h, Task.padAddr_line, linesOf_line]

/-- From the first tile to the second, line `n` holds bytes and poison, and no byte outside it and line `head` has changed. -/
def LineIn (head n : Nat) (l : List Byte) (p : Bool) (x y : Tile) : Prop :=
  y.pad.read (64 * n) 64 = l ∧ (n ∈ y.padPoison ↔ p = true) ∧
    ∀ a, a < 64 * head ∨ 64 * head + 64 ≤ a → a < 64 * n ∨ 64 * n + 64 ≤ a → y.pad.get a = x.pad.get a

theorem Tile.putLine_lineIn {x : Tile} (hwf : Memory.wf x.pad = true) (head task line : Nat) {l : List Byte} (p : Bool)
    (h : l.length = 64) : LineIn head ((x.task task).padLine line) l p x (x.putLine task line l p) := by
  refine ⟨?_, ?_, fun a _ ha => ?_⟩
  · rw [Tile.putLine_pad, Task.padAddr_line, ← h]
    exact Mem.read_write _ _ _ hwf
  · rw [Tile.putLine_padPoison _ _ _ _ h, mem_setMember, if_pos rfl]
  · rw [Tile.putLine_pad, Task.padAddr_line]
    exact Mem.get_write_outside _ _ _ _ (h ▸ ha)

theorem LineIn.congr {head n : Nat} {l : List Byte} {p : Bool} {x y z : Tile} (h : LineIn head n l p x y) (hpad : z.pad = y.pad)
    (hpoison : z.padPoison = y.padPoison) : LineIn head n l p x z := by
  unfold LineIn
  rw [hpad, hpoison]
  exact h

/-- A line that has landed stays while its Waybill is written. -/
theorem LineIn.waybill {x y : Tile} {head n task line : Nat} {l w : List Byte} {p : Bool} (h : LineIn head n l p x y)
    (hhead : (y.task task).padLine line = head) (hn : n ≠ head) (hw : w.length = 64) :
    LineIn head n l p x (y.putLine task line w false) := by
  obtain ⟨hread, hpoison, hrest⟩ := h
  have outside (a : Nat) (ha : a < 64 * head ∨ 64 * head + 64 ≤ a) : (y.putLine task line w false).pad.get a = y.pad.get a := by
    rw [Tile.putLine_pad, Task.padAddr_line, hhead]
    exact Mem.get_write_outside _ _ _ _ (hw ▸ ha)
  refine ⟨?_, ?_, fun a ha hline => (outside a ha).trans (hrest a ha hline)⟩
  · rw [← hread]
    exact Mem.read_congr _ _ _ _ fun a _ _ => outside a (by omega)
  · rw [Tile.putLine_padPoison _ _ _ _ hw, mem_setMember, hhead, if_neg hn, hpoison]

/-! ### The next line of a message -/

/-- A destination once its next line has come: the last one delivers the message (R168). -/
def MsgDest.took (lines i : Nat) (d : MsgDest) : MsgDest :=
  { d with written := i + 1, stage := if i + 1 = lines then .delivered else .sending }

/-- The state once a line has travelled and its destination has counted it. -/
def State.lineTaken (s : State) (c msg dest : Nat) (m : Msg) (d : MsgDest) : State :=
  (s.travel c m false 1 (s.pathTo m dest d.written)).1.mapMsg c msg fun m' => m'.mapDest dest fun d' => d'.took m'.lines d.written

/-- The next contributor's message with a partial's line in it, and its tile, whose flag notes a value that combining made (R172). -/
def State.lineChained (s : State) (c dest : Nat) (m : Msg) (d : MsgDest) (n : Msg) : State :=
  let line := m.payload.getD d.written ([], false)
  let made := n.own && (combineLine n.entry.mode.toNat line.1 (n.payload.getD d.written ([], false)).1).2
  (s.mapMsg c n.id fun _ => n.takePartial d.written line m.nonfinite).setTile dest ((s.tile dest).noteNonfinite made)

/-- The sink's tile with a line written after its Waybill (R174). -/
def State.lineRinged (s : State) (dest : Nat) (m : Msg) (d : MsgDest) : State :=
  let line := m.payload.getD d.written ([], false)
  let x := s.tile dest
  let y := x.putLine (x.ringTask m.entry.destCh) (d.line + 1 + d.written) (fitBytes 64 line.1) line.2
  s.setTile dest (y.useLines 4 0 0 [(x.task (x.ringTask m.entry.destCh)).spBase + d.line + 1 + d.written]).1

section
variable {s : State} {c : Fin 8} {msg dest : Nat} {m : Msg} {d : MsgDest}

theorem State.travelled_inJob (s : State) (c : Nat) (m : Msg) (control : Bool) (part : Nat) (path : List (Nat × Nat × Nat)) :
    InJob c s (s.travel c m control part path).1 := (s.travel_travelled c m control part path).1

theorem State.lineTaken_inJob (s : State) (c msg dest : Nat) (m : Msg) (d : MsgDest) : InJob c s (s.lineTaken c msg dest m d) :=
  InJob.trans (s.travelled_inJob _ _ _ _ _) (State.mapMsg_inJob _ _ _ _)

theorem State.lineTaken_recordsOnly (s : State) (c msg dest : Nat) (m : Msg) (d : MsgDest) :
    RecordsOnly s (s.lineTaken c msg dest m d) := by
  obtain ⟨-, records, -, -⟩ := s.travel_travelled c m false 1 (s.pathTo m dest d.written)
  exact records

theorem State.lineTaken_descs (s : State) (c msg dest : Nat) (m : Msg) (d : MsgDest) :
    (s.lineTaken c msg dest m d).descs = s.descs := by
  obtain ⟨-, -, descs, -⟩ := s.travel_travelled c m false 1 (s.pathTo m dest d.written)
  exact descs

theorem State.lineTaken_msg (h : (s.job c.val).msg msg = some m) :
    ((s.lineTaken c.val msg dest m d).job c.val).msg msg = some (m.mapDest dest fun d' => d'.took m.lines d.written) := by
  obtain ⟨-, -, -, msgs⟩ := s.travel_travelled c.val m false 1 (s.pathTo m dest d.written)
  rw [State.lineTaken, State.mapMsg_job]
  refine Job.msg_mapMsg_same (fun _ hm => hm) ?_
  rw [Job.msg, msgs]
  exact h

theorem State.lineTaken_msg_other {k : Nat} (hk : k ≠ msg) :
    ((s.lineTaken c.val msg dest m d).job c.val).msg k = (s.job c.val).msg k := by
  obtain ⟨-, -, -, msgs⟩ := s.travel_travelled c.val m false 1 (s.pathTo m dest d.written)
  rw [State.lineTaken, State.mapMsg_job]
  refine (Job.msg_mapMsg_other (by intro _ hm; exact hm) hk).trans ?_
  rw [Job.msg, msgs, Job.msg]

theorem destOf_of_msg {t : State} (h : (t.job c.val).msg msg = some (m.mapDest dest fun d' => d'.took m.lines d.written))
    (hd : m.at_ dest = some d) : destOf t c.val msg dest = some (d.took m.lines d.written) := by
  rw [destOf, h]
  exact Msg.at_mapDest (fun _ => rfl) hd

end

/-- The state once a line has come to its destination: in the next contributor's message, in the ring, at a gate, or with the
descriptor of an Ostler point. -/
def State.lineMoved (s : State) (c msg dest : Nat) (m : Msg) (d : MsgDest) : State :=
  let s1 := s.lineTaken c msg dest m d
  if m.chains then
    match (s.job c).msgs.find? fun n => n.pred == some msg && n.source == dest with
    | some n => s1.lineChained c dest m d n
    | none => s1
  else
    match m.entry.point.toNat with
    | 0 => if (s1.tile dest).recorded then s1.lineRinged dest m d else s1
    | 1 => s1
    | _ => match s1.boundDesc c dest m.entry.destCh with
      | some q => s1.mapDesc q.id fun q => { q with lines := q.lines ++ [m.payload.getD d.written ([], false)] }
      | none => s1

/-- The state after a line: the last one ends the message at its destination. -/
def State.lineArrived (s : State) (c msg dest : Nat) (m : Msg) (d : MsgDest) : State :=
  if d.written + 1 = m.lines then (s.lineMoved c msg dest m d).delivered c m d else s.lineMoved c msg dest m d

section
variable {s : State} {c : Fin 8} {msg dest : Nat} {m : Msg} {d : MsgDest}

/-- A line that is ready and gets its links arrives. -/
theorem exec_payloadLineArrive (hmoves : (s.job c.val).moves = true) (hmsg : (s.job c.val).msg msg = some m)
    (hat : m.at_ dest = some d) (hstage : d.stage = .sending) (hleft : d.written < m.lines)
    (hready : (s.job c.val).lineReady m d.written = true) (hgets : Gets s c.val m false 1 (s.pathTo m dest d.written)) :
    exec (.payloadLineArrive c msg dest) s = .next (s.lineArrived c.val msg dest m d) := by
  have unrefused : (!(s.job c.val).moves || d.stage != .sending || !(s.job c.val).lineReady m d.written ||
      decide (m.lines ≤ d.written)) = false := by
    simp [hmoves, hstage, hready, hleft]
  show execPayloadLineArrive c msg dest s = _
  unfold execPayloadLineArrive
  dsimp only
  rw [hmsg]
  dsimp only
  rw [hat]
  dsimp only
  rw [if_neg (by simp [unrefused]), hgets]
  rfl

/-- A line of a message that some destination has refused stays (R168). -/
theorem exec_payloadLineArrive_refused (hmsg : (s.job c.val).msg msg = some m) (hat : m.at_ dest = some d)
    (h : ∃ x ∈ m.dests, x.stage = .refused) : exec (.payloadLineArrive c msg dest) s = .next s := by
  obtain ⟨x, hx, hrefused⟩ := h
  have unready : (s.job c.val).lineReady m d.written = false := by
    rw [Job.lineReady, Bool.and_eq_false_iff, List.all_eq_false]
    exact .inl ⟨x, hx, by simp [hrefused]⟩
  show execPayloadLineArrive c msg dest s = _
  simp [execPayloadLineArrive, hmsg, hat, unready]

/-! ### Each kind of destination -/

theorem State.lineMoved_chain {n : Msg} (hchain : m.chains = true)
    (hn : (s.job c.val).msgs.find? (fun n => n.pred == some msg && n.source == dest) = some n) :
    s.lineMoved c.val msg dest m d = (s.lineTaken c.val msg dest m d).lineChained c.val dest m d n := by
  rw [State.lineMoved, if_pos hchain, hn]

theorem State.lineMoved_ring (hpoint : m.entry.point = 0) (hchain : m.chains = false)
    (hrec : ((s.lineTaken c.val msg dest m d).tile dest).recorded = true) :
    s.lineMoved c.val msg dest m d = (s.lineTaken c.val msg dest m d).lineRinged dest m d := by
  simp [State.lineMoved, hpoint, hchain, hrec]

theorem State.lineMoved_gate (hpoint : m.entry.point = 1) (hchain : m.chains = false) :
    s.lineMoved c.val msg dest m d = s.lineTaken c.val msg dest m d := by
  simp [State.lineMoved, hpoint, hchain]

theorem State.lineMoved_ostler {q : Desc} (hpoint : m.entry.point = 2) (hchain : m.chains = false)
    (hq : s.boundDesc c.val dest m.entry.destCh = some q) :
    s.lineMoved c.val msg dest m d = (s.lineTaken c.val msg dest m d).mapDesc q.id
      fun q => { q with lines := q.lines ++ [m.payload.getD d.written ([], false)] } := by
  have bound : (s.lineTaken c.val msg dest m d).boundDesc c.val dest m.entry.destCh = some q := by
    rw [State.boundDesc, State.lineTaken_descs]
    exact hq
  simp [State.lineMoved, hpoint, hchain, bound]

theorem State.delivered_chain (t : State) (d : MsgDest) (hpoint : m.entry.point = 0) (hchain : m.chains = true) :
    t.delivered c.val m d = t := by
  simp [State.delivered, hpoint, hchain]

theorem State.delivered_ring (t : State) (d : MsgDest) (hpoint : m.entry.point = 0) (hchain : m.chains = false)
    (hrec : (t.tile d.dest).recorded = true) :
    t.delivered c.val m d = t.setTile d.dest (((t.tile d.dest).putLine ((t.tile d.dest).ringTask m.entry.destCh) d.line
      (m.waybill c.val d.dest d.overflow).line false).noteNonfinite m.nonfinite) := by
  simp [State.delivered, hpoint, hchain, hrec]

theorem State.delivered_gate (t : State) (d : MsgDest) (hpoint : m.entry.point = 1) : t.delivered c.val m d = t := by
  simp [State.delivered, hpoint]

theorem State.delivered_ostler (t : State) (d : MsgDest) (hpoint : m.entry.point = 2) :
    t.delivered c.val m d = t.noteJob c.val m.nonfinite := by
  simp [State.delivered, hpoint]

end

/-- A job's NONFINITE flag is the job's alone. -/
theorem State.noteJob_keeps (s : State) (c : Nat) (b : Bool) :
    InJob c s (s.noteJob c b) ∧ (s.noteJob c b).tiles = s.tiles ∧ (s.noteJob c b).descs = s.descs ∧
      ((s.noteJob c b).job c).msgs = (s.job c).msgs := by
  unfold State.noteJob
  split
  · exact ⟨s.setJob_inJob _ _, rfl, rfl, by rw [State.job_setJob_same]⟩
  · exact ⟨InJob.refl c s, rfl, rfl, rfl⟩

/-! ### Arrival -/

/-- The two states differ in one tile at most. -/
def SinkOnly (u : Nat) (s t : State) : Prop := ∃ tiles, t = { s with tiles := tiles } ∧ ∀ v, v ≠ u → t.tile v = s.tile v

theorem State.setTile_sinkOnly (s : State) (u : Nat) (x : Tile) : SinkOnly u s (s.setTile u x) :=
  ⟨_, rfl, fun _ hv => State.tile_setTile_other _ _ hv⟩

theorem SinkOnly.trans {u : Nat} {s t v : State} (h : SinkOnly u s t) (k : SinkOnly u t v) : SinkOnly u s v := by
  obtain ⟨_, rfl, tiles⟩ := h
  obtain ⟨_, rfl, tiles'⟩ := k
  exact ⟨_, rfl, fun w hw => (tiles' w hw).trans (tiles w hw)⟩

theorem SinkOnly.jobs {u : Nat} {s t : State} (h : SinkOnly u s t) : t.jobs = s.jobs := by
  obtain ⟨_, rfl, -⟩ := h
  rfl

theorem SinkOnly.inJob {u : Nat} {s t : State} (c : Nat) (h : SinkOnly u s t) : InJob c s t := by
  obtain ⟨_, rfl, -⟩ := h
  exact ⟨rfl, rfl, rfl, rfl, rfl, rfl, fun _ _ => rfl⟩

theorem RecordsOnly.padSame {s t : State} (h : RecordsOnly s t) (u : Nat) : PadSame u s t := by
  obtain ⟨_, _, h⟩ := h u
  rw [PadSame, h]
  exact ⟨rfl, rfl⟩

section
variable {s : State} {c : Fin 8} {msg dest : Nat} {m : Msg} {d : MsgDest}

/-- At a ring's tile the line lands after its Waybill, and the tile's tasks and tables stay (R174). -/
theorem State.lineMoved_lineIn (hpoint : m.entry.point = 0) (hchain : m.chains = false)
    (hrec : (s.tile dest).recorded = true) (hwf : Memory.wf (s.tile dest).pad = true) :
    let k := (s.tile dest).task ((s.tile dest).ringTask m.entry.destCh)
    let line := m.payload.getD d.written ([], false)
    let t := s.lineMoved c.val msg dest m d
    SinkOnly dest (s.lineTaken c.val msg dest m d) t ∧
      LineIn (k.padLine d.line) (k.padLine (d.line + 1 + d.written)) (fitBytes 64 line.1) line.2 (s.tile dest) (t.tile dest) ∧
      (t.tile dest).task ((t.tile dest).ringTask m.entry.destCh) = k ∧ (t.tile dest).recorded = true := by
  intro k line t
  obtain ⟨records, extra, htaken⟩ := s.lineTaken_recordsOnly c.val msg dest m d dest
  have hmoved : t = _ := State.lineMoved_ring hpoint hchain (by rw [htaken]; exact hrec)
  obtain ⟨banks, waits, contracts, over_, hring⟩ : BanksOnly _ (t.tile dest) := by
    rw [hmoved, State.lineRinged, State.tile_setTile_same, htaken]
    exact Tile.useLines_banksOnly _ _ _ _ _
  have landed := Tile.putLine_lineIn hwf (k.padLine d.line) ((s.tile dest).ringTask m.entry.destCh) (d.line + 1 + d.written)
    line.2 (fitBytes_length 64 line.1)
  refine ⟨?_, landed.congr ?_ ?_, ?_, ?_⟩
  · rw [hmoved]
    exact State.setTile_sinkOnly _ _ _
  · rw [hring]; rfl
  · rw [hring]; rfl
  · rw [hring]; rfl
  · rw [hring]; exact hrec

/-- The last line rewrites the Waybill, and nothing else of the scratchpads (R176). -/
theorem State.lineArrived_ring (hpoint : m.entry.point = 0) (hchain : m.chains = false) (hat : m.at_ dest = some d)
    (hrec : (s.tile dest).recorded = true) (hwf : Memory.wf (s.tile dest).pad = true) :
    let k := (s.tile dest).task ((s.tile dest).ringTask m.entry.destCh)
    let line := m.payload.getD d.written ([], false)
    SinkOnly dest (s.lineTaken c.val msg dest m d) (s.lineArrived c.val msg dest m d) ∧
      LineIn (k.padLine d.line) (k.padLine (d.line + 1 + d.written)) (fitBytes 64 line.1) line.2 (s.tile dest)
        ((s.lineArrived c.val msg dest m d).tile dest) := by
  intro k line
  obtain ⟨moved, landed, htask, hrecorded⟩ := State.lineMoved_lineIn (c := c) (msg := msg) (d := d) hpoint hchain hrec hwf
  unfold State.lineArrived
  split
  · have hdest := Msg.dest_of_at hat
    rw [State.delivered_ring _ _ hpoint hchain (by rw [hdest]; exact hrecorded), hdest]
    refine ⟨moved.trans (State.setTile_sinkOnly _ _ _), ?_⟩
    rw [State.tile_setTile_same]
    have apart : k.padLine (d.line + 1 + d.written) ≠ k.padLine d.line := by
      simp only [Task.padLine]
      omega
    have rewritten := landed.waybill (congrArg (Task.padLine · d.line) htask) apart
      (Waybill.line_length (m.waybill c.val dest d.overflow))
    exact rewritten.congr (Tile.noteNonfinite_pad _ _) (Tile.noteNonfinite_padPoison _ _)
  · exact ⟨moved, landed⟩

/-- At a gate point nothing but the message's own state changes. -/
theorem State.lineArrived_gate (hpoint : m.entry.point = 1) (hchain : m.chains = false) :
    s.lineArrived c.val msg dest m d = s.lineTaken c.val msg dest m d := by
  rw [State.lineArrived, State.delivered_gate _ _ hpoint, ite_self, State.lineMoved_gate hpoint hchain]

/-- A chain's line is in the next contributor's message at once. -/
theorem State.lineArrived_chain {n : Msg} (hpoint : m.entry.point = 0) (hchain : m.chains = true)
    (hn : (s.job c.val).msgs.find? (fun n => n.pred == some msg && n.source == dest) = some n) :
    s.lineArrived c.val msg dest m d = (s.lineTaken c.val msg dest m d).lineChained c.val dest m d n := by
  rw [State.lineArrived, State.delivered_chain _ _ hpoint hchain, ite_self, State.lineMoved_chain hchain hn]

/-- At an Ostler point the line is the bound descriptor's, and the last one notes the job's flag. -/
theorem State.lineArrived_ostler {q : Desc} (hpoint : m.entry.point = 2) (hchain : m.chains = false)
    (hq : s.boundDesc c.val dest m.entry.destCh = some q) (hdesc : s.desc q.id = some q) :
    let t := s.lineArrived c.val msg dest m d
    InJob c.val (s.lineTaken c.val msg dest m d) t ∧ t.tiles = (s.lineTaken c.val msg dest m d).tiles ∧
      (t.job c.val).msgs = ((s.lineTaken c.val msg dest m d).job c.val).msgs ∧
      t.desc q.id = some { q with lines := q.lines ++ [m.payload.getD d.written ([], false)] } := by
  intro t
  have htaken : (s.lineTaken c.val msg dest m d).desc q.id = some q := by
    rw [State.desc, State.lineTaken_descs]
    exact hdesc
  have hmoved := State.desc_mapDesc (f := fun q => { q with lines := q.lines ++ [m.payload.getD d.written ([], false)] })
    (fun _ => rfl) htaken
  unfold t State.lineArrived
  rw [State.delivered_ostler _ _ hpoint, State.lineMoved_ostler hpoint hchain hq]
  split
  · obtain ⟨inJob, tiles, descs, msgs⟩ := State.noteJob_keeps ((s.lineTaken c.val msg dest m d).mapDesc q.id
      fun q => { q with lines := q.lines ++ [m.payload.getD d.written ([], false)] }) c.val m.nonfinite
    refine ⟨InJob.trans (State.mapDesc_inJob _ _ _ _) inJob, tiles, msgs, ?_⟩
    rw [State.desc, descs]
    exact hmoved
  · exact ⟨State.mapDesc_inJob _ _ _ _, State.mapDesc_tiles _ _ _, congrArg Job.msgs (State.mapDesc_job _ _ _ _), hmoved⟩

end

/-- A chain's line changes no scratchpad. -/
theorem State.lineChained_padSame (s : State) (c dest : Nat) (m : Msg) (d : MsgDest) (n : Msg) (u : Nat) :
    PadSame u s (s.lineChained c dest m d n) := by
  unfold PadSame State.lineChained
  rw [State.tile_setTile]
  split
  · next h => rw [h]; exact ⟨rfl, rfl⟩
  · exact ⟨rfl, rfl⟩

/-- A partial's line takes its own place in the message that combines it (R172). -/
theorem Msg.takePartial_payload (n : Msg) (i : Nat) (line : List Byte × Bool) (nf : Bool) :
    (n.takePartial i line nf).payload = n.payload.set i (if n.own then
      ((combineLine n.entry.mode.toNat line.1 (n.payload.getD i ([], false)).1).1, line.2 || (n.payload.getD i ([], false)).2)
      else line) := by
  unfold Msg.takePartial
  split <;> rfl

theorem Msg.takePartial_id (n : Msg) (i : Nat) (line : List Byte × Bool) (nf : Bool) : (n.takePartial i line nf).id = n.id := by
  unfold Msg.takePartial
  split <;> rfl

end Sys2Proof.Machine

namespace Sys2Proof
open Sys2Proof.Machine Sys2Proof.Claims

/-- Settles O21: the line's arrival at each kind of destination; a refused destination holds it back. -/
theorem payloadLinesLand : Obligations.PayloadLinesLand := by
  unfold Obligations.PayloadLinesLand
  intro s c msg dest m d hmoves hmsg hat hstage hleft
  refine ⟨fun hready hgets => ?_, exec_payloadLineArrive_refused hmsg hat⟩
  have hexec := exec_payloadLineArrive hmoves hmsg hat hstage hleft hready hgets
  have records := s.lineTaken_recordsOnly c.val msg dest m d
  have inJob := s.lineTaken_inJob c.val msg dest m d
  have taken := State.lineTaken_msg (dest := dest) (d := d) hmsg
  refine ⟨fun hpoint hchain hrec hwf => ?_, fun q hpoint hchain hq hdesc => ?_, fun hpoint hchain => ?_,
    fun n hpoint hchain hid hn hlt hnext => ?_⟩
  -- A ring (R174).
  · obtain ⟨sink, hread, hpoison, hrest⟩ := State.lineArrived_ring (c := c) (msg := msg) hpoint hchain hat hrec hwf
    have hmsg' : ((s.lineArrived c.val msg dest m d).job c.val).msg msg =
        some (m.mapDest dest fun d' => d'.took m.lines d.written) := by
      rw [State.job, sink.jobs]
      exact taken
    simp only [Task.padAddr_line, Nat.mul_div_cancel_left _ (Nat.zero_lt_succ 63)]
    refine ⟨_, _, hexec, InJob.trans inJob (sink.inJob c.val), destOf_of_msg hmsg' hat, rfl, ?_, ?_, hread, hpoison, hrest,
      fun u hu => ?_⟩
    · simp [MsgDest.took]
    · simp [MsgDest.took]
    · obtain ⟨-, -, hother⟩ := sink
      rw [PadSame, hother u hu]
      exact records.padSame u
  -- An Ostler point (R271).
  · obtain ⟨frame, tiles, msgs, hdesc'⟩ := State.lineArrived_ostler (msg := msg) (d := d) hpoint hchain hq hdesc
    have all := InJob.trans inJob frame
    obtain ⟨mem, -⟩ := all
    refine ⟨_, _, hexec, fun u => ?_, mem, destOf_of_msg (by rw [Job.msg, msgs]; exact taken) hat, rfl, hdesc'⟩
    rw [PadSame, State.tile, tiles]
    exact records.padSame u
  -- A gate point.
  · have harrived := State.lineArrived_gate (s := s) (c := c) (msg := msg) (dest := dest) (d := d) hpoint hchain
    rw [harrived] at hexec
    exact ⟨_, _, hexec, inJob, records.padSame, destOf_of_msg taken hat, rfl⟩
  -- The next contributor of a chain (R172).
  · rw [State.lineArrived_chain hpoint hchain hnext] at hexec
    have own : ((s.lineTaken c.val msg dest m d).job c.val).msg n.id = some n := (State.lineTaken_msg_other hid).trans hn
    refine ⟨_, n.takePartial d.written (m.payload.getD d.written ([], false)) m.nonfinite, hexec,
      InJob.trans inJob (InJob.trans (State.mapMsg_inJob _ _ _ _) (State.setTile_inJob _ _ _ _)), fun u => ?_, ?_, ?_,
      fun k hk => ?_⟩
    · obtain ⟨pad, poison⟩ := State.lineChained_padSame (s.lineTaken c.val msg dest m d) c.val dest m d n u
      obtain ⟨pad', poison'⟩ := records.padSame u
      exact ⟨pad.trans pad', poison.trans poison'⟩
    · rw [State.lineChained, State.setTile_job, State.mapMsg_job]
      exact Job.msg_mapMsg_same (by intro _ _; exact n.takePartial_id _ _ _) own
    · rw [Msg.takePartial_payload, List.getElem?_set_self hlt]
    · rw [Msg.takePartial_payload, List.getElem?_set_ne (Ne.symm hk)]

end Sys2Proof
end

section
/-! What an engine's access to job memory leaves, and what a failed one stops (R212 to R217, R229 to R232, R237, R603): the
controllers' reads and writes change memory, what the Porter copies before them, the health records and the host interface alone. -/

namespace Sys2Proof.Machine
open Sys2Proof.Claims

/-- The two states differ in memory, the Porters, the health records and the host interface at most. -/
def MemoryOnly (s t : State) : Prop :=
  ∃ mem porters health host, t = { s with mem := mem, porters := porters, health := health, host := host }

theorem MemoryOnly.refl (s : State) : MemoryOnly s s := ⟨_, _, _, _, rfl⟩

theorem MemoryOnly.trans {s t u : State} (h : MemoryOnly s t) (k : MemoryOnly t u) : MemoryOnly s u := by
  obtain ⟨_, _, _, _, rfl⟩ := h
  obtain ⟨_, _, _, _, rfl⟩ := k
  exact ⟨_, _, _, _, rfl⟩

theorem MemoryOnly.ite {s t u : State} {p : Prop} [Decidable p] (h : MemoryOnly s t) (k : MemoryOnly s u) :
    MemoryOnly s (if p then t else u) := by
  split
  · exact h
  · exact k

theorem HostOnly.memoryOnly {s t : State} (h : HostOnly s t) : MemoryOnly s t := by
  obtain ⟨_, rfl⟩ := h
  exact ⟨_, _, _, _, rfl⟩

/-- A change that keeps to memory in every step keeps to it over a list. -/
theorem MemoryOnly.foldl {α : Type} {f : State → α → State} (h : ∀ s a, MemoryOnly s (f s a)) (l : List α) (s : State) :
    MemoryOnly s (l.foldl f s) :=
  List.foldlRecOn l f (motive := MemoryOnly s) (MemoryOnly.refl s) fun t ht a _ => ht.trans (h t a)

theorem State.setStack_memoryOnly (s : State) (m : Nat) (x : Stack) : MemoryOnly s (s.setStack m x) := ⟨_, _, _, _, rfl⟩
theorem State.setPorter_memoryOnly (s : State) (c : Nat) (x : Porter) : MemoryOnly s (s.setPorter c x) := ⟨_, _, _, _, rfl⟩
theorem State.setMem_memoryOnly (s : State) (m : Memory) : MemoryOnly s { s with mem := m } := ⟨_, _, _, _, rfl⟩
theorem State.bankOver_memoryOnly (s : State) (m b : Nat) : MemoryOnly s (s.bankOver m b) := ⟨_, _, _, _, rfl⟩
theorem State.storeLine_memoryOnly (s : State) (line : Nat) (l : List Byte) : MemoryOnly s (s.storeLine line l) := ⟨_, _, _, _, rfl⟩

theorem State.event_memoryOnly (s : State) (code : BitVec 16) (kind : BitVec 4) (ctx src a b : Nat) :
    MemoryOnly s (s.event code kind ctx src a b) := (s.event_hostOnly code kind ctx src a b).memoryOnly

/-! ### Reads (R212 to R214) -/

theorem State.countCorrected_memoryOnly (s : State) (pa : Nat) : MemoryOnly s (s.countCorrected pa) := by
  unfold State.countCorrected
  extract_lets m b k l hit s1
  have counted : MemoryOnly s s1 := s.setStack_memoryOnly _ _
  exact .ite ((counted.trans (State.event_memoryOnly _ _ _ _ _ _ _)).trans (State.bankOver_memoryOnly _ _ _)) counted

theorem State.countUncorrectable_memoryOnly (s : State) (line : Nat) : MemoryOnly s (s.countUncorrectable line) :=
  (s.setStack_memoryOnly _ _).trans (State.event_memoryOnly _ _ _ _ _ _ _)

theorem State.applyInjection_memoryOnly (s : State) (line : Nat) : MemoryOnly s (s.applyInjection line) :=
  .ite (.ite (s.setMem_memoryOnly _) (.ite (s.setMem_memoryOnly _) (s.setMem_memoryOnly _))) (MemoryOnly.refl s)

theorem State.readLine_memoryOnly (s : State) (line : Nat) : MemoryOnly s (s.readLine line).1 := by
  unfold State.readLine
  extract_lets errs mark poisoned d0 d1 bad keep data written left s1 s2 sK mK s3 s4
  split
  · exact MemoryOnly.refl s
  · have first : MemoryOnly s s1 := .ite (s.countCorrected_memoryOnly _) (MemoryOnly.refl s)
    have second : MemoryOnly s s2 := first.trans (.ite (s1.countCorrected_memoryOnly _) (MemoryOnly.refl s1))
    have kept : MemoryOnly s sK := second.trans (.ite (MemoryOnly.refl s2) (s2.storeLine_memoryOnly _ _))
    have marked : MemoryOnly s s3 := kept.trans (sK.setMem_memoryOnly _)
    have written : MemoryOnly s s4 := marked.trans (.ite (s3.applyInjection_memoryOnly _) (MemoryOnly.refl s3))
    exact written.trans (.ite (s4.countUncorrectable_memoryOnly _) (MemoryOnly.refl s4))

theorem State.demand_memoryOnly (s : State) (pa n : Nat) : MemoryOnly s (s.demand pa n) :=
  MemoryOnly.foldl (f := fun (t : State) (e : Nat × List (Nat × Byte)) => (t.readLine e.1).1)
    (fun t e => t.readLine_memoryOnly e.1) _ s

theorem State.demandFrom_memoryOnly (s : State) (c va table level n : Nat) : MemoryOnly s (s.demandFrom c va table level n) := by
  induction n generalizing s table level with
  | zero => exact MemoryOnly.refl s
  | succ n ih =>
    have read := s.demand_memoryOnly (table + 8 * vaIndex va level) 8
    exact .ite (read.trans (ih _ _ _)) read

theorem State.demandWalks_memoryOnly (s : State) (c va n k : Nat) : MemoryOnly s (s.demandWalks c va n k) := by
  induction k generalizing s va n with
  | zero => exact MemoryOnly.refl s
  | succ k ih => exact .ite (MemoryOnly.refl s) ((s.demandFrom_memoryOnly _ _ _ _ _).trans (ih _ _ _))

theorem State.vdemand_memoryOnly (s : State) (c va n : Nat) : MemoryOnly s (s.vdemand c va n) :=
  .ite (MemoryOnly.refl s) ((s.demandWalks_memoryOnly _ _ _ _).trans
    (MemoryOnly.foldl (f := fun (t : State) (p : Nat × Nat) => t.demand p.1 p.2) (fun t p => t.demand_memoryOnly p.1 p.2) _ _))

/-- With no symbol in error a read changes nothing. -/
theorem State.vdemand_clean {s : State} (h : s.mem.errors = []) (c va n : Nat) : s.vdemand c va n = s := by
  rw [State.vdemand, if_pos h]

/-! ### Writes (R216, R217, R518) -/

theorem State.copyBefore_memoryOnly (s : State) (frame : Nat) : MemoryOnly s (s.copyBefore frame) := by
  refine MemoryOnly.foldl (fun t c => ?_) _ s
  dsimp only
  split
  · exact .ite ((t.demand_memoryOnly _ _).trans (State.setPorter_memoryOnly _ _ _)) (MemoryOnly.refl t)
  · exact MemoryOnly.refl t

theorem State.markDirty_memoryOnly (s : State) (frame : Nat) : MemoryOnly s (s.markDirty frame) :=
  .ite (MemoryOnly.refl s) (s.setMem_memoryOnly _)

theorem State.putLine_memoryOnly (s : State) (line : Nat) (whole : Bool) (merge : List Byte → List Byte) (poison : Bool) :
    MemoryOnly s (s.putLine line whole merge poison) := by
  unfold State.putLine
  extract_lets s0 s1 m1 s2
  have copied : MemoryOnly s s0 := (s.copyBefore_memoryOnly _).trans (State.markDirty_memoryOnly _ _)
  have read : MemoryOnly s s1 := copied.trans (.ite (MemoryOnly.refl s0) (s0.readLine_memoryOnly _))
  exact (read.trans (s1.setMem_memoryOnly _)).trans (s2.applyInjection_memoryOnly _)

theorem State.writeSpan_memoryOnly (s : State) (pa : Nat) (data : List Byte) (poison : Bool) (n : Nat) :
    MemoryOnly s (s.writeSpan pa data poison n) := by
  induction n generalizing s pa data with
  | zero => exact MemoryOnly.refl s
  | succ n ih => exact .ite (MemoryOnly.refl s) ((s.putLine_memoryOnly _ _ _ _).trans (ih _ _ _))

theorem State.writePages_memoryOnly (s : State) (data : List Byte) (poison : Bool) (pages : List (Nat × Nat)) :
    MemoryOnly s (s.writePages data poison pages) := by
  induction pages generalizing s data with
  | nil => exact MemoryOnly.refl s
  | cons p ps ih => exact (s.writeSpan_memoryOnly _ _ _ _).trans (ih _ _)

theorem State.vwrite_memoryOnly (s : State) (c va : Nat) (data : List Byte) (poison : Bool) :
    MemoryOnly s (s.vwrite c va data poison).1 := by
  have walked := s.demandWalks_memoryOnly c va data.length (data.length / 65536 + 2)
  unfold State.vwrite
  dsimp only
  split <;> exact walked.trans (State.writePages_memoryOnly _ _ _ _)

/-- A write whose pages translate is whole. -/
theorem State.vwrite_fine {s : State} {c va n pa : Nat} {data : List Byte} (poison : Bool) (hn : data.length = n)
    (h : (s.pages c va n true).1 = .ok pa) : (s.vwrite c va data poison).2 = none := by
  subst hn
  unfold State.vwrite
  dsimp only
  split
  · rfl
  · next hfail => rw [hfail] at h; cases h
  · next hfail => rw [hfail] at h; cases h

theorem State.scaleUpdate_memoryOnly (s : State) (c tensor : Nat) (f : ScaleEntry → ScaleEntry) :
    MemoryOnly s (s.scaleUpdate c tensor f).1 := by
  have read := s.vdemand_memoryOnly c (s.scaleVA c tensor) 128
  unfold State.scaleUpdate
  dsimp only
  split
  · exact read
  · exact read.trans (State.vwrite_memoryOnly _ _ _ _ _)

/-! ### A failed access (R220, R232, R603) -/

/-- A job but for what its stop changes. -/
def Job.unstopped (j : Job) : Job := { j with phase := .empty, stop := false, msgs := [], step := none, waitingSteps := [] }

/-- From the first state to the second the tiles and the ports stay, the job of `c` is stopped or told to stop at most, and every other
job stays. -/
def StopsOnly (c : Nat) (s t : State) : Prop :=
  t.tiles = s.tiles ∧ t.ports = s.ports ∧ (∀ d, d ≠ c → t.job d = s.job d) ∧ (t.job c).unstopped = (s.job c).unstopped

theorem StopsOnly.refl (c : Nat) (s : State) : StopsOnly c s s := ⟨rfl, rfl, fun _ _ => rfl, rfl⟩

theorem StopsOnly.trans {c : Nat} {s t u : State} (h : StopsOnly c s t) (k : StopsOnly c t u) : StopsOnly c s u := by
  obtain ⟨tiles, ports, others, own⟩ := h
  obtain ⟨tiles', ports', others', own'⟩ := k
  exact ⟨tiles'.trans tiles, ports'.trans ports, fun d hd => (others' d hd).trans (others d hd), own'.trans own⟩

theorem MemoryOnly.stopsOnly {s t : State} (c : Nat) (h : MemoryOnly s t) : StopsOnly c s t := by
  obtain ⟨_, _, _, _, rfl⟩ := h
  exact StopsOnly.refl c s

theorem State.setJob_stopsOnly {s : State} {c : Nat} {j : Job} (h : j.unstopped = (s.job c).unstopped) : StopsOnly c s (s.setJob c j) :=
  ⟨rfl, rfl, fun _ hd => State.job_setJob_other _ _ hd, by rw [State.job_setJob_same, h]⟩

/-- Abandoning a job's work changes no job's record, no tile and no port. -/
theorem State.abandon_stopsOnly (s : State) (c : Nat) : StopsOnly c s (s.abandon c) := by
  unfold State.abandon
  extract_lets gone s1 p p1 q1 s2
  have parts : StopsOnly c s s2 := StopsOnly.refl c s
  exact parts.trans (MemoryOnly.stopsOnly c
    ((abandonRings_hostOnly s2 c (List.range 64)).trans (abandonSteps_hostOnly _ c (List.range 64))).memoryOnly)

theorem State.stopNow_stopsOnly (s : State) (c : Nat) : StopsOnly c s (s.stopNow c) :=
  (s.abandon_stopsOnly c).trans (State.setJob_stopsOnly rfl)

theorem State.stopAtCurfew_stopsOnly (s : State) (c : Nat) : StopsOnly c s (s.stopAtCurfew c) := by
  unfold State.stopAtCurfew
  dsimp only
  split
  · exact s.stopNow_stopsOnly c
  · exact s.stopNow_stopsOnly c
  · exact State.setJob_stopsOnly rfl
  · exact State.setJob_stopsOnly rfl
  · exact StopsOnly.refl c s

theorem State.engineStop_stopsOnly (s : State) (c : Nat) (kind : BitVec 4) (unit ref : Nat) (why : Stop) :
    StopsOnly c s (s.engineStop c kind unit ref why) := by
  have told : MemoryOnly s (s.stopEvent c kind unit ref why) := by
    cases why with
    | page code va => exact s.event_memoryOnly _ _ _ _ _ _
    | poison addr => exact s.event_memoryOnly _ _ _ _ _ _
  exact (told.stopsOnly c).trans (State.stopAtCurfew_stopsOnly _ c)

/-- The Step Engine's change of an entry leaves the tiles and the ports, and of the jobs' records changes what a stop of its job does. -/
theorem State.scaleStep_stopsOnly (s : State) (c tensor : Nat) (f : ScaleEntry → ScaleEntry) :
    StopsOnly c s (s.scaleStep c tensor f) := by
  have access := (s.scaleUpdate_memoryOnly c tensor f).stopsOnly c
  unfold State.scaleStep
  split
  · next s1 h => rwa [h] at access
  · next s1 e h =>
    rw [h] at access
    exact access.trans (State.engineStop_stopsOnly _ _ _ _ _ _)

theorem State.scaleStep_fine {s s1 : State} {c tensor : Nat} {f : ScaleEntry → ScaleEntry}
    (h : s.scaleUpdate c tensor f = (s1, none)) : s.scaleStep c tensor f = s1 := by
  rw [State.scaleStep, h]

end Sys2Proof.Machine
end

section
/-! The end of a probe that made no progress (R50, R420). -/

namespace Sys2Proof.Machine
open Sys2Proof.Claims

/-- The probes that a job has open are none of what an engine's access or its stop changes. -/
theorem StopsOnly.probing {c : Nat} {s t : State} (h : StopsOnly c s t) : (t.job c).probing = (s.job c).probing := by
  obtain ⟨_, _, _, own⟩ := h
  have kept : (t.job c).unstopped.probing = (s.job c).unstopped.probing := congrArg Job.probing own
  exact kept

/-- A probe that stalls takes one entry of its tensor out of the job's table of probes: the first one. -/
theorem State.probeStalled_probing (s : State) (c tensor port : Nat) :
    ((s.probeStalled c tensor port).job c).probing = (s.job c).probing.drop tensor := by
  have told : StopsOnly c s (s.event 0x0803 kCourier c 0 tensor port) := (s.event_memoryOnly _ _ _ _ _ _).stopsOnly c
  have ended := told.trans
    (State.scaleStep_stopsOnly _ c tensor fun e : ScaleEntry => { e with ctl := putField e.ctl 26 1 0 })
  rw [State.probeStalled, State.holdJob, State.job_setJob_same, State.job_setJob_same]
  exact congrArg (Tbl.drop · tensor) ended.probing

theorem exec_courierStalled_probe {s : State} {c p : Fin 8} {tensor : BitVec 16} {m : Word}
    (hopen : (s.job c.val).probing.find tensor.toNat = some m)
    (hlate : (s.job c.val).probeSince.get 0 tensor.toNat + (s.job c.val).cfg.timeoutTicks ≤ s.tick) :
    exec (.courierStalled c (.probe tensor) p) s = .next (s.probeStalled c.val tensor.toNat p.val) := by
  change execCourierStalled c (.probe tensor) p s = _
  rw [execCourierStalled, if_neg]
  rw [hopen, Option.isNone_some, not_or]
  exact ⟨Bool.false_ne_true, Nat.not_lt.mpr hlate⟩

/-- The reset device 160,000,000 ticks on, where the job of context 0 lists a probe of tensor 0 twice: a table in no order of its
keys, which nothing in the statement excludes. -/
def probedTwice : State :=
  { State.reset with tick := 160000000, jobs := [(0, { Job.reset with probing := [(0, 0), (0, 0)] })] }

end Sys2Proof.Machine

namespace Sys2Proof
open Sys2Proof.Machine Sys2Proof.Claims

/-- Refutes O32: where a job's table of probes lists a tensor twice (`probedTwice`), COURIER_STALLED takes out the first entry alone, so
that the tensor is still listed as probing after it. -/
theorem not_commandsEnd : ¬ Obligations.CommandsEnd := by
  rintro ⟨-, probes⟩
  have hopen : (probedTwice.job (0 : Fin 8).val).probing.find (0 : BitVec 16).toNat = some 0 := rfl
  have hlate : (probedTwice.job (0 : Fin 8).val).probeSince.get 0 (0 : BitVec 16).toNat +
      (probedTwice.job (0 : Fin 8).val).cfg.timeoutTicks ≤ probedTwice.tick := by decide
  obtain ⟨t, hexec, hgone, -⟩ := (probes probedTwice 0 0 0 0 hopen).1 hlate
  rw [exec_courierStalled_probe hopen hlate, Host.Outcome.next.injEq] at hexec
  rw [← hexec, State.probeStalled_probing] at hgone
  have hleft : ((probedTwice.job (0 : Fin 8).val).probing.drop (0 : BitVec 16).toNat).find (0 : BitVec 16).toNat = some 0 := rfl
  exact Option.some_ne_none _ (hleft.symm.trans hgone)

end Sys2Proof
end

section
/-! The control word of a scale entry and what its operations change (R42 to R49, R52). -/

namespace Sys2Proof.Machine
open Sys2Proof.Claims

/-! ### A field of a word -/

/-- The replaced field between the bits above it and the bits below it. -/
theorem putField_number (w lo n v : Nat) (hn : 0 < n) :
    w - bitsOf w (lo + n - 1) lo * 2 ^ lo + v % 2 ^ n * 2 ^ lo = 2 ^ lo * (2 ^ n * (w / 2 ^ lo / 2 ^ n) + v % 2 ^ n) + w % 2 ^ lo := by
  have outer := Nat.div_add_mod w (2 ^ lo)
  have inner := congrArg (2 ^ lo * ·) (Nat.div_add_mod (w / 2 ^ lo) (2 ^ n))
  have width : lo + n - 1 + 1 - lo = n := by omega
  rw [bitsOf, width, Nat.mul_comm _ (2 ^ lo), Nat.mul_comm _ (2 ^ lo)]
  simp only [Nat.mul_add] at inner ⊢
  omega

theorem getLsbD_putField (w : Word) {lo n : Nat} (v : Nat) (hn : 0 < n) (h : lo + n ≤ 32) (i : Nat) :
    (putField w lo n v).getLsbD i = if lo ≤ i ∧ i < lo + n then v.testBit (i - lo) else w.getLsbD i := by
  rw [putField, BitVec.getLsbD_ofNat, putField_number _ _ _ _ hn,
    Nat.testBit_two_pow_mul_add _ (Nat.mod_lt _ (Nat.two_pow_pos lo)), Nat.testBit_two_pow_mul_add _ (Nat.mod_lt _ (Nat.two_pow_pos n))]
  rcases Nat.lt_or_ge i lo with below | above
  · rw [if_pos below, if_neg (by omega), Nat.testBit_mod_two_pow, BitVec.testBit_toNat]
    simp [below, show i < 32 by omega]
  rw [if_neg (Nat.not_lt.mpr above)]
  rcases Nat.lt_or_ge i (lo + n) with inside | beyond
  · rw [if_pos (by omega), if_pos ⟨above, inside⟩, Nat.testBit_mod_two_pow]
    simp [show i < 32 by omega, show i - lo < n by omega]
  · rw [if_neg (by omega), if_neg (by omega), Nat.testBit_div_two_pow, Nat.testBit_div_two_pow, BitVec.testBit_toNat,
      show i - lo - n + n + lo = i by omega]
    rcases Nat.lt_or_ge i 32 with low | high
    · simp [low]
    · simp [BitVec.getLsbD_of_ge _ _ high]

/-- The field that was put is read again. -/
theorem extract_putField_same (w : Word) {lo n : Nat} (v : Nat) (hn : 0 < n) (h : lo + n ≤ 32) :
    (putField w lo n v).extractLsb' lo n = BitVec.ofNat n v := by
  refine BitVec.eq_of_getLsbD_eq fun i hi => ?_
  rw [BitVec.getLsbD_extractLsb', getLsbD_putField w v hn h, if_pos (by omega), BitVec.getLsbD_ofNat, Nat.add_sub_cancel_left]

/-- A field that does not overlap the one that was put stays. -/
theorem extract_putField_other (w : Word) {lo n lo' n' : Nat} (v : Nat) (hn : 0 < n) (h : lo + n ≤ 32)
    (apart : lo' + n' ≤ lo ∨ lo + n ≤ lo') : (putField w lo n v).extractLsb' lo' n' = w.extractLsb' lo' n' := by
  refine BitVec.eq_of_getLsbD_eq fun i hi => ?_
  rw [BitVec.getLsbD_extractLsb', BitVec.getLsbD_extractLsb', getLsbD_putField w v hn h, if_neg (by omega)]

theorem ScaleEntry.head_eq (e : ScaleEntry) : e.head = (e.ctl.extractLsb' 20 4).toNat := by
  simp [ScaleEntry.head, bitsOf, Nat.shiftRight_eq_div_pow]

theorem ScaleEntry.format_eq (e : ScaleEntry) : e.format = (e.ctl.extractLsb' 28 2).toNat := by
  simp [ScaleEntry.format, bitsOf, Nat.shiftRight_eq_div_pow]

/-! ### SCALE_EXP -/

/-- The entry with another SCALE_EXP. -/
def ScaleEntry.withExp (e : ScaleEntry) (b : Byte) : ScaleEntry := { e with ctl := putField e.ctl 0 8 b.toNat }

@[simp] theorem ScaleEntry.withExp_hist (e : ScaleEntry) (b : Byte) : (e.withExp b).hist = e.hist := rfl
@[simp] theorem ScaleEntry.withExp_cur (e : ScaleEntry) (b : Byte) : (e.withExp b).cur = e.cur := rfl
@[simp] theorem ScaleEntry.withExp_sat (e : ScaleEntry) (b : Byte) : (e.withExp b).sat = e.sat := rfl

@[simp] theorem ScaleEntry.withExp_scaleExp (e : ScaleEntry) (b : Byte) : (e.withExp b).scaleExp = b := by
  rw [ScaleEntry.scaleExp, ScaleEntry.withExp, extract_putField_same _ _ (by decide) (by decide), BitVec.ofNat_toNat,
    BitVec.setWidth_eq]

@[simp] theorem ScaleEntry.withExp_initExp (e : ScaleEntry) (b : Byte) : (e.withExp b).initExp = e.initExp :=
  extract_putField_other _ _ (by decide) (by decide) (by decide)

@[simp] theorem ScaleEntry.withExp_seeded (e : ScaleEntry) (b : Byte) : (e.withExp b).seeded = e.seeded :=
  getLsbD_putField _ _ (by decide) (by decide) 31

@[simp] theorem ScaleEntry.withExp_head (e : ScaleEntry) (b : Byte) : (e.withExp b).head = e.head := by
  rw [ScaleEntry.head_eq, ScaleEntry.head_eq, ScaleEntry.withExp, extract_putField_other _ _ (by decide) (by decide) (by decide)]

theorem ScaleEntry.rescale_some {e : ScaleEntry} {m : Nat} {x : Int}
    (h : Machine.scaleExp (e.hist.foldl magMax 0) (e.format == 1) m = some x) :
    e.rescale m = e.withExp (BitVec.ofInt 8 x) := by
  rw [ScaleEntry.rescale, h]
  rfl

theorem ScaleEntry.rescale_none {e : ScaleEntry} {m : Nat} (h : Machine.scaleExp (e.hist.foldl magMax 0) (e.format == 1) m = none) :
    e.rescale m = e := by
  rw [ScaleEntry.rescale, h]

/-- A recomputation changes SCALE_EXP at most. -/
theorem ScaleEntry.rescale_eq (e : ScaleEntry) (m : Nat) : e.rescale m = e ∨ ∃ b, e.rescale m = e.withExp b := by
  cases h : Machine.scaleExp (e.hist.foldl magMax 0) (e.format == 1) m with
  | none => exact .inl (rescale_none h)
  | some x => exact .inr ⟨_, rescale_some h⟩

theorem ScaleEntry.rescale_keeps (e : ScaleEntry) (m : Nat) : (e.rescale m).hist = e.hist ∧ (e.rescale m).head = e.head ∧
    (e.rescale m).cur = e.cur ∧ (e.rescale m).seeded = e.seeded ∧ (e.rescale m).sat = e.sat := by
  rcases e.rescale_eq m with same | ⟨b, changed⟩
  · simp [same]
  · simp [changed]

/-! ### Pushes -/

/-- A seeded entry after a push and before SCALE_EXP is recomputed. -/
def ScaleEntry.pushed (e : ScaleEntry) (v : Word) : ScaleEntry :=
  { e with cur := 0, hist := e.hist.set e.head v, ctl := putField e.ctl 20 4 (e.head + 1) }

theorem ScaleEntry.push_seeded {e : ScaleEntry} (h : e.seeded = true) (v : Word) (m : Nat) : e.push v m = (e.pushed v).rescale m := by
  rw [ScaleEntry.push, if_pos h]
  rfl

theorem ScaleEntry.pushed_seeded (e : ScaleEntry) (v : Word) : (e.pushed v).seeded = e.seeded :=
  getLsbD_putField _ _ (by decide) (by decide) 31

theorem ScaleEntry.pushed_head (e : ScaleEntry) (v : Word) : (e.pushed v).head = (e.head + 1) % 16 := by
  rw [ScaleEntry.head_eq, ScaleEntry.pushed, extract_putField_same _ _ (by decide) (by decide), BitVec.toNat_ofNat]

theorem ScaleEntry.pushed_format (e : ScaleEntry) (v : Word) : (e.pushed v).format = e.format := by
  rw [ScaleEntry.format_eq, ScaleEntry.format_eq, ScaleEntry.pushed, extract_putField_other _ _ (by decide) (by decide) (by decide)]

theorem ScaleEntry.pushed_scaleExp (e : ScaleEntry) (v : Word) : (e.pushed v).scaleExp = e.scaleExp :=
  extract_putField_other _ _ (by decide) (by decide) (by decide)

/-- The largest of a history of zeros is zero. -/
theorem foldl_magMax_zero {l : List Word} (h : ∀ x ∈ l, x = 0) : l.foldl magMax 0 = 0 := by
  induction l with
  | nil => rfl
  | cons x xs ih =>
    obtain rfl := h x List.mem_cons_self
    have zero : magMax 0 0 = 0 := ite_self _
    rw [List.foldl_cons, zero]
    exact ih fun y hy => h y (List.mem_cons_of_mem _ hy)

theorem scaleExp_zero (e5 : Bool) (m : Nat) : scaleExp 0 e5 m = none := by
  cases e5 <;> rfl

/-- An entry filled by a seed and before SCALE_EXP is computed. -/
def ScaleEntry.filled (e : ScaleEntry) (v : Word) : ScaleEntry :=
  { e with hist := List.replicate 16 v, ctl := putField (putField (putField e.ctl 0 8 e.initExp.toNat) 20 4 0) 31 1 1 }

theorem ScaleEntry.filled_head (e : ScaleEntry) (v : Word) : (e.filled v).head = 0 := by
  rw [ScaleEntry.head_eq, ScaleEntry.filled, extract_putField_other _ _ (by decide) (by decide) (by decide),
    extract_putField_same _ _ (by decide) (by decide)]
  rfl

theorem ScaleEntry.filled_seeded (e : ScaleEntry) (v : Word) : (e.filled v).seeded = true :=
  getLsbD_putField _ _ (by decide) (by decide) 31

theorem ScaleEntry.push_zero {e : ScaleEntry} (h : e.seeded = false) (m : Nat) : e.push 0 m = { e with cur := 0 } := by
  rw [ScaleEntry.push, if_neg (by simp [h]), if_pos rfl]

theorem ScaleEntry.push_unseeded {e : ScaleEntry} (h : e.seeded = false) {v : Word} (hv : v ≠ 0) (m : Nat) :
    e.push v m = (({ e with cur := 0 } : ScaleEntry).filled v).rescale m := by
  rw [ScaleEntry.push, if_neg (by simp [h]), if_neg hv]
  rfl

/-! ### Halving -/

/-- SCALE_EXP less one, no lower than −127. -/
def Byte.lowered (b : Byte) : Byte := BitVec.ofInt 8 (max (-127) (b.toInt - 1))

theorem Byte.lowered_toInt (b : Byte) : (Byte.lowered b).toInt = max (-127) (b.toInt - 1) := by
  have top : b.toInt < 2 ^ (8 - 1) := b.toInt_lt
  exact BitVec.toInt_ofInt_eq_self (by decide) (by omega) (by omega)

/-- The entry with its history doubled. -/
def ScaleEntry.doubled (e : ScaleEntry) : ScaleEntry := { e with hist := e.hist.map twice }

theorem ScaleEntry.settle_keeps (e : ScaleEntry) : e.settle.hist = e.hist ∧ e.settle.head = e.head ∧ e.settle.seeded = e.seeded := by
  rw [ScaleEntry.settle]
  split
  · exact ⟨rfl, rfl, rfl⟩
  · exact ⟨rfl, e.withExp_head e.initExp, e.withExp_seeded e.initExp⟩

theorem ScaleEntry.halve_eq (e : ScaleEntry) : e.halve = (e.doubled.withExp (Byte.lowered e.scaleExp)).settle := rfl

theorem ScaleEntry.halve_seeded {e : ScaleEntry} (h : e.seeded = true) : e.halve = e.doubled.withExp (Byte.lowered e.scaleExp) :=
  if_pos ((e.doubled.withExp_seeded _).trans h)

theorem ScaleEntry.halve_unseeded {e : ScaleEntry} (h : e.seeded = false) :
    e.halve = (e.doubled.withExp (Byte.lowered e.scaleExp)).withExp e.initExp := by
  have unseeded : (e.doubled.withExp (Byte.lowered e.scaleExp)).seeded = false := (e.doubled.withExp_seeded _).trans h
  have held : (e.doubled.withExp (Byte.lowered e.scaleExp)).initExp = e.initExp := e.doubled.withExp_initExp _
  rw [halve_eq, ScaleEntry.settle, if_neg (by simp [unseeded]), ← held]
  rfl

/-! ### The rules together -/

theorem scaleEntryRules : ScaleEntryRules := by
  refine ⟨?push, ?zero, ?seed, ?largest, ?halve, ?zeros, ?twice, fun _ _ _ => ⟨rfl, rfl, rfl, rfl⟩⟩
  case push =>
    intro e v m _ h
    obtain ⟨hist, head, cur, seeded, sat⟩ := (e.pushed v).rescale_keeps m
    rw [ScaleEntry.push_seeded h]
    exact ⟨hist, head.trans (e.pushed_head v), cur, (seeded.trans (e.pushed_seeded v)).trans h, sat⟩
  case zero =>
    intro e m h
    rw [ScaleEntry.push_zero h]
    exact ⟨rfl, h, rfl, rfl⟩
  case seed =>
    intro e v m h hv
    obtain ⟨hist, head, cur, seeded, -⟩ := (({ e with cur := 0 } : ScaleEntry).filled v).rescale_keeps m
    rw [ScaleEntry.push_unseeded h hv]
    exact ⟨hist, head.trans (ScaleEntry.filled_head _ v), seeded.trans (ScaleEntry.filled_seeded _ v), cur⟩
  case largest =>
    intro e v m x _ h hx
    rw [← e.pushed_format v] at hx
    rw [ScaleEntry.push_seeded h, ScaleEntry.rescale_some hx, ScaleEntry.withExp_scaleExp]
  case halve =>
    intro e
    obtain ⟨hist, head, seeded⟩ := (e.doubled.withExp (Byte.lowered e.scaleExp)).settle_keeps
    refine ⟨fun h => ?_, fun h => ?_, seeded.trans (e.doubled.withExp_seeded _), head.trans (e.doubled.withExp_head _), hist⟩
    · rw [ScaleEntry.halve_seeded h, ScaleEntry.withExp_scaleExp, Byte.lowered_toInt]
    · rw [ScaleEntry.halve_unseeded h, ScaleEntry.withExp_scaleExp]
  case zeros =>
    intro e v m _ h hzero
    have largest : (e.pushed v).hist.foldl magMax 0 = 0 := foldl_magMax_zero hzero
    rw [ScaleEntry.push_seeded h, ScaleEntry.rescale_none (by rw [largest, scaleExp_zero]), ScaleEntry.pushed_scaleExp]
  case twice =>
    intro w hw
    refine ⟨fun h => ?_, fun h => ?_⟩
    · simp [Machine.twice, h, hw]
    · simp [Machine.twice, h]

end Sys2Proof.Machine
end

section
/-! The probes and the pushes of scale entries (R45, R49, R50). -/

namespace Sys2Proof.Machine
open Sys2Proof.Claims

/-! ### Reading and writing an entry -/

@[simp] theorem toBytes_length (n v : Nat) : (toBytes n v).length = n := by
  induction n generalizing v with
  | zero => rfl
  | succ n ih => exact congrArg (· + 1) (ih _)

/-- What the device maintains of an entry of sixteen slots is 80 bytes. -/
theorem ScaleEntry.bytes_length {e : ScaleEntry} (h : e.hist.length = 16) : e.bytes.length = 80 := by
  simp [ScaleEntry.bytes, List.length_flatMap, h]

theorem State.scaleRead_hist {s : State} {c tensor : Nat} {e : ScaleEntry} (h : s.scaleRead c tensor = .ok e) : e.hist.length = 16 := by
  rw [State.scaleRead] at h
  split at h
  · cases h
    simp [scaleEntry]
  · cases h

/-- The rest of a job's own fields that an engine's access leaves: its configuration and its pushes. -/
theorem StopsOnly.pushesLeft {c : Nat} {s t : State} (h : StopsOnly c s t) : (t.job c).pushesLeft = (s.job c).pushesLeft := by
  obtain ⟨_, _, _, own⟩ := h
  have kept : (t.job c).unstopped.pushesLeft = (s.job c).unstopped.pushesLeft := congrArg Job.pushesLeft own
  exact kept

theorem StopsOnly.cfg {c : Nat} {s t : State} (h : StopsOnly c s t) : (t.job c).cfg = (s.job c).cfg := by
  obtain ⟨_, _, _, own⟩ := h
  have kept : (t.job c).unstopped.cfg = (s.job c).unstopped.cfg := congrArg Job.cfg own
  exact kept

theorem StopsOnly.others {c : Nat} {s t : State} (h : StopsOnly c s t) {d : Nat} (hd : d ≠ c) : t.job d = s.job d := by
  obtain ⟨_, _, others, _⟩ := h
  exact others d hd

theorem StopsOnly.tiles {c : Nat} {s t : State} (h : StopsOnly c s t) : t.tiles = s.tiles := by
  obtain ⟨tiles, _, _, _⟩ := h
  exact tiles

theorem StopsOnly.tile {c : Nat} {s t : State} (h : StopsOnly c s t) (u : Nat) : t.tile u = s.tile u :=
  congrArg (fun l : Tbl Tile => l.get Tile.reset u) h.tiles

/-! ### A partner's probe -/

/-- The state after a probe of `tensor` began whose own extent holds the magnitude `m`, its entry written. -/
def State.probeBegun (s : State) (c tensor : Nat) (e : ScaleEntry) (m : Word) : State :=
  let s1 := (s.scaleWrite c tensor { e with ctl := putField e.ctl 26 1 1 }).1
  s1.setJob c { s1.job c with
    probing := (s1.job c).probing.set tensor m, probeSince := (s1.job c).probeSince.set tensor s1.tick
    stalledProbes := dropFrom (s1.job c).stalledProbes tensor }

section Request

variable {s : State} {c : Fin 8} {n : BitVec 16} {e : ScaleEntry} (hrun : (s.job c.val).running = true)
  (hn : n.toNat < (s.job c.val).cfg.scaleEntries.toNat) (hclean : s.mem.errors = []) (hread : s.scaleRead c.val n.toNat = .ok e)

include hrun hn hclean hread

theorem exec_probeRequest_known (h : e.seeded = true ∨ e.isProbing = true) : exec (.probeRequest c n) s = .next s := by
  change execProbeRequest c n s = _
  rw [execProbeRequest, if_neg (by simp [hrun, hn])]
  dsimp only
  rw [State.vdemand_clean hclean, hread]
  exact if_pos (by simpa using h)

theorem exec_probeRequest_joins {m : Word} {pa : Nat} (hseed : e.seeded = false) (hprobe : e.isProbing = false)
    (hmax : s.extentMax c.val e = .ok m) (hpages : (s.pages c.val (s.scaleVA c.val n.toNat) 80 true).1 = .ok pa) :
    exec (.probeRequest c n) s = .next (s.probeBegun c.val n.toNat e m) := by
  have slots : e.hist.length = 16 := State.scaleRead_hist hread
  have size : ({ e with ctl := putField e.ctl 26 1 1 } : ScaleEntry).bytes.length = 80 :=
    ScaleEntry.bytes_length slots
  have written : (s.scaleWrite c.val n.toNat { e with ctl := putField e.ctl 26 1 1 }).2 = none :=
    State.vwrite_fine false size hpages
  have begun : s.probe c.val n.toNat e = (s.probeBegun c.val n.toNat e m, none) := by
    rw [State.probe, State.vdemand_clean hclean]
    dsimp only
    rw [hmax]
    dsimp only
    split
    · next s1 x h => rw [h] at written; cases written
    · next s1 h => rw [State.probeBegun, h]
  change execProbeRequest c n s = _
  rw [execProbeRequest, if_neg (by simp [hrun, hn])]
  dsimp only
  rw [State.vdemand_clean hclean, hread]
  dsimp only
  rw [if_neg (by simp [hseed, hprobe]), begun]

end Request

/-- Beginning a probe writes memory and the job's own record of its probes. -/
theorem State.probeBegun_keeps (s : State) (c tensor : Nat) (e : ScaleEntry) (m : Word) :
    ((s.probeBegun c tensor e m).job c).probing.find tensor = some m ∧ (s.probeBegun c tensor e m).tiles = s.tiles ∧
      (s.probeBegun c tensor e m).ports = s.ports ∧ ((s.probeBegun c tensor e m).job c).phase = (s.job c).phase ∧
      ∀ d, d ≠ c → (s.probeBegun c tensor e m).job d = s.job d := by
  obtain ⟨mem, porters, health, host, hwrite⟩ :=
    s.vwrite_memoryOnly c (s.scaleVA c tensor) ({ e with ctl := putField e.ctl 26 1 1 } : ScaleEntry).bytes false
  rw [State.probeBegun, State.scaleWrite, hwrite]
  dsimp only
  rw [State.job_setJob_same]
  exact ⟨Tbl.find_set_same _ _ _, rfl, rfl, rfl, fun _ hd => State.job_setJob_other _ _ hd⟩

/-! ### The combined probe -/

/-- An entry seeded with the value of its finished probe. -/
def ScaleEntry.probed (e : ScaleEntry) (j : JobCtx) (own others : Word) : ScaleEntry :=
  let e1 := e.seed (if j.groupOf e.axes ≤ 1 then own else magMax own others) j.margin.toNat
  { e1 with ctl := putField e1.ctl 26 1 0, probes := e1.probes + 1 }

/-- The state with a probe's record taken out of its job. -/
def State.probeEnded (s : State) (c tensor : Nat) : State :=
  s.setJob c { s.job c with probing := (s.job c).probing.drop tensor, probeSince := (s.job c).probeSince.drop tensor }

theorem State.probeEnded_mem (s : State) (c tensor : Nat) : (s.probeEnded c tensor).mem = s.mem := rfl

theorem exec_probeCombineComplete {s : State} {c : Fin 8} {n : BitVec 16} {own : Word} (others : Word)
    (h : (s.job c.val).probing.find n.toNat = some own) :
    exec (.probeCombineComplete c n others) s =
      .next ((s.scaleStep c.val n.toNat fun e => e.probed (s.job c.val).cfg own others).probeEnded c.val n.toNat) := by
  change execProbeCombineComplete c n others s = _
  rw [execProbeCombineComplete]
  dsimp only
  rw [h]
  rfl

/-! ### The slots of a tensor (R131) -/

/-- A slot without what it counted, where it holds the tensor. -/
def Slot.cleared (tensor : Nat) (x : Slot) : Slot :=
  if x.filled && x.tensor.toNat == tensor then { x with amax := 0, sat := 0 } else x

def Task.cleared (tensor : Nat) (k : Task) : Task := { k with slots := k.slots.mapAll (Slot.cleared tensor) }

def Tile.cleared (tensor : Nat) (x : Tile) : Tile := { x with tasks := x.tasks.mapAll (Task.cleared tensor) }

/-- The state with a tensor's slots cleared in the tiles of a list. -/
def State.clearTiles (s : State) (tensor : Nat) (tiles : List Nat) : State :=
  tiles.foldl (fun s t => s.setTile t ((s.tile t).cleared tensor)) s

theorem State.clearSlots_eq (s : State) (c tensor : Nat) : s.clearSlots c tensor = s.clearTiles tensor (s.job c).cfg.tiles := rfl

/-- No slot of the tile that holds the tensor holds a magnitude. -/
def Tile.NoAmax (n : BitVec 16) (x : Tile) : Prop :=
  ∀ k i, ((x.task k).slots.get Slot.empty i).filled = true → ((x.task k).slots.get Slot.empty i).tensor = n →
    ((x.task k).slots.get Slot.empty i).amax = 0

/-- The slot that a cleared tile reads is the slot before, cleared. -/
theorem Tile.cleared_slot (x : Tile) (tensor k i : Nat) :
    (((x.cleared tensor).task k).slots.get Slot.empty i) = ((x.task k).slots.get Slot.empty i).cleared tensor := by
  have task : (x.cleared tensor).task k = (x.task k).cleared tensor := Tbl.get_mapAll _ _ rfl _ _
  rw [task]
  exact Tbl.get_mapAll _ _ rfl _ _

theorem Slot.cleared_amax {x : Slot} {n : BitVec 16} (hfill : (x.cleared n.toNat).filled = true)
    (htensor : (x.cleared n.toNat).tensor = n) : (x.cleared n.toNat).amax = 0 := by
  rw [Slot.cleared] at hfill htensor ⊢
  split
  · rfl
  · next h =>
    rw [if_neg h] at hfill htensor
    simp [hfill, htensor] at h

theorem Tile.cleared_noAmax (n : BitVec 16) (x : Tile) : (x.cleared n.toNat).NoAmax n := by
  intro k i hfill htensor
  rw [Tile.cleared_slot] at hfill htensor ⊢
  exact Slot.cleared_amax hfill htensor

/-- A tile that holds no magnitude of the tensor goes on holding none. -/
theorem State.clearTiles_noAmax_of {s : State} {n : BitVec 16} {u : Nat} (h : (s.tile u).NoAmax n) (l : List Nat) :
    ((s.clearTiles n.toNat l).tile u).NoAmax n := by
  refine List.foldlRecOn l _ (motive := fun t : State => (t.tile u).NoAmax n) h fun t ht v _ => ?_
  rw [State.tile_setTile]
  split
  · exact Tile.cleared_noAmax n _
  · exact ht

theorem State.clearTiles_noAmax {n : BitVec 16} {u : Nat} {l : List Nat} (hu : u ∈ l) (s : State) :
    ((s.clearTiles n.toNat l).tile u).NoAmax n := by
  induction l generalizing s with
  | nil => cases hu
  | cons t ts ih =>
    rcases List.mem_cons.mp hu with rfl | later
    · refine State.clearTiles_noAmax_of (s := s.setTile u ((s.tile u).cleared n.toNat)) ?_ ts
      rw [State.tile_setTile_same]
      exact Tile.cleared_noAmax n _
    · exact ih later _

/-- Clearing slots leaves the jobs, memory and every scratchpad. -/
theorem State.clearTiles_keeps (s : State) (tensor : Nat) (l : List Nat) : (s.clearTiles tensor l).jobs = s.jobs ∧
    (s.clearTiles tensor l).mem = s.mem ∧ ∀ u, PadSame u s (s.clearTiles tensor l) := by
  refine List.foldlRecOn l _ (motive := fun t : State => t.jobs = s.jobs ∧ t.mem = s.mem ∧ ∀ u, PadSame u s t)
    ⟨rfl, rfl, fun _ => ⟨rfl, rfl⟩⟩ ?_
  rintro t ⟨jobs, mem, pads⟩ v -
  refine ⟨jobs, mem, fun u => ?_⟩
  rw [PadSame, State.tile_setTile]
  split
  · next h => exact h ▸ pads u
  · exact pads u

/-! ### A push -/

/-- An entry after the push of an applied step: of CURRENT_AMAX, the slots' magnitude and the other modules'. -/
def ScaleEntry.stepPush (e : ScaleEntry) (j : JobCtx) (slots others : Word) (sat : Nat) : ScaleEntry :=
  let m := magMax e.cur slots
  (e.merge 0 sat).push (if j.groupOf e.axes ≤ 1 then m else magMax m others) j.margin.toNat

/-- The state with a tensor's slots cleared and its push taken off the job's list. -/
def State.pushDone (s : State) (c : Nat) (n : BitVec 16) : State :=
  let t := s.clearSlots c n.toNat
  t.setJob c { t.job c with pushesLeft := (t.job c).pushesLeft.filter (· ≠ n) }

theorem exec_amaxCombineComplete {s : State} {c : Fin 8} {n : BitVec 16} (others : Word) (h : n ∈ (s.job c.val).pushesLeft) :
    exec (.amaxCombineComplete c n others) s = .next ((s.scaleStep c.val n.toNat fun e =>
      e.stepPush (s.job c.val).cfg (s.slotAmax c.val n.toNat) others (s.slotSat c.val n.toNat)).pushDone c.val n) := by
  change execAmaxCombineComplete c n others s = _
  rw [execAmaxCombineComplete]
  exact if_neg (not_not_intro h)

theorem exec_amaxCombineComplete_done {s : State} {c : Fin 8} {n : BitVec 16} (others : Word) (h : n ∉ (s.job c.val).pushesLeft) :
    exec (.amaxCombineComplete c n others) s = .next s := if_pos h

theorem State.pushDone_keeps (s : State) (c : Nat) (n : BitVec 16) : (s.pushDone c n).mem = s.mem ∧
    ((s.pushDone c n).job c).pushesLeft = (s.job c).pushesLeft.filter (· ≠ n) ∧ (∀ u, PadSame u s (s.pushDone c n)) ∧
    (∀ u ∈ (s.job c).cfg.tiles, ((s.pushDone c n).tile u).NoAmax n) ∧ ∀ d, d ≠ c → (s.pushDone c n).job d = s.job d := by
  obtain ⟨jobs, mem, pads⟩ := s.clearTiles_keeps n.toNat (s.job c).cfg.tiles
  have job : ∀ d, (s.clearSlots c n.toNat).job d = s.job d := fun d => congrArg (fun l : Tbl Job => l.get Job.reset d) jobs
  refine ⟨mem, ?_, pads, fun u hu => State.clearTiles_noAmax hu s, fun d hd => ?_⟩
  · rw [State.pushDone, State.job_setJob_same, job]
  · rw [State.pushDone, State.job_setJob_other _ _ hd, job]

/-! ### The three commands together -/

theorem probesAndPushes : ProbesAndPushes := by
  refine ⟨?request, ?combine, ?push⟩
  case request =>
    intro s c n e hrun hn hclean hread
    refine ⟨exec_probeRequest_known hrun hn hclean hread, fun m pa hseed hprobe hmax hpages => ?_⟩
    exact ⟨_, exec_probeRequest_joins hrun hn hclean hread hseed hprobe hmax hpages, s.probeBegun_keeps c.val n.toNat e m⟩
  case combine =>
    intro s c n others own h
    have step := s.scaleStep_stopsOnly c.val n.toNat fun e => e.probed (s.job c.val).cfg own others
    refine ⟨_, exec_probeCombineComplete others h, ?_, step.tiles, fun d hd => ?_, fun s1 fine => ?_⟩
    · rw [State.probeEnded, State.job_setJob_same]
      exact congrArg (Tbl.drop · n.toNat) step.probing
    · exact (State.job_setJob_other _ _ hd).trans (step.others hd)
    · exact (State.probeEnded_mem _ _ _).trans (congrArg State.mem (State.scaleStep_fine fine))
  case push =>
    intro s c n others
    refine ⟨fun h => ?_, exec_amaxCombineComplete_done others⟩
    have step := s.scaleStep_stopsOnly c.val n.toNat fun e =>
      e.stepPush (s.job c.val).cfg (s.slotAmax c.val n.toNat) others (s.slotSat c.val n.toNat)
    refine ⟨_, exec_amaxCombineComplete others h, ?_⟩
    obtain ⟨mem, pushes, pads, cleared, jobs⟩ := State.pushDone_keeps
      (s.scaleStep c.val n.toNat fun e => e.stepPush (s.job c.val).cfg (s.slotAmax c.val n.toNat) others (s.slotSat c.val n.toNat)) c.val n
    refine ⟨fun s1 fine => mem.trans (congrArg State.mem (State.scaleStep_fine fine)), ?_, fun u => ?_, fun u hu => ?_,
      fun d hd => (jobs d hd).trans (step.others hd)⟩
    · rw [pushes, step.pushesLeft]
    · have pad := pads u
      rwa [PadSame, step.tile u] at pad
    · exact cleared u (by rwa [step.cfg])

end Sys2Proof.Machine

namespace Sys2Proof
open Sys2Proof.Machine Sys2Proof.Claims

/-- Settles O27: each change of an entry by the fields of its control word that it puts, and each command by the access that it makes
to the entry and the record that it then keeps in its job. -/
theorem scalesAndPushes : Obligations.ScalesAndPushes := ⟨scaleEntryRules, probesAndPushes⟩

end Sys2Proof
end

section
/-! What the halt of a task leaves (R85, R86, R145, R152, R188): a halt, and the handler pass that it may end or go on with, change of
a tile its tasks and what queues behind them, and of a job that computes the mark that it is to stop. -/

namespace Sys2Proof.Machine
open Sys2Proof.Claims

/-! ### Tiles -/

/-- What halts and handler passes can change of a tile: its tasks, the array's work, the rings, and the pass itself. -/
def PassOnly (x y : Tile) : Prop :=
  ∃ tasks runs drains rings delivered handling, y = { x with
    tasks := tasks, runs := runs, drains := drains, rings := rings, delivered := delivered, handling := handling }

theorem PassOnly.refl (x : Tile) : PassOnly x x := ⟨_, _, _, _, _, _, rfl⟩

theorem PassOnly.trans {x y z : Tile} (h : PassOnly x y) (k : PassOnly y z) : PassOnly x z := by
  obtain ⟨_, _, _, _, _, _, rfl⟩ := h
  obtain ⟨_, _, _, _, _, _, rfl⟩ := k
  exact ⟨_, _, _, _, _, _, rfl⟩

theorem Tile.promote_passOnly (x : Tile) : PassOnly x x.promote := by
  obtain ⟨_, h, -⟩ := x.promote_runs
  exact ⟨_, _, _, _, _, _, h⟩

theorem Tile.promote_task (x : Tile) (k : Nat) : x.promote.task k = x.task k := by
  obtain ⟨_, h, -⟩ := x.promote_runs
  rw [h]
  rfl

theorem Tile.halted_passOnly (x : Tile) (n : Fin 4) : PassOnly x (x.halted n) :=
  PassOnly.trans ⟨_, _, _, _, _, _, rfl⟩ (Tile.promote_passOnly _)

/-- The task that halts has faulted and lost its loads (R152). -/
theorem Tile.halted_task_same (x : Tile) (n : Fin 4) :
    (x.halted n).task n.val = { x.task n.val with state := .faulted, loads := [], hold := .none } :=
  (Tile.promote_task _ _).trans (Tile.task_setTask_same x _ _)

theorem Tile.halted_task_other (x : Tile) (n : Fin 4) {k : Nat} (h : k ≠ n.val) : (x.halted n).task k = x.task k :=
  (Tile.promote_task _ _).trans (Tile.task_setTask_other x _ h)

/-- At the end of a pass the tasks at the Curfew resume, and every task's overflow room is free (R144, R179). -/
theorem Tile.resumeAll_task (x : Tile) (k : Nat) : x.resumeAll.task k =
    if (x.task k).state = .atCurfew then { x.task k with state := .running, hold := .none, roomUsed := 0 }
    else { x.task k with roomUsed := 0 } :=
  Tbl.get_mapAll Task.reset (fun e : Task => if e.state = .atCurfew then { e with state := .running, hold := .none, roomUsed := 0 }
    else { e with roomUsed := 0 }) rfl x.tasks k

/-- A change of tile `u` that halts and passes can make, with the work behind it, changes every tile so. -/
theorem State.passOnly_setTile {s : State} {u : Nat} {x : Tile} (h : PassOnly (s.tile u) x) (v : Nat) :
    PassOnly (s.tile v) ((s.setTile u x).tile v) := by
  rw [State.tile_setTile]
  split
  · next hv => exact hv ▸ h
  · exact PassOnly.refl _

theorem WorkOnly.tile {s t : State} (h : WorkOnly s t) (u : Nat) : t.tile u = s.tile u := by
  obtain ⟨-, -, tiles, -⟩ := h
  rw [State.tile, tiles, State.tile]

/-- What follows a halt: its event and the stop of its job. -/
theorem State.eventStop_work (s : State) (code : BitVec 16) (kind : BitVec 4) (c src a b : Nat) :
    WorkOnly s ((s.event code kind c src a b).stopAtCurfew c) :=
  (State.event_hostOnly _ _ _ _ _ _ _).work.trans (State.stopAtCurfew_work _ _)

/-! ### The handler pass -/

theorem State.passFrom_passOnly (s : State) (u : Nat) (l : List Delivered) (v : Nat) :
    PassOnly (s.tile v) ((s.passFrom u l).tile v) := by
  induction l generalizing s with
  | nil => exact State.passOnly_setTile ⟨_, _, _, _, _, _, rfl⟩ v
  | cons m ms ih =>
    unfold State.passFrom
    dsimp only
    split
    · exact ih s
    · split
      · refine PassOnly.trans ?_ (ih _)
        rw [(State.eventStop_work _ _ _ _ _ _ _).tile]
        exact State.passOnly_setTile ((s.tile u).halted_passOnly _) v
      · exact State.passOnly_setTile ⟨_, _, _, _, _, _, rfl⟩ v

/-- A pass leaves a task that has faulted as it is, but for its overflow room (R188). -/
theorem State.passFrom_faulted (s : State) (u n : Nat) (l : List Delivered) (h : ((s.tile u).task n).state = .faulted) :
    ∃ room, ((s.passFrom u l).tile u).task n = { (s.tile u).task n with roomUsed := room } := by
  induction l generalizing s with
  | nil =>
    rw [State.passFrom, State.tile_setTile_same, Tile.resumeAll_task, if_neg (by simp [h])]
    exact ⟨_, rfl⟩
  | cons m ms ih =>
    unfold State.passFrom
    dsimp only
    split
    · exact ih s h
    · next hm =>
      have other : n ≠ m.task.toNat := fun e => hm (e ▸ h)
      split
      · have same := (s.tile u).halted_task_other ⟨m.task.toNat, m.task.isLt⟩ other
        have step := ih (((s.setTile u ((s.tile u).halted ⟨m.task.toNat, m.task.isLt⟩)).event 0x0107 kTile ((s.ctxOf u).getD 0xF) u
          m.task.toNat m.waybillHi.toNat).stopAtCurfew ((s.ctxOf u).getD 0xF))
        rw [(State.eventStop_work _ _ _ _ _ _ _).tile, State.tile_setTile_same, same] at step
        exact step h
      · rw [State.tile_setTile_same]
        exact ⟨_, Tile.task_setTask_other _ _ other⟩

/-! ### A job that computes -/

/-- A job that computes goes on computing, told to stop or not. -/
def MayBeTold (c : Nat) (s t : State) : Prop := (s.job c).phase = .compute → ∃ b, t.job c = { s.job c with stop := b }

theorem MayBeTold.of_eq {c : Nat} {s t : State} (h : t.job c = s.job c) : MayBeTold c s t := fun _ => ⟨_, h⟩

theorem MayBeTold.trans {c : Nat} {s t u : State} (h : MayBeTold c s t) (k : MayBeTold c t u) : MayBeTold c s u := by
  intro hp
  obtain ⟨b, h⟩ := h hp
  obtain ⟨b', k⟩ := k (by rw [h]; exact hp)
  exact ⟨b', by rw [k, h]⟩

theorem HostOnly.job {s t : State} (h : HostOnly s t) (c : Nat) : t.job c = s.job c := by
  obtain ⟨_, rfl⟩ := h
  rfl

theorem State.stopAtCurfew_compute {s : State} {c : Nat} (h : (s.job c).phase = .compute) :
    s.stopAtCurfew c = s.setJob c { s.job c with stop := true } := by
  unfold State.stopAtCurfew
  dsimp only
  split
  · next hp => cases hp.symm.trans h
  · next hp => cases hp.symm.trans h
  · rfl
  · rfl
  · next hp _ => cases hp h

theorem State.stopAtCurfew_mayBeTold (s : State) (c k : Nat) : MayBeTold c s (s.stopAtCurfew k) := by
  by_cases hk : c = k
  · intro h
    subst hk
    exact ⟨true, by rw [State.stopAtCurfew_compute h, State.job_setJob_same]⟩
  · exact .of_eq ((s.stopAtCurfew_stopsOnly k).others hk)

theorem State.eventStop_mayBeTold (s : State) (code : BitVec 16) (kind : BitVec 4) (k src a b c : Nat) :
    MayBeTold c s ((s.event code kind k src a b).stopAtCurfew k) :=
  (MayBeTold.of_eq ((s.event_hostOnly _ _ _ _ _ _).job c)).trans (State.stopAtCurfew_mayBeTold _ _ _)

theorem State.passFrom_mayBeTold (s : State) (u c : Nat) (l : List Delivered) : MayBeTold c s (s.passFrom u l) := by
  induction l generalizing s with
  | nil => exact .of_eq rfl
  | cons m ms ih =>
    unfold State.passFrom
    dsimp only
    split
    · exact ih s
    · split
      · exact ((MayBeTold.of_eq (State.setTile_job _ _ _ _)).trans (State.eventStop_mayBeTold _ _ _ _ _ _ _ _)).trans (ih _)
      · exact .of_eq rfl

/-! ### The halt -/

/-- The state in which a halted task's event is raised: its tile halted, and the pass that it ran gone on. -/
def State.haltedAt (s : State) (w : Site) : State :=
  let s1 := s.setTile w.tile ((s.tile w.tile).halted w.task)
  match (s.tile w.tile).handling with
  | some h => if h.task = w.task then s1.passFrom w.tile (s.tile w.tile).delivered else s1
  | none => s1

theorem State.haltTask_eq (s : State) (w : Site) (code : BitVec 16) (a b : Nat) : s.haltTask w code a b =
    ((s.haltedAt w).event code kTile ((s.ctxOf w.tile).getD 0xF) w.tile a b).stopAtCurfew ((s.ctxOf w.tile).getD 0xF) := rfl

theorem State.haltTask_tile (s : State) (w : Site) (code : BitVec 16) (a b u : Nat) :
    (s.haltTask w code a b).tile u = (s.haltedAt w).tile u := by
  rw [State.haltTask_eq, (State.eventStop_work _ _ _ _ _ _ _).tile]

theorem State.haltTask_passOnly (s : State) (w : Site) (code : BitVec 16) (a b u : Nat) :
    PassOnly (s.tile u) ((s.haltTask w code a b).tile u) := by
  have halted := State.passOnly_setTile ((s.tile w.tile).halted_passOnly w.task) u
  rw [State.haltTask_tile, State.haltedAt]
  split
  · split
    · exact halted.trans (State.passFrom_passOnly _ _ _ _)
    · exact halted
  · exact halted

/-- The task that halts has faulted, has lost its loads and keeps the rest but for its overflow room. -/
theorem State.haltTask_taskAt (s : State) (w : Site) (code : BitVec 16) (a b : Nat) : ∃ room,
    (s.haltTask w code a b).taskAt w = { s.taskAt w with state := .faulted, loads := [], hold := .none, roomUsed := room } := by
  have halted : ((s.setTile w.tile ((s.tile w.tile).halted w.task)).tile w.tile).task w.task.val =
      { s.taskAt w with state := .faulted, loads := [], hold := .none } := by
    rw [State.tile_setTile_same]
    exact (s.tile w.tile).halted_task_same w.task
  rw [State.taskAt, State.haltTask_tile, State.haltedAt]
  split
  · split
    · obtain ⟨room, passed⟩ := State.passFrom_faulted (s.setTile w.tile ((s.tile w.tile).halted w.task)) w.tile w.task.val
        (s.tile w.tile).delivered (by rw [halted])
      exact ⟨room, by rw [passed, halted]⟩
    · exact ⟨_, halted⟩
  · exact ⟨_, halted⟩

theorem State.haltedAt_mayBeTold (s : State) (w : Site) (c : Nat) : MayBeTold c s (s.haltedAt w) := by
  have halted : MayBeTold c s (s.setTile w.tile ((s.tile w.tile).halted w.task)) := .of_eq rfl
  rw [State.haltedAt]
  split
  · split
    · exact halted.trans (State.passFrom_mayBeTold _ _ _ _)
    · exact halted
  · exact halted

/-- The tile's job, if it computes, is told to stop (R86). -/
theorem State.haltTask_told {s : State} {w : Site} {c : Nat} (code : BitVec 16) (a b : Nat) (hc : s.ctxOf w.tile = some c) :
    ToldToStop c s (s.haltTask w code a b) := by
  intro h
  obtain ⟨stop, hjob⟩ := s.haltedAt_mayBeTold w c h
  have computes : (((s.haltedAt w).event code kTile c w.tile a b).job c).phase = .compute := by
    rw [(State.event_hostOnly _ _ _ _ _ _ _).job, hjob]
    exact h
  rw [State.haltTask_eq, hc, Option.getD_some, State.stopAtCurfew_compute computes, State.job_setJob_same]
  exact ⟨rfl, computes⟩

theorem PassOnly.padSame {s t : State} {u : Nat} (h : PassOnly (s.tile u) (t.tile u)) : PadSame u s t := by
  obtain ⟨_, _, _, _, _, _, h⟩ := h
  rw [PadSame, h]
  exact ⟨rfl, rfl⟩

/-- A halt writes no byte of a scratchpad (R85). -/
theorem State.haltTask_padSame (s : State) (w : Site) (code : BitVec 16) (a b u : Nat) : PadSame u s (s.haltTask w code a b) :=
  (s.haltTask_passOnly w code a b u).padSame

theorem keepsRegs_of_eq {a b : Task} (hs : b.s = a.s ∧ b.poisonS = a.poisonS) (ha : b.a = a.a ∧ b.poisonA = a.poisonA)
    (hv : b.v = a.v ∧ b.poisonV = a.poisonV) (hp : b.p = a.p) : KeepsRegs [] [] [] [] a b := by
  simp only [KeepsRegs, Task.getS, Task.tagS, Task.getA, Task.tagA, Task.getV, Task.tagV, Task.pred, hs, ha, hv, hp, and_self,
    implies_true]

/-- A halt leaves its task's registers (R85). -/
theorem State.haltTask_keepsRegs (s : State) (w : Site) (code : BitVec 16) (a b : Nat) :
    KeepsRegs [] [] [] [] (s.taskAt w) ((s.haltTask w code a b).taskAt w) := by
  obtain ⟨_, htask⟩ := s.haltTask_taskAt w code a b
  rw [htask]
  exact keepsRegs_of_eq ⟨rfl, rfl⟩ ⟨rfl, rfl⟩ ⟨rfl, rfl⟩ rfl

end Sys2Proof.Machine
end

section
/-! What a register instruction reaches (R81, R121 to R123): whatever it answers, it retires, waits or halts its task, and each of these
stays in its tile, its job's work and the host interface, and writes no byte of scratchpad. -/

namespace Sys2Proof.Machine
open Sys2Proof.Claims

/-- A change of one tile but for the bytes of its scratchpad, with the work that a halt stops. -/
def PadlessWork (u : Nat) (s t : State) : Prop := TileAndWork u s t ∧ (t.tile u).pad = (s.tile u).pad

theorem PadlessWork.refl (u : Nat) (s : State) : PadlessWork u s s := ⟨(WorkOnly.refl s).tileAndWork u, rfl⟩

theorem PadlessWork.trans {u : Nat} {s t v : State} (h : PadlessWork u s t) (k : PadlessWork u t v) : PadlessWork u s v := by
  obtain ⟨frame, pad⟩ := h
  obtain ⟨frame', pad'⟩ := k
  exact ⟨frame.trans frame', pad'.trans pad⟩

theorem State.setTile_padlessWork {s : State} {u : Nat} {x : Tile} (h : x.pad = (s.tile u).pad) : PadlessWork u s (s.setTile u x) :=
  ⟨s.setTile_tileAndWork u x, by rw [State.tile_setTile_same, h]⟩

theorem State.retire_padlessWork (s : State) (w : Site) (t : Task) : PadlessWork w.tile s (s.retire w t) :=
  State.setTile_padlessWork rfl

theorem State.holdTask_padlessWork (s : State) (w : Site) (h : Hold) : PadlessWork w.tile s (s.holdTask w h) :=
  State.setTile_padlessWork rfl

theorem State.haltTask_padlessWork (s : State) (w : Site) (code : BitVec 16) (a b : Nat) :
    PadlessWork w.tile s (s.haltTask w code a b) :=
  ⟨s.haltTask_tileAndWork w code a b, (s.haltTask_padSame w code a b w.tile).1⟩

theorem State.eatTag_padlessWork (s : State) (w : Site) : PadlessWork w.tile s (s.eatTag w) :=
  s.haltTask_padlessWork w 0x0202 (s.where_ w) (Config.consumedAddress s.fresh).toNat

/-! ### Answers -/

/-- The state that an answer gives, if any, differs in no more than that. -/
def StaysIn (u : Nat) (s : State) (o : Out) : Prop := ∀ t, o = .next t → PadlessWork u s t

theorem PadlessWork.staysIn {u : Nat} {s t : State} (h : PadlessWork u s t) : StaysIn u s (.next t) := by
  intro v hv
  cases hv
  exact h

theorem StaysIn.ite {u : Nat} {s : State} {p : Prop} [Decidable p] {a b : Out} (h : StaysIn u s a) (k : StaysIn u s b) :
    StaysIn u s (if p then a else b) := by
  split
  · exact h
  · exact k

/-- An offer reaches no more than the effect that it may have. -/
theorem State.issue_staysIn {s : State} {i : Instr} {w : Site} {eff : State → Out} (h : StaysIn w.tile s (eff s)) :
    StaysIn w.tile s (s.issue i w eff) := by
  rcases s.issue_cases i w eff with offer | ⟨code, a, b, offer⟩ | ⟨n, offer⟩ | ⟨-, offer⟩ <;> rw [offer]
  · exact (PadlessWork.refl w.tile s).staysIn
  · exact (s.haltTask_padlessWork w code a b).staysIn
  · exact (s.retire_padlessWork w _).staysIn
  · exact h

theorem State.regOp_staysIn (s : State) (i : Instr) (w : Site) (o : RegOp) : StaysIn w.tile s (s.regOp i w o) :=
  State.issue_staysIn (.ite (s.haltTask_padlessWork _ _ _ _).staysIn (.ite (s.holdTask_padlessWork _ _).staysIn
    (.ite (s.eatTag_padlessWork w).staysIn (.ite (s.haltTask_padlessWork _ _ _ _).staysIn
      (State.setTile_padlessWork (by rfl)).staysIn))))

/-! ### Branches, FENCE and TFLAG -/

theorem State.branch_staysIn (s : State) (w : Site) (t : Task) (target : Int) : StaysIn w.tile s (s.branch w t target) :=
  have moved := s.retire_padlessWork w (t.branchTo target)
  .ite (moved.trans (State.haltTask_padlessWork _ _ _ _ _)).staysIn moved.staysIn

theorem execBr_staysIn (w : Site) (f : FB) (s : State) : StaysIn w.tile s (execBr w f s) :=
  State.issue_staysIn (.ite (s.haltTask_padlessWork _ _ _ _).staysIn (.ite (s.holdTask_padlessWork _ _).staysIn
    (s.branch_staysIn _ _ _)))

theorem execJr_staysIn (w : Site) (f : FB) (s : State) : StaysIn w.tile s (execJr w f s) :=
  State.issue_staysIn (.ite (s.haltTask_padlessWork _ _ _ _).staysIn (.ite (s.holdTask_padlessWork _ _).staysIn
    (.ite (s.eatTag_padlessWork w).staysIn (.ite (s.haltTask_padlessWork _ _ _ _).staysIn (s.branch_staysIn _ _ _)))))

theorem execLoop_staysIn (w : Site) (f : FB) (s : State) : StaysIn w.tile s (execLoop w f s) :=
  State.issue_staysIn (.ite (s.haltTask_padlessWork _ _ _ _).staysIn (.ite (s.holdTask_padlessWork _ _).staysIn
    (.ite (s.eatTag_padlessWork w).staysIn (.ite (s.retire_padlessWork _ _).staysIn (s.branch_staysIn _ _ _)))))

theorem execFence_staysIn (w : Site) (f : FT) (s : State) : StaysIn w.tile s (execFence w f s) :=
  State.issue_staysIn (.ite (s.haltTask_padlessWork _ _ _ _).staysIn (.ite (s.holdTask_padlessWork _ _).staysIn
    (s.retire_padlessWork _ _).staysIn))

theorem execTflag_staysIn (w : Site) (f : FT) (s : State) : StaysIn w.tile s (execTflag w f s) :=
  State.issue_staysIn (.ite (s.haltTask_padlessWork _ _ _ _).staysIn (s.retire_padlessWork _ _).staysIn)

end Sys2Proof.Machine

namespace Sys2Proof
open Sys2Proof.Machine Sys2Proof.Claims

/-- Settles O15: an instruction of `regOp` reaches what a register operation does, and a branch, FENCE and TFLAG what their own answers
do. -/
theorem registerInstructionsStayInTheirTile : Obligations.RegisterInstructionsStayInTheirTile := by
  unfold Obligations.RegisterInstructionsStayInTheirTile
  intro s t w i hi ht
  have reach : StaysIn w.tile s (exec i s) := by
    rcases hi with ⟨f, rfl⟩ | ⟨f, rfl⟩ | ⟨f, rfl⟩ | ⟨f, rfl⟩ | ⟨f, rfl⟩ | ⟨f, rfl⟩ | ⟨f, rfl⟩ | ⟨f, rfl⟩ | ⟨f, rfl⟩ | ⟨f, rfl⟩ |
      ⟨f, rfl⟩ | ⟨f, rfl⟩ | ⟨f, rfl⟩ | ⟨f, rfl⟩ | ⟨f, rfl⟩ | ⟨f, rfl⟩ | ⟨f, rfl⟩ | ⟨f, rfl⟩ | ⟨f, rfl⟩ | ⟨f, rfl⟩ |
      ⟨f, rfl⟩ | ⟨f, rfl⟩ | ⟨f, rfl⟩ | ⟨f, rfl⟩ | ⟨f, rfl⟩
    -- The first twenty are register operations.
    iterate 20 exact s.regOp_staysIn _ w _
    · exact execBr_staysIn w f s
    · exact execJr_staysIn w f s
    · exact execLoop_staysIn w f s
    · exact execFence_staysIn w f s
    · exact execTflag_staysIn w f s
  obtain ⟨⟨tiles, -, -, mem, health, ports, boot, power, -⟩, pad⟩ := reach t ht
  exact ⟨tiles, mem, ports, boot, power, health, fun a => by rw [pad]⟩

end Sys2Proof
end

section
/-! The scratchpad accesses of a tile's instructions (R85, R88 to R92, R104, R109, R123, R127, R216 to R218, R498): what holds an access
back, in the order of the checks, and then what a load takes and a store writes. -/

namespace Sys2Proof.Machine
open Sys2Proof.Claims

/-! ### Lines and bytes -/

theorem mem_linesOf {pa n l : Nat} : l ∈ linesOf pa n ↔ Touches pa n l := by
  simp only [linesOf, Touches, List.mem_map, List.mem_range]
  constructor
  · rintro ⟨i, hi, rfl⟩
    omega
  · intro h
    exact ⟨l - pa / 64, by omega, by omega⟩

theorem linesOf_any {pa n : Nat} {p : Nat → Bool} : (linesOf pa n).any p = true ↔ ∃ l, Touches pa n l ∧ p l = true := by
  simp only [List.any_eq_true, mem_linesOf]

theorem linesOf_none {pa n : Nat} {p : Nat → Bool} : (linesOf pa n).any p = false ↔ ∀ l, Touches pa n l → p l = false := by
  simp only [List.any_eq_false, mem_linesOf, Bool.not_eq_true]

theorem szBytes_eq (sz : BitVec 2) : szBytes sz = if sz = 1 then 2 else if sz = 2 then 4 else 1 := by
  revert sz; decide

/-- A number's bytes are its digits to base 256. -/
theorem toBytes_getElem (n v i : Nat) (h : i < (toBytes n v).length) : (toBytes n v)[i] = BitVec.ofNat 8 (v / 256 ^ i) := by
  induction n generalizing v i with
  | zero => simp [toBytes] at h
  | succ n ih =>
    cases i with
    | zero => simp [toBytes]
    | succ i =>
      have later := ih (v / 256) i (by simpa using h)
      rw [Nat.div_div_eq_div_mul, ← Nat.pow_succ'] at later
      exact later

theorem toBytes_getElem_bitVec {w : Nat} (n : Nat) (v : BitVec w) (i : Nat) (h : i < (toBytes n v.toNat).length) :
    (toBytes n v.toNat)[i] = v.extractLsb' (8 * i) 8 := by
  apply BitVec.eq_of_toNat_eq
  rw [toBytes_getElem, BitVec.extractLsb'_toNat, BitVec.toNat_ofNat, Nat.shiftRight_eq_div_pow, Nat.pow_mul]

@[simp] theorem vregBytes_length (v : VReg) : (vregBytes v).length = 128 := by simp [vregBytes]

theorem vregBytes_getElem (v : VReg) (i : Nat) (h : i < (vregBytes v).length) : (vregBytes v)[i] = v.extractLsb' (8 * i) 8 := by
  simp [vregBytes]

theorem low4_eq (d : BitVec 5) : low4 d = d.setWidth 4 := by
  revert d; decide

theorem top4_eq_false {d : BitVec 5} (h : d.toNat < 16) : top4 d = false := by
  revert d; decide

/-! ### What holds an access back -/

theorem reaches_iff {s : State} {w : Site} {f : FM} {ss : List (BitVec 5)} {vs : List (BitVec 4)} {n : Nat} :
    Reaches s w f ss vs n ↔ (s.taskAt w).waits ss vs = false ∧ (s.taskAt w).tagA f.ab = false ∧
      (s.taskAt w).offset f + n ≤ 64 * (s.taskAt w).spBound ∧
      ∀ l, Touches ((s.taskAt w).padAddr ((s.taskAt w).offset f)) n l → (s.tile w.tile).markedByDrain l = false := by
  simp only [Reaches, and_imp]

section Access
variable {s : State} {w : Site} {f : FM} {ss : List (BitVec 5)} {vs : List (BitVec 4)} {n : Nat} {store : Bool}
  {eff : State → Nat → Out}

/-- A register that it names waits for a load (R123). -/
theorem State.access_waits (h : (s.taskAt w).waits ss vs = true) :
    s.access w f ss vs n store eff = .next (s.holdTask w .interlock) := if_pos h

variable (hwaits : (s.taskAt w).waits ss vs = false) (htag : (s.taskAt w).tagA f.ab = false)
include hwaits htag

/-- An access of no poisoned address whose registers have come is checked against its region first. -/
theorem State.access_checked : s.access w f ss vs n store eff =
    if !(s.taskAt w).inBounds ((s.taskAt w).offset f) n then .next (s.outOfBounds w ((s.taskAt w).offset f))
    else if (linesOf ((s.taskAt w).padAddr ((s.taskAt w).offset f)) n).any (s.tile w.tile).markedByDrain then
      .next (s.holdTask w .drains)
    else if store && (linesOf ((s.taskAt w).padAddr ((s.taskAt w).offset f)) n).any (s.tile w.tile).heldByChecker then
      .next (s.holdTask w .checker)
    else if !store && decide (8 ≤ (s.taskAt w).loads.length) then .next (s.holdTask w .resource)
    else eff s ((s.taskAt w).offset f) :=
  (if_neg (hwaits ▸ Bool.false_ne_true)).trans (if_neg (htag ▸ Bool.false_ne_true))

/-- Bytes outside its region (R85). -/
theorem State.access_outside (h : 64 * (s.taskAt w).spBound < (s.taskAt w).offset f + n) :
    s.access w f ss vs n store eff = .next (s.outOfBounds w ((s.taskAt w).offset f)) := by
  rw [State.access_checked hwaits htag, if_pos]
  simpa [Task.inBounds] using h

variable (hin : (s.taskAt w).offset f + n ≤ 64 * (s.taskAt w).spBound)
include hin

theorem State.access_inBounds : s.access w f ss vs n store eff =
    if (linesOf ((s.taskAt w).padAddr ((s.taskAt w).offset f)) n).any (s.tile w.tile).markedByDrain then
      .next (s.holdTask w .drains)
    else if store && (linesOf ((s.taskAt w).padAddr ((s.taskAt w).offset f)) n).any (s.tile w.tile).heldByChecker then
      .next (s.holdTask w .checker)
    else if !store && decide (8 ≤ (s.taskAt w).loads.length) then .next (s.holdTask w .resource)
    else eff s ((s.taskAt w).offset f) := by
  rw [State.access_checked hwaits htag, if_neg]
  simpa [Task.inBounds] using hin

/-- A line that a drain has still to write (R104). -/
theorem State.access_marked {l : Nat} (hl : Touches ((s.taskAt w).padAddr ((s.taskAt w).offset f)) n l)
    (h : (s.tile w.tile).markedByDrain l = true) : s.access w f ss vs n store eff = .next (s.holdTask w .drains) := by
  rw [State.access_inBounds hwaits htag hin, if_pos (linesOf_any.2 ⟨l, hl, h⟩)]

variable (hfree : ∀ l, Touches ((s.taskAt w).padAddr ((s.taskAt w).offset f)) n l → (s.tile w.tile).markedByDrain l = false)
include hfree

/-- For a store, a line held for the checker (R498). -/
theorem State.access_held {l : Nat} (hl : Touches ((s.taskAt w).padAddr ((s.taskAt w).offset f)) n l)
    (h : (s.tile w.tile).heldByChecker l = true) : s.access w f ss vs n true eff = .next (s.holdTask w .checker) := by
  rw [State.access_inBounds hwaits htag hin, if_neg (linesOf_none.2 hfree ▸ Bool.false_ne_true), Bool.true_and,
    if_pos (linesOf_any.2 ⟨l, hl, h⟩)]

/-- For a load, eight loads on their way (R109). -/
theorem State.access_full (h : 8 ≤ (s.taskAt w).loads.length) :
    s.access w f ss vs n false eff = .next (s.holdTask w .resource) := by
  rw [State.access_inBounds hwaits htag hin, if_neg (linesOf_none.2 hfree ▸ Bool.false_ne_true)]
  simp [h]

theorem State.access_load (h : (s.taskAt w).loads.length < 8) :
    s.access w f ss vs n false eff = eff s ((s.taskAt w).offset f) := by
  rw [State.access_inBounds hwaits htag hin, if_neg (linesOf_none.2 hfree ▸ Bool.false_ne_true)]
  simp [h]

theorem State.access_store
    (h : ∀ l, Touches ((s.taskAt w).padAddr ((s.taskAt w).offset f)) n l → (s.tile w.tile).heldByChecker l = false) :
    s.access w f ss vs n true eff = eff s ((s.taskAt w).offset f) := by
  rw [State.access_inBounds hwaits htag hin, if_neg (linesOf_none.2 hfree ▸ Bool.false_ne_true), linesOf_none.2 h]
  simp

end Access

/-! ### The four instructions -/

section Instructions
variable {s : State} {w : Site} {f : FM}

theorem exec_ld (h : Takes (.ld w f) w s) : exec (.ld w f) s =
    s.access w f [f.d] [] (szBytes f.sz) false fun s off =>
      .next (s.startLoad w false f.d off (szBytes f.sz) fun l => (loadValue f.sz l).setWidth 1024) := by
  show execLd w f s = _
  rw [execLd, State.issue_take _ _ _ _ h]

theorem exec_st (h : Takes (.st w f) w s) (hsz : f.sz ≠ 3) : exec (.st w f) s =
    s.access w f [f.d] [] (szBytes f.sz) true fun s off =>
      .next (s.startStore w false off (toBytes (szBytes f.sz) ((s.taskAt w).getS f.d).toNat) ((s.taskAt w).tagS f.d)) := by
  show execSt w f s = _
  rw [execSt, State.issue_take _ _ _ _ h, if_neg hsz]

variable (hsz : f.sz = 0) (hd : f.d.toNat < 16)
include hsz hd

theorem exec_vld (h : Takes (.vld w f) w s) : exec (.vld w f) s =
    s.access w f [] [f.d.setWidth 4] 128 false fun s off => .next (s.startLoad w true f.d off 128 vregOf) := by
  show execVld w f s = _
  rw [execVld, State.issue_take _ _ _ _ h, if_neg (by simp [hsz, top4_eq_false hd]), low4_eq]

theorem exec_vst (h : Takes (.vst w f) w s) : exec (.vst w f) s =
    s.access w f [] [f.d.setWidth 4] 128 true fun s off =>
      .next (s.startStore w true off (vregBytes ((s.taskAt w).getV (f.d.setWidth 4))) ((s.taskAt w).tagV (f.d.setWidth 4))) := by
  show execVst w f s = _
  rw [execVst, State.issue_take _ _ _ _ h, if_neg (by simp [hsz, top4_eq_false hd]), low4_eq]

end Instructions

/-! ### The frame of an access -/

section Frame
variable {s : State} {w : Site} {x : Tile}

/-- A tile that has issued, with its instruction store and its tasks as they were. -/
theorem ownTileOnly_issued {t : Task} (hstore : x.store = (s.tile w.tile).store) (htasks : x.tasks = (s.tile w.tile).tasks) :
    OwnTileOnly w s (s.setTile w.tile (x.issued w.task t)) := by
  have htask (k : Nat) : x.task k = (s.tile w.tile).task k := by rw [Tile.task, htasks, Tile.task]
  refine ⟨rfl, fun _ => rfl, fun v hv => State.tile_setTile_other _ _ hv, ?_, fun k hk => ?_⟩ <;> rw [State.tile_setTile_same]
  · exact hstore
  · rw [Tile.issued_task_other _ _ _ hk, htask]

/-- Interlock cycles and the choice of the next free value are no more than an access may change. -/
theorem ownTileOnly_stalled {t : State} (h : OwnTileOnly w s t) (u n k : Nat) :
    OwnTileOnly w s { t.contractStall u n with fresh := k } := by
  obtain ⟨rest, tally, tiles, store, tasks⟩ := h
  obtain ⟨rest', tally'⟩ := t.contractStall_tally u n
  have tile (v : Nat) : ({ t.contractStall u n with fresh := k } : State).tile v = t.tile v := t.contractStall_tile u n v
  refine ⟨?_, fun c => ?_, fun v hv => (tile v).trans (tiles v hv), ?_, fun j hj => ?_⟩
  · rw [← rest]
    exact congrArg (fun t : State => { t with tiles := s.tiles, jobs := s.jobs, fresh := s.fresh }) rest'
  · rw [← tally c]
    exact congrArg (fun j : Job => { j with tally := (s.job c).tally }) (tally' c)
  · rw [tile, store]
  · rw [tile, tasks j hj]

/-- A task that has issued lands at the next word, whatever its loads have become. -/
theorem lands_access {t : State} {loads : List Load}
    (h : t.tile w.tile = x.issued w.task ({ s.taskAt w with loads := loads }.advance 4)) :
    Lands w ((s.taskAt w).pc + 4) [] [] [] [] s t ∧ (t.taskAt w).loads = loads := by
  have htask : t.taskAt w = { ({ s.taskAt w with loads := loads } : Task).advance 4 with hold := .none } := by
    rw [State.taskAt, h, Tile.issued_task_same]
  unfold Lands
  rw [htask, h]
  exact ⟨⟨keepsRegs_of_eq ⟨rfl, rfl⟩ ⟨rfl, rfl⟩ ⟨rfl, rfl⟩ rfl, rfl, rfl, rfl, rfl, rfl, rfl, rfl, rfl, rfl⟩, rfl⟩

end Frame

/-- A misaligned access and the banks that it asks for show in the tile's records and banks alone (R90 to R92). -/
theorem Tile.noteMisaligned_banksOnly (x : Tile) (n : Fin 4) (pc : BitVec 16) (off : Nat) (b : Bool) :
    BanksOnly x (x.noteMisaligned n pc off b) := by
  unfold Tile.noteMisaligned
  split
  · exact ⟨_, _, _, _, rfl⟩
  · exact BanksOnly.refl x

theorem Tile.touch_banksOnly (x : Tile) (n : Fin 4) (pc : BitVec 16) (off pa size : Nat) (b : Bool) :
    BanksOnly x (x.touch n pc off pa size b).1 :=
  (x.noteMisaligned_banksOnly n pc off b).trans (Tile.useLines_banksOnly _ _ _ _ _)

/-! ### Loads -/

/-- A load takes its bytes, as the tile reads them, and the poison of their lines into its task's list, and changes no register and no
byte (R88, R97). -/
theorem State.startLoad_frame (s : State) (w : Site) (vector : Bool) (dest : BitVec 5) (off n : Nat) (value : List Byte → VReg) :
    let t := s.startLoad w vector dest off n value
    let pa := (s.taskAt w).padAddr off
    let x := (s.tile w.tile).seen s.fresh
    OwnTileOnly w s t ∧ PadSame w.tile s t ∧ Lands w ((s.taskAt w).pc + 4) [] [] [] [] s t ∧
      ∃ poison, (poison = true ↔ ∃ l, Touches pa n l ∧ l ∈ x.padPoison) ∧
        (t.taskAt w).loads = (s.taskAt w).loads ++ [⟨vector, (s.taskAt w).pc, dest, value (x.pad.read pa n), poison⟩] := by
  intro t pa x
  let u := (s.tile w.tile).touch w.task (s.taskAt w).pc off pa n (misaligned vector off n)
  let load : Load := ⟨vector, (s.taskAt w).pc, dest, value (x.padRead pa n).1, (x.padRead pa n).2⟩
  let issued := u.1.issued w.task ({ s.taskAt w with loads := (s.taskAt w).loads ++ [load] }.advance 4)
  obtain ⟨banks, waits, records, extra, hu⟩ : BanksOnly (s.tile w.tile) u.1 := Tile.touch_banksOnly _ _ _ _ _ _ _
  have htile : t.tile w.tile = issued :=
    (State.contractStall_tile (s.setTile w.tile issued) w.tile u.2 w.tile).trans (State.tile_setTile_same _ _ _)
  have frame : OwnTileOnly w s (s.setTile w.tile issued) := ownTileOnly_issued (by rw [hu]) (by rw [hu])
  obtain ⟨lands, loads⟩ := lands_access htile
  refine ⟨ownTileOnly_stalled frame _ _ _, ?_, lands, (x.padRead pa n).2, ?_, loads⟩
  · rw [PadSame, htile]
    exact ⟨(congrArg Tile.pad hu :), (congrArg Tile.padPoison hu :)⟩
  · simp only [Tile.padRead, linesOf_any, decide_eq_true_eq]

theorem Tile.seen_quiet {x : Tile} (fresh : Nat) (h : x.inFlight = []) : x.seen fresh = x := if_pos h

/-- The bytes by SZ that the statements list are those of the model. -/
theorem szBytes_of_cases {sz : BitVec 2} {n : Nat}
    (h : (sz = 0 ∧ n = 1) ∨ (sz = 1 ∧ n = 2) ∨ (sz = 2 ∧ n = 4) ∨ (sz = 3 ∧ n = 1)) : szBytes sz = n := by
  rcases h with ⟨rfl, rfl⟩ | ⟨rfl, rfl⟩ | ⟨rfl, rfl⟩ | ⟨rfl, rfl⟩ <;> rfl

theorem loadsIssue : LoadsIssue := by
  refine ⟨fun s w f n htake hn hreach hroom => ⟨Tile.seen_quiet _, ?_⟩,
    fun s w f htake hsz hd hreach hroom => ⟨Tile.seen_quiet _, ?_⟩⟩
  · obtain ⟨hwaits, htag, hin, hfree⟩ := reaches_iff.1 hreach
    have hexec := exec_ld htake
    rw [szBytes_of_cases hn, State.access_load hwaits htag hin hfree hroom] at hexec
    obtain ⟨frame, pad, lands, poison, hpoison, loads⟩ :=
      s.startLoad_frame w false f.d ((s.taskAt w).offset f) n fun l => (loadValue f.sz l).setWidth 1024
    exact ⟨_, poison, hexec, frame, pad, lands, hpoison, loads⟩
  · obtain ⟨hwaits, htag, hin, hfree⟩ := reaches_iff.1 hreach
    have hexec := exec_vld hsz hd htake
    rw [State.access_load hwaits htag hin hfree hroom] at hexec
    obtain ⟨frame, pad, lands, poison, hpoison, loads⟩ := s.startLoad_frame w true f.d ((s.taskAt w).offset f) 128 vregOf
    exact ⟨_, poison, hexec, frame, pad, lands, hpoison, loads⟩

end Sys2Proof.Machine
end

section
/-! The return of a load, the stores, and what an access waits for (R88, R92, R104, R109, R123, R127, R216 to R218, R498). -/

namespace Sys2Proof.Machine
open Sys2Proof.Claims

/-! ### Tags of registers (R216) -/

theorem getLsbD_putTag_same {w : Nat} (m : BitVec w) {n : Nat} (b : Bool) (h : n < w) : (putTag m n b).getLsbD n = b := by
  cases b <;> simp [putTag, h]

theorem getLsbD_putTag_other {w : Nat} (m : BitVec w) {n k : Nat} (b : Bool) (h : k ≠ n) :
    (putTag m n b).getLsbD k = m.getLsbD k := by
  have bit : (1#w <<< n).getLsbD k = false := by
    simp only [BitVec.getLsbD_shiftLeft, BitVec.getLsbD_one, Bool.and_eq_false_iff, Bool.not_eq_false', decide_eq_true_eq,
      decide_eq_false_iff_not]
    omega
  cases b with
  | true => rw [putTag, if_pos rfl, BitVec.getLsbD_or, bit, Bool.or_false]
  | false =>
    rw [putTag, if_neg Bool.false_ne_true, BitVec.getLsbD_and, BitVec.getLsbD_not, bit]
    simpa using BitVec.lt_of_getLsbD

@[simp] theorem Task.tagS_setS_same (t : Task) (n : BitVec 5) (v : Word) (b : Bool) : (t.setS n v b).tagS n = b :=
  getLsbD_putTag_same _ b n.isLt

theorem Task.tagS_setS_other (t : Task) {n k : BitVec 5} (v : Word) (b : Bool) (h : k ≠ n) : (t.setS n v b).tagS k = t.tagS k :=
  getLsbD_putTag_other _ b fun e => h (BitVec.eq_of_toNat_eq e)

@[simp] theorem Task.tagV_setV_same (t : Task) (n : BitVec 4) (v : VReg) (b : Bool) : (t.setV n v b).tagV n = b :=
  getLsbD_putTag_same _ b n.isLt

theorem Task.tagV_setV_other (t : Task) {n k : BitVec 4} (v : VReg) (b : Bool) (h : k ≠ n) : (t.setV n v b).tagV k = t.tagV k :=
  getLsbD_putTag_other _ b fun e => h (BitVec.eq_of_toNat_eq e)

theorem Task.keepsRegs_setS (t : Task) (n : BitVec 5) (v : Word) (b : Bool) : KeepsRegs [n] [] [] [] t (t.setS n v b) := by
  refine ⟨fun k hk => ?_, fun _ _ => ⟨rfl, rfl⟩, fun _ _ => ⟨rfl, rfl⟩, fun _ _ => rfl⟩
  have hk : k ≠ n := by simpa using hk
  exact ⟨Task.getS_setS_other t v b hk, Task.tagS_setS_other t v b hk⟩

theorem Task.keepsRegs_setV (t : Task) (n : BitVec 4) (v : VReg) (b : Bool) : KeepsRegs [] [] [n] [] t (t.setV n v b) := by
  refine ⟨fun _ _ => ⟨rfl, rfl⟩, fun _ _ => ⟨rfl, rfl⟩, fun k hk => ?_, fun _ _ => rfl⟩
  have hk : k ≠ n := by simpa using hk
  exact ⟨Task.getV_setV_other t v b hk, Task.tagV_setV_other t v b hk⟩

/-! ### The return of a load -/

/-- A change of one task leaves the rest of the module. -/
theorem State.setTaskAt_frame (s : State) (w : Site) (t : Task) :
    { s.setTaskAt w t with tiles := s.tiles } = s ∧ (∀ v, v ≠ w.tile → (s.setTaskAt w t).tile v = s.tile v) ∧
      PadSame w.tile s (s.setTaskAt w t) ∧
      ∀ k, k ≠ w.task.val → ((s.setTaskAt w t).tile w.tile).task k = (s.tile w.tile).task k := by
  refine ⟨rfl, fun v hv => State.tile_setTile_other _ _ hv, ?_, fun k hk => ?_⟩
  · rw [PadSame, State.setTaskAt, State.tile_setTile_same]
    exact ⟨rfl, rfl⟩
  · rw [State.setTaskAt, State.tile_setTile_same, Tile.task_setTask_other _ _ hk]

/-- A task once its load number `n`, which is `l`, has returned. -/
def Task.returned (t : Task) (n : Nat) (l : Load) : Task :=
  if l.vector then ({ t with loads := t.loads.eraseIdx n } : Task).setV (low4 l.dest) l.data l.poison
  else ({ t with loads := t.loads.eraseIdx n } : Task).setS l.dest (l.data.setWidth 32) l.poison

section
variable {s : State} {w : Site} {n : Nat} {l : Load} (hl : (s.taskAt w).loads[n]? = some l)
include hl

theorem exec_scratchpadLoadReturn (h : (s.tile w.tile).bankLate w.task l.pc = false) :
    exec (.scratchpadLoadReturn w n) s = .next (s.setTaskAt w ((s.taskAt w).returned n l)) := by
  show execScratchpadLoadReturn w n s = _
  simp only [execScratchpadLoadReturn, hl, h, Bool.false_eq_true, if_false]
  rfl

/-- A load whose access waits for a bank comes later (R92). -/
theorem exec_scratchpadLoadReturn_late (h : (s.tile w.tile).bankLate w.task l.pc = true) :
    exec (.scratchpadLoadReturn w n) s = .next s := by
  show execScratchpadLoadReturn w n s = _
  simp only [execScratchpadLoadReturn, hl, h, if_true]

end

theorem Tile.bankLate_iff {x : Tile} {n : Fin 4} {pc : BitVec 16} :
    x.bankLate n pc = true ↔ ∃ u ∈ x.bankWaits, u.prio = 3 ∧ u.task = n ∧ u.pc = pc := by
  simp [Tile.bankLate, and_assoc]

theorem Task.returned_keeps (t : Task) (n : Nat) (l : Load) :
    (t.returned n l).loads = t.loads.eraseIdx n ∧ (t.returned n l).pc = t.pc := by
  unfold Task.returned
  split <;> exact ⟨rfl, rfl⟩

theorem loadReturns : LoadReturns := by
  intro s w n l hl hdest
  refine ⟨fun hbanks => ?_, fun u hu hprio htask hpc =>
    exec_scratchpadLoadReturn_late hl (Tile.bankLate_iff.2 ⟨u, hu, hprio, htask, hpc⟩)⟩
  have onTime : (s.tile w.tile).bankLate w.task l.pc = false := by
    rw [← Bool.not_eq_true, Tile.bankLate_iff]
    rintro ⟨u, hu, late⟩
    exact hbanks u hu late
  obtain ⟨rest, tiles, pad, tasks⟩ := s.setTaskAt_frame w ((s.taskAt w).returned n l)
  obtain ⟨loads, pc⟩ := (s.taskAt w).returned_keeps n l
  refine ⟨_, exec_scratchpadLoadReturn hl onTime, rest, tiles, pad, tasks, ?_⟩
  rw [State.taskAt_setTaskAt]
  refine ⟨loads, pc, fun hv => ?_, fun hv => ?_⟩
  · rw [Task.returned, if_neg (hv ▸ Bool.false_ne_true)]
    exact ⟨Task.keepsRegs_setS _ _ _ _, Task.getS_setS_same _ _ _ _, Task.tagS_setS_same _ _ _ _⟩
  · rw [Task.returned, if_pos hv, low4_eq]
    exact ⟨Task.keepsRegs_setV _ _ _ _, Task.getV_setV_same _ _ _ _, Task.tagV_setV_same _ _ _ _⟩

/-! ### Stores -/

/-- The poison of lines after a write of some: each takes the write's, or keeps its own as well where the write is partial (R216,
R217). -/
theorem mem_foldl_setMember {poison whole : Bool} {l : Nat} (ls p : List Nat) :
    l ∈ ls.foldl (fun p l => setMember p l (poison || (!whole && decide (l ∈ p)))) p ↔
      if l ∈ ls then poison = true ∨ (whole = false ∧ l ∈ p) else l ∈ p := by
  induction ls generalizing p with
  | nil => simp
  | cons k ks ih =>
    rw [List.foldl_cons, ih, mem_setMember]
    by_cases hk : l = k
    · subst hk
      simp only [List.mem_cons, true_or, if_true]
      simp only [Bool.or_eq_true, Bool.and_eq_true, Bool.not_eq_true', decide_eq_true_eq]
      split <;> tauto
    · simp [hk]

theorem Tile.mem_padWrite_padPoison {x : Tile} {pa l : Nat} {data : List Byte} {poison whole : Bool} :
    l ∈ (x.padWrite pa data poison whole).padPoison ↔
      if Touches pa data.length l then poison = true ∨ (whole = false ∧ l ∈ x.padPoison) else l ∈ x.padPoison := by
  simp only [← mem_linesOf]
  exact mem_foldl_setMember _ _

/-- A store writes its bytes and the poison of their lines, and changes no register. -/
theorem State.startStore_frame (s : State) (w : Site) (vector : Bool) (off : Nat) (data : List Byte) (tag : Bool) :
    let t := s.startStore w vector off data tag
    let x := s.tile w.tile
    let pa := (s.taskAt w).padAddr off
    OwnTileOnly w s t ∧ Lands w ((s.taskAt w).pc + 4) [] [] [] [] s t ∧ (t.taskAt w).loads = (s.taskAt w).loads ∧
      (t.tile w.tile).pad = x.pad.write pa data ∧
      ∀ l, l ∈ (t.tile w.tile).padPoison ↔ if Touches pa data.length l then
        tag = true ∨ ((vector && off % 64 == 0) = false ∧ l ∈ x.padPoison) else l ∈ x.padPoison := by
  intro t x pa
  obtain ⟨banks, waits, records, extra, hnoted⟩ : BanksOnly x (x.noteMisaligned w.task (s.taskAt w).pc off _) :=
    Tile.noteMisaligned_banksOnly _ _ _ _ (misaligned vector off data.length)
  let y : Tile := { x.noteMisaligned w.task (s.taskAt w).pc off (misaligned vector off data.length) with
    bankNext := (x.noteMisaligned w.task (s.taskAt w).pc off (misaligned vector off data.length)).bankNext ++
      bankUses 3 w.task (s.taskAt w).pc (linesOf pa data.length) }
  have htile : t.tile w.tile = (y.padWrite pa data tag (vector && off % 64 == 0)).issued w.task ((s.taskAt w).advance 4) :=
    State.tile_setTile_same _ _ _
  obtain ⟨lands, loads⟩ := lands_access (loads := (s.taskAt w).loads) htile
  have pad : y.pad = x.pad := (congrArg Tile.pad hnoted :)
  have poison : y.padPoison = x.padPoison := (congrArg Tile.padPoison hnoted :)
  refine ⟨ownTileOnly_issued (congrArg Tile.store hnoted :) (congrArg Tile.tasks hnoted :), lands, loads, ?_, fun l => ?_⟩
  · rw [htile, Tile.issued_pad, Tile.padWrite_pad, pad]
  · rw [htile, Tile.issued_padPoison, Tile.mem_padWrite_padPoison, poison]

theorem storesLand : StoresLand := by
  refine ⟨fun s w f n hwf htake hn hreach => ?_, fun s w f hwf htake hsz hd hreach => ?_⟩
  · intro pa hheld
    obtain ⟨hwaits, htag, hin, hfree⟩ := reaches_iff.1 hreach
    have size : szBytes f.sz = n := szBytes_of_cases (by tauto)
    have hsz : f.sz ≠ 3 := by
      rintro h
      simp [h] at hn
    have hexec := exec_st htake hsz
    rw [size, State.access_store hwaits htag hin hfree hheld] at hexec
    obtain ⟨frame, lands, loads, pad, poison⟩ := s.startStore_frame w false ((s.taskAt w).offset f)
      (toBytes n ((s.taskAt w).getS f.d).toNat) ((s.taskAt w).tagS f.d)
    refine ⟨_, hexec, frame, lands, loads, fun i hi => ?_, fun a ha => ?_, fun l => ?_⟩
    · have hi' : i < (toBytes n ((s.taskAt w).getS f.d).toNat).length := by simpa using hi
      rw [pad, ← toBytes_getElem_bitVec n _ i hi']
      exact Mem.get_write_inside _ _ _ _ hwf hi'
    · rw [pad]
      exact Mem.get_write_outside _ _ _ _ (by rwa [toBytes_length])
    · rw [poison, toBytes_length]
      change (if Touches pa n l then _ else _) ↔ _
      split <;> simp <;> tauto
  · intro off pa hheld
    obtain ⟨hwaits, htag, hin, hfree⟩ := reaches_iff.1 hreach
    have hexec := exec_vst hsz hd htake
    rw [State.access_store hwaits htag hin hfree hheld] at hexec
    obtain ⟨frame, lands, loads, pad, poison⟩ := s.startStore_frame w true ((s.taskAt w).offset f)
      (vregBytes ((s.taskAt w).getV (f.d.setWidth 4))) ((s.taskAt w).tagV (f.d.setWidth 4))
    refine ⟨_, hexec, frame, lands, loads, fun i hi => ?_, fun a ha => ?_, fun l => ?_⟩
    · have hi' : i < (vregBytes ((s.taskAt w).getV (f.d.setWidth 4))).length := by simpa using hi
      rw [pad, ← vregBytes_getElem _ i hi']
      exact Mem.get_write_inside _ _ _ _ hwf hi'
    · rw [pad]
      exact Mem.get_write_outside _ _ _ _ (by rwa [vregBytes_length])
    · rw [poison, vregBytes_length]
      simp only [Bool.true_and, beq_eq_false_iff_ne]
      exact Iff.rfl

/-! ### What an access waits for -/

theorem accessesWait : AccessesWait := by
  intro s w f x t off pa n
  have size : szBytes f.sz = n := szBytes_eq f.sz
  refine ⟨fun htake => ?_, fun htake hsz => ?_, fun htake hsz hd => ?_, fun htake hsz hd => ?_, fun h => ?_⟩
  · rw [exec_ld htake, size]
    exact ⟨State.access_waits, fun hwaits htag hin => ⟨fun l hl => State.access_marked hwaits htag hin hl,
      State.access_full hwaits htag hin⟩⟩
  · rw [exec_st htake hsz, size]
    exact ⟨State.access_waits, fun hwaits htag hin => ⟨fun l hl => State.access_marked hwaits htag hin hl,
      fun hfree l hl => State.access_held hwaits htag hin hfree hl⟩⟩
  · rw [exec_vld hsz hd htake]
    exact ⟨State.access_waits, fun hwaits htag hin => ⟨fun l hl => State.access_marked hwaits htag hin hl,
      State.access_full hwaits htag hin⟩⟩
  · rw [exec_vst hsz hd htake]
    exact ⟨State.access_waits, fun hwaits htag hin => ⟨fun l hl => State.access_marked hwaits htag hin hl,
      fun hfree l hl => State.access_held hwaits htag hin hfree hl⟩⟩
  · obtain ⟨rest, tiles, pad, tasks⟩ := s.setTaskAt_frame w { t with hold := h }
    exact ⟨rest, tiles, pad, tasks, State.taskAt_setTaskAt _ _ _⟩

end Sys2Proof.Machine

namespace Sys2Proof
open Sys2Proof.Machine Sys2Proof.Claims

/-- Settles O3: what an access that nothing holds back takes, and what it brings to its register when its bank has served it. -/
theorem loads : Obligations.Loads := ⟨loadsIssue, loadReturns⟩

/-- Settles O4: the bytes and the poison of a store's one write, and each check that comes before it. -/
theorem storesWrite : Obligations.StoresWrite := ⟨storesLand, accessesWait⟩

/-- Settles O5: an access that reaches the check of its region fails it, and a halt writes no byte and no register. -/
theorem outOfBoundsHalts : Obligations.OutOfBoundsHalts := by
  unfold Obligations.OutOfBoundsHalts
  refine ⟨fun s w f hclear => ?_, fun s w f hsz hd hwaits htag => ?_, fun s w code a b c => ?_⟩
  · intro off addr
    obtain ⟨hwaits, -, htags⟩ := hclear
    have htag := htags f.ab (by simp)
    rw [← szBytes_eq]
    refine ⟨fun htake hout => ?_, fun htake hsz hout => ?_⟩
    · rw [exec_ld htake]
      exact State.access_outside hwaits htag hout
    · rw [exec_st htake hsz]
      exact State.access_outside hwaits htag hout
  · intro off addr hout
    refine ⟨fun htake => ?_, fun htake => ?_⟩
    · rw [exec_vld hsz hd htake]
      exact State.access_outside hwaits htag hout
    · rw [exec_vst hsz hd htake]
      exact State.access_outside hwaits htag hout
  · obtain ⟨room, htask⟩ := s.haltTask_taskAt w code a b
    obtain ⟨-, -, -, mem, -⟩ := s.haltTask_tileAndWork w code a b
    exact ⟨congrArg Task.state htask, s.haltTask_keepsRegs w code a b, s.haltTask_padSame w code a b, mem,
      State.haltTask_told code a b⟩

end Sys2Proof
end

section
/-! The completion of a descriptor (R97, R220, R261, R265): it leaves its Ostler, its token and its lines in flight become visible in the
tile that it writes, and the rest changes its ring, its action's count and, where it ended early, its job. -/

namespace Sys2Proof.Machine
open Sys2Proof.Claims

/-! ### What a stop leaves of the descriptors -/

theorem HostOnly.descs {s t : State} (h : HostOnly s t) : t.descs = s.descs := by
  obtain ⟨_, rfl⟩ := h
  rfl

theorem State.abandon_descs (s : State) (c : Nat) : (s.abandon c).descs = s.descs.filter fun d => d.ctx.val ≠ c := by
  unfold State.abandon
  extract_lets gone s1 p p1 q1 s2
  exact ((abandonRings_hostOnly s2 c (List.range 64)).trans (abandonSteps_hostOnly _ c (List.range 64))).descs

/-- A stop may take descriptors away, and adds none. -/
theorem State.stopAtCurfew_descs {s : State} {c : Nat} {q : Desc} (h : q ∈ (s.stopAtCurfew c).descs) : q ∈ s.descs := by
  have stopped (h : q ∈ (s.stopNow c).descs) : q ∈ s.descs := by
    rw [State.stopNow, State.setJob_descs, State.abandon_descs] at h
    exact (List.mem_filter.1 h).1
  unfold State.stopAtCurfew at h
  dsimp only at h
  split at h
  · exact stopped h
  · exact stopped h
  · exact h
  · exact h
  · exact h

/-- Completing an entry, or counting it for its action, changes the host interface or the actions of a job. -/
theorem State.finishDesc_keeps (s : State) (src : Source) (index : BitVec 16) (ctx : Nat) (action : Option Nat) (status : Byte)
    (a b c : Nat) :
    let t := s.finishDesc src index ctx action status a b c
    WorkOnly s t ∧ t.descs = s.descs ∧ (t.job ctx).phase = (s.job ctx).phase := by
  cases src with
  | ring r =>
    have host := s.complete_hostOnly r.val index status (BitVec.ofNat 64 a) (BitVec.ofNat 64 b) (BitVec.ofNat 64 c)
    exact ⟨host.work, host.descs, congrArg Job.phase (host.job ctx)⟩
  | engine e => exact ⟨s.setJob_work _ _, rfl, (congrArg Job.phase (State.job_setJob_same s ctx _) :)⟩

/-! ### The completion -/

/-- An Ostler that has let go of a descriptor's chunk. -/
def Ostler.released (id : Nat) (o : Ostler) : Ostler :=
  match o.current with
  | some k => if k.desc = id then { o with current := none, bounce := false } else o
  | none => o

/-- The state with a descriptor gone from its Ostler and its token delivered. -/
def State.descDelivered (s : State) (q : Desc) : State :=
  { s with descs := s.descs.filter (fun e => e.id ≠ q.id), ostlers := s.ostlers.mapAll (Ostler.released q.id) }.deliverToken
    q.id (odesc q.raw) (q.ended != some 3)

/-- The state with a descriptor's entry completed too. -/
def State.descFinished (s : State) (q : Desc) : State :=
  (s.descDelivered q).finishDesc q.src q.index q.ctx.val q.action (q.ended.getD (if q.poisonMoved then 1 else 0)) q.fills q.dropped
    (q.bits / 8)

theorem State.completeDesc_eq (s : State) (q : Desc) : s.completeDesc q =
    if q.ended.isSome then (s.descFinished q).stopAtCurfew q.ctx.val else s.descFinished q := rfl

theorem State.descDelivered_untiled {q : Desc} (s : State) (h : (odesc q.raw).dstTile = none) : (s.descDelivered q).tiles = s.tiles := by
  rw [State.descDelivered, State.deliverToken, h]

theorem State.descDelivered_tile {q : Desc} {b : TileBase} (s : State) (h : (odesc q.raw).dstTile = some b) :
    let x : Tile := { s.tile b.tile with inFlight := (s.tile b.tile).inFlight.filter fun f => f.desc ≠ q.id }
    (s.descDelivered q).tile b.tile =
      if q.ended != some 3 then x.setTask b.task ((x.task b.task).advanceToken (odesc q.raw).token) else x := by
  rw [State.descDelivered, State.deliverToken, h]
  exact State.tile_setTile_same _ _ _

/-- What the delivery leaves: the descriptors but for this one, memory, the ports and the jobs. -/
theorem State.descDelivered_keeps (s : State) (q : Desc) : (s.descDelivered q).descs = s.descs.filter (fun e => e.id ≠ q.id) ∧
    (s.descDelivered q).mem = s.mem ∧ (s.descDelivered q).ports = s.ports ∧ (s.descDelivered q).jobs = s.jobs := by
  unfold State.descDelivered State.deliverToken
  split <;> exact ⟨rfl, rfl, rfl, rfl⟩

/-- Completing the entry and stopping the job leave the tiles, memory and the ports, and add no descriptor. -/
theorem State.completeDesc_work (s : State) (q : Desc) :
    WorkOnly (s.descDelivered q) (s.completeDesc q) ∧ ∀ e ∈ (s.completeDesc q).descs, e ∈ (s.descDelivered q).descs := by
  obtain ⟨work, descs, -⟩ := (s.descDelivered q).finishDesc_keeps q.src q.index q.ctx.val q.action
    (q.ended.getD (if q.poisonMoved then 1 else 0)) q.fills q.dropped (q.bits / 8)
  rw [State.completeDesc_eq, ← descs]
  split
  · exact ⟨work.trans (State.stopAtCurfew_work _ _), fun _ => State.stopAtCurfew_descs⟩
  · exact ⟨work, fun _ => id⟩

/-- A descriptor that ended early stops its job (R220, R261). -/
theorem State.completeDesc_told {s : State} {q : Desc} (h : q.ended.isSome = true) : ToldToStop q.ctx.val s (s.completeDesc q) := by
  intro hp
  obtain ⟨-, -, -, jobs⟩ := s.descDelivered_keeps q
  obtain ⟨-, -, phase⟩ := (s.descDelivered q).finishDesc_keeps q.src q.index q.ctx.val q.action
    (q.ended.getD (if q.poisonMoved then 1 else 0)) q.fills q.dropped (q.bits / 8)
  have computes : ((s.descFinished q).job q.ctx.val).phase = .compute := by
    rw [State.descFinished, phase, State.job, jobs]
    exact hp
  rw [State.completeDesc_eq, if_pos h, State.stopAtCurfew_compute computes, State.job_setJob_same]
  exact ⟨rfl, computes⟩

theorem exec_ostlerDescriptorComplete {s : State} {id : Nat} {q : Desc} (h : s.desc id = some q) :
    exec (.ostlerDescriptorComplete id) s =
      if q.chunksLeft = 0 ∧ q.next = (odesc q.raw).total then .next (s.completeDesc q) else .next s := by
  show execOstlerDescriptorComplete id s = _
  rw [execOstlerDescriptorComplete, h]

theorem State.desc_id {s : State} {id : Nat} {q : Desc} (h : s.desc id = some q) : q.id = id := by
  simpa using List.find?_some h

end Sys2Proof.Machine

namespace Sys2Proof
open Sys2Proof.Machine Sys2Proof.Claims

/-- Settles O26: the tile as the delivery of the token leaves it, which nothing after that changes. -/
theorem descriptorsComplete : Obligations.DescriptorsComplete := by
  unfold Obligations.DescriptorsComplete
  intro s id q hq
  refine ⟨fun hleft htotal => ?_, fun hleft => by rw [exec_ostlerDescriptorComplete hq, if_neg (fun h => hleft h.1)]⟩
  obtain rfl := State.desc_id hq
  obtain ⟨work, fewer⟩ := s.completeDesc_work q
  obtain ⟨descs, mem, ports, -⟩ := s.descDelivered_keeps q
  have same := work.tile
  obtain ⟨-, -, tiles, -, mem', -, ports', -⟩ := work
  refine ⟨_, by rw [exec_ostlerDescriptorComplete hq, if_pos ⟨hleft, htotal⟩], ?_, mem'.trans mem, ports'.trans ports, fun b hb => ?_,
    fun hb => tiles.trans (s.descDelivered_untiled hb), State.completeDesc_told⟩
  · rw [State.desc, List.find?_eq_none]
    intro e he
    have kept := fewer e he
    rw [descs] at kept
    simpa using (List.mem_filter.1 kept).2
  · rw [PadSame, same, s.descDelivered_tile hb]
    refine ⟨fun hok => ?_, fun hfail => ?_, fun f hf => ?_, ?_⟩
    · rw [if_pos (by simpa using hok), Tile.task_setTask_same]
      exact Tbl.get_set_same _ _ _ _
    · rw [if_neg (by simp [hfail])]
      rfl
    · have landed : f ∈ (s.tile b.tile).inFlight.filter fun f => f.desc ≠ q.id := by
        split at hf <;> exact hf
      simpa using (List.mem_filter.1 landed).2
    · split <;> exact ⟨rfl, rfl⟩

end Sys2Proof
end

section
/-! What freezes and ends a Caravan (R94, R131, R157, R192, R193, R196, R603): a freeze is its own job's alone; at the end the records
of the Caravan are sent, the tables swap, the tensor slots fill and the handler passes begin, or the job stops. -/

namespace Sys2Proof.Machine
open Sys2Proof.Claims

/-! ### Freezes (R192, R193) -/

/-- The state with a job's exchange frozen for 32 core cycles, which a cause of its Tally takes. -/
def State.frozenFor (s : State) (c cause : Nat) : State :=
  (s.setJob c { s.job c with frozen := 32, thawed := true }).tallyAdd c cause 32

theorem exec_freezeDecision {s : State} {c : Fin 8} (retry refresh : Bool) (hphase : (s.job c.val).phase = .caravan)
    (hfrozen : (s.job c.val).frozen = 0) (hclock : (s.job c.val).clock % 32 = 0)
    (hdue : 0 < (s.job c.val).clock ∨ (s.job c.val).thawed = true) :
    exec (.freezeDecision c retry refresh) s = .next (if (retry && s.retrying c.val) = true ∨ refresh = true then
      s.frozenFor c.val (if retry && s.retrying c.val then 7 else 9) else s) := by
  have due : ¬ ((s.job c.val).phase ≠ .caravan ∨ (s.job c.val).frozen ≠ 0 ∨ (s.job c.val).clock % 32 ≠ 0 ∨
      ((s.job c.val).clock = 0 ∧ !(s.job c.val).thawed)) := by
    rintro (h | h | h | ⟨hzero, hthawed⟩)
    · exact h hphase
    · exact h hfrozen
    · exact h hclock
    · rcases hdue with h | h
      · omega
      · simp [h] at hthawed
  show execFreezeDecision c retry refresh s = _
  rw [execFreezeDecision, if_neg due]
  simp only [Bool.and_eq_true]
  split <;> rfl

theorem State.frozenFor_job (s : State) (c cause : Nat) : (s.frozenFor c cause).job c = { s.job c with
    frozen := 32, thawed := true, tally := (s.job c).tally.set cause ((s.job c).tally.get 0 cause + 32) } := by
  rw [State.frozenFor, State.tallyAdd, State.job_setJob_same, State.job_setJob_same]
  rfl

theorem State.frozenFor_jobOnly (s : State) (c cause : Nat) : JobOnly c s (s.frozenFor c cause) := by
  refine ⟨rfl, fun d hd => ?_⟩
  rw [State.frozenFor, State.tallyAdd, State.job_setJob_other _ _ hd, State.job_setJob_other _ _ hd]

/-! ### The records of a Caravan (R94) -/

/-- What sending the records of a Caravan changes: the host interface, and the records in the tiles. -/
def RecordsSent (s t : State) : Prop := RecordsOnly s t ∧ ∃ host tiles, t = { s with host := host, tiles := tiles }

theorem RecordsSent.refl (s : State) : RecordsSent s s := ⟨RecordsOnly.refl s, _, _, rfl⟩

theorem RecordsSent.trans {s t u : State} (h : RecordsSent s t) (k : RecordsSent t u) : RecordsSent s u := by
  obtain ⟨records, _, _, rfl⟩ := h
  obtain ⟨records', _, _, rfl⟩ := k
  exact ⟨RecordsOnly.trans records records', _, _, rfl⟩

theorem HostOnly.recordsSent {s t : State} (h : HostOnly s t) : RecordsSent s t := by
  obtain ⟨_, rfl⟩ := h
  exact ⟨RecordsOnly.refl s, _, _, rfl⟩

theorem RecordsSent.jobs {s t : State} (h : RecordsSent s t) : t.jobs = s.jobs := by
  obtain ⟨-, _, _, rfl⟩ := h
  rfl

theorem RecordsSent.mem {s t : State} (h : RecordsSent s t) : t.mem = s.mem := by
  obtain ⟨-, _, _, rfl⟩ := h
  rfl

theorem State.sendRecords_hostOnly (s : State) (c tile : Nat) (l : List Contract) (extra : Nat) :
    HostOnly s (s.sendRecords c tile l extra) :=
  List.foldlRecOn l.zipIdx _ (motive := HostOnly s) (HostOnly.refl s) fun _ ht _ _ => ht.trans (State.raise_hostOnly _ _)

theorem State.caravanRecords_sent (s : State) (c : Nat) : RecordsSent s (s.caravanRecords c) := by
  refine List.foldlRecOn s.tiles _ (motive := RecordsSent s) (RecordsSent.refl s) fun t ht e _ => ht.trans ?_
  dsimp only
  split
  · refine (t.sendRecords_hostOnly c e.1 e.2.caravanRecords e.2.caravanOver).recordsSent.trans ⟨fun u => ?_, _, _, rfl⟩
    rw [State.tile_setTile]
    split
    · next hu => exact ⟨_, _, by rw [hu]⟩
    · exact ⟨_, _, rfl⟩
  · exact RecordsSent.refl t

/-! ### A stop at the Caravan's end (R603) -/

theorem StopsOnly.closing {c : Nat} {s t : State} (h : StopsOnly c s t) : (t.job c).closing = (s.job c).closing := by
  obtain ⟨_, _, _, own⟩ := h
  have kept : (t.job c).unstopped.closing = (s.job c).unstopped.closing := congrArg Job.closing own
  exact kept

/-- A job that stops where it stands, and is not being ended, has stopped and holds no message. -/
theorem State.stopNow_stopped {s : State} {c : Nat} (h : (s.job c).closing = []) :
    ((s.stopNow c).job c).phase = .stopped ∧ ((s.stopNow c).job c).msgs = [] := by
  have closing := (s.abandon_stopsOnly c).closing.trans h
  rw [State.stopNow, State.job_setJob_same]
  exact ⟨if_pos closing, rfl⟩

theorem State.stopNow_mem (s : State) (c : Nat) : (s.stopNow c).mem = s.mem := by
  obtain ⟨-, -, -, -, mem, -⟩ := s.stopNow_work c
  exact mem

/-- A deadlock ends the exchange and the job, and touches no byte (R185). -/
theorem State.deadlock_keeps {s : State} {c : Nat} (m : Msg) (h : (s.job c).closing = []) :
    ((s.deadlock c m).job c).phase = .stopped ∧ ((s.deadlock c m).job c).msgs = [] ∧ (∀ u, PadSame u s (s.deadlock c m)) ∧
      (s.deadlock c m).mem = s.mem := by
  have sent : RecordsSent s ((s.event 0x0306 kStep c 0 m.entry.destCh.toNat m.last).caravanRecords c) :=
    (s.event_hostOnly _ _ _ _ _ _).recordsSent.trans (State.caravanRecords_sent _ _)
  have closing : (((s.event 0x0306 kStep c 0 m.entry.destCh.toNat m.last).caravanRecords c).job c).closing = [] := by
    rw [State.job, sent.jobs]
    exact h
  obtain ⟨phase, msgs⟩ := State.stopNow_stopped closing
  refine ⟨phase, msgs, fun u => ?_, (State.stopNow_mem _ _).trans sent.mem⟩
  rw [PadSame, State.deadlock, (State.stopNow_stopsOnly _ _).tile]
  exact sent.1.padSame u

/-! ### The gates (R406, R409) -/

theorem Job.gateMessages_nil {j : Job} (h : ∀ m ∈ j.msgs, m.entry.point ≠ 1) (stream : BitVec 4) : j.gateMessages stream = [] := by
  have none_ : (j.msgs.filter fun m => m.entry.point == 1 && !m.null && !m.chains && m.entry.destCh == stream) = [] := by
    rw [List.filter_eq_nil_iff]
    intro m hm
    simp only [beq_eq_false_iff_ne.2 (h m hm), Bool.false_and, Bool.false_eq_true, not_false_eq_true]
  rw [Job.gateMessages, none_]
  rfl

/-- With no message at a gate and no command to fill, a stream has no work. -/
theorem State.gateStream_idle {s : State} {c : Nat} (hm : ∀ m ∈ (s.job c).msgs, m.entry.point ≠ 1)
    (hk : ∀ k ∈ s.courier.cmds, k.f.srcKind ≠ 1) (stream : BitVec 4) : s.gateStream c stream = s := by
  have unfilled : (s.courier.cmds.find? fun k => decide (k.ctx.val = c) && k.f.srcKind == 1 && decide (k.f.op < 6) &&
      k.f.stream == stream && (s.job c).isAt k.f.collectAt && k.status.isNone) = none := by
    rw [List.find?_eq_none]
    intro k hmem
    simp [hk k hmem]
  unfold State.gateStream
  dsimp only
  rw [unfilled, Job.gateMessages_nil hm]
  split
  · rfl
  · next h => cases h
  · rfl

theorem State.gateStreams_idle {s : State} {c : Nat} (hm : ∀ m ∈ (s.job c).msgs, m.entry.point ≠ 1)
    (hk : ∀ k ∈ s.courier.cmds, k.f.srcKind ≠ 1) : s.gateStreams c = s :=
  List.foldlRecOn (List.range 16) _ (motive := (· = s)) rfl fun t ht n _ => by
    subst ht
    exact State.gateStream_idle hm hk _

/-! ### The swap (R157, R178) -/

/-- The state with the tables of some tiles swapped. -/
def State.swapTiles (s : State) (c : Nat) (l : List Nat) : State := l.foldl (fun s t => s.swapTile c t) s

theorem State.swapTiles_keeps (s : State) (c : Nat) (l : List Nat) :
    (s.swapTiles c l).jobs = s.jobs ∧ (s.swapTiles c l).mem = s.mem :=
  List.foldlRecOn l _ (motive := fun t : State => t.jobs = s.jobs ∧ t.mem = s.mem) ⟨rfl, rfl⟩ fun _ ht _ _ => ht

theorem State.swapTiles_other {c u : Nat} {l : List Nat} (h : u ∉ l) (s : State) : (s.swapTiles c l).tile u = s.tile u := by
  induction l generalizing s with
  | nil => rfl
  | cons t ts ih =>
    rw [List.mem_cons, not_or] at h
    exact (ih h.2 (s.swapTile c t)).trans (State.tile_setTile_other _ _ h.1)

/-- Each tile has its next image in force, and none after it. -/
theorem State.swapTiles_swapped {c u : Nat} {l : List Nat} (hl : l.Nodup) (hu : u ∈ l) (s : State) :
    ((s.swapTiles c l).tile u).current = (s.tile u).next.getD RouteTable.empty ∧ ((s.swapTiles c l).tile u).next = none := by
  induction l generalizing s with
  | nil => cases hu
  | cons t ts ih =>
    obtain ⟨ht, hts⟩ := List.nodup_cons.1 hl
    by_cases hut : u = t
    · subst hut
      have tile : (s.swapTiles c (u :: ts)).tile u = (s.swapTile c u).tile u := State.swapTiles_other ht _
      rw [tile, State.swapTile, State.tile_setTile_same]
      exact ⟨rfl, rfl⟩
    · have step := ih hts ((List.mem_cons.1 hu).resolve_left hut) (s.swapTile c t)
      have same : (s.swapTile c t).tile u = s.tile u := State.tile_setTile_other _ _ hut
      rw [same] at step
      exact step

/-! ### What begins the next superstep (R131, R187) -/

/-- Work of a job that computes: it goes on, told to stop or not, and its tiles change as in a handler pass. -/
def Computing (c : Nat) (s t : State) : Prop := MayBeTold c s t ∧ ∀ u, PassOnly (s.tile u) (t.tile u)

theorem Computing.refl (c : Nat) (s : State) : Computing c s s := ⟨.of_eq rfl, fun _ => PassOnly.refl _⟩

theorem Computing.trans {c : Nat} {s t u : State} (h : Computing c s t) (k : Computing c t u) : Computing c s u :=
  ⟨h.1.trans k.1, fun v => (h.2 v).trans (k.2 v)⟩

/-- Work that is each time that of a computing job is so over a list. -/
theorem Computing.foldl {α : Type} {c : Nat} {f : State → α → State} (h : ∀ s a, Computing c s (f s a)) (l : List α) (s : State) :
    Computing c s (l.foldl f s) :=
  List.foldlRecOn l f (motive := Computing c s) (Computing.refl c s) fun t ht a _ => ht.trans (h t a)

theorem MemoryOnly.computing {s t : State} (c : Nat) (h : MemoryOnly s t) : Computing c s t := by
  obtain ⟨_, _, _, _, rfl⟩ := h
  exact Computing.refl c s

theorem State.setTasks_computing (s : State) (c u : Nat) (tasks : Tbl Task) :
    Computing c s (s.setTile u { s.tile u with tasks := tasks }) :=
  ⟨.of_eq rfl, State.passOnly_setTile ⟨_, _, _, _, _, _, rfl⟩⟩

theorem State.engineStop_computing (s : State) (c : Nat) (kind : BitVec 4) (unit ref : Nat) (why : Stop) :
    Computing c s (s.engineStop c kind unit ref why) := by
  have event : MemoryOnly s (s.stopEvent c kind unit ref why) := by
    cases why with
    | page code va => exact s.event_memoryOnly _ _ _ _ _ _
    | poison addr => exact s.event_memoryOnly _ _ _ _ _ _
  have told : MayBeTold c s (s.engineStop c kind unit ref why) := (event.computing c).1.trans (State.stopAtCurfew_mayBeTold _ _ _)
  refine ⟨told, fun u => ?_⟩
  rw [(s.engineStop_stopsOnly c kind unit ref why).tile]
  exact PassOnly.refl _

theorem State.fillTask_computing (s : State) (c u n : Nat) : Computing c s (s.fillTask c u n) := by
  unfold State.fillTask
  dsimp only
  split
  · exact Computing.refl c s
  · refine Computing.foldl (fun t i => ?_) _ s
    split
    · exact Computing.refl c t
    · have walked := t.vdemand_memoryOnly c (t.scaleVA c (((s.tile u).task n).slotTensors.get 0 i).toNat) 128
      refine (walked.computing c).trans ?_
      split
      · exact State.engineStop_computing _ _ _ _ _ _
      · exact State.setTasks_computing _ _ _ _

theorem State.fillSlots_computing (s : State) (c : Nat) : Computing c s (s.fillSlots c) :=
  Computing.foldl (fun t u => (Computing.foldl (fun t n => t.fillTask_computing c u n) (List.range 4) t).trans
    (State.setTasks_computing _ _ _ _)) (s.job c).cfg.tiles s

theorem State.passFrom_computing (s : State) (c u : Nat) (l : List Delivered) : Computing c s (s.passFrom u l) :=
  ⟨s.passFrom_mayBeTold u c l, s.passFrom_passOnly u l⟩

/-! ### The end of the Caravan (R196) -/

/-- The state with a Caravan's records sent and its tables swapped. -/
def State.swapped (s : State) (c : Nat) : State :=
  ((s.gatesDelivered c).caravanRecords c).swapTiles c (s.job c).cfg.tiles

/-- The state at the start of the next superstep: with slots filled where it is the first of a step, and before the handler passes. -/
def State.superstepBegun (s : State) (c : Nat) : State :=
  let j := s.job c
  let s1 := s.setJob c { j with phase := .compute, superstep := j.superstep + 1, msgs := [], chainDone := [] }
  if (j.superstep + 1) % max 1 j.listS = 0 then s1.fillSlots c else s1

theorem State.recorded_sent (s : State) (c : Nat) : RecordsSent (s.gatesDelivered c) ((s.gatesDelivered c).caravanRecords c) :=
  State.caravanRecords_sent _ _

theorem State.swapped_keeps (s : State) (c : Nat) : (s.swapped c).job c = s.job c ∧ (s.swapped c).mem = s.mem := by
  obtain ⟨jobs, mem⟩ := ((s.gatesDelivered c).caravanRecords c).swapTiles_keeps c (s.job c).cfg.tiles
  refine ⟨?_, mem.trans (s.recorded_sent c).mem⟩
  rw [State.job, State.swapped, jobs, (s.recorded_sent c).jobs]
  rfl

theorem exec_caravanEnd {s : State} {c : Fin 8} (hmoves : (s.job c.val).moves = true) (hquiet : s.caravanQuiet c.val = true)
    (hm : ∀ m ∈ (s.job c.val).msgs, m.entry.point ≠ 1) (hk : ∀ k ∈ s.courier.cmds, k.f.srcKind ≠ 1) : exec (.caravanEnd c) s =
      if (s.job c.val).stop then .next ((s.swapped c.val).stopNow c.val)
      else .next ((s.job c.val).cfg.tiles.foldl (fun s t => s.passFrom t (s.tile t).delivered)
        ((s.swapped c.val).superstepBegun c.val)) := by
  have jobs : ((s.gatesDelivered c.val).caravanRecords c.val).job c.val = s.job c.val := by
    rw [State.job, (s.recorded_sent c.val).jobs]
    rfl
  obtain ⟨swapped, -⟩ := s.swapped_keeps c.val
  show execCaravanEnd c s = _
  unfold execCaravanEnd
  dsimp only
  rw [hmoves, hquiet, if_neg (by simp), State.gateStreams_idle hm hk, jobs]
  change (if ((s.swapped c.val).job c.val).stop = true then Host.Outcome.next ((s.swapped c.val).stopNow c.val)
    else Host.Outcome.next (((s.swapped c.val).job c.val).cfg.tiles.foldl (fun s t => s.passFrom t (s.tile t).delivered)
      ((s.swapped c.val).superstepBegun c.val))) = _
  rw [swapped]

theorem State.next_loaded {s : State} {c u : Nat} (h : s.caravanQuiet c = true) (hu : u ∈ (s.job c).cfg.tiles) :
    (s.tile u).next.isSome = true := by
  simp only [State.caravanQuiet, Bool.and_eq_true, List.all_eq_true] at h
  obtain ⟨-, tiles⟩ := h
  obtain ⟨⟨-, loaded⟩, -⟩ := tiles u hu
  exact loaded

/-- With a message outstanding the Caravan goes on. -/
theorem exec_caravanEnd_outstanding {s : State} {c : Fin 8} (h : ∃ m ∈ (s.job c.val).msgs, m.complete = false) :
    exec (.caravanEnd c) s = .next s := by
  have unquiet : s.caravanQuiet c.val = false := by
    obtain ⟨m, hm, hincomplete⟩ := h
    have open_ : (s.job c.val).msgs.all (·.complete) = false := List.all_eq_false.2 ⟨m, hm, by simp [hincomplete]⟩
    rw [State.caravanQuiet, open_]
    rfl
  show execCaravanEnd c s = _
  rw [execCaravanEnd, unquiet]
  exact if_pos (by simp)

theorem State.superstepBegun_computing (s : State) (c : Nat) :
    Computing c (s.setJob c { s.job c with phase := .compute, superstep := (s.job c).superstep + 1, msgs := [], chainDone := [] })
      (s.superstepBegun c) := by
  unfold State.superstepBegun
  dsimp only
  split
  · exact State.fillSlots_computing _ _
  · exact Computing.refl _ _

theorem caravanEnds : CaravanEnds := by
  intro s c hmoves
  refine ⟨fun hquiet hnodup hm hk => ?_, exec_caravanEnd_outstanding⟩
  have hexec := exec_caravanEnd hmoves hquiet hm hk
  obtain ⟨job, mem⟩ := s.swapped_keeps c.val
  refine ⟨fun hgo => ?_, fun hstop hclosing => ?_⟩
  · rw [if_neg (by simp [hgo])] at hexec
    obtain ⟨told, tiles⟩ := ((s.swapped c.val).superstepBegun_computing c.val).trans
      (Computing.foldl (fun t u => t.passFrom_computing c.val u (t.tile u).delivered) (s.job c.val).cfg.tiles _)
    obtain ⟨b, hjob⟩ := told (by rw [State.job_setJob_same])
    rw [State.job_setJob_same, job] at hjob
    refine ⟨_, hexec, by rw [hjob], by rw [hjob], by rw [hjob], fun u hu => ?_⟩
    obtain ⟨_, _, _, _, _, _, passed⟩ := tiles u
    obtain ⟨current, next⟩ := State.swapTiles_swapped (c := c.val) hnodup hu ((s.gatesDelivered c.val).caravanRecords c.val)
    obtain ⟨_, _, recorded⟩ := (s.recorded_sent c.val).1 u
    obtain ⟨image, loaded⟩ := Option.isSome_iff_exists.1 (State.next_loaded hquiet hu)
    rw [recorded] at current
    dsimp only at current
    rw [show (s.gatesDelivered c.val).tile u = s.tile u from rfl, loaded, Option.getD_some] at current
    rw [passed, loaded]
    exact ⟨congrArg some current, next⟩
  · rw [if_pos hstop] at hexec
    obtain ⟨phase, -⟩ := State.stopNow_stopped (s := s.swapped c.val) (by rw [job]; exact hclosing)
    exact ⟨_, hexec, phase, (State.stopNow_mem _ _).trans mem⟩

end Sys2Proof.Machine
end

section
/-! The escape to an overflow room (R184, R185, R272): a message refused for 4,096 Caravan cycles takes room of its ring's task; the
requests of its channel that still wait are then offered to the sink again, which moves no message that is already granted. -/

namespace Sys2Proof.Machine
open Sys2Proof.Claims

/-! ### Offering the waiting requests again (R180 to R182, R272) -/

/-- What offering requests to the sinks of a tile leaves: memory, the ports, the other tiles, the tile's tasks, and every message
there that no longer waits. -/
def OffersOnly (c dest : Nat) (s t : State) : Prop :=
  t.mem = s.mem ∧ t.ports = s.ports ∧ (∀ u, u ≠ dest → t.tile u = s.tile u) ∧ (t.tile dest).tasks = (s.tile dest).tasks ∧
    ∀ msg d, destOf s c msg dest = some d → d.stage ≠ .refused → destOf t c msg dest = some d

theorem OffersOnly.refl (c dest : Nat) (s : State) : OffersOnly c dest s s := ⟨rfl, rfl, fun _ _ => rfl, rfl, fun _ _ h _ => h⟩

theorem OffersOnly.trans {c dest : Nat} {s t u : State} (h : OffersOnly c dest s t) (k : OffersOnly c dest t u) :
    OffersOnly c dest s u := by
  obtain ⟨mem, ports, tiles, tasks, placed⟩ := h
  obtain ⟨mem', ports', tiles', tasks', placed'⟩ := k
  exact ⟨mem'.trans mem, ports'.trans ports, fun v hv => (tiles' v hv).trans (tiles v hv), tasks'.trans tasks,
    fun msg d hd hstage => placed' msg d (placed msg d hd hstage) hstage⟩

theorem State.setTile_offersOnly {s : State} {dest : Nat} {x : Tile} (c : Nat) (h : x.tasks = (s.tile dest).tasks) :
    OffersOnly c dest s (s.setTile dest x) :=
  ⟨rfl, rfl, fun _ hu => State.tile_setTile_other _ _ hu, by rw [State.tile_setTile_same, h], fun _ _ hd _ => hd⟩

theorem State.mapDesc_offersOnly (s : State) (c dest id : Nat) (f : Desc → Desc) : OffersOnly c dest s (s.mapDesc id f) :=
  ⟨rfl, rfl, fun _ _ => rfl, rfl, fun _ _ hd _ => hd⟩

theorem destOf_granted_same {s : State} {c id dest : Nat} {d : MsgDest} (line : Nat) (overflow : Bool)
    (h : destOf s c id dest = some d) :
    destOf (s.granted c id dest line overflow) c id dest = some { d with stage := .granted, line := line, overflow := overflow } := by
  obtain ⟨m, hmsg, hat⟩ := Option.bind_eq_some_iff.1 h
  rw [destOf, State.granted, State.mapMsg_job, Job.msg_mapMsg_same (by intro _ hm; exact hm) hmsg]
  exact Msg.at_mapDest (f := fun d => { d with stage := .granted, line := line, overflow := overflow }) (fun _ => rfl) hat

theorem destOf_granted_other {id msg : Nat} (s : State) (c dest line : Nat) (overflow : Bool) (h : msg ≠ id) :
    destOf (s.granted c id dest line overflow) c msg dest = destOf s c msg dest := by
  rw [destOf, State.granted, State.mapMsg_job, Job.msg_mapMsg_other (by intro _ hm; exact hm) h, destOf]

theorem State.granted_offersOnly {s : State} {c id dest : Nat} {d : MsgDest} (line : Nat) (overflow : Bool)
    (hwait : destOf s c id dest = some d) (hstage : d.stage = .refused) :
    OffersOnly c dest s (s.granted c id dest line overflow) := by
  refine ⟨rfl, rfl, fun _ _ => rfl, rfl, fun msg d' hd hplaced => ?_⟩
  have other : msg ≠ id := by
    rintro rfl
    rw [hwait, Option.some_inj] at hd
    exact hplaced (hd ▸ hstage)
  rw [destOf_granted_other _ _ _ _ _ other, hd]

@[simp] theorem Tile.putLine_tasks (x : Tile) (task line : Nat) (bytes : List Byte) (poison : Bool) :
    (x.putLine task line bytes poison).tasks = x.tasks := rfl

/-- A ring that takes a request holds it in its tile, whose tasks stand as they did (R181). -/
theorem State.grantRing_granted {s t : State} {c dest : Nat} {m : Msg} (h : s.grantRing c m dest = some t) :
    ∃ x line, x.tasks = (s.tile dest).tasks ∧ t = (s.setTile dest x).granted c m.id dest line false := by
  unfold State.grantRing at h
  dsimp only at h
  split at h
  · cases h
  split at h
  · cases h
  split at h
  · cases h
  · cases h
    refine ⟨_, _, ?_, rfl⟩
    dsimp only
    rw [Tile.putLine_tasks]
    split
    · rw [Tile.putLine_tasks]
    · rfl

/-- A sink that takes a request notes it, and then grants the request (R182, R272). -/
theorem State.tryGrant_granted {s t : State} {c dest : Nat} {m : Msg} (h : s.tryGrant c m dest = some t) :
    ∃ noted line, OffersOnly c dest s noted ∧ noted.job c = s.job c ∧ t = noted.granted c m.id dest line false := by
  unfold State.tryGrant at h
  split at h
  · split at h
    · split at h
      · cases h
        exact ⟨s, 0, OffersOnly.refl c dest s, rfl, rfl⟩
      · cases h
    · obtain ⟨x, line, tasks, rfl⟩ := State.grantRing_granted h
      exact ⟨_, line, State.setTile_offersOnly c tasks, rfl, rfl⟩
  · cases h
    exact ⟨s, 0, OffersOnly.refl c dest s, rfl, rfl⟩
  · split at h
    · cases h
    · split at h
      · cases h
        exact ⟨_, 0, s.mapDesc_offersOnly c dest _ _, rfl, rfl⟩
      · cases h

theorem State.offer_offersOnly (s : State) (c id dest : Nat) : OffersOnly c dest s (s.offer c id dest) := by
  unfold State.offer
  dsimp only
  split
  · exact OffersOnly.refl c dest s
  next m hmsg =>
    split
    · exact OffersOnly.refl c dest s
    next d hat =>
      split
      · exact OffersOnly.refl c dest s
      next hwaits =>
        have hid : m.id = id := by simpa using List.find?_some hmsg
        have hstage : d.stage = .refused := not_not.1 fun h => hwaits (.inl h)
        cases htry : s.tryGrant c m dest with
        | none => exact OffersOnly.refl c dest s
        | some t =>
          obtain ⟨noted, line, offers, job, rfl⟩ := State.tryGrant_granted htry
          refine offers.trans (State.granted_offersOnly (d := d) line false ?_ hstage)
          rw [destOf, job, hid, hmsg]
          exact hat

theorem OffersOnly.offers (c dest : Nat) (l : List Msg) (s : State) :
    OffersOnly c dest s (l.foldl (fun s o => s.offer c o.id dest) s) :=
  List.foldlRecOn l _ (motive := OffersOnly c dest s) (OffersOnly.refl c dest s) fun t ht _ _ => ht.trans (t.offer_offersOnly _ _ _)

/-! ### The overflow room (R184) -/

/-- A tile with a message's Waybill in the overflow room of a task, which has so many more lines used. -/
def Tile.roomTaken (x : Tile) (c dest : Nat) (m : Msg) (task : Nat) : Tile :=
  let x1 := x.putLine task ((x.task task).ovfOffset + (x.task task).roomUsed) (m.waybill c dest true).line false
  x1.setTask task { x1.task task with roomUsed := (x.task task).roomUsed + (m.lines + 1) }

/-- The state with a message granted in the overflow room of its ring's task. -/
def State.escaped (s : State) (c msg dest : Nat) (m : Msg) (k : SinkEntry) : State :=
  let y := (s.tile dest).task k.task.toNat
  ((s.setTile dest ((s.tile dest).roomTaken c dest m k.task.toNat)).granted c msg dest (y.ovfOffset + y.roomUsed) true).event
    0x0305 kTile c dest m.entry.destCh.toNat m.last

section
variable {s : State} {c : Fin 8} {msg dest : Nat} {m : Msg} {d : MsgDest}

theorem exec_overflowRoomEscape_early (hmsg : (s.job c.val).msg msg = some m) (hat : m.at_ dest = some d)
    (hclock : (s.job c.val).clock < d.refusedAt + 4096) : exec (.overflowRoomEscape c msg dest) s = .next s := by
  show execOverflowRoomEscape c msg dest s = _
  simp only [execOverflowRoomEscape, hmsg, hat, if_pos (Or.inr (Or.inr hclock))]

theorem exec_overflowRoomEscape_noRing (hmoves : (s.job c.val).moves = true) (hmsg : (s.job c.val).msg msg = some m)
    (hat : m.at_ dest = some d) (hstage : d.stage = .refused) (hclock : d.refusedAt + 4096 ≤ (s.job c.val).clock)
    (hsink : (s.tile dest).current.sink m.entry.destCh = none) :
    exec (.overflowRoomEscape c msg dest) s = .next (s.deadlock c.val m) := by
  show execOverflowRoomEscape c msg dest s = _
  simp [execOverflowRoomEscape, hmsg, hat, hmoves, hstage, hclock, hsink]

theorem exec_overflowRoomEscape_room {k : SinkEntry} (hmoves : (s.job c.val).moves = true)
    (hmsg : (s.job c.val).msg msg = some m) (hat : m.at_ dest = some d) (hstage : d.stage = .refused)
    (hclock : d.refusedAt + 4096 ≤ (s.job c.val).clock) (hsink : (s.tile dest).current.sink m.entry.destCh = some k)
    (hchains : m.chains = false) (hpoint : m.entry.point = 0) (hrecorded : (s.tile dest).recorded = true)
    (hindex : (s.job c.val).indexCount dest true < 64)
    (hroom : ((s.tile dest).task k.task.toNat).roomUsed + (m.lines + 1) ≤ ((s.tile dest).task k.task.toNat).ovfLines) :
    exec (.overflowRoomEscape c msg dest) s =
      .next (((((s.escaped c.val msg dest m k).job c.val).msgs.filter fun o => o.entry.destCh == m.entry.destCh)).foldl
        (fun s o => s.offer c.val o.id dest) (s.escaped c.val msg dest m k)) := by
  show execOverflowRoomEscape c msg dest s = _
  simp only [execOverflowRoomEscape, hmsg, hat, hmoves, hstage, hsink, hchains, hpoint, hrecorded, ne_eq, Bool.not_true,
    Bool.false_eq_true, not_true_eq_false, not_lt.2 hclock, not_lt.2 hroom, not_le.2 hindex, or_self, if_false]
  rfl

theorem destOf_escaped {k : SinkEntry} (hmsg : (s.job c.val).msg msg = some m) (hat : m.at_ dest = some d) :
    destOf (s.escaped c.val msg dest m k) c.val msg dest = some { d with
      stage := .granted, overflow := true
      line := ((s.tile dest).task k.task.toNat).ovfOffset + ((s.tile dest).task k.task.toNat).roomUsed } := by
  rw [destOf, State.escaped, (State.event_hostOnly _ _ _ _ _ _ _).job]
  refine destOf_granted_same _ _ ?_
  rw [destOf]
  rw [show ((s.setTile dest ((s.tile dest).roomTaken c.val dest m k.task.toNat)).job c.val).msg msg = some m from hmsg]
  exact hat

/-- An escape touches the sink's tile alone (R184). -/
theorem State.escaped_keeps (s : State) (c msg dest : Nat) (m : Msg) (k : SinkEntry) :
    (s.escaped c msg dest m k).mem = s.mem ∧ (s.escaped c msg dest m k).ports = s.ports ∧
      (∀ u, u ≠ dest → (s.escaped c msg dest m k).tile u = s.tile u) ∧
      (s.escaped c msg dest m k).tile dest = (s.tile dest).roomTaken c dest m k.task.toNat := by
  obtain ⟨_, host⟩ := State.event_hostOnly ((s.setTile dest ((s.tile dest).roomTaken c dest m k.task.toNat)).granted c msg dest
    (((s.tile dest).task k.task.toNat).ovfOffset + ((s.tile dest).task k.task.toNat).roomUsed) true)
    0x0305 kTile c dest m.entry.destCh.toNat m.last
  rw [State.escaped, host]
  exact ⟨rfl, rfl, fun _ hu => State.tile_setTile_other _ _ hu, State.tile_setTile_same _ _ _⟩

theorem Tile.roomTaken_roomUsed (x : Tile) (c dest : Nat) (m : Msg) (task : Nat) :
    ((x.roomTaken c dest m task).task task).roomUsed = (x.task task).roomUsed + (m.lines + 1) := by
  rw [Tile.roomTaken, Tile.task_setTask_same]

end

theorem escapesAndFreezes : EscapesAndFreezes := by
  refine ⟨fun s c msg dest m d hmoves hmsg hat hstage => ⟨exec_overflowRoomEscape_early hmsg hat, ?_, ?_⟩,
    fun s c retry refresh hphase hfrozen hclock hdue => ?_⟩
  · intro hclock hsink hclosing
    exact ⟨_, exec_overflowRoomEscape_noRing hmoves hmsg hat hstage hclock hsink, State.deadlock_keeps m hclosing⟩
  · intro k hclock hsink hchains hpoint hrecorded hindex y hroom
    have hexec := exec_overflowRoomEscape_room hmoves hmsg hat hstage hclock hsink hchains hpoint hrecorded hindex hroom
    obtain ⟨mem, ports, tiles, own⟩ := s.escaped_keeps c.val msg dest m k
    obtain ⟨mem', ports', tiles', tasks, placed⟩ := OffersOnly.offers c.val dest
      (((s.escaped c.val msg dest m k).job c.val).msgs.filter fun o => o.entry.destCh == m.entry.destCh) (s.escaped c.val msg dest m k)
    refine ⟨_, _, hexec, mem'.trans mem, ports'.trans ports, placed msg _ (destOf_escaped hmsg hat) nofun, rfl, rfl, rfl, ?_,
      fun u hu => (tiles' u hu).trans (tiles u hu)⟩
    rw [Tile.task, tasks, own]
    exact (s.tile dest).roomTaken_roomUsed c.val dest m k.task.toNat
  · have hexec := exec_freezeDecision retry refresh hphase hfrozen hclock hdue
    refine ⟨fun hhold => ?_, fun hheld hrefresh => hexec.trans (by simp [hheld, hrefresh])⟩
    rw [if_pos hhold] at hexec
    refine ⟨_, hexec, s.frozenFor_jobOnly _ _, ?_⟩
    rw [State.frozenFor_job]
    exact ⟨rfl, by simp [Job.moves], rfl, Tbl.get_set_same _ _ _ _, rfl⟩

end Sys2Proof.Machine

namespace Sys2Proof
open Sys2Proof.Machine Sys2Proof.Claims

/-- Settles O22: an escape moves the message that waited and no other that is granted; a freeze is a change of its own job; and at the
end of a Caravan the tables swap before the handler passes, which no tile's tables enter. -/
theorem caravansFreezeAndEnd : Obligations.CaravansFreezeAndEnd := ⟨escapesAndFreezes, caravanEnds⟩

end Sys2Proof
end

section
/-! The words of tile instructions (R118 to R120, R124): a word is its opcode, its guard and the 22 bits of its format, and the fields of
a format and those bits determine each other. -/

namespace Sys2Proof

/-! ### Words -/

theorem append_inj {v w : Nat} {x x' : BitVec v} {y y' : BitVec w} (h : x ++ y = x' ++ y') : x = x' ∧ y = y' := by
  have high := congrArg (BitVec.extractLsb' w v) h
  have low := congrArg (BitVec.extractLsb' 0 w) h
  rw [BitVec.extractLsb'_append_eq_left, BitVec.extractLsb'_append_eq_left] at high
  rw [BitVec.extractLsb'_append_eq_right, BitVec.extractLsb'_append_eq_right] at low
  exact ⟨high, low⟩

/-- Neighbouring fields of a word, put together. -/
theorem append_fields {n start len start' len' : Nat} (x : BitVec n) (h : start = start' + len') :
    x.extractLsb' start len ++ x.extractLsb' start' len' = x.extractLsb' start' (len + len') :=
  BitVec.extractLsb'_append_extractLsb'_eq_extractLsb' h

/-- A word is its opcode, its guard and its other 22 bits (R119). -/
theorem firstWord_opOf (w : Word) : firstWord (opOf w) (guardOf w) (w.extractLsb' 0 22) = w := by
  show w.extractLsb' 26 6 ++ w.extractLsb' 23 3 ++ w.extractLsb' 22 1 ++ w.extractLsb' 0 22 = w
  rw [append_fields w (by decide), append_fields w (by decide), append_fields w (by decide)]
  exact BitVec.extractLsb'_eq_self

theorem firstWord_inj {op op' : BitVec 6} {g g' : Guard} {rest rest' : BitVec 22} (h : firstWord op g rest = firstWord op' g' rest') :
    op = op' ∧ g = g' ∧ rest = rest' := by
  obtain ⟨pg, pn⟩ := g
  obtain ⟨pg', pn'⟩ := g'
  obtain ⟨h, hrest⟩ := append_inj h
  obtain ⟨h, hpn⟩ := append_inj h
  obtain ⟨hop, hpg⟩ := append_inj h
  exact ⟨hop, congrArg₂ Guard.mk hpg hpn, hrest⟩

/-- What a word of these parts is read as. -/
theorem parts_firstWord (op : BitVec 6) (g : Guard) (rest : BitVec 22) : opOf (firstWord op g rest) = op ∧
    guardOf (firstWord op g rest) = g ∧ (firstWord op g rest).extractLsb' 0 22 = rest :=
  firstWord_inj (firstWord_opOf _)

@[simp] theorem opOf_firstWord (op : BitVec 6) (g : Guard) (rest : BitVec 22) : opOf (firstWord op g rest) = op := by
  obtain ⟨hop, -, -⟩ := parts_firstWord op g rest
  exact hop

@[simp] theorem guardOf_firstWord (op : BitVec 6) (g : Guard) (rest : BitVec 22) : guardOf (firstWord op g rest) = g := by
  obtain ⟨-, hg, -⟩ := parts_firstWord op g rest
  exact hg

@[simp] theorem rest_firstWord (op : BitVec 6) (g : Guard) (rest : BitVec 22) : (firstWord op g rest).extractLsb' 0 22 = rest := by
  obtain ⟨-, -, hrest⟩ := parts_firstWord op g rest
  exact hrest

/-! ### Formats (R120)

The bits of a format read from a word are the word's own, and so the fields of a format are read back from their word. -/


@[simp] theorem FR.bits_ofWord (w : Word) : (FR.ofWord w).bits = w.extractLsb' 0 22 := by
  show w.extractLsb' 17 5 ++ w.extractLsb' 12 5 ++ w.extractLsb' 7 5 ++ w.extractLsb' 0 7 = _
  rw [append_fields w (by decide), append_fields w (by decide), append_fields w (by decide)]

@[simp] theorem FR.ofWord_firstWord (op : BitVec 6) (f : FR) : FR.ofWord (firstWord op f.g f.bits) = f := by
  have bits := (FR.bits_ofWord (firstWord op f.g f.bits)).trans (rest_firstWord _ _ _)
  obtain ⟨bits, fn⟩ := append_inj bits
  obtain ⟨bits, b⟩ := append_inj bits
  obtain ⟨d, a⟩ := append_inj bits
  exact (FR.mk.injEq _ _ _ _ _ _ _ _ _ _).mpr ⟨guardOf_firstWord _ _ _, d, a, b, fn⟩

@[simp] theorem FI.bits_ofWord (w : Word) : (FI.ofWord w).bits = w.extractLsb' 0 22 := by
  show w.extractLsb' 17 5 ++ w.extractLsb' 12 5 ++ w.extractLsb' 0 12 = _
  rw [append_fields w (by decide), append_fields w (by decide)]

@[simp] theorem FI.ofWord_firstWord (op : BitVec 6) (f : FI) : FI.ofWord (firstWord op f.g f.bits) = f := by
  have bits := (FI.bits_ofWord (firstWord op f.g f.bits)).trans (rest_firstWord _ _ _)
  obtain ⟨bits, imm⟩ := append_inj bits
  obtain ⟨d, a⟩ := append_inj bits
  exact (FI.mk.injEq _ _ _ _ _ _ _ _).mpr ⟨guardOf_firstWord _ _ _, d, a, imm⟩

@[simp] theorem FJ.bits_ofWord (w : Word) : (FJ.ofWord w).bits = w.extractLsb' 0 22 := by
  show w.extractLsb' 17 5 ++ w.extractLsb' 0 17 = _
  rw [append_fields w (by decide)]

@[simp] theorem FJ.ofWord_firstWord (op : BitVec 6) (f : FJ) : FJ.ofWord (firstWord op f.g f.bits) = f := by
  have bits := (FJ.bits_ofWord (firstWord op f.g f.bits)).trans (rest_firstWord _ _ _)
  obtain ⟨d, imm⟩ := append_inj bits
  exact (FJ.mk.injEq _ _ _ _ _ _).mpr ⟨guardOf_firstWord _ _ _, d, imm⟩

@[simp] theorem FC.bits_ofWord (w : Word) : (FC.ofWord w).bits = w.extractLsb' 0 22 := by
  show w.extractLsb' 19 3 ++ w.extractLsb' 16 3 ++ w.extractLsb' 11 5 ++ w.extractLsb' 0 11 = _
  rw [append_fields w (by decide), append_fields w (by decide), append_fields w (by decide)]

@[simp] theorem FC.ofWord_firstWord (op : BitVec 6) (f : FC) : FC.ofWord (firstWord op f.g f.bits) = f := by
  have bits := (FC.bits_ofWord (firstWord op f.g f.bits)).trans (rest_firstWord _ _ _)
  obtain ⟨bits, imm⟩ := append_inj bits
  obtain ⟨bits, a⟩ := append_inj bits
  obtain ⟨pd, cond⟩ := append_inj bits
  exact (FC.mk.injEq _ _ _ _ _ _ _ _ _ _).mpr ⟨guardOf_firstWord _ _ _, pd, cond, a, imm⟩

@[simp] theorem FM.bits_ofWord (w : Word) : (FM.ofWord w).bits = w.extractLsb' 0 22 := by
  show w.extractLsb' 17 5 ++ w.extractLsb' 13 4 ++ w.extractLsb' 11 2 ++ w.extractLsb' 0 11 = _
  rw [append_fields w (by decide), append_fields w (by decide), append_fields w (by decide)]

@[simp] theorem FM.ofWord_firstWord (op : BitVec 6) (f : FM) : FM.ofWord (firstWord op f.g f.bits) = f := by
  have bits := (FM.bits_ofWord (firstWord op f.g f.bits)).trans (rest_firstWord _ _ _)
  obtain ⟨bits, off⟩ := append_inj bits
  obtain ⟨bits, sz⟩ := append_inj bits
  obtain ⟨d, ab⟩ := append_inj bits
  exact (FM.mk.injEq _ _ _ _ _ _ _ _ _ _).mpr ⟨guardOf_firstWord _ _ _, d, ab, sz, off⟩

@[simp] theorem FB.bits_ofWord (w : Word) : (FB.ofWord w).bits = w.extractLsb' 0 22 := by
  show w.extractLsb' 17 5 ++ w.extractLsb' 16 1 ++ w.extractLsb' 14 2 ++ w.extractLsb' 0 14 = _
  rw [append_fields w (by decide), append_fields w (by decide), append_fields w (by decide)]

@[simp] theorem FB.ofWord_firstWord (op : BitVec 6) (f : FB) : FB.ofWord (firstWord op f.g f.bits) = f := by
  have bits := (FB.bits_ofWord (firstWord op f.g f.bits)).trans (rest_firstWord _ _ _)
  obtain ⟨bits, off⟩ := append_inj bits
  obtain ⟨bits, rsv⟩ := append_inj bits
  obtain ⟨s, l⟩ := append_inj bits
  exact (FB.mk.injEq _ _ _ _ _ _ _ _ _ _).mpr ⟨guardOf_firstWord _ _ _, s, l, rsv, off⟩

@[simp] theorem FV.bits_ofWord (w : Word) : (FV.ofWord w).bits = w.extractLsb' 0 22 := by
  show w.extractLsb' 18 4 ++ w.extractLsb' 14 4 ++ w.extractLsb' 10 4 ++ w.extractLsb' 6 4 ++ w.extractLsb' 0 6 = _
  rw [append_fields w (by decide), append_fields w (by decide), append_fields w (by decide), append_fields w (by decide)]

@[simp] theorem FV.ofWord_firstWord (op : BitVec 6) (f : FV) : FV.ofWord (firstWord op f.g f.bits) = f := by
  have bits := (FV.bits_ofWord (firstWord op f.g f.bits)).trans (rest_firstWord _ _ _)
  obtain ⟨bits, fn⟩ := append_inj bits
  obtain ⟨bits, vc⟩ := append_inj bits
  obtain ⟨bits, vb⟩ := append_inj bits
  obtain ⟨vd, va⟩ := append_inj bits
  exact (FV.mk.injEq _ _ _ _ _ _ _ _ _ _ _ _).mpr ⟨guardOf_firstWord _ _ _, vd, va, vb, vc, fn⟩

@[simp] theorem FA.bits_ofWord (w : Word) : (FA.ofWord w).bits = w.extractLsb' 0 22 := by
  show w.extractLsb' 18 4 ++ w.extractLsb' 14 4 ++ w.extractLsb' 9 5 ++ w.extractLsb' 0 9 = _
  rw [append_fields w (by decide), append_fields w (by decide), append_fields w (by decide)]

@[simp] theorem FA.ofWord_firstWord (op : BitVec 6) (f : FA) : FA.ofWord (firstWord op f.g f.bits) = f := by
  have bits := (FA.bits_ofWord (firstWord op f.g f.bits)).trans (rest_firstWord _ _ _)
  obtain ⟨bits, md⟩ := append_inj bits
  obtain ⟨bits, s⟩ := append_inj bits
  obtain ⟨x, y⟩ := append_inj bits
  exact (FA.mk.injEq _ _ _ _ _ _ _ _ _ _).mpr ⟨guardOf_firstWord _ _ _, x, y, s, md⟩

@[simp] theorem FX.bits_ofWord (w : Word) : (FX.ofWord w).bits = w.extractLsb' 0 22 := by
  show w.extractLsb' 18 4 ++ w.extractLsb' 12 6 ++ w.extractLsb' 8 4 ++ w.extractLsb' 3 5 ++ w.extractLsb' 0 3 = _
  rw [append_fields w (by decide), append_fields w (by decide), append_fields w (by decide), append_fields w (by decide)]

@[simp] theorem FX.ofWord_firstWord (op : BitVec 6) (f : FX) : FX.ofWord (firstWord op f.g f.bits) = f := by
  have bits := (FX.bits_ofWord (firstWord op f.g f.bits)).trans (rest_firstWord _ _ _)
  obtain ⟨bits, rsv⟩ := append_inj bits
  obtain ⟨bits, sl⟩ := append_inj bits
  obtain ⟨bits, as⟩ := append_inj bits
  obtain ⟨ch, hid⟩ := append_inj bits
  exact (FX.mk.injEq _ _ _ _ _ _ _ _ _ _ _ _).mpr ⟨guardOf_firstWord _ _ _, ch, hid, as, sl, rsv⟩

@[simp] theorem FT.bits_ofWord (w : Word) : (FT.ofWord w).bits = w.extractLsb' 0 22 := by
  show w.extractLsb' 18 4 ++ w.extractLsb' 13 5 ++ w.extractLsb' 7 6 ++ w.extractLsb' 0 7 = _
  rw [append_fields w (by decide), append_fields w (by decide), append_fields w (by decide)]

@[simp] theorem FT.ofWord_firstWord (op : BitVec 6) (f : FT) : FT.ofWord (firstWord op f.g f.bits) = f := by
  have bits := (FT.bits_ofWord (firstWord op f.g f.bits)).trans (rest_firstWord _ _ _)
  obtain ⟨bits, n⟩ := append_inj bits
  obtain ⟨bits, rsv⟩ := append_inj bits
  obtain ⟨tn, s⟩ := append_inj bits
  exact (FT.mk.injEq _ _ _ _ _ _ _ _ _ _).mpr ⟨guardOf_firstWord _ _ _, tn, s, rsv, n⟩

@[simp] theorem FL.bits_ofWord (w w1 : Word) : (FL.ofWord w w1).bits = w.extractLsb' 0 22 := by
  show w.extractLsb' 17 5 ++ w.extractLsb' 16 1 ++ w.extractLsb' 0 16 = _
  rw [append_fields w (by decide), append_fields w (by decide)]

@[simp] theorem FL.ofWord_firstWord (op : BitVec 6) (f : FL) : FL.ofWord (firstWord op f.g f.bits) f.imm = f := by
  have bits := (FL.bits_ofWord (firstWord op f.g f.bits) f.imm).trans (rest_firstWord _ _ _)
  obtain ⟨bits, rsv⟩ := append_inj bits
  obtain ⟨d, k⟩ := append_inj bits
  exact (FL.mk.injEq _ _ _ _ _ _ _ _ _ _).mpr ⟨guardOf_firstWord _ _ _, d, k, rsv, rfl⟩


theorem firstWord_of_opOf {w : Word} {n : Nat} (h : (opOf w).toNat = n) (g : Guard) (rest : BitVec 22) (hg : g = guardOf w)
    (hrest : rest = w.extractLsb' 0 22) : firstWord (BitVec.ofNat 6 n) g rest = w := by
  subst h hg hrest
  rw [BitVec.ofNat_toNat, BitVec.setWidth_eq, firstWord_opOf]

/-! ### Instructions (R124) -/

/-- An instruction's words decode to it, at its own site. -/
theorem decodeTile_tileWord {i : Instr} {w w1 : Word} (h : tileWord i = some w) (h1 : ∀ x, tileSecond i = some x → x = w1) :
    ∃ site, decodeTile site w w1 = some i := by
  cases i
  case lil site f =>
    obtain rfl : f.imm = w1 := h1 _ rfl
    obtain rfl : firstWord 0x09 f.g f.bits = w := Option.some.inj h
    exact ⟨site, by simp [decodeTile]⟩
  all_goals simp only [tileWord, reduceCtorEq, Option.some.injEq] at h
  all_goals
    subst h
    exact ⟨‹Site›, by simp [decodeTile]⟩

/-- A word that decodes is that of the instruction it decodes to. -/
theorem tileWord_of_decodeTile {site : Site} {w w1 : Word} {i : Instr} (h : decodeTile site w w1 = some i) :
    tileWord i = some w ∧ (tileSecond i = none ∨ tileSecond i = some w1) := by
  unfold decodeTile at h
  split at h
  all_goals cases h
  all_goals
    refine ⟨congrArg some (firstWord_of_opOf ‹_› _ _ rfl ?_), ?_⟩
    · simp
    · simp [tileSecond, FL.ofWord]

/-- Settles O59: an instruction's fields are read back from its words, and a word is rebuilt from the fields read from it. -/
theorem tileWordsRoundTrip : Obligations.TileWordsRoundTrip :=
  ⟨fun _ _ _ => decodeTile_tileWord, fun _ _ _ _ => tileWord_of_decodeTile⟩

end Sys2Proof
end

section
/-! The frame of a register instruction (R81, R85, R119): what it leaves follows from the task that its operation makes, once for
every instruction. -/

namespace Sys2Proof.Machine
open Sys2Proof.Claims

/-! ### Registers -/

theorem KeepsRegs.trans {xs xs' : List (BitVec 5)} {xa xa' xv xv' : List (BitVec 4)} {xp xp' : List (BitVec 3)} {a b c : Task}
    (h : KeepsRegs xs xa xv xp a b) (k : KeepsRegs xs' xa' xv' xp' b c) :
    KeepsRegs (xs ++ xs') (xa ++ xa') (xv ++ xv') (xp ++ xp') a c := by
  obtain ⟨hs, ha, hv, hp⟩ := h
  obtain ⟨ks, ka, kv, kp⟩ := k
  simp only [KeepsRegs, List.mem_append, not_or]
  refine ⟨fun n ⟨h1, h2⟩ => ?_, fun n ⟨h1, h2⟩ => ?_, fun n ⟨h1, h2⟩ => ?_, fun n ⟨h1, h2⟩ => (kp n h2).trans (hp n h1)⟩
  · exact ⟨(ks n h2).1.trans (hs n h1).1, (ks n h2).2.trans (hs n h1).2⟩
  · exact ⟨(ka n h2).1.trans (ha n h1).1, (ka n h2).2.trans (ha n h1).2⟩
  · exact ⟨(kv n h2).1.trans (hv n h1).1, (kv n h2).2.trans (hv n h1).2⟩

theorem Task.keepsRegs_refl (t : Task) : KeepsRegs [] [] [] [] t t := keepsRegs_of_eq ⟨rfl, rfl⟩ ⟨rfl, rfl⟩ ⟨rfl, rfl⟩ rfl

@[simp] theorem Task.tagA_setA_same (t : Task) (n : BitVec 4) (v : Word) (b : Bool) : (t.setA n v b).tagA n = b :=
  getLsbD_putTag_same _ b n.isLt

theorem Task.tagA_setA_other (t : Task) {n k : BitVec 4} (v : Word) (b : Bool) (h : k ≠ n) : (t.setA n v b).tagA k = t.tagA k :=
  getLsbD_putTag_other _ b fun e => h (BitVec.eq_of_toNat_eq e)

theorem Task.keepsRegs_setA (t : Task) (n : BitVec 4) (v : Word) (b : Bool) : KeepsRegs [] [n] [] [] t (t.setA n v b) := by
  refine ⟨fun _ _ => ⟨rfl, rfl⟩, fun k hk => ?_, fun _ _ => ⟨rfl, rfl⟩, fun _ _ => rfl⟩
  have hk : k ≠ n := by simpa using hk
  exact ⟨Task.getA_setA_other t v b hk, Task.tagA_setA_other t v b hk⟩

/-- A predicate, or p0, after a write (R149). -/
theorem Task.pred_setPred (t : Task) (n : BitVec 3) (b : Bool) : (t.setPred n b).pred n = (n == 0 || b) := by
  by_cases h : n = 0
  · subst h
    rfl
  · rw [Task.pred_setPred_same t n b h, beq_false_of_ne h, Bool.false_or]

theorem Task.setPred_eq (t : Task) (n : BitVec 3) (b : Bool) : ∃ p, t.setPred n b = { t with p := p } := by
  unfold Task.setPred
  split
  · exact ⟨_, rfl⟩
  · exact ⟨_, rfl⟩

theorem Task.keepsRegs_setPred (t : Task) (n : BitVec 3) (b : Bool) : KeepsRegs [] [] [] [n] t (t.setPred n b) := by
  refine ⟨fun k _ => ?_, fun k _ => ?_, fun k _ => ?_, fun k hk => Task.pred_setPred_other t n k b (by simpa using hk)⟩ <;>
  · obtain ⟨p, h⟩ := t.setPred_eq n b
    rw [h]
    exact ⟨rfl, rfl⟩

/-! ### A task that has issued -/

/-- The task past an instruction of `n` bytes. -/
def Task.past (t : Task) (n : Nat) : Task := { t.advance n with hold := .none }

section
variable (t : Task) (n : Nat)

@[simp] theorem Task.past_getS (k : BitVec 5) : (t.past n).getS k = t.getS k := rfl
@[simp] theorem Task.past_getA (k : BitVec 4) : (t.past n).getA k = t.getA k := rfl
@[simp] theorem Task.past_getV (k : BitVec 4) : (t.past n).getV k = t.getV k := rfl
@[simp] theorem Task.past_tagS (k : BitVec 5) : (t.past n).tagS k = t.tagS k := rfl
@[simp] theorem Task.past_tagA (k : BitVec 4) : (t.past n).tagA k = t.tagA k := rfl
@[simp] theorem Task.past_tagV (k : BitVec 4) : (t.past n).tagV k = t.tagV k := rfl
@[simp] theorem Task.past_pred (k : BitVec 3) : (t.past n).pred k = t.pred k := rfl
@[simp] theorem Task.past_slots : (t.past n).slots = t.slots := rfl
@[simp] theorem Task.past_cfg : (t.past n).cfg = t.cfg := rfl

end

/-- A task with the registers and the tensor slots of another. -/
def Task.withRegsOf (b a : Task) : Task :=
  { b with
    s := a.s, a := a.a, p := a.p, v := a.v, poisonS := a.poisonS, poisonA := a.poisonA, poisonV := a.poisonV, slots := a.slots }

/-- Two tasks that differ in registers and tensor slots alone. -/
def RegsAndSlots (a b : Task) : Prop := b.withRegsOf a = a

/-- What tasks that differ so have in common. -/
theorem RegsAndSlots.field {a b : Task} {α : Type} (h : RegsAndSlots a b) (p : Task → α) : p (b.withRegsOf a) = p a :=
  congrArg p h

theorem Task.regsAndSlots_setPred (t : Task) (n : BitVec 3) (b : Bool) : RegsAndSlots t (t.setPred n b) := by
  obtain ⟨p, h⟩ := t.setPred_eq n b
  rw [h]
  rfl

/-! ### The frame -/

section
variable {s t : State} {w : Site} {x : Tile} {r : Task} {n : Nat} {xs : List (BitVec 5)} {xa xv : List (BitVec 4)}
  {xp : List (BitVec 3)}

/-- A task lands past its instruction, whatever registers and slots it has written. -/
theorem lands_past (htile : t.tile w.tile = x.issued w.task (r.advance n)) (hkeeps : KeepsRegs xs xa xv xp (s.taskAt w) r)
    (hrest : RegsAndSlots (s.taskAt w) r) : Lands w ((s.taskAt w).pc + BitVec.ofNat 16 n) xs xa xv xp s t := by
  have htask : t.taskAt w = r.past n := by
    rw [State.taskAt, htile, Tile.issued_task_same]
    rfl
  have hlast : (t.tile w.tile).lastIssued = some w.task := by rw [htile, Tile.issued_lastIssued]
  rw [Lands, htask]
  exact ⟨hkeeps, congrArg (· + _) (hrest.field Task.pc), hrest.field Task.state, hrest.field Task.sp, hrest.field Task.is,
    hrest.field Task.acc, hrest.field Task.ovf, hrest.field Task.ctrl, hrest.field Task.tokens, hlast⟩

/-- An issue of a task leaves the rest of its tile, but for what its tile notes. -/
theorem passes_issued (hpad : x.pad = (s.tile w.tile).pad) (hpoison : x.padPoison = (s.tile w.tile).padPoison)
    (hstore : x.store = (s.tile w.tile).store) (htasks : x.tasks = (s.tile w.tile).tasks)
    (hkeeps : KeepsRegs xs xa xv xp (s.taskAt w) r) (hrest : RegsAndSlots (s.taskAt w) r) :
    Passes w n xs xa xv xp s (s.setTile w.tile (x.issued w.task (r.advance n))) :=
  ⟨ownTaskOnly_issued hpad hpoison hstore htasks, lands_past (State.tile_setTile_same _ _ _) hkeeps hrest⟩

theorem retires_issued (hpad : x.pad = (s.tile w.tile).pad) (hpoison : x.padPoison = (s.tile w.tile).padPoison)
    (hstore : x.store = (s.tile w.tile).store) (htasks : x.tasks = (s.tile w.tile).tasks)
    (hkeeps : KeepsRegs xs xa xv xp (s.taskAt w) r) (hrest : RegsAndSlots (s.taskAt w) r)
    (hslots : r.slots = (s.taskAt w).slots) :
    Retires w n xs xa xv xp s (s.setTile w.tile (x.issued w.task (r.advance n))) := by
  refine ⟨passes_issued hpad hpoison hstore htasks hkeeps hrest, ?_⟩
  rw [State.taskAt, State.tile_setTile_same, Tile.issued_task_same]
  exact ⟨hslots, hrest.field Task.cfg⟩

/-- An instruction that only goes on. -/
theorem retires_retire (n : Nat) : Retires w n [] [] [] [] s (s.retire w ((s.taskAt w).advance n)) :=
  retires_issued rfl rfl rfl rfl (Task.keepsRegs_refl _) rfl rfl

end

/-! ### Register operations -/

section
variable {s : State} {w : Site} {i : Instr} {o : RegOp} {r : Task} {n : Nat} {xs : List (BitVec 5)} {xa xv : List (BitVec 4)}
  {xp : List (BitVec 3)}
  (htake : Takes i w s) (hexec : exec i s = s.regOp i w o) (hok : o.ok = true) (hwaits : (s.taskAt w).waits o.ss o.vs = false)
  (heats : o.eats (s.taskAt w) = false) (hbad : o.bad (s.taskAt w) = false) (hrun : o.run (s.taskAt w) = r.advance n)
  (hkeeps : KeepsRegs xs xa xv xp (s.taskAt w) r) (hrest : RegsAndSlots (s.taskAt w) r)
include htake hexec hok hwaits heats hbad hrun hkeeps hrest

/-- A register instruction that nothing stops passes with the task it makes, and raises NONFINITE by its own account (R37). -/
theorem regOp_passes : ∃ t, exec i s = .next t ∧ Passes w n xs xa xv xp s t ∧ t.taskAt w = r.past n ∧
    (t.tile w.tile).nonfinite = ((s.tile w.tile).nonfinite || o.nonfinite (s.taskAt w)) := by
  have hnext := hexec.trans (s.regOp_take i w o htake hok hwaits heats hbad)
  rw [hrun] at hnext
  have hframe : Passes w n xs xa xv xp s _ := passes_issued (s := s) (w := w)
    (x := (s.tile w.tile).noteNonfinite (o.nonfinite (s.taskAt w))) rfl rfl rfl rfl hkeeps hrest
  refine ⟨_, hnext, hframe, ?_, ?_⟩
  · rw [State.taskAt, State.tile_setTile_same]
    exact Tile.issued_task_same _ _ _
  · rw [State.tile_setTile_same]
    rfl

theorem regOp_retires (hslots : r.slots = (s.taskAt w).slots) : ∃ t, exec i s = .next t ∧ Retires w n xs xa xv xp s t ∧
    t.taskAt w = r.past n ∧ (t.tile w.tile).nonfinite = ((s.tile w.tile).nonfinite || o.nonfinite (s.taskAt w)) := by
  obtain ⟨t, hnext, hpasses, htask, hnonfinite⟩ := regOp_passes htake hexec hok hwaits heats hbad hrun hkeeps hrest
  refine ⟨t, hnext, ⟨hpasses, ?_, ?_⟩, htask, hnonfinite⟩
  · rw [htask, Task.past_slots, hslots]
  · rw [htask, Task.past_cfg]
    exact hrest.field Task.cfg

end

section
variable {s : State} {w : Site} {i : Instr} {ok : Bool} {ss : List (BitVec 5)} {eats : Task → Bool} {run : Task → Task} {n : Nat}
  (htake : Takes i w s) (hexec : exec i s = s.regOp i w (RegOp.plain ok ss eats run)) (hok : ok = true)
  (hwaits : (s.taskAt w).waits ss [] = false) (heats : eats (s.taskAt w) = false)
include htake hexec hok hwaits heats

/-- An instruction that writes one scalar register. -/
theorem plain_setS {d : BitVec 5} {v : Word} {b : Bool} (hrun : run (s.taskAt w) = ((s.taskAt w).setS d v b).advance n) :
    ∃ t, exec i s = .next t ∧ Retires w n [d] [] [] [] s t ∧ (t.taskAt w).getS d = v ∧ (t.taskAt w).tagS d = b ∧
      (t.tile w.tile).nonfinite = (s.tile w.tile).nonfinite := by
  obtain ⟨t, hnext, hret, htask, hnonfinite⟩ := regOp_retires htake hexec hok hwaits heats rfl hrun (Task.keepsRegs_setS _ d v b) rfl rfl
  refine ⟨t, hnext, hret, ?_, ?_, hnonfinite.trans (Bool.or_false _)⟩
  · rw [htask, Task.past_getS, Task.getS_setS_same]
  · rw [htask, Task.past_tagS, Task.tagS_setS_same]

/-- An instruction that writes one address register. -/
theorem plain_setA {d : BitVec 4} {v : Word} {b : Bool} (hrun : run (s.taskAt w) = ((s.taskAt w).setA d v b).advance n) :
    ∃ t, exec i s = .next t ∧ Retires w n [] [d] [] [] s t ∧ (t.taskAt w).getA d = v ∧ (t.taskAt w).tagA d = b := by
  obtain ⟨t, hnext, hret, htask, -⟩ := regOp_retires htake hexec hok hwaits heats rfl hrun (Task.keepsRegs_setA _ d v b) rfl rfl
  refine ⟨t, hnext, hret, ?_, ?_⟩
  · rw [htask, Task.past_getA, Task.getA_setA_same]
  · rw [htask, Task.past_tagA, Task.tagA_setA_same]

/-- An instruction that writes one predicate. -/
theorem plain_setPred {d : BitVec 3} {v : Bool} (hrun : run (s.taskAt w) = ((s.taskAt w).setPred d v).advance n) :
    ∃ t, exec i s = .next t ∧ Retires w n [] [] [] [d] s t ∧ (t.taskAt w).pred d = (d == 0 || v) := by
  obtain ⟨t, hnext, hret, htask, -⟩ := regOp_retires htake hexec hok hwaits heats rfl hrun (Task.keepsRegs_setPred _ d v)
    (Task.regsAndSlots_setPred _ d v) (Task.setPred_slots _ _ _)
  exact ⟨t, hnext, hret, by rw [htask, Task.past_pred, Task.pred_setPred]⟩

end

end Sys2Proof.Machine
end

section
/-! The scalar instructions (R125): each form's result as the statements list it, and each instruction by the one register that it writes. -/

namespace Sys2Proof.Machine
open Sys2Proof.Claims

/-! ### Results -/

theorem toNat_and_31 (b : Word) : (b &&& 31).toNat = b.toNat % 32 := Nat.and_two_pow_sub_one_eq_mod b.toNat 5

/-- The upper half of an unsigned product. -/
theorem mulHigh_eq (a b : Word) :
    BitVec.ofNat 32 (a.toNat * b.toNat / 2 ^ 32) = (a.setWidth 64 * b.setWidth 64).extractLsb' 32 32 := by
  have hab : a.toNat * b.toNat < 2 ^ 64 :=
    (Nat.mul_lt_mul'' a.isLt b.isLt).trans_eq (pow_add 2 32 32).symm
  apply BitVec.eq_of_toNat_eq
  simp only [BitVec.toNat_ofNat, BitVec.extractLsb'_toNat, BitVec.toNat_mul, BitVec.toNat_setWidth, Nat.shiftRight_eq_div_pow,
    Nat.mul_mod_mod, Nat.mod_mul_mod]
  rw [Nat.mod_eq_of_lt hab]

/-- The upper half of a signed product. -/
theorem mulHighSigned_eq (a b : Word) :
    BitVec.ofInt 32 (a.toInt * b.toInt / 2 ^ 32) = (a.signExtend 64 * b.signExtend 64).extractLsb' 32 32 := by
  have product : a.signExtend 64 * b.signExtend 64 = BitVec.ofInt 64 (a.toInt * b.toInt) := by
    rw [BitVec.ofInt_mul]
    rfl
  rw [product]
  apply BitVec.eq_of_toNat_eq
  simp only [BitVec.toNat_ofInt, BitVec.extractLsb'_toNat, Nat.shiftRight_eq_div_pow]
  generalize a.toInt * b.toInt = p
  omega

/-- The larger of two, by either comparison: equal ones are the same. -/
theorem ite_lt_eq_ite_le {α β : Type} [LinearOrder β] {f : α → β} (hf : f.Injective) (a b : α) :
    (if f a < f b then b else a) = if f a ≤ f b then b else a := by
  rcases lt_trichotomy (f a) (f b) with h | h | h
  · rw [if_pos h, if_pos h.le]
  · rw [hf h, ite_self, ite_self]
  · rw [if_neg h.not_gt, if_neg h.not_ge]

theorem min_signed (a b : Word) : (if b.slt a then b else a) = if a.toInt ≤ b.toInt then a else b := by
  simp only [BitVec.slt_iff_toInt_lt, ← not_le, ite_not]

theorem max_signed (a b : Word) : (if a.slt b then b else a) = if a.toInt ≤ b.toInt then b else a := by
  simp only [BitVec.slt_iff_toInt_lt, ite_lt_eq_ite_le fun _ _ => BitVec.eq_of_toInt_eq]

theorem min_unsigned (a b : Word) : (if b.ult a then b else a) = if a.toNat ≤ b.toNat then a else b := by
  simp only [BitVec.ult_iff_toNat_lt, ← not_le, ite_not]

theorem max_unsigned (a b : Word) : (if a.ult b then b else a) = if a.toNat ≤ b.toNat then b else a := by
  simp only [BitVec.ult_iff_toNat_lt, ite_lt_eq_ite_le fun _ _ => BitVec.eq_of_toNat_eq]

/-- A two-operand form of ALU is not MOV, and gives the result that R125 lists. -/
theorem aluResult_of_mem {fn : BitVec 7} {op : Word → Word → Word} (h : (fn, op) ∈ aluForms) :
    fn.toNat ≠ 0x0F ∧ ∀ a b, aluResult fn.toNat a b = some (op a b) := by
  simp only [aluForms, List.mem_cons, Prod.mk.injEq, List.not_mem_nil, or_false] at h
  rcases h with ⟨rfl, rfl⟩ | ⟨rfl, rfl⟩ | ⟨rfl, rfl⟩ | ⟨rfl, rfl⟩ | ⟨rfl, rfl⟩ | ⟨rfl, rfl⟩ | ⟨rfl, rfl⟩ | ⟨rfl, rfl⟩ | ⟨rfl, rfl⟩ |
    ⟨rfl, rfl⟩ | ⟨rfl, rfl⟩ | ⟨rfl, rfl⟩ | ⟨rfl, rfl⟩ | ⟨rfl, rfl⟩ | ⟨rfl, rfl⟩
  all_goals refine ⟨by decide, fun a b => congrArg some ?_⟩
  · rfl
  · rfl
  · rfl
  · rfl
  · rfl
  · exact congrArg (a <<< ·) (toNat_and_31 b).symm
  · exact congrArg (a >>> ·) (toNat_and_31 b).symm
  · exact congrArg a.sshiftRight (toNat_and_31 b).symm
  · rfl
  · exact mulHigh_eq a b
  · exact mulHighSigned_eq a b
  · exact min_signed a b
  · exact max_signed a b
  · exact min_unsigned a b
  · exact max_unsigned a b

/-! ### ALU -/

theorem aluResults : AluResults := by
  refine ⟨fun s w f op hmem htake hclear => ?_, fun s w f hfn hb htake hclear => ?_⟩
  · obtain ⟨hwaits, htags, -⟩ := hclear
    obtain ⟨hfn, hresult⟩ := aluResult_of_mem hmem
    have hmov : (f.fn.toNat == 0x0F) = false := beq_false_of_ne hfn
    obtain ⟨t, hnext, hret, hvalue, htag, hnonfinite⟩ := plain_setS (n := 4) (d := f.d) (b := false)
      (v := op ((s.taskAt w).getS f.a) ((s.taskAt w).getS f.b)) htake rfl (by simp [hresult, hfn]) (by simpa [hfn] using hwaits)
      (by simp [htags]) (by simp only [hresult, hmov, Bool.false_and, Option.getD_some])
    exact ⟨t, hnext, hret, hnonfinite, hvalue, htag⟩
  · obtain ⟨hwaits, -⟩ := hclear
    obtain ⟨t, hnext, hret, hvalue, htag, hnonfinite⟩ := plain_setS (n := 4) (d := f.d) (b := (s.taskAt w).tagS f.a)
      (v := (s.taskAt w).getS f.a) htake rfl (by simp [aluResult, hfn, hb]) (by simpa [hfn] using hwaits) (by simp [hfn]) (by simp [aluResult, hfn])
    exact ⟨t, hnext, hret, hnonfinite, hvalue, htag⟩

/-! ### Immediates -/

theorem bitsOf_eq_extractLsb' {w : Nat} (x : BitVec w) (hi lo : Nat) :
    bitsOf x.toNat hi lo = (x.extractLsb' lo (hi + 1 - lo)).toNat := by
  rw [bitsOf, BitVec.extractLsb'_toNat, Nat.shiftRight_eq_div_pow]

theorem immOp_retires {s : State} {w : Site} {f : FI} {i : Instr} {ok : Bool} {g : Word → Word}
    (hclear : Clear (s.taskAt w) [f.d, f.a] [f.a] []) (htake : Takes i w s) (hexec : exec i s = s.regOp i w (immOp ok f g))
    (hok : ok = true) : ∃ t, exec i s = .next t ∧ Retires w 4 [f.d] [] [] [] s t ∧
      (t.taskAt w).getS f.d = g ((s.taskAt w).getS f.a) := by
  obtain ⟨hwaits, htags, -⟩ := hclear
  obtain ⟨t, hnext, hret, hvalue, -⟩ := plain_setS htake hexec hok hwaits (htags f.a (by simp)) rfl
  exact ⟨t, hnext, hret, hvalue⟩

theorem exec_shi {s : State} {w : Site} {f : FI} (hclear : Clear (s.taskAt w) [f.d, f.a] [f.a] []) (htake : Takes (.shi w f) w s)
    (hrsv : f.imm.extractLsb' 7 5 = 0) (hkind : f.imm.extractLsb' 5 2 ≠ 3) :
    ∃ t, exec (.shi w f) s = .next t ∧ Retires w 4 [f.d] [] [] [] s t ∧
      (t.taskAt w).getS f.d = shiftBy (f.imm.extractLsb' 5 2).toNat ((s.taskAt w).getS f.a) (f.imm.extractLsb' 0 5).toNat := by
  have kind : (f.imm.extractLsb' 5 2).toNat ≠ 3 := fun h => hkind (BitVec.eq_of_toNat_eq h)
  obtain ⟨t, hnext, hret, hvalue⟩ := immOp_retires hclear htake rfl (by simp [bitsOf_eq_extractLsb', hrsv, -BitVec.extractLsb'_toNat, kind])
  exact ⟨t, hnext, hret, by simpa only [bitsOf_eq_extractLsb'] using hvalue⟩

theorem immediateResults : ImmediateResults := by
  refine ⟨fun s w f hclear => ⟨fun h => immOp_retires hclear h rfl rfl, fun h => immOp_retires hclear h rfl rfl,
    fun h => immOp_retires hclear h rfl rfl, fun h => immOp_retires hclear h rfl rfl, fun h hrsv hkind => ?_⟩,
    fun s w f htake hclear => ?_, fun s w f htake hrsv => ⟨fun hk hclear => ?_, fun hk hd => ?_⟩⟩
  -- SHI
  · obtain ⟨t, hnext, hret, hvalue⟩ := exec_shi hclear h hrsv hkind
    refine ⟨t, hnext, hret, fun hk => ?_, fun hk => ?_, fun hk => ?_⟩ <;>
    · rw [hvalue, hk]
      rfl
  -- LI
  · obtain ⟨hwaits, -⟩ := hclear
    obtain ⟨t, hnext, hret, hvalue, -⟩ := plain_setS htake rfl rfl hwaits rfl rfl
    exact ⟨t, hnext, hret, hvalue⟩
  -- LIL to a scalar register
  · obtain ⟨hwaits, -⟩ := hclear
    obtain ⟨t, hnext, hret, hvalue, -⟩ := plain_setS (n := 8) (d := f.d) (v := f.imm) (b := false) htake rfl (by simp [hrsv, hk])
      (by simpa [hk] using hwaits) rfl (by simp [hk])
    exact ⟨t, hnext, hret, hvalue⟩
  -- LIL to an address register
  · obtain ⟨t, hnext, hret, hvalue, -⟩ := plain_setA (n := 8) (d := f.d.setWidth 4) (v := f.imm) (b := false) htake rfl
      (by simp only [hrsv, hk, top4, hd]; rfl) (by simp [hk, Task.waits]) rfl (by simp [hk, low4_eq])
    exact ⟨t, hnext, hret, hvalue⟩

end Sys2Proof.Machine

namespace Sys2Proof
open Sys2Proof.Machine Sys2Proof.Claims

/-- Settles O1: an instruction that writes one scalar or address register, with the value of its form. -/
theorem scalarResults : Obligations.ScalarResults := ⟨aluResults, immediateResults⟩

end Sys2Proof
end

section
/-! The compares, the predicate and the address instructions (R124 to R126, R147, R149): each by the one register that it writes. -/

namespace Sys2Proof.Machine
open Sys2Proof.Claims

/-! ### Fields that name a predicate -/

theorem low3_eq (d : BitVec 5) : low3 d = d.setWidth 3 := by
  revert d; decide

theorem top3_eq_false {d : BitVec 5} (h : d.toNat < 8) : top3 d = false := by
  revert d; decide

/-- A five-bit name of a predicate is p0's only if it is 0. -/
theorem setWidth_three_beq_zero {d : BitVec 5} (h : d.toNat < 8) : (d.setWidth 3 == 0) = (d == 0) := by
  revert d; decide

/-! ### Results -/

/-- The conditions are those that R125 lists. -/
theorem compareBy_of_mem {cond : Nat} {op : Word → Word → Bool} (h : (cond, op) ∈ conditions) (a b : Word) :
    compareBy cond a b = some (op a b) := by
  simp only [conditions, List.mem_cons, Prod.mk.injEq, List.not_mem_nil, or_false] at h
  rcases h with ⟨rfl, rfl⟩ | ⟨rfl, rfl⟩ | ⟨rfl, rfl⟩ | ⟨rfl, rfl⟩ | ⟨rfl, rfl⟩ | ⟨rfl, rfl⟩
  all_goals refine congrArg some ?_
  · exact (Bool.beq_eq_decide_eq a b)
  · simp [bne, Bool.beq_eq_decide_eq]
  · rfl
  · rw [BitVec.slt, ← decide_not]
    exact decide_eq_decide.2 not_lt
  · rfl
  · rw [BitVec.ult, ← decide_not]
    exact decide_eq_decide.2 not_lt

/-- The predicate forms are those that R125 lists. -/
theorem plogResult_of_form {fn : BitVec 7} {a b : BitVec 5} {p q v : Bool}
    (h : (fn = 0 ∧ v = (p && q)) ∨ (fn = 1 ∧ v = (p || q)) ∨ (fn = 2 ∧ v = (p ^^ q)) ∨ (fn = 3 ∧ v = (p && !q)) ∨
      (fn = 4 ∧ a = 0 ∧ b = 0 ∧ v = true) ∨ (fn = 5 ∧ a = 0 ∧ b = 0 ∧ v = false) ∨ (fn = 6 ∧ b = 0 ∧ v = !p)) :
    plogResult fn.toNat p q = some v ∧ (plogResult fn.toNat false false).isSome = true ∧
      (fn.toNat = 4 ∨ fn.toNat = 5 → a = 0) ∧ (4 ≤ fn.toNat → b = 0) := by
  rcases h with ⟨rfl, rfl⟩ | ⟨rfl, rfl⟩ | ⟨rfl, rfl⟩ | ⟨rfl, rfl⟩ | ⟨rfl, rfl, rfl, rfl⟩ | ⟨rfl, rfl, rfl, rfl⟩ | ⟨rfl, rfl, rfl⟩
  all_goals exact ⟨rfl, rfl, by simp, by simp⟩

/-! ### Predicates -/

section
variable {s : State} {w : Site}

theorem exec_cmp {f : FR} {op : Word → Word → Bool} (hop : (f.fn.toNat, op) ∈ conditions) (hd : f.d.toNat < 8)
    (htake : Takes (.cmp w f) w s) (hclear : Clear (s.taskAt w) [f.a, f.b] [f.a, f.b] []) :
    ∃ t, exec (.cmp w f) s = .next t ∧ Retires w 4 [] [] [] [f.d.setWidth 3] s t ∧
      (t.taskAt w).pred (f.d.setWidth 3) = (f.d == 0 || op ((s.taskAt w).getS f.a) ((s.taskAt w).getS f.b)) := by
  obtain ⟨hwaits, htags, -⟩ := hclear
  rw [← setWidth_three_beq_zero hd]
  exact plain_setPred htake rfl (by simp [compareBy_of_mem hop, top3_eq_false hd]) hwaits (by simp [htags])
    (by simp [compareBy_of_mem hop, low3_eq])

theorem exec_cmpi {f : FC} {op : Word → Word → Bool} (hop : (f.cond.toNat, op) ∈ conditions) (htake : Takes (.cmpi w f) w s)
    (hclear : Clear (s.taskAt w) [f.a] [f.a] []) :
    ∃ t, exec (.cmpi w f) s = .next t ∧ Retires w 4 [] [] [] [f.pd] s t ∧
      (t.taskAt w).pred f.pd = (f.pd == 0 || op ((s.taskAt w).getS f.a) (f.imm.signExtend 32)) := by
  obtain ⟨hwaits, htags, -⟩ := hclear
  exact plain_setPred htake rfl (by simp [compareBy_of_mem hop]) hwaits (htags f.a (by simp)) (by simp [compareBy_of_mem hop])

/-- What waits for no register waits for no load. -/
theorem Task.waits_nil (t : Task) : t.waits [] [] = false := by simp [Task.waits]

theorem exec_plog {f : FR} {v : Bool} (htake : Takes (.plog w f) w s) (hd : f.d.toNat < 8) (ha : f.a.toNat < 8) (hb : f.b.toNat < 8)
    (hv : plogResult f.fn.toNat ((s.taskAt w).pred (f.a.setWidth 3)) ((s.taskAt w).pred (f.b.setWidth 3)) = some v)
    (hsome : (plogResult f.fn.toNat false false).isSome = true) (hrsvA : f.fn.toNat = 4 ∨ f.fn.toNat = 5 → f.a = 0)
    (hrsvB : 4 ≤ f.fn.toNat → f.b = 0) :
    ∃ t, exec (.plog w f) s = .next t ∧ Retires w 4 [] [] [] [f.d.setWidth 3] s t ∧
      (t.taskAt w).pred (f.d.setWidth 3) = (f.d == 0 || v) := by
  rw [← setWidth_three_beq_zero hd]
  refine plain_setPred htake rfl ?_ (s.taskAt w).waits_nil rfl (by simp [hv, low3_eq])
  simp only [hsome, top3_eq_false hd, top3_eq_false ha, top3_eq_false hb, Bool.not_false, Bool.true_and, Bool.and_eq_true,
    ite_eq_right_iff]
  simpa using ⟨hrsvA, hrsvB⟩

theorem exec_pget {f : FR} (htake : Takes (.pmov w f) w s) (hb : f.b = 0) (hfn : f.fn = 0) (ha : f.a = 0)
    (hclear : Clear (s.taskAt w) [f.d] [] []) :
    ∃ t, exec (.pmov w f) s = .next t ∧ Retires w 4 [f.d] [] [] [] s t ∧
      (t.taskAt w).getS f.d = ((s.taskAt w).p ||| 1).setWidth 32 := by
  obtain ⟨hwaits, -⟩ := hclear
  obtain ⟨t, hnext, hret, hvalue, -⟩ := plain_setS (n := 4) (d := f.d) (v := ((s.taskAt w).p ||| 1).setWidth 32) (b := false) htake rfl
    (by simp [hb, hfn, ha]) (by simpa [hfn] using hwaits) (by simp [hfn]) (by simp [hfn])
  exact ⟨t, hnext, hret, hvalue⟩

/-- The bits of PGET's result are the predicates. -/
theorem Task.getLsbD_predicates (t : Task) (n : Nat) :
    ((t.p ||| 1).setWidth 32).getLsbD n = (decide (n < 8) && t.pred (BitVec.ofNat 3 n)) := by
  by_cases hn : n < 8
  · interval_cases n <;> simp [Task.pred]
  · have high : (t.p ||| 1).getLsbD n = false := BitVec.getLsbD_of_ge _ _ (not_lt.1 hn)
    rw [BitVec.getLsbD_setWidth, high, Bool.and_false, decide_eq_false hn, Bool.false_and]

/-- A task whose predicates are the low byte of a scalar register. -/
def Task.putPredicates (t : Task) (a : BitVec 5) : Task := { t with p := (t.getS a).extractLsb' 0 8 ||| 1 }

theorem Task.putPredicates_pred (t : Task) (a : BitVec 5) {n : BitVec 3} (hn : n ≠ 0) :
    (t.putPredicates a).pred n = (t.getS a).getLsbD n.toNat := by
  have hbit : n.toNat ≠ 0 := fun h => hn (BitVec.eq_of_toNat_eq h)
  have hlt : n.toNat < 8 := n.isLt
  rw [Task.pred, beq_false_of_ne hn, Bool.false_or]
  simp [Task.putPredicates, hlt, hbit]

theorem Task.keepsRegs_putPredicates (t : Task) (a : BitVec 5) :
    KeepsRegs [] [] [] [1, 2, 3, 4, 5, 6, 7] t (t.putPredicates a) := by
  refine ⟨fun _ _ => ⟨rfl, rfl⟩, fun _ _ => ⟨rfl, rfl⟩, fun _ _ => ⟨rfl, rfl⟩, fun n hn => ?_⟩
  obtain rfl : n = 0 := by revert n; decide
  rfl

theorem exec_pput {f : FR} (htake : Takes (.pmov w f) w s) (hb : f.b = 0) (hfn : f.fn = 1) (hd : f.d = 0)
    (hclear : Clear (s.taskAt w) [f.a] [f.a] []) :
    ∃ t, exec (.pmov w f) s = .next t ∧ Retires w 4 [] [] [] [1, 2, 3, 4, 5, 6, 7] s t ∧
      ∀ n : BitVec 3, n ≠ 0 → (t.taskAt w).pred n = ((s.taskAt w).getS f.a).getLsbD n.toNat := by
  obtain ⟨hwaits, htags, -⟩ := hclear
  obtain ⟨t, hnext, hret, htask, -⟩ := regOp_retires (n := 4) (r := (s.taskAt w).putPredicates f.a) htake rfl
    (by simp [RegOp.plain, hb, hfn, hd]) (by simpa [RegOp.plain, hfn] using hwaits) (by simp [RegOp.plain, hfn, htags]) rfl
    (by simp [RegOp.plain, hfn, Task.putPredicates]) ((s.taskAt w).keepsRegs_putPredicates f.a) rfl rfl
  exact ⟨t, hnext, hret, fun n hn => by rw [htask, Task.past_pred, Task.putPredicates_pred _ _ hn]⟩

theorem exec_tflag {f : FT} (htake : Takes (.tflag w f) w s) (htn : f.tn.toNat < 8) (hs : f.s = 0) (hrsv : f.rsv = 0) (hn : f.n = 0) :
    ∃ t, exec (.tflag w f) s = .next t ∧ Retires w 4 [] [] [] [f.tn.setWidth 3] s t ∧
      (t.taskAt w).pred (f.tn.setWidth 3) = (f.tn == 0 || (s.tile w.tile).nonfinite) := by
  have field : f.tn.getLsbD 3 = false ∧ f.tn.extractLsb' 0 3 = f.tn.setWidth 3 ∧ (f.tn.setWidth 3 == 0) = (f.tn == 0) := by
    revert htn
    generalize f.tn = d
    revert d; decide
  obtain ⟨hhigh, hlow, hzero⟩ := field
  have hnext : exec (.tflag w f) s =
      .next (s.retire w (((s.taskAt w).setPred (f.tn.setWidth 3) (s.tile w.tile).nonfinite).advance 4)) := by
    show execTflag w f s = _
    rw [execTflag, State.issue_take _ _ _ _ htake, if_neg (by rw [hhigh, hs, hrsv, hn]; simp), hlow]
  refine ⟨_, hnext, retires_issued rfl rfl rfl rfl (Task.keepsRegs_setPred _ _ _) (Task.regsAndSlots_setPred _ _ _)
    (Task.setPred_slots _ _ _), ?_⟩
  rw [State.retire, State.taskAt, State.tile_setTile_same, Tile.issued_task_same, ← hzero]
  exact Task.pred_setPred _ _ _

theorem exec_nop {f : FR} (htake : Takes (.nop w f) w s) (hf : f.bits = 0) :
    ∃ t, exec (.nop w f) s = .next t ∧ Retires w 4 [] [] [] [] s t := by
  obtain ⟨t, hnext, hret, -⟩ := regOp_retires htake rfl (beq_iff_eq.2 hf) (s.taskAt w).waits_nil rfl rfl rfl (Task.keepsRegs_refl _)
    rfl rfl
  exact ⟨t, hnext, hret⟩

end

theorem predicateResults : PredicateResults := by
  refine ⟨fun s w f op hop hd htake hclear => exec_cmp hop hd htake hclear,
    fun s w f op hop htake hclear => exec_cmpi hop htake hclear, fun s w f htake hd ha hb => ?_, fun s w f htake hb => ⟨?_, ?_⟩,
    fun s w f htake htn hs hrsv hn => exec_tflag htake htn hs hrsv hn, fun s w f htake hd ha hb hfn => ?_⟩
  · intro a b v hform
    obtain ⟨hv, hsome, hrsvA, hrsvB⟩ := plogResult_of_form hform
    exact exec_plog htake hd ha hb hv hsome hrsvA hrsvB
  · intro hfn ha hclear
    obtain ⟨t, hnext, hret, hvalue⟩ := exec_pget htake hb hfn ha hclear
    exact ⟨t, hnext, hret, fun n => by rw [hvalue, Task.getLsbD_predicates]⟩
  · exact fun hfn hd hclear => exec_pput htake hb hfn hd hclear
  · exact exec_nop htake (by rw [FR.bits, hd, ha, hb, hfn]; rfl)

/-! ### Addresses -/

section
variable {s : State} {w : Site} {f : FR}

/-- AADD and ASUB. -/
theorem exec_aop_sum (htake : Takes (.aop w f) w s) (hd : f.d.toNat < 16) (ha : f.a.toNat < 16)
    (hclear : Clear (s.taskAt w) [f.b] [f.b] [f.a.setWidth 4]) (hfn : f.fn = 0 ∨ f.fn = 1) :
    ∃ t, exec (.aop w f) s = .next t ∧ Retires w 4 [] [f.d.setWidth 4] [] [] s t ∧
      (t.taskAt w).getA (f.d.setWidth 4) = if f.fn = 0 then (s.taskAt w).getA (f.a.setWidth 4) + (s.taskAt w).getS f.b
        else (s.taskAt w).getA (f.a.setWidth 4) - (s.taskAt w).getS f.b := by
  obtain ⟨hwaits, htagS, htagA⟩ := hclear
  have clean := htagA (f.a.setWidth 4) (by simp)
  rcases hfn with hfn | hfn
  all_goals
    obtain ⟨t, hnext, hret, hvalue, -⟩ := plain_setA (n := 4) (d := f.d.setWidth 4) (b := false)
      (v := if f.fn = 0 then (s.taskAt w).getA (f.a.setWidth 4) + (s.taskAt w).getS f.b
        else (s.taskAt w).getA (f.a.setWidth 4) - (s.taskAt w).getS f.b)
      htake rfl (by simp [hfn, top4_eq_false hd, top4_eq_false ha]) (by simpa [hfn] using hwaits)
      (by simp [hfn, low4_eq, clean, htagS]) (by simp [hfn, low4_eq])
    exact ⟨t, hnext, hret, hvalue⟩

theorem exec_aget (htake : Takes (.aop w f) w s) (hfn : f.fn = 2) (hb : f.b = 0) (ha : f.a.toNat < 16)
    (hclear : Clear (s.taskAt w) [f.d] [] []) :
    ∃ t, exec (.aop w f) s = .next t ∧ Retires w 4 [f.d] [] [] [] s t ∧
      (t.taskAt w).getS f.d = (s.taskAt w).getA (f.a.setWidth 4) ∧ (t.taskAt w).tagS f.d = (s.taskAt w).tagA (f.a.setWidth 4) := by
  obtain ⟨hwaits, -⟩ := hclear
  obtain ⟨t, hnext, hret, hvalue, htag, -⟩ := plain_setS (n := 4) (d := f.d) (b := (s.taskAt w).tagA (f.a.setWidth 4))
    (v := (s.taskAt w).getA (f.a.setWidth 4)) htake rfl (by simp [hfn, hb, top4_eq_false ha]) (by simpa [hfn] using hwaits)
    (by simp [hfn]) (by simp [hfn, low4_eq])
  exact ⟨t, hnext, hret, hvalue, htag⟩

theorem exec_aput (htake : Takes (.aop w f) w s) (hfn : f.fn = 3) (hb : f.b = 0) (hd : f.d.toNat < 16)
    (hclear : Clear (s.taskAt w) [f.a] [] []) :
    ∃ t, exec (.aop w f) s = .next t ∧ Retires w 4 [] [f.d.setWidth 4] [] [] s t ∧
      (t.taskAt w).getA (f.d.setWidth 4) = (s.taskAt w).getS f.a ∧ (t.taskAt w).tagA (f.d.setWidth 4) = (s.taskAt w).tagS f.a := by
  obtain ⟨hwaits, -⟩ := hclear
  exact plain_setA htake rfl (by simp [hfn, hb, top4_eq_false hd]) (by simpa [hfn] using hwaits) (by simp [hfn])
    (by simp [hfn, low4_eq])

theorem exec_amov (htake : Takes (.aop w f) w s) (hfn : f.fn = 4) (hb : f.b = 0) (hd : f.d.toNat < 16) (ha : f.a.toNat < 16) :
    ∃ t, exec (.aop w f) s = .next t ∧ Retires w 4 [] [f.d.setWidth 4] [] [] s t ∧
      (t.taskAt w).getA (f.d.setWidth 4) = (s.taskAt w).getA (f.a.setWidth 4) ∧
      (t.taskAt w).tagA (f.d.setWidth 4) = (s.taskAt w).tagA (f.a.setWidth 4) :=
  plain_setA htake rfl (by simp [hfn, hb, top4_eq_false hd, top4_eq_false ha]) (by simp [hfn, Task.waits]) (by simp [hfn])
    (by simp [hfn, low4_eq])

end

theorem addressResults : AddressResults := by
  refine ⟨fun s w f htake => ⟨fun hd ha hclear hfn => exec_aop_sum htake hd ha hclear hfn,
    fun hfn hb ha hclear => exec_aget htake hfn hb ha hclear, fun hfn hb hd hclear => exec_aput htake hfn hb hd hclear,
    fun hfn hb hd ha => exec_amov htake hfn hb hd ha⟩, fun s w f htake hd ha hclear => ?_⟩
  obtain ⟨-, -, htags⟩ := hclear
  have clean := htags (f.a.setWidth 4) (by simp)
  obtain ⟨t, hnext, hret, hvalue, -⟩ := plain_setA (n := 4) (d := f.d.setWidth 4) (b := false)
    (v := (s.taskAt w).getA (f.a.setWidth 4) + f.imm.signExtend 32) htake rfl (by simp [top4_eq_false hd, top4_eq_false ha])
    (s.taskAt w).waits_nil (by rw [low4_eq, clean]) (by simp [low4_eq])
  exact ⟨t, hnext, hret, hvalue⟩

end Sys2Proof.Machine

namespace Sys2Proof
open Sys2Proof.Machine Sys2Proof.Claims

/-- Settles O2: an instruction that writes one predicate or address register, with the value of its form; PPUT alone writes all
predicates but p0. -/
theorem predicatesAndAddresses : Obligations.PredicatesAndAddresses := ⟨predicateResults, addressResults⟩

end Sys2Proof
end

section
/-! Lanes of vector registers (R32, R81), and VOP (R129). -/

namespace Sys2Proof.Machine
open Sys2Proof.Claims

/-! ### Digits -/

/-- A field of a number is the same field of its low bits. -/
theorem mod_div_mod {x n start len : Nat} (h : start + len ≤ n) : x % 2 ^ n / 2 ^ start % 2 ^ len = x / 2 ^ start % 2 ^ len := by
  apply Nat.eq_of_testBit_eq
  intro i
  simp only [Nat.testBit_mod_two_pow, Nat.testBit_div_two_pow]
  by_cases hi : i < len
  · have low : i + start < n := by omega
    simp [hi, low]
  · simp [hi]

theorem ofNat_div_mod {n start len : Nat} (x : Nat) (h : start + len ≤ n) :
    (BitVec.ofNat n x).toNat / 2 ^ start % 2 ^ len = x / 2 ^ start % 2 ^ len := by
  rw [BitVec.toNat_ofNat, mod_div_mod h]

/-- The digits of a number are those that it is made of. -/
theorem ofDigits_digit {b : Nat} {es : List Nat} (hb : 0 < b) (h : ∀ e ∈ es, e < b) (i : Nat) :
    Nat.ofDigits b es / b ^ i % b = es.getD i 0 := by
  rw [Nat.ofDigits_div_pow_eq_ofDigits_drop i hb es h, List.getD_eq_getElem?_getD, ← List.head?_drop]
  cases hdrop : es.drop i with
  | nil => simp
  | cons e rest =>
    have he : e < b := h e (List.mem_of_mem_drop (hdrop ▸ List.mem_cons_self))
    rw [Nat.ofDigits_cons, Nat.add_mul_mod_self_left, Nat.mod_eq_of_lt he]
    rfl

/-! ### Lanes -/

theorem lane_toNat (v : VReg) (i : Nat) : (lane v i).toNat = v.toNat / 2 ^ (32 * i) % 2 ^ 32 := by
  rw [lane, BitVec.extractLsb'_toNat, Nat.shiftRight_eq_div_pow]

theorem ofLanes_eq (l : List Word) : ofLanes l = BitVec.ofNat 1024 (Nat.ofDigits (2 ^ 32) (l.map BitVec.toNat)) := by
  rw [ofLanes, Nat.ofDigits_eq_foldr, List.foldr_map]
  rfl

/-- The lanes of a register are those that it is made of; missing lanes are +0. -/
theorem lane_ofLanes (l : List Word) {i : Nat} (hi : i < 32) : lane (ofLanes l) i = l.getD i 0 := by
  have digits : ∀ e ∈ l.map BitVec.toNat, e < 2 ^ 32 := by
    intro e he
    obtain ⟨w, -, rfl⟩ := List.mem_map.1 he
    exact w.isLt
  apply BitVec.eq_of_toNat_eq
  rw [lane_toNat, ofLanes_eq, ofNat_div_mod _ (by omega), Nat.pow_mul, ofDigits_digit (by norm_num) digits,
    List.getD_eq_getElem?_getD, List.getD_eq_getElem?_getD, List.getElem?_map]
  cases l[i]? <;> rfl

/-- A register whose lanes are given by their number. -/
theorem lane_ofLanes_map (g : Nat → Word) {i : Nat} (hi : i < 32) : lane (ofLanes ((List.range 32).map g)) i = g i := by
  rw [lane_ofLanes _ hi]
  simp [hi]

theorem lane_laneMap (op : Word → Word → Word → Word) (a b c : VReg) {i : Nat} (hi : i < 32) :
    lane (laneMap op a b c) i = op (lane a i) (lane b i) (lane c i) := lane_ofLanes_map _ hi

theorem anyNonfinite_iff (v : VReg) : anyNonfinite v = true ↔ ∃ i, i < 32 ∧ nonfinite32 (lane v i) = true := by
  simp [anyNonfinite, lanes]

theorem lanes_ofLanes_map (g : Nat → Word) : lanes (ofLanes ((List.range 32).map g)) = (List.range 32).map g :=
  List.map_congr_left fun _ hi => lane_ofLanes_map g (List.mem_range.1 hi)

/-- Fewer registers wait for no more loads. -/
theorem Task.waits_mono {t : Task} {ss ss' : List (BitVec 5)} {vs vs' : List (BitVec 4)} (h : t.waits ss vs = false)
    (hs : ss' ⊆ ss) (hv : vs' ⊆ vs) : t.waits ss' vs' = false := by
  simp only [Task.waits, List.any_eq_false] at h ⊢
  intro l hl
  have clear := h l hl
  split at clear <;> simp only [*, if_true, if_false, Bool.false_eq_true, List.any_eq_true, not_exists, not_and] at clear ⊢
  · exact fun v hv' => clear v (hv hv')
  · exact fun n hn => clear n (hs hn)

/-! ### VOP -/

section
variable {s : State} {w : Site} {f : FV}

/-- VOP in the forms that compute: each lane is its operation's, and NONFINITE is raised by what is written (R37, R129). -/
theorem exec_vop {op : Word → Word → Word → Word} (htake : Takes (.vop w f) w s)
    (hlane : vopLane f.fn.toNat = some op) (hmov : f.fn.toNat ≠ 0x0A) (hok : (vopOp f).ok = true)
    (hwaits : (s.taskAt w).waits [] (vopOp f).vs = false) (heats : (vopOp f).eats (s.taskAt w) = false) :
    ∃ t, exec (.vop w f) s = .next t ∧ Retires w 4 [] [] [f.vd] [] s t ∧
      (∀ i, i < 32 → lane ((t.taskAt w).getV f.vd) i = op (lane ((s.taskAt w).getV f.va) i) (lane ((s.taskAt w).getV f.vb) i)
        (lane ((s.taskAt w).getV (if f.fn.toNat = 0x0B then f.vd else f.vc)) i)) ∧
      (t.taskAt w).tagV f.vd = false ∧
      ((t.tile w.tile).nonfinite = true ↔ (s.tile w.tile).nonfinite = true ∨
        ∃ i, i < 32 ∧ nonfinite32 (lane ((t.taskAt w).getV f.vd) i) = true) := by
  have hnot : (f.fn.toNat == 0x0A) = false := beq_false_of_ne hmov
  have hresult : (s.taskAt w).vop f = laneMap op ((s.taskAt w).getV f.va) ((s.taskAt w).getV f.vb)
      ((s.taskAt w).getV (if f.fn.toNat = 0x0B then f.vd else f.vc)) := by
    rw [Task.vop]
    simp only [hlane, if_neg hmov, Option.getD_some]
  obtain ⟨t, hnext, hret, htask, hnonfinite⟩ := regOp_retires (n := 4) (r := (s.taskAt w).setV f.vd ((s.taskAt w).vop f) false)
    htake rfl hok hwaits heats rfl (by simp only [vopOp, hnot, Bool.false_and]) (Task.keepsRegs_setV _ _ _ _) rfl rfl
  have hvalue : (t.taskAt w).getV f.vd = (s.taskAt w).vop f := by rw [htask, Task.past_getV, Task.getV_setV_same]
  refine ⟨t, hnext, hret, fun i hi => ?_, ?_, ?_⟩
  · rw [hvalue, hresult, lane_laneMap _ _ _ _ hi]
  · rw [htask, Task.past_tagV, Task.tagV_setV_same]
  · rw [hvalue, ← anyNonfinite_iff, hnonfinite, Bool.or_eq_true]
    simp [vopOp, hmov]

/-- What a form of VOP uses, by its code (R129). -/
theorem vopUses_iff (fn : BitVec 6) : (vopUsesB fn.toNat = true → fn ≠ 0x0B ∧ ¬(fn = 0x05 ∨ fn = 0x08 ∨ fn = 0x09)) ∧
    (vopUsesC fn.toNat = true ↔ fn = 0x04) ∧ (fn.toNat = 0x0B ↔ fn = 0x0B) := by
  revert fn; decide

/-- A form of VOP names no register but its destination and its sources, and reads no poison if they are clean (R219). -/
theorem vopOp_sources {t : Task} {src : List (BitVec 4)} (ha : f.va ∈ src) (hb : vopUsesB f.fn.toNat = true → f.vb ∈ src)
    (hc : vopUsesC f.fn.toNat = true → f.vc ∈ src) (hd : f.fn.toNat = 0x0B → f.vd ∈ src) (hclean : ∀ v ∈ src, t.tagV v = false) :
    (vopOp f).vs ⊆ f.vd :: src ∧ (vopOp f).eats t = false := by
  have hvs : (vopOp f).vs ⊆ f.vd :: src := by
    have pick (p : Bool) {v : BitVec 4} (h : p = true → v ∈ src) : (if p then [v] else []) ⊆ f.vd :: src := by
      cases p
      · exact List.nil_subset _
      · simpa using .inr (h rfl)
    refine List.append_subset.2 ⟨List.append_subset.2 ⟨?_, pick _ hb⟩, pick _ hc⟩
    simpa using .inr ha
  have clean (p : Bool) {v : BitVec 4} (h : p = true → v ∈ src) : (p && t.tagV v) = false := by
    cases p
    · rfl
    · exact hclean v (h rfl)
  refine ⟨hvs, ?_⟩
  simp only [vopOp, hclean f.va ha, clean _ hb, clean _ hc, clean _ fun h => hd (beq_iff_eq.1 h), Bool.or_self, Bool.and_false]

theorem exec_vmov (htake : Takes (.vop w f) w s) (hfn : f.fn = 0x0A) (hb : f.vb = 0) (hc : f.vc = 0)
    (hwaits : (s.taskAt w).waits [] [f.vd, f.va] = false) :
    ∃ t, exec (.vop w f) s = .next t ∧ Retires w 4 [] [] [f.vd] [] s t ∧ (t.taskAt w).getV f.vd = (s.taskAt w).getV f.va ∧
      (t.taskAt w).tagV f.vd = (s.taskAt w).tagV f.va ∧ (t.tile w.tile).nonfinite = (s.tile w.tile).nonfinite := by
  obtain ⟨t, hnext, hret, htask, hnonfinite⟩ := regOp_retires (n := 4)
    (r := (s.taskAt w).setV f.vd ((s.taskAt w).getV f.va) ((s.taskAt w).tagV f.va)) htake rfl
    (by simp [vopOp, hfn, hb, hc, vopLane]) (by simpa [vopOp, hfn, vopUsesB, vopUsesC] using hwaits) (by simp [vopOp, hfn]) rfl
    (by simp [vopOp, hfn, Task.vop]) (Task.keepsRegs_setV _ _ _ _) rfl rfl
  refine ⟨t, hnext, hret, ?_, ?_, by simpa [vopOp, hfn] using hnonfinite⟩
  · rw [htask, Task.past_getV, Task.getV_setV_same]
  · rw [htask, Task.past_tagV, Task.tagV_setV_same]

end

end Sys2Proof.Machine

namespace Sys2Proof
open Sys2Proof.Machine Sys2Proof.Claims

/-- Settles O7: the lanes and the flag of every form but VMOV from one lemma, and VMOV apart. -/
theorem vectorArithmetic : Obligations.VectorArithmetic := by
  unfold Obligations.VectorArithmetic
  refine ⟨fun s w f op htake hform hvc hvb => ?_, fun s w f htake hfn hb hc hwaits => exec_vmov htake hfn hb hc hwaits⟩
  intro x third src hclear
  obtain ⟨hwaits, -, htags⟩ := hclear
  have form : vopLane f.fn.toNat = some op ∧ f.fn.toNat ≠ 0x0A ∧
      (vopUsesB f.fn.toNat = true ∨ (f.fn = 0x05 ∨ f.fn = 0x08 ∨ f.fn = 0x09 ∨ f.fn = 0x0B)) := by
    rcases hform with ⟨hfn, rfl⟩ | ⟨hfn, rfl⟩ | ⟨hfn, rfl⟩ | ⟨hfn, rfl⟩ | ⟨hfn, rfl⟩ | ⟨hfn, rfl⟩ | ⟨hfn, rfl⟩ | ⟨hfn, rfl⟩ |
      ⟨hfn, rfl⟩ | ⟨hfn, rfl⟩ | ⟨hfn, rfl⟩ <;>
    · rw [hfn]
      exact ⟨rfl, by decide, by decide⟩
  obtain ⟨hlane, hmov, hforms⟩ := form
  obtain ⟨usesB, usesC, isSquare⟩ := vopUses_iff f.fn
  have hok : (vopOp f).ok = true := by
    have hB : (vopUsesB f.fn.toNat || f.vb == 0) = true := by simpa using hforms.imp_right hvb
    have hC : (vopUsesC f.fn.toNat || f.vc == 0) = true := by simpa [usesC] using or_iff_not_imp_left.2 hvc
    simp only [vopOp, hlane, hB, hC, Option.isSome_some, Bool.and_self]
  obtain ⟨hvs, heats⟩ := vopOp_sources (f := f) (t := x) (src := src) (by simp only [src]; split_ifs <;> simp)
    (fun h => by
      obtain ⟨hsquare, hone⟩ := usesB h
      simp only [src, if_neg hsquare, if_neg hone]
      split_ifs <;> simp)
    (fun h => by simp [src, usesC.1 h]) (fun h => by simp [src, isSquare.1 h]) htags
  have hthird : third = if f.fn.toNat = 0x0B then f.vd else f.vc := by simp only [third, isSquare]
  rw [hthird]
  exact exec_vop htake hlane hmov hok (Task.waits_mono hwaits (List.Subset.refl _) hvs) heats

end Sys2Proof
end

section
/-! The vector transfers and reductions (R64, R67, R130, R133, R134, R150). -/

namespace Sys2Proof.Machine
open Sys2Proof.Claims

/-! ### Transfers -/

theorem lane_putLane (v : VReg) (j : Nat) (x : Word) {i : Nat} (hi : i < 32) :
    lane (putLane v j x) i = if i = j then x else lane v i := lane_ofLanes_map _ hi

theorem lane_broadcast (x : Word) {i : Nat} (hi : i < 32) : lane (ofLanes (List.replicate 32 x)) i = x := by
  rw [lane_ofLanes _ hi, List.getD_replicate _ hi]

section
variable {s : State} {w : Site} {f : FR} (htake : Takes (.vxfer w f) w s)
include htake

/-- A transfer to a vector register. -/
theorem exec_vxfer_setV {v : VReg} {b : Bool} (hok : (vxferOp f).ok = true)
    (hwaits : (s.taskAt w).waits (vxferOp f).ss (vxferOp f).vs = false)
    (hrun : (vxferOp f).run (s.taskAt w) = ((s.taskAt w).setV (f.d.setWidth 4) v b).advance 4) :
    ∃ t, exec (.vxfer w f) s = .next t ∧ Retires w 4 [] [] [f.d.setWidth 4] [] s t ∧ (t.taskAt w).getV (f.d.setWidth 4) = v ∧
      (t.taskAt w).tagV (f.d.setWidth 4) = b ∧ (t.tile w.tile).nonfinite = (s.tile w.tile).nonfinite := by
  obtain ⟨t, hnext, hret, htask, hnonfinite⟩ := regOp_retires htake rfl hok hwaits rfl rfl hrun (Task.keepsRegs_setV _ _ _ _) rfl rfl
  refine ⟨t, hnext, hret, ?_, ?_, hnonfinite.trans (Bool.or_false _)⟩
  · rw [htask, Task.past_getV, Task.getV_setV_same]
  · rw [htask, Task.past_tagV, Task.tagV_setV_same]

theorem exec_vxfer_lane (hfn : f.fn = 1) (ha : f.a.toNat < 16) (hwaits : (s.taskAt w).waits [f.d] [f.a.setWidth 4] = false) :
    ∃ t, exec (.vxfer w f) s = .next t ∧ Retires w 4 [f.d] [] [] [] s t ∧
      (t.taskAt w).getS f.d = lane ((s.taskAt w).getV (f.a.setWidth 4)) f.b.toNat ∧
      (t.taskAt w).tagS f.d = (s.taskAt w).tagV (f.a.setWidth 4) ∧ (t.tile w.tile).nonfinite = (s.tile w.tile).nonfinite := by
  obtain ⟨t, hnext, hret, htask, hnonfinite⟩ := regOp_retires (n := 4)
    (r := (s.taskAt w).setS f.d (lane ((s.taskAt w).getV (f.a.setWidth 4)) f.b.toNat) ((s.taskAt w).tagV (f.a.setWidth 4))) htake rfl
    (by simp [vxferOp, hfn, top4_eq_false ha]) (by simpa [vxferOp, hfn, low4_eq] using hwaits) rfl rfl
    (by simp [vxferOp, hfn, low4_eq]) (Task.keepsRegs_setS _ _ _ _) rfl rfl
  refine ⟨t, hnext, hret, ?_, ?_, hnonfinite.trans (Bool.or_false _)⟩
  · rw [htask, Task.past_getS, Task.getS_setS_same]
  · rw [htask, Task.past_tagS, Task.tagS_setS_same]

end

theorem vectorTransfers : VectorTransfers := by
  intro s w f htake x vd va
  refine ⟨fun hfn hd hb hwaits => ?_, fun hfn ha hwaits => exec_vxfer_lane htake hfn ha hwaits, fun hfn hd hwaits => ?_⟩
  · obtain ⟨t, hnext, hret, hvalue, htag, hnonfinite⟩ := exec_vxfer_setV (b := x.tagS f.a)
      (v := ofLanes (List.replicate 32 (x.getS f.a))) htake (by simp [vxferOp, hfn, hb, top4_eq_false hd])
      (by simpa [vxferOp, hfn, low4_eq] using hwaits) (by simp [vxferOp, hfn, low4_eq, x])
    exact ⟨t, hnext, hret, fun i hi => by rw [hvalue, lane_broadcast _ hi], htag, hnonfinite⟩
  · obtain ⟨t, hnext, hret, hvalue, htag, hnonfinite⟩ := exec_vxfer_setV (b := x.tagV vd || x.tagS f.a)
      (v := putLane (x.getV vd) f.b.toNat (x.getS f.a)) htake (by simp [vxferOp, hfn, top4_eq_false hd])
      (by simpa [vxferOp, hfn, low4_eq] using hwaits) (by simp [vxferOp, hfn, low4_eq, x, vd])
    refine ⟨t, hnext, hret, ?_, fun i hi hne => ?_, htag, hnonfinite⟩
    · rw [hvalue, lane_putLane _ _ _ f.b.isLt, if_pos rfl]
    · rw [hvalue, lane_putLane _ _ _ hi, if_neg hne]

/-! ### Reductions -/

/-- A task with three vector registers written, clean (R150). -/
def Task.setThree (t : Task) (b c d : BitVec 4) (x y z : VReg) : Task := ((t.setV b x false).setV c y false).setV d z false

section
variable (t : Task) {b c d : BitVec 4} (x y z : VReg)

theorem Task.keepsRegs_setThree : KeepsRegs [] [] [b, c, d] [] t (t.setThree b c d x y z) :=
  KeepsRegs.trans (KeepsRegs.trans (Task.keepsRegs_setV _ b x false) (Task.keepsRegs_setV _ c y false))
    (Task.keepsRegs_setV _ d z false)

variable (hbc : b ≠ c) (hbd : b ≠ d) (hcd : c ≠ d)
include hbc hbd hcd

theorem Task.getV_setThree : (t.setThree b c d x y z).getV b = x ∧ (t.setThree b c d x y z).getV c = y ∧
    (t.setThree b c d x y z).getV d = z := by
  refine ⟨?_, ?_, Task.getV_setV_same _ _ _ _⟩
  · rw [Task.setThree, Task.getV_setV_other _ _ _ hbd, Task.getV_setV_other _ _ _ hbc, Task.getV_setV_same]
  · rw [Task.setThree, Task.getV_setV_other _ _ _ hcd, Task.getV_setV_same]

theorem Task.tagV_setThree : ∀ v ∈ [b, c, d], (t.setThree b c d x y z).tagV v = false := by
  simp only [List.forall_mem_cons, List.not_mem_nil, false_imp_iff, implies_true, and_true]
  refine ⟨?_, ?_, Task.tagV_setV_same _ _ _ _⟩
  · rw [Task.setThree, Task.tagV_setV_other _ _ _ hbd, Task.tagV_setV_other _ _ _ hbc, Task.tagV_setV_same]
  · rw [Task.setThree, Task.tagV_setV_other _ _ _ hcd, Task.tagV_setV_same]

end

/-- NONFINITE after an instruction that accounts for these registers (R37). -/
def Raised (w : Site) (s t : State) (vs : List (BitVec 4)) : Prop :=
  (t.tile w.tile).nonfinite = true ↔ (s.tile w.tile).nonfinite = true ∨
    ∃ v ∈ vs, ∃ i, i < 32 ∧ nonfinite32 (lane ((t.taskAt w).getV v) i) = true

section
variable {s : State} {w : Site} {f : FV} (htake : Takes (.vred w f) w s)
include htake

/-- A reduction to a single value, which lane 0 takes. -/
theorem exec_vred_single (hfn : f.fn.toNat < 4) (hb : f.vb = 0) (hc : f.vc = 0) (hclear : ClearV (s.taskAt w) [] [f.vd, f.va] [] [f.va]) :
    ∃ t, exec (.vred w f) s = .next t ∧ Retires w 4 [] [] [f.vd] [] s t ∧ (t.taskAt w).tagV f.vd = false ∧
      (t.taskAt w).getV f.vd = ofLanes [reduceLanes f.fn.toNat (lanes ((s.taskAt w).getV f.va))] ∧ Raised w s t [f.vd] := by
  obtain ⟨hwaits, -, htags⟩ := hclear
  have hresult : (s.taskAt w).vred f =
      (s.taskAt w).setV f.vd (ofLanes [reduceLanes f.fn.toNat (lanes ((s.taskAt w).getV f.va))]) false := by
    unfold Task.vred
    split
    · omega
    · omega
    · omega
    · rfl
  have hle : f.fn.toNat ≤ 3 := by omega
  have hnot : ¬4 ≤ f.fn.toNat := by omega
  obtain ⟨t, hnext, hret, htask, hnonfinite⟩ := regOp_retires (n := 4) htake rfl (by simp [vredOp, vredOk, hle, hb, hc])
    (by simpa [vredOp, hle] using hwaits) (by simp [vredOp, hnot, htags]) rfl (congrArg (Task.advance · 4) hresult)
    (Task.keepsRegs_setV _ _ _ _) rfl rfl
  have hvalue : (t.taskAt w).getV f.vd = ofLanes [reduceLanes f.fn.toNat (lanes ((s.taskAt w).getV f.va))] := by
    rw [htask, Task.past_getV, Task.getV_setV_same]
  refine ⟨t, hnext, hret, ?_, hvalue, ?_⟩
  · rw [htask, Task.past_tagV, Task.tagV_setV_same]
  · simp [Raised, hnonfinite, vredOp, hresult, hnot, hvalue, anyNonfinite_iff]

/-- A reduction that writes a count, a mean and a sum of squares (R67). -/
theorem exec_vred_three {x y z : VReg} (hok : (vredOp f).ok = true) (hwaits : (s.taskAt w).waits [] (vredOp f).vs = false)
    (heats : (vredOp f).eats (s.taskAt w) = false) (hfn : 4 ≤ f.fn.toNat)
    (hresult : (s.taskAt w).vred f = (s.taskAt w).setThree f.vb f.vc f.vd x y z) (hbc : f.vb ≠ f.vc) (hbd : f.vb ≠ f.vd)
    (hcd : f.vc ≠ f.vd) :
    ∃ t, exec (.vred w f) s = .next t ∧ Retires w 4 [] [] [f.vb, f.vc, f.vd] [] s t ∧
      (∀ v ∈ [f.vb, f.vc, f.vd], (t.taskAt w).tagV v = false) ∧ Raised w s t [f.vc, f.vd] ∧
      (t.taskAt w).getV f.vb = x ∧ (t.taskAt w).getV f.vc = y ∧ (t.taskAt w).getV f.vd = z := by
  obtain ⟨hx, hy, hz⟩ := (s.taskAt w).getV_setThree x y z hbc hbd hcd
  obtain ⟨t, hnext, hret, htask, hnonfinite⟩ := regOp_retires (n := 4) htake rfl hok hwaits heats rfl
    (congrArg (Task.advance · 4) hresult) (Task.keepsRegs_setThree _ _ _ _) rfl rfl
  have hvalue (v : BitVec 4) : (t.taskAt w).getV v = ((s.taskAt w).setThree f.vb f.vc f.vd x y z).getV v := by
    rw [htask, Task.past_getV]
  refine ⟨t, hnext, hret, fun v hv => ?_, ?_, (hvalue _).trans hx, (hvalue _).trans hy, (hvalue _).trans hz⟩
  · rw [htask, Task.past_tagV]
    exact (s.taskAt w).tagV_setThree x y z hbc hbd hcd v hv
  · rw [Raised, hnonfinite]
    simp only [vredOp, hresult, hvalue, hy, hz, hfn, decide_true, Bool.true_and, Bool.or_eq_true, anyNonfinite_iff,
      List.exists_mem_cons_iff, List.not_mem_nil, false_and, exists_false, or_false]
    rw [or_comm (a := ∃ i, i < 32 ∧ nonfinite32 (lane z i) = true)]

end

theorem Task.vred_vmvm {t : Task} {f : FV} (hfn : f.fn = 5 ∨ f.fn = 6) : t.vred f =
    t.setThree f.vb f.vc f.vd (ofLanes [(t.merged f).n]) (ofLanes [(t.merged f).mu])
      (ofLanes [(t.merged f).m2, variance (f.fn == 6) (t.merged f)]) := by
  rcases hfn with hfn | hfn <;>
  · rw [Task.vred, hfn]
    rfl

theorem vectorReductions : VectorReductions := by
  intro s w f htake x raised
  refine ⟨fun hfn hb hc hclear => ?_, fun hfn hbc hbd hcd hclear => ?_, fun hfn ha hbc hbd hcd hclear => ?_⟩
  -- The single-value reductions (R133).
  · obtain ⟨t, hnext, hret, htag, hvalue, hraised⟩ := exec_vred_single htake hfn hb hc hclear
    refine ⟨t, hnext, hret, htag, ?_, fun i hpos hi => ?_, hraised⟩
    · rw [hvalue, lane_ofLanes _ (by decide)]
      rfl
    · rw [hvalue, lane_ofLanes _ hi, List.getD_eq_default _ _ hpos]
  -- VMVU updates each lane's moments.
  · obtain ⟨hwaits, -, htags⟩ := hclear
    simp only [List.forall_mem_cons] at htags
    obtain ⟨t, hnext, hret, htag, hraised, hn, hmu, hm2⟩ := exec_vred_three htake (by simp [vredOp, vredOk, hfn, hbc, hbd, hcd])
      (by simpa [vredOp, hfn] using hwaits) (by simpa [vredOp, hfn, and_assoc] using htags) (by simp [hfn])
      (by rw [Task.vred, hfn]; rfl) hbc hbd hcd
    refine ⟨t, hnext, hret, htag, hraised, fun i hi => ?_⟩
    rw [hn, hmu, hm2]
    simp only [List.map_map]
    rw [lane_ofLanes_map _ hi, lane_ofLanes_map _ hi, lane_ofLanes_map _ hi]
    exact ⟨rfl, rfl, rfl⟩
  -- VMVMP and VMVMS merge the lanes (R134).
  · obtain ⟨hwaits, -, htags⟩ := hclear
    simp only [List.forall_mem_cons] at htags
    have form : (vredOp f).ok = true ∧ (vredOp f).vs = [f.vd, f.vb, f.vc] ∧ (vredOp f).eats x = false ∧ 4 ≤ f.fn.toNat := by
      rcases hfn with hfn | hfn <;> simpa [vredOp, vredOk, hfn, ha, hbc, hbd, hcd, and_assoc] using htags
    obtain ⟨hok, hvs, heats, hle⟩ := form
    obtain ⟨t, hnext, hret, htag, hraised, hn, hmu, hm2⟩ := exec_vred_three htake hok (hvs ▸ hwaits) heats hle (Task.vred_vmvm hfn)
      hbc hbd hcd
    refine ⟨t, hnext, hret, htag, hraised, ?_, fun i hpos hi => ?_⟩
    · rw [hn, hmu, hm2, lane_ofLanes _ (by decide), lane_ofLanes _ (by decide), lane_ofLanes _ (by decide),
        lane_ofLanes _ (by decide)]
      exact ⟨rfl, rfl, rfl, rfl⟩
    · rw [hn, hmu, hm2, lane_ofLanes _ hi, lane_ofLanes _ hi, lane_ofLanes _ hi]
      exact ⟨List.getD_eq_default _ _ hpos, List.getD_eq_default _ _ hpos, fun h => List.getD_eq_default _ _ h⟩

end Sys2Proof.Machine
end

section
/-! The width of a conversion (R31, R35, R36, R40): every conversion to a format of VCVT gives bits of that format alone. -/

namespace Sys2Proof.Machine
open Sys2Proof.Claims

/-! ### Rounding -/

theorem le_shrNearest (m n : Nat) : m / 2 ^ n ≤ shrNearest m n := by
  simp only [shrNearest]
  split
  · next h => simp [h]
  · split
    · omega
    · split <;> omega

/-- A rounded magnitude of fewer bits than its format has stands at the format's smallest exponent. -/
theorem roundWith_subnormal {p : Nat} {emin : Int} {m : Nat} {e : Int} (hp : 1 ≤ p)
    (h : (roundWith shrNearest p emin m e).1 < 2 ^ (p - 1)) : (roundWith shrNearest p emin m e).2 = emin := by
  unfold roundWith at h ⊢
  by_cases hm : m = 0
  · rw [if_pos hm]
  simp only [if_neg hm] at h ⊢
  have hlog : 2 ^ Nat.log2 m ≤ m := Nat.log2_self_le hm
  generalize Nat.log2 m = k at *
  by_cases hmin : (k : Int) + e - ((p : Int) - 1) ≤ emin
  · rw [max_eq_right hmin]
    split <;> rfl
  rw [max_eq_left (not_le.1 hmin).le] at h
  exfalso
  split at h
  -- Exact: the leading bit lands at the top of the format.
  · next hle =>
    have hexp : p - 1 = k + (e - ((k : Int) + e - ((p : Int) - 1))).toNat := by omega
    rw [hexp, pow_add] at h
    exact absurd (Nat.mul_le_mul_right _ hlog) (not_le.2 h)
  -- Rounded: it lands there or above.
  · next hgt =>
    have hexp : k = (p - 1) + ((k : Int) + e - ((p : Int) - 1) - e).toNat := by omega
    rw [hexp, pow_add] at hlog
    exact absurd (((Nat.le_div_iff_mul_le (by positivity)).2 hlog).trans (le_shrNearest m _)) (not_le.2 h)

/-- A magnitude not beyond another has its leading bit no higher. -/
theorem log2_le_of_magLt {mm m b : Nat} {me e : Int} (hm : m ≠ 0) (hmm : mm < 2 ^ (b + 1)) (h : magLt mm me m e = false) :
    (Nat.log2 m : Int) + e ≤ b + me := by
  have hlog : 2 ^ Nat.log2 m ≤ m := Nat.log2_self_le hm
  generalize Nat.log2 m = k at *
  unfold magLt at h
  split at h <;> simp only [decide_eq_false_iff_not, not_lt] at h
  · next hle =>
    have hpow : 2 ^ (k + (e - me).toNat) < 2 ^ (b + 1) := by
      rw [pow_add]
      exact ((Nat.mul_le_mul_right _ hlog).trans h).trans_lt hmm
    have := (Nat.pow_lt_pow_iff_right (by norm_num)).1 hpow
    omega
  · next hgt =>
    have hpow : 2 ^ k < 2 ^ (b + 1 + (me - e).toNat) := by
      rw [pow_add]
      exact (hlog.trans h).trans_lt (Nat.mul_lt_mul_of_pos_right hmm (by positivity))
    have := (Nat.pow_lt_pow_iff_right (by norm_num)).1 hpow
    omega

/-! ### Encodings -/

/-- What keeps a format's encodings within its bits: its largest finite value, and the NaN (R31, R33). -/
def Fmt.Fits (f : Fmt) (mm : Nat) (me : Int) : Prop :=
  f.value f.maxBits = .fin false mm me ∧ mm < 2 ^ (f.mbits + 1) ∧ f.mbits + me + f.bias < ((2 ^ f.ebits : Nat) : Int) ∧ f.maxBits < f.signBit ∧
    f.nanBits < f.signBit

section
variable {f : Fmt} {mm : Nat} {me : Int} (hfits : f.Fits mm me)
include hfits

/-- The encoding of a rounded magnitude that is not beyond the largest does not reach the sign. -/
theorem Fmt.pack_lt {m : Nat} {e : Int} (hin : f.beyond m e = false) (hsub : m < 2 ^ f.mbits → e = f.emin) :
    f.pack m e < f.signBit := by
  obtain ⟨hmax, hmm, hme, -, -⟩ := hfits
  simp only [Fmt.beyond, hmax] at hin
  rw [Fmt.signBit, pow_add]
  unfold Fmt.pack
  by_cases hm : m = 0
  · rw [if_pos hm]
    positivity
  simp only [if_neg hm]
  have hlt : m < 2 ^ (Nat.log2 m + 1) := Nat.lt_log2_self
  have htop := log2_le_of_magLt hm hmm hin
  generalize Nat.log2 m = top at *
  split
  -- A subnormal is its significand.
  · next hsmall =>
    have hm' : m < 2 ^ f.mbits := hlt.trans_le (Nat.pow_le_pow_right (by norm_num) hsmall)
    rw [hsub hm', Int.sub_self, Int.toNat_zero, pow_zero, mul_one]
    exact hm'.trans_le (Nat.le_mul_of_pos_left _ (by positivity))
  -- A normal value is its exponent field above its fraction.
  · have hfield : ((top : Int) + e + f.bias).toNat + 1 ≤ 2 ^ f.ebits := by
      have hpos : 0 < 2 ^ f.ebits := by positivity
      omega
    have hfraction : m * 2 ^ f.mbits / 2 ^ top < 2 * 2 ^ f.mbits := by
      rw [Nat.div_lt_iff_lt_mul (by positivity)]
      calc m * 2 ^ f.mbits < 2 ^ (top + 1) * 2 ^ f.mbits := Nat.mul_lt_mul_of_pos_right hlt (by positivity)
        _ = 2 * 2 ^ f.mbits * 2 ^ top := by ring
    have hpos : 0 < 2 ^ f.mbits := by positivity
    calc _ < (((top : Int) + e + f.bias).toNat + 1) * 2 ^ f.mbits := by
          rw [Nat.add_mul, Nat.one_mul]
          omega
      _ ≤ 2 ^ f.ebits * 2 ^ f.mbits := Nat.mul_le_mul_right _ hfield

/-- A conversion gives bits of its format. -/
theorem Fmt.convert_bits_lt (ovf : Bool) (v : FVal) : (f.convert ovf v).bits < 2 * f.signBit := by
  obtain ⟨-, -, -, hmax, hnan⟩ := id hfits
  have hinf : (2 ^ f.ebits - 1) * 2 ^ f.mbits < f.signBit := by
    rw [Fmt.signBit, pow_add]
    exact Nat.mul_lt_mul_of_pos_right (Nat.sub_lt (by positivity) one_pos) (by positivity)
  have hsign (neg : Bool) {x : Nat} (hx : x < f.signBit) : (if neg then f.signBit else 0) + x < 2 * f.signBit := by
    split <;> omega
  have hnan' : f.nanBits < 2 * f.signBit := by omega
  have hzero : 0 < 2 * f.signBit := by omega
  cases v with
  | nan => exact hnan'
  | inf neg =>
    unfold Fmt.convert
    dsimp only
    split
    · exact hzero
    · dsimp only
      split
      · exact hnan'
      · exact hsign neg hmax
    · split
      · exact hsign neg hinf
      · exact hsign neg hmax
  | fin neg m e =>
    unfold Fmt.convert
    dsimp only
    split
    · split
      · exact hsign neg hmax
      · split
        · exact hnan'
        · exact hsign neg hmax
      · split
        · exact hsign neg hinf
        · exact hsign neg hmax
    · next hin =>
      exact hsign neg (Fmt.pack_lt hfits (Bool.not_eq_true _ ▸ hin) (roundWith_subnormal (Nat.le_add_left 1 f.mbits)))

end

theorem toInt8_bits_lt (v : FVal) : (toInt8 v).bits < 256 := by
  cases v with
  | nan => decide
  | inf neg => cases neg <;> decide
  | fin neg m e =>
    simp only [toInt8]
    generalize (if 0 ≤ e then m * 2 ^ e.toNat else shrNearest m (-e).toNat) = r
    split <;> split <;> dsimp only <;> omega

/-- The floating formats of VCVT fit in their elements (R31, R132). -/
theorem fmtOf_fits {code : Nat} {f : Fmt} (hcode : code < 7) (h : fmtOf code = some f) :
    ∃ mm me, f.Fits mm me ∧ 2 * f.signBit = 2 ^ widthOf code := by
  interval_cases code <;> cases h
  · exact ⟨255, 120, ⟨by decide, by decide, by decide, by decide, by decide⟩, by decide⟩
  · exact ⟨2047, 5, ⟨by decide, by decide, by decide, by decide, by decide⟩, by decide⟩
  · exact ⟨14, 5, ⟨by decide, by decide, by decide, by decide, by decide⟩, by decide⟩
  · exact ⟨7, 13, ⟨by decide, by decide, by decide, by decide, by decide⟩, by decide⟩
  · exact ⟨7, 2, ⟨by decide, by decide, by decide, by decide, by decide⟩, by decide⟩
  · exact ⟨3, 1, ⟨by decide, by decide, by decide, by decide, by decide⟩, by decide⟩

theorem widthOf_of_fmtOf_none {code : Nat} (hcode : code < 7) (h : fmtOf code = none) : widthOf code = 8 := by
  interval_cases code <;> cases h
  rfl

/-- A conversion to a format of VCVT gives bits of one element. -/
theorem convertTo_bits_lt {code : Nat} (hcode : code < 7) (ovf : Bool) (v : FVal) : (convertTo code ovf v).bits < 2 ^ widthOf code := by
  unfold convertTo
  split
  · next f hf =>
    obtain ⟨mm, me, hfits, hwidth⟩ := fmtOf_fits hcode hf
    exact hwidth ▸ Fmt.convert_bits_lt hfits ovf v
  · next hnone =>
    rw [widthOf_of_fmtOf_none hcode hnone]
    exact toInt8_bits_lt v

/-- So does the packing of an MX element (R40). -/
theorem mxPack_lt {code : Nat} (hcode : code < 7) (scale : Byte) (w : Word) : mxPack code scale w < 2 ^ widthOf code := by
  unfold mxPack
  split
  · positivity
  · exact convertTo_bits_lt hcode _ _

end Sys2Proof.Machine
end

section
/-! VCVT (R32, R37, R39, R40, R43, R45, R54, R131, R132): the elements of a group, unpacking and packing. -/

namespace Sys2Proof.Machine
open Sys2Proof.Claims

/-! ### Groups of elements (R32) -/

theorem cvtCode_eq (f : FV) : cvtCode f = (f.fn.extractLsb' 2 3).toNat := bitsOf_eq_extractLsb' f.fn 4 2

theorem isMx_iff (code : Nat) : isMx code = true ↔ code = 4 ∨ code = 5 := by simp [isMx]

theorem groupStart_eq (code part : Nat) : 8 * groupBytes code * part = 32 * widthOf code * part := by
  rw [groupBytes]
  ring

theorem widthOf_pos (code : Nat) : 0 < widthOf code := by
  unfold widthOf
  split <;> decide

theorem groupParts_eq (code : Nat) : groupParts code = 32 / widthOf code := by
  rw [groupParts, groupBytes, ← Nat.div_div_eq_div_mul]

/-- A part of a register ends within it. -/
theorem group_end_le {code part : Nat} (h : part < 32 / widthOf code) : 32 * widthOf code * part + 32 * widthOf code ≤ 1024 := by
  have hpart : (part + 1) * widthOf code ≤ 32 := (Nat.le_div_iff_mul_le (widthOf_pos code)).1 h
  calc _ = 32 * ((part + 1) * widthOf code) := by ring
    _ ≤ 32 * 32 := Nat.mul_le_mul_left 32 hpart

section
variable {code part : Nat} (g : Nat → Nat) (hg : ∀ i, g i < 2 ^ widthOf code)
include hg

theorem groupBits_lt : groupBits code ((List.range 32).map g) < 2 ^ (32 * widthOf code) := by
  have digits : ∀ e ∈ (List.range 32).map g, e < 2 ^ widthOf code := List.forall_mem_map.2 fun i _ => hg i
  have := Nat.ofDigits_lt_base_pow_length (Nat.one_lt_two_pow (widthOf_pos code).ne') digits
  rw [List.length_map, List.length_range, ← Nat.pow_mul, Nat.ofDigits_eq_foldr, mul_comm] at this
  exact this

theorem groupBits_digit {i : Nat} (hi : i < 32) :
    groupBits code ((List.range 32).map g) / 2 ^ (widthOf code * i) % 2 ^ widthOf code = g i := by
  have digits : ∀ e ∈ (List.range 32).map g, e < 2 ^ widthOf code := List.forall_mem_map.2 fun i _ => hg i
  have digit := ofDigits_digit (by positivity) digits i
  rw [Nat.ofDigits_eq_foldr, ← Nat.pow_mul, List.getD_eq_getElem?_getD] at digit
  exact digit.trans (by simp [hi])

/-- The bits of a register after a group is put into it. -/
theorem testBit_groupPut (v : VReg) (j : Nat) (hpart : part < 32 / widthOf code) :
    (groupPut code v part ((List.range 32).map g)).toNat.testBit j =
      if j < 32 * widthOf code * part then v.toNat.testBit j
      else if j < 32 * widthOf code * part + 32 * widthOf code then
        (groupBits code ((List.range 32).map g)).testBit (j - 32 * widthOf code * part)
      else v.toNat.testBit j := by
  have hbits := groupBits_lt g hg
  have hend := group_end_le hpart
  unfold groupPut
  dsimp only
  rw [groupStart_eq, show 8 * groupBytes code = 32 * widthOf code by rw [groupBytes]; ring, BitVec.testBit_toNat,
    BitVec.getLsbD_ofNat]
  generalize groupBits code _ = bits at *
  generalize 32 * widthOf code * part = lo at *
  generalize 32 * widthOf code = len at *
  have hlow : v.toNat % 2 ^ lo < 2 ^ lo := Nat.mod_lt _ (by positivity)
  have hmid : 2 ^ lo * bits + v.toNat % 2 ^ lo < 2 ^ (lo + len) := by
    rw [pow_add]
    calc _ < 2 ^ lo * bits + 2 ^ lo := by omega
      _ = 2 ^ lo * (bits + 1) := by ring
      _ ≤ _ := Nat.mul_le_mul_left _ hbits
  rw [add_comm (v.toNat % 2 ^ lo), mul_comm (v.toNat / 2 ^ (lo + len)), add_comm, Nat.testBit_two_pow_mul_add _ hmid,
    Nat.testBit_two_pow_mul_add _ hlow, Nat.testBit_mod_two_pow, Nat.testBit_div_two_pow]
  by_cases h1 : j < lo
  · simp only [h1, show j < 1024 by omega, show j < lo + len by omega, decide_true, Bool.true_and, if_true]
  · by_cases h2 : j < lo + len
    · simp only [h1, h2, show j < 1024 by omega, decide_true, Bool.true_and, if_true, if_false]
    · simp only [h1, h2, if_false, Nat.sub_add_cancel (not_lt.1 h2)]
      by_cases h3 : j < 1024
      · simp [h3]
      · have hv : v.toNat.testBit j = false := BitVec.getLsbD_of_ge v j (not_lt.1 h3)
        simp [hv]

/-- An element of a group that is put into a register. -/
theorem groupPut_element (v : VReg) (hpart : part < 32 / widthOf code) {i : Nat} (hi : i < 32) :
    (groupPut code v part ((List.range 32).map g)).toNat / 2 ^ (32 * widthOf code * part + widthOf code * i) % 2 ^ widthOf code =
      g i := by
  rw [← groupBits_digit g hg hi]
  apply Nat.eq_of_testBit_eq
  intro j
  rw [Nat.testBit_mod_two_pow, Nat.testBit_mod_two_pow, Nat.testBit_div_two_pow, Nat.testBit_div_two_pow,
    testBit_groupPut g hg v _ hpart]
  by_cases hj : j < widthOf code
  · have hin : j + widthOf code * i < 32 * widthOf code := by
      calc _ < widthOf code * (i + 1) := by rw [Nat.mul_succ]; omega
        _ ≤ widthOf code * 32 := Nat.mul_le_mul_left _ hi
        _ = _ := mul_comm _ _
    rw [if_neg (by omega), if_pos (by omega)]
    congr 2
    omega
  · simp [hj]

/-- The bytes of a register outside a group that is put into it. -/
theorem groupPut_byte (v : VReg) (hpart : part < 32 / widthOf code) {b : Nat}
    (hb : b < 4 * widthOf code * part ∨ 4 * widthOf code * (part + 1) ≤ b) :
    (groupPut code v part ((List.range 32).map g)).extractLsb' (8 * b) 8 = v.extractLsb' (8 * b) 8 := by
  have hlo : 32 * widthOf code * part = 8 * (4 * widthOf code * part) := by ring
  have hhi : 8 * (4 * widthOf code * (part + 1)) = 32 * widthOf code * part + 32 * widthOf code := by ring
  apply BitVec.eq_of_getLsbD_eq
  intro j hj
  rw [BitVec.getLsbD_extractLsb', BitVec.getLsbD_extractLsb']
  refine congrArg (_ && ·) ((testBit_groupPut g hg v _ hpart).trans ?_)
  rcases hb with hb | hb
  · rw [if_pos (by omega)]
    rfl
  · rw [if_neg (by omega), if_neg (by omega)]
    rfl

end

/-! ### The instruction -/

section
variable {s : State} {w : Site} {f : FV} {r : Task} {xs : List (BitVec 5)}

/-- The fields of a VCVT that R121 and R132 allow. -/
theorem cvtOk_of {f : FV} (hrsv : f.fn.extractLsb' 0 2 = 0) (hcode : cvtCode f < 7) (hpart : f.vb.toNat < 32 / widthOf (cvtCode f))
    (hvc : (2 ≤ cvtCode f ∧ cvtCode f ≤ 5) ∨ f.vc = 0 ∨ (cvtCode f < 2 ∧ cvtPack f = true ∧ f.vc = 1)) : cvtOk f = true := by
  have hpart' : f.vb.toNat < groupParts (cvtCode f) := groupParts_eq _ ▸ hpart
  simp only [cvtOk, hrsv, hcode, hpart', beq_self_eq_true, decide_true, Bool.true_and]
  simpa [or_assoc, and_assoc] using hvc

/-- A VCVT whose operands are in order passes with the task it makes (R37, R43, R131). -/
theorem exec_vcvt (htake : Takes (.vcvt w f) w s) (hok : cvtOk f = true)
    (hwaits : (s.taskAt w).waits (if cvtCode f = 4 ∨ cvtCode f = 5 then [f.vc.setWidth 5] else []) [f.vd, f.va] = false)
    (heats : (s.taskAt w).tagV f.va = false)
    (hscale : cvtPack f = false → cvtCode f = 4 ∨ cvtCode f = 5 → (s.taskAt w).tagS (f.vc.setWidth 5) = false)
    (hslot : cvtCode f = 2 ∨ cvtCode f = 3 →
      ((s.taskAt w).slot f.vc).filled = true ∧ ((s.taskAt w).slot f.vc).format.toNat + 2 = cvtCode f)
    (hrun : (cvtOp f).run (s.taskAt w) = r.advance 4) (hkeeps : KeepsRegs xs [] [f.vd] [] (s.taskAt w) r)
    (hrest : RegsAndSlots (s.taskAt w) r) :
    ∃ t, exec (.vcvt w f) s = .next t ∧ Passes w 4 xs [] [f.vd] [] s t ∧ t.taskAt w = r.past 4 ∧
      (t.tile w.tile).nonfinite = ((s.tile w.tile).nonfinite || (cvtOp f).nonfinite (s.taskAt w)) := by
  refine regOp_passes htake rfl hok ?_ ?_ ?_ hrun hkeeps hrest
  · simpa only [cvtOp, isMx_iff, cvtScale] using hwaits
  · simp only [cvtOp, heats, Bool.false_or, Bool.and_eq_false_imp, Bool.and_eq_true, Bool.not_eq_true', isMx_iff, cvtScale]
    exact fun ⟨hmx, hpack⟩ => hscale hpack hmx
  · simp only [cvtOp, Slot.matches, Bool.and_eq_false_imp, Bool.or_eq_true, Bool.not_eq_false', Bool.and_eq_true, beq_iff_eq]
    exact hslot

end

/-! ### Unpacking -/

/-- The FP32 value that an unpack gives lane `i` (R40, R43, R132). -/
def Task.unpackedLane (t : Task) (f : FV) (i : Nat) : Word :=
  let c := cvtCode f
  let e := (t.getV f.va).toNat / 2 ^ (32 * widthOf c * f.vb.toNat + widthOf c * i) % 2 ^ widthOf c
  if c = 4 ∨ c = 5 then mxUnpack c e ((t.getS (f.vc.setWidth 5)).extractLsb' 0 8)
  else if c = 2 ∨ c = 3 then fp8Read (valueOf c e) (t.slot f.vc).scale
  else to32 (valueOf c e)

theorem Task.unpack_eq (t : Task) (f : FV) : t.unpack f = (List.range 32).map (t.unpackedLane f) := by
  unfold Task.unpack groupGet
  rw [List.map_map]
  refine List.map_congr_left fun i _ => ?_
  simp only [Function.comp, groupStart_eq, isMx_iff, cvtScale]
  rfl

theorem vectorUnpacks : VectorUnpacks := by
  intro s w f htake hrsv hdir x code n sc mx e hcode hpart hvc hclear hslot
  have hc : cvtCode f = code := cvtCode_eq f
  obtain ⟨hwaits, htagS, htagV⟩ := hclear
  have hunpack : cvtPack f = false := hdir
  have hfields : (2 ≤ code ∧ code ≤ 5) ∨ f.vc = 0 ∨ (code < 2 ∧ cvtPack f = true ∧ f.vc = 1) := by
    by_cases h : 2 ≤ code ∧ code ≤ 5
    · exact .inl h
    · exact .inr (.inl (hvc (by omega)))
  have hrun : (cvtOp f).run x = (x.setV f.vd (ofLanes (x.unpack f)) false).advance 4 := by
    simp only [cvtOp, hunpack, Bool.false_eq_true, if_false]
  obtain ⟨t, hnext, hpasses, htask, hnonfinite⟩ := exec_vcvt htake
    (cvtOk_of hrsv (hc ▸ hcode) (hc ▸ hpart) (hc ▸ hfields)) (hc ▸ hwaits) (htagV _ (by simp)) (fun _ hmx => htagS _ (by simp [mx, hc ▸ hmx, sc]))
    (hc ▸ hslot) hrun (Task.keepsRegs_setV _ _ _ _) rfl
  have hvalue : (t.taskAt w).getV f.vd = ofLanes ((List.range 32).map (x.unpackedLane f)) := by
    rw [htask, Task.past_getV, Task.getV_setV_same, Task.unpack_eq]
  refine ⟨t, hnext, ⟨hpasses, ?_, ?_⟩, ?_, fun i hi => ?_, ?_⟩
  · rw [htask]; rfl
  · rw [htask]; rfl
  · rw [htask, Task.past_tagV, Task.tagV_setV_same]
  · rw [hvalue, lane_ofLanes_map _ hi, Task.unpackedLane, hc]
  · have hflag : (cvtOp f).nonfinite x = anyNonfinite ((t.taskAt w).getV f.vd) := by
      simp only [cvtOp, hunpack, Bool.false_eq_true, if_false, Task.unpackNonfinite, Task.unpack_eq]
      rw [hvalue, anyNonfinite, lanes_ofLanes_map]
    rw [hnonfinite, hflag, Bool.or_eq_true, anyNonfinite_iff]

/-! ### Packing -/

/-- The bits that a pack gives element `i` (R39, R40, R43, R54, R132). -/
def Task.packedElement (t : Task) (f : FV) (i : Nat) : Nat :=
  let c := cvtCode f
  let v := lane (t.getV f.va) i
  if c = 4 ∨ c = 5 then mxPack c (mxScale (mxEmax c) (lanes (t.getV f.va))) v
  else if c = 2 ∨ c = 3 then (convertTo c (t.slot f.vc).ovf ((of32 v).scale (t.slot f.vc).scale)).bits
  else (convertTo c (f.vc.getLsbD 0) (of32 v)).bits

theorem Task.packedElement_lt (t : Task) {f : FV} (h : cvtCode f < 7) (i : Nat) : t.packedElement f i < 2 ^ widthOf (cvtCode f) := by
  unfold Task.packedElement
  dsimp only
  split
  · exact mxPack_lt h _ _
  · split
    · exact convertTo_bits_lt h _ _
    · exact convertTo_bits_lt h _ _

/-- The register that a pack writes. -/
def Task.packedInto (t : Task) (f : FV) : VReg :=
  groupPut (cvtCode f) (t.getV f.vd) f.vb.toNat ((List.range 32).map (t.packedElement f))

/-- The task after a pack: the group in its register, and the scale byte or the slot's statistics beside it. -/
def Task.packedTask (t : Task) (f : FV) : Task :=
  let c := cvtCode f
  let r := t.setV f.vd (t.packedInto f) (t.tagV f.vd)
  if c = 4 ∨ c = 5 then r.setS (f.vc.setWidth 5) ((mxScale (mxEmax c) (lanes (t.getV f.va))).setWidth 32) false
  else if c = 2 ∨ c = 3 then r.setSlot f.vc ((t.slot f.vc).pack c (lanes (t.getV f.va))).2
  else r

theorem Task.pack_eq (t : Task) (f : FV) : (t.pack f).1 = t.packedTask f := by
  unfold Task.pack Task.packedTask Task.packedInto Task.packedElement Slot.pack
  simp only [isMx_iff, cvtScale]
  split
  · next h => simp only [lanes, List.map_map, Function.comp_def]
  · split
    · simp only [lanes, List.map_map, Function.comp_def]
    · simp only [lanes, List.map_map, Function.comp_def]

section
variable (t : Task) (f : FV)

theorem Task.packedTask_getV : (t.packedTask f).getV f.vd = t.packedInto f ∧ (t.packedTask f).tagV f.vd = t.tagV f.vd := by
  have hwritten : (t.setV f.vd (t.packedInto f) (t.tagV f.vd)).getV f.vd = t.packedInto f ∧
      (t.setV f.vd (t.packedInto f) (t.tagV f.vd)).tagV f.vd = t.tagV f.vd :=
    ⟨Task.getV_setV_same _ _ _ _, Task.tagV_setV_same _ _ _ _⟩
  unfold Task.packedTask
  dsimp only
  split
  · exact hwritten
  · split
    · exact hwritten
    · exact hwritten

theorem Task.regsAndSlots_packedTask : RegsAndSlots t (t.packedTask f) := by
  unfold Task.packedTask
  dsimp only
  split
  · rfl
  · split <;> rfl

theorem Task.keepsRegs_packedTask :
    KeepsRegs (if cvtCode f = 4 ∨ cvtCode f = 5 then [f.vc.setWidth 5] else []) [] [f.vd] [] t (t.packedTask f) := by
  have hwritten := t.keepsRegs_setV f.vd (t.packedInto f) (t.tagV f.vd)
  unfold Task.packedTask
  dsimp only
  split
  · exact KeepsRegs.trans hwritten (Task.keepsRegs_setS _ _ _ _)
  · split
    · exact hwritten
    · exact hwritten

theorem Task.packedTask_scale (h : cvtCode f = 4 ∨ cvtCode f = 5) :
    (t.packedTask f).getS (f.vc.setWidth 5) = (mxScale (mxEmax (cvtCode f)) (lanes (t.getV f.va))).setWidth 32 ∧
      (t.packedTask f).tagS (f.vc.setWidth 5) = false := by
  rw [Task.packedTask, if_pos h]
  exact ⟨Task.getS_setS_same _ _ _ _, Task.tagS_setS_same _ _ _ _⟩

theorem Task.packedTask_slots (h : ¬(cvtCode f = 2 ∨ cvtCode f = 3)) : (t.packedTask f).slots = t.slots := by
  unfold Task.packedTask
  dsimp only
  split
  · rfl
  · rfl

theorem Task.packedTask_slot (h : cvtCode f = 2 ∨ cvtCode f = 3) :
    (∀ n, n ≠ f.vc → (t.packedTask f).slot n = t.slot n) ∧
      (t.packedTask f).slot f.vc = ((t.slot f.vc).pack (cvtCode f) (lanes (t.getV f.va))).2 := by
  have hmx : ¬(cvtCode f = 4 ∨ cvtCode f = 5) := by omega
  rw [Task.packedTask, if_neg hmx, if_pos h]
  exact ⟨fun n hn => Tbl.get_set_other _ _ _ fun e => hn (BitVec.eq_of_toNat_eq e), Tbl.get_set_same _ _ _ _⟩

end

theorem vectorPacks : VectorPacks := by
  intro s w f htake hrsv hdir x code n sc mx vals scale slot fp8 hcode hpart hint hovf hclear hslot
  have hc : cvtCode f = code := cvtCode_eq f
  obtain ⟨hwaits, -, htagV⟩ := hclear
  have hpack : cvtPack f = true := hdir
  have hfields : (2 ≤ code ∧ code ≤ 5) ∨ f.vc = 0 ∨ (code < 2 ∧ cvtPack f = true ∧ f.vc = 1) := by
    by_cases h : 2 ≤ code ∧ code ≤ 5
    · exact .inl h
    by_cases h6 : code = 6
    · exact .inr (.inl (hint h6))
    have hsmall : code < 2 := by omega
    have hvc := hovf hsmall
    by_cases h0 : f.vc = 0
    · exact .inr (.inl h0)
    · refine .inr (.inr ⟨hsmall, hpack, BitVec.eq_of_toNat_eq ?_⟩)
      have : f.vc.toNat ≠ 0 := fun e => h0 (BitVec.eq_of_toNat_eq e)
      show f.vc.toNat = 1
      omega
  have hrun : (cvtOp f).run x = (x.packedTask f).advance 4 := by
    simp only [cvtOp, hpack, if_true, Task.pack_eq]
  have hkeeps := x.keepsRegs_packedTask f
  rw [hc] at hkeeps
  obtain ⟨t, hnext, hpasses, htask, -⟩ := exec_vcvt htake (cvtOk_of hrsv (hc ▸ hcode) (hc ▸ hpart) (hc ▸ hfields)) (hc ▸ hwaits)
    (htagV _ (by simp)) (fun h => absurd (hpack.symm.trans h) (by decide)) (hc ▸ hslot) hrun hkeeps (x.regsAndSlots_packedTask f)
  obtain ⟨hgetV, htag⟩ := x.packedTask_getV f
  have hvalue : (t.taskAt w).getV f.vd = groupPut code (x.getV f.vd) f.vb.toNat ((List.range 32).map (x.packedElement f)) := by
    rw [htask, Task.past_getV, hgetV, Task.packedInto, hc]
  have hbits := x.packedElement_lt (hc ▸ hcode)
  rw [hc] at hbits
  refine ⟨t, hnext, hpasses, ?_, ?_, fun b _ hb => ?_, fun i hi => ?_, fun hmx => ?_, fun hnot => ?_, fun h8 => ?_⟩
  · rw [htask, Task.past_cfg]
    exact (x.regsAndSlots_packedTask f).field Task.cfg
  · rw [htask, Task.past_tagV, htag]
  · rw [hvalue]
    exact groupPut_byte _ hbits _ hpart hb
  · rw [hvalue, groupPut_element _ hbits _ hpart hi, Task.packedElement, hc]
    rfl
  · have hscale := x.packedTask_scale f (hc ▸ hmx)
    rw [hc] at hscale
    rw [htask]
    exact hscale
  · rw [htask, Task.past_slots, x.packedTask_slots f (hc ▸ hnot)]
  · have hslots := x.packedTask_slot f (hc ▸ h8)
    rw [hc] at hslots
    rw [htask]
    exact hslots

end Sys2Proof.Machine

namespace Sys2Proof
open Sys2Proof.Machine Sys2Proof.Claims

/-- Settles O8: transfers and reductions by the registers that they write; an unpack by its lanes; a pack by the digits of the group that
it puts, each of which fits in its element. -/
theorem vectorMovesAndConversions : Obligations.VectorMovesAndConversions :=
  ⟨vectorTransfers, vectorUnpacks, vectorPacks, vectorReductions⟩

end Sys2Proof
end

section
/-! SEND and SWAIT (R142, R143, R167, R175), and the task-control instructions (R113, R115, R144, R147, R154): each by what it waits
for. -/

namespace Sys2Proof.Machine
open Sys2Proof.Claims

/-! ### SEND -/

/-- The operands and the route that R142 and R167 allow. -/
theorem Tile.sendBad_eq_false {x : Tile} {t : Task} {f : FX} {e : SourceEntry} (hroute : x.current.source f.ch = some e)
    (hpos : 1 ≤ (t.getS f.sl).toNat) (hmax : (t.getS f.sl).toNat ≤ 4096) (hlines : (t.getS f.sl).toNat ≤ e.maxLines.toNat)
    (haddr : (t.getA f.as).toNat % 64 = 0) (hreduce : 2 ≤ e.mode.toNat ∧ e.mode.toNat ≤ 4 → ∀ q ∈ x.queued, q.ch ≠ f.ch) :
    x.sendBad t f = false := by
  have hcount : ¬((t.getS f.sl).toNat = 0 ∨ 4096 < (t.getS f.sl).toNat) := by omega
  have hother : (e.isReduce && x.queued.any fun q => q.ch == f.ch) = false := by
    simpa [SourceEntry.isReduce] using fun h1 h2 => hreduce ⟨h1, h2⟩
  simp [Tile.sendBad, hroute, hcount, haddr, hother, hlines]

section
variable {s : State} {w : Site} {f : FX} {e : SourceEntry}

/-- A SEND that nothing refuses queues its message, or halts its task where no more are taken (R175). -/
theorem exec_send (htake : Takes (.send w f) w s) (hrsv : f.rsv = 0) (hclear : Clear (s.taskAt w) [f.sl] [f.sl] [f.as])
    (hbad : (s.tile w.tile).sendBad (s.taskAt w) f = false)
    (hbound : ((s.taskAt w).getA f.as).toNat + 64 * ((s.taskAt w).getS f.sl).toNat ≤ 64 * (s.taskAt w).spBound) :
    exec (.send w f) s = .next (if 64 ≤ (s.tile w.tile).queued.length then s.haltTask w 0x0304 (s.where_ w) 0
      else s.setTile w.tile (({ s.tile w.tile with queued := (s.tile w.tile).queued ++ [⟨w.task, (s.taskAt w).pc, f.ch, f.hid,
        (s.taskAt w).getA f.as, ((s.taskAt w).getS f.sl).toNat, false⟩] } : Tile).issued w.task ((s.taskAt w).advance 4))) := by
  obtain ⟨hwaits, htagS, htagA⟩ := hclear
  have htask : (s.tile w.tile).task w.task.val = s.taskAt w := rfl
  show execSend w f s = _
  rw [execSend, State.issue_take _ _ _ _ htake]
  simp only [htask, hrsv, hwaits, htagS f.sl (by simp), htagA f.as (by simp), hbad, Task.badLine_eq_none hbound, ne_eq, not_true_eq_false,
    Bool.or_self, Bool.false_eq_true, if_false]
  split <;> rfl

end

/-! ### Waits -/

theorem FT.bits_eq_zero {f : FT} (htn : f.tn = 0) (hs : f.s = 0) (hrsv : f.rsv = 0) (hn : f.n = 0) : f.bits = 0 := by
  rw [FT.bits, htn, hs, hrsv, hn]
  rfl

theorem exec_swait {s : State} {w : Site} {f : FT} (htake : Takes (.swait w f) w s) (htn : f.tn = 0) (hs : f.s = 0) (hrsv : f.rsv = 0)
    (hn : f.n.toNat ≤ 64) : exec (.swait w f) s = .next (if f.n.toNat < (s.tile w.tile).outstanding w.task then s.holdTask w .sends
      else s.retire w ((s.taskAt w).advance 4)) := by
  show execSwait w f s = _
  rw [execSwait, State.issue_take _ _ _ _ htake, if_neg (by simp [htn, hs, hrsv, hn])]
  split <;> rfl

theorem sendQueues : SendQueues := by
  refine ⟨fun s w f e htake hrsv => ?_, fun s w f htake htn hs hrsv hn => ?_⟩
  · intro x y n a hclear hroute hpos hmax hlines haddr hbound hreduce
    have hexec := exec_send htake hrsv hclear (Tile.sendBad_eq_false hroute hpos hmax hlines haddr hreduce) hbound
    refine ⟨fun hroom => ?_, fun hfull => hexec.trans (by rw [if_pos hfull]; rfl)⟩
    rw [if_neg (not_le.2 hroom)] at hexec
    refine ⟨_, hexec, retires_issued rfl rfl rfl rfl (Task.keepsRegs_refl _) rfl rfl, ?_⟩
    rw [State.tile_setTile_same]
    exact ⟨rfl, rfl⟩
  · intro out
    have hexec := exec_swait htake htn hs hrsv hn
    rw [Tile.outstanding, List.countP_eq_length_filter] at hexec
    refine ⟨fun hle => ⟨_, hexec.trans (by rw [if_neg (not_lt.2 hle)]), retires_retire 4⟩, fun hlt => hexec.trans (by rw [if_pos hlt])⟩

/-! ### Task control -/

section
variable {s : State} {w : Site}

/-- FENCE waits for the task's loads and its bound drains (R147). -/
theorem State.fenced_iff : s.fenced w = true ↔ ¬((s.taskAt w).loads ≠ [] ∨ ∃ d ∈ (s.tile w.tile).drains, d.task = w.task) := by
  simp [State.fenced, Tile.hasDrain]

/-- With no bound drain the checker has nothing to settle (R498). -/
theorem State.not_unsettled_of_fenced (h : s.fenced w = true) : (s.tile w.tile).unsettled w.task = false := by
  simp only [State.fenced, Tile.hasDrain, Bool.and_eq_true, Bool.not_eq_true', List.any_eq_false] at h
  obtain ⟨-, hdrains⟩ := h
  simp only [Tile.unsettled, List.any_eq_false]
  intro d hd
  simp [hdrains d hd]

theorem exec_fence {f : FT} (htake : Takes (.fence w f) w s) (hf : f.bits = 0) :
    exec (.fence w f) s = .next (if s.fenced w then s.retire w ((s.taskAt w).advance 4) else s.holdTask w .resource) := by
  show execFence w f s = _
  rw [execFence, State.issue_take _ _ _ _ htake, if_neg (not_not.2 hf)]
  cases s.fenced w <;> rfl

theorem exec_curf {f : FT} (htake : Takes (.curf w f) w s) (hf : f.bits = 0) (hhandling : (s.tile w.tile).handling = none) :
    exec (.curf w f) s = .next (if s.fenced w then s.retire w { (s.taskAt w).advance 4 with state := .atCurfew }
      else s.holdTask w .resource) := by
  show execCurf w f s = _
  rw [execCurf, State.issue_take _ _ _ _ htake]
  simp only [hf, hhandling, ne_eq, not_true_eq_false, Option.isSome_none, Bool.false_eq_true, or_self, if_false]
  cases h : s.fenced w with
  | false => rfl
  | true => simp [s.not_unsettled_of_fenced h]

theorem exec_tend {f : FT} (htake : Takes (.tend w f) w s) (hf : f.bits = 0) (hhandling : (s.tile w.tile).handling = none) :
    exec (.tend w f) s = .next (s.retire w { s.taskAt w with state := .ended }) := by
  show execTend w f s = _
  rw [execTend, State.issue_take _ _ _ _ htake, if_neg (by simp [hf, hhandling])]

theorem exec_twait {f : FT} (htake : Takes (.twait w f) w s) (hrsv : f.rsv = 0) (hn : f.n = 0)
    (hclear : Clear (s.taskAt w) [f.s] [f.s] []) (htarget : ((s.taskAt w).getS f.s).toNat < 65536) :
    exec (.twait w f) s = .next (if ((s.taskAt w).tokens.get 0 f.tn.toNat - ((s.taskAt w).getS f.s).setWidth 16).toNat < 32768 then
      s.retire w ((s.taskAt w).advance 4) else s.holdTask w .token) := by
  obtain ⟨hwaits, htags, -⟩ := hclear
  have hhigh : ((s.taskAt w).getS f.s).extractLsb' 16 16 = 0 := by
    apply BitVec.eq_of_toNat_eq
    rw [BitVec.extractLsb'_toNat, Nat.shiftRight_eq_div_pow, Nat.div_eq_of_lt htarget]
    rfl
  have hlow : ((s.taskAt w).getS f.s).extractLsb' 0 16 = ((s.taskAt w).getS f.s).setWidth 16 :=
    BitVec.eq_of_toNat_eq (by simp)
  show execTwait w f s = _
  rw [execTwait, State.issue_take _ _ _ _ htake]
  simp only [hrsv, hn, hwaits, htags f.s (by simp), hhigh, hlow, tokenReached, decide_eq_true_eq, ne_eq, not_true_eq_false, or_self,
    Bool.false_eq_true, if_false]
  split <;> rfl

/-- A task that retires leaves all but itself, as every issue does. -/
theorem State.retire_ownTaskOnly (t : Task) : OwnTaskOnly w s (s.retire w t) := ownTaskOnly_issued rfl rfl rfl rfl

theorem State.taskAt_retire (t : Task) : (s.retire w t).taskAt w = { t with hold := .none } := by
  rw [State.retire, State.taskAt, State.tile_setTile_same, Tile.issued_task_same]

end

theorem taskControl : TaskControl := by
  refine ⟨fun s w f htn hs hrsv hn => ?_, fun s w f htake htn hs hrsv hn hhandling => ?_, fun s w f htake hrsv hn hclear htarget => ?_⟩
  · intro busy
    have hf := FT.bits_eq_zero htn hs hrsv hn
    refine ⟨fun htake => ?_, fun htake hhandling => ?_⟩
    · have hexec := exec_fence htake hf
      refine ⟨fun hfree => ⟨_, hexec.trans (by rw [if_pos (State.fenced_iff.2 hfree)]), retires_retire 4⟩,
        fun hbusy => hexec.trans (by rw [if_neg fun h => State.fenced_iff.1 h hbusy])⟩
    · have hexec := exec_curf htake hf hhandling
      refine ⟨fun hfree => ⟨_, hexec.trans (by rw [if_pos (State.fenced_iff.2 hfree)]), State.retire_ownTaskOnly _,
        State.taskAt_retire _⟩, fun hbusy => hexec.trans (by rw [if_neg fun h => State.fenced_iff.1 h hbusy])⟩
  · refine ⟨_, exec_tend htake (FT.bits_eq_zero htn hs hrsv hn) hhandling, State.retire_ownTaskOnly _, State.taskAt_retire _, ?_⟩
    rw [State.retire, State.tile_setTile_same, Tile.issued_drains]
  · intro count target
    have hexec := exec_twait htake hrsv hn hclear htarget
    refine ⟨fun hle => ⟨_, hexec.trans (by rw [if_pos hle]), retires_retire 4⟩, fun hlt => hexec.trans (by rw [if_neg (not_lt.2 hlt)])⟩

end Sys2Proof.Machine

namespace Sys2Proof
open Sys2Proof.Machine Sys2Proof.Claims

/-- Settles O13: each instruction, its fields and operands in order, by the one question whether it passes or waits. -/
theorem sendsAndTaskControl : Obligations.SendsAndTaskControl := ⟨sendQueues, taskControl⟩

end Sys2Proof
end

section
/-! HEND and the handler pass (R145, R146, R179, R188), and the words that a tile's rules forbid (R121). -/

namespace Sys2Proof.Machine
open Sys2Proof.Claims

/-! ### The end of a handler -/

/-- The lines of a handled message go back to its ring alone (R146). -/
theorem Tile.returnLines_eq (x : Tile) (m : Delivered) : ∃ rings, x.returnLines m = { x with rings := rings } := by
  unfold Tile.returnLines
  split
  · exact ⟨_, rfl⟩
  · exact ⟨_, rfl⟩

/-- The tile of a handler that has ended, before the pass goes on: its task is back where it was. -/
def Tile.handlerEnded (x : Tile) (n : Fin 4) (h : Handling) : Tile :=
  { (x.issued n { x.task n.val with state := h.was, pc := h.resume }).returnLines h.msg with handling := none }

section
variable (x : Tile) (n : Fin 4) (h : Handling)

theorem Tile.handlerEnded_eq : ∃ rings, x.handlerEnded n h =
    { x.issued n { x.task n.val with state := h.was, pc := h.resume } with rings := rings, handling := none } := by
  obtain ⟨rings, hrings⟩ := (x.issued n { x.task n.val with state := h.was, pc := h.resume }).returnLines_eq h.msg
  exact ⟨rings, by rw [Tile.handlerEnded, hrings]⟩

/-- What the end of a handler leaves of its tile. -/
theorem Tile.handlerEnded_keeps : (x.handlerEnded n h).pad = x.pad ∧ (x.handlerEnded n h).padPoison = x.padPoison ∧
    (x.handlerEnded n h).handlers = x.handlers := by
  obtain ⟨rings, hx⟩ := x.handlerEnded_eq n h
  rw [hx]
  exact ⟨rfl, rfl, rfl⟩

/-- Its own task goes on where it was, and every task is offered its turn afresh. -/
theorem Tile.handlerEnded_task (k : Nat) : (x.handlerEnded n h).task k = { x.task k with
    state := if k = n.val then h.was else (x.task k).state
    pc := if k = n.val then h.resume else (x.task k).pc
    hold := .none } := by
  obtain ⟨rings, hx⟩ := x.handlerEnded_eq n h
  rw [hx]
  by_cases hk : k = n.val
  · subst hk
    rw [if_pos rfl, if_pos rfl]
    exact Tile.issued_task_same _ _ _
  · rw [if_neg hk, if_neg hk]
    exact Tile.issued_task_other _ _ _ hk

end

theorem exec_hend {s : State} {w : Site} {f : FT} {h : Handling} (htake : Takes (.hend w f) w s) (hf : f.bits = 0)
    (hhandling : (s.tile w.tile).handling = some h) : exec (.hend w f) s =
      .next ((s.setTile w.tile ((s.tile w.tile).handlerEnded w.task h)).passFrom w.tile (s.tile w.tile).delivered) := by
  show execHend w f s = _
  rw [execHend, State.issue_take _ _ _ _ htake]
  simp only [hhandling, hf, ne_eq, not_true_eq_false, if_false]
  rfl

/-! ### The end of a pass -/

/-- At the end of a pass every ring is empty (R179). -/
theorem Tile.resumeAll_rings (x : Tile) : ∀ e ∈ x.resumeAll.rings, e.2.used = 0 ∧ e.2.head = e.2.tail := by
  intro e he
  obtain ⟨e', -, rfl⟩ := List.mem_map.1 he
  exact ⟨rfl, rfl⟩

theorem Tile.resumeAll_task_state (x : Tile) (k : Nat) :
    (x.resumeAll.task k).state = if (x.task k).state = .atCurfew then .running else (x.task k).state := by
  rw [Tile.resumeAll_task]
  split <;> rfl

theorem Tile.resumeAll_task_pc (x : Tile) (k : Nat) : (x.resumeAll.task k).pc = (x.task k).pc := by
  rw [Tile.resumeAll_task]
  split <;> rfl

theorem Tile.resumeAll_task_regs (x : Tile) (k : Nat) : KeepsRegs [] [] [] [] (x.task k) (x.resumeAll.task k) := by
  rw [Tile.resumeAll_task]
  split <;> exact keepsRegs_of_eq ⟨rfl, rfl⟩ ⟨rfl, rfl⟩ ⟨rfl, rfl⟩ rfl

/-! ### The next handler -/

theorem KeepsRegs.mono {xs xs' : List (BitVec 5)} {xa xa' xv xv' : List (BitVec 4)} {xp xp' : List (BitVec 3)} {a b : Task}
    (h : KeepsRegs xs xa xv xp a b) (hs : xs ⊆ xs') (ha : xa ⊆ xa') (hv : xv ⊆ xv') (hp : xp ⊆ xp') : KeepsRegs xs' xa' xv' xp' a b := by
  obtain ⟨ks, ka, kv, kp⟩ := h
  exact ⟨fun n hn => ks n (mt (@hs n) hn), fun n hn => ka n (mt (@ha n) hn), fun n hn => kv n (mt (@hv n) hn),
    fun n hn => kp n (mt (@hp n) hn)⟩

/-- A task with a message's place, size and name in the registers that its handler reads (R145). -/
def Task.handed (t : Task) (m : Delivered) : Task :=
  ((t.setA 15 (BitVec.ofNat 32 (64 * m.line)) false).setS 31 (BitVec.ofNat 32 m.lines) false).setS 30
    (BitVec.ofNat 32 (m.seq.toNat + 65536 * m.channel.toNat + 2 ^ 20 * m.handler.toNat)) false

/-- What a handler finds in its task's registers is what it is handed. -/
theorem Task.enterHandler_regs (t : Task) (h : Word) (m : Delivered) :
    KeepsRegs [30, 31] [15] [] [] t (t.enterHandler h m) ∧ (t.enterHandler h m).getA 15 = BitVec.ofNat 32 (64 * m.line) ∧
      (t.enterHandler h m).getS 31 = BitVec.ofNat 32 m.lines ∧
      (t.enterHandler h m).getS 30 = BitVec.ofNat 32 (m.seq.toNat + 65536 * m.channel.toNat + 2 ^ 20 * m.handler.toNat) := by
  have keeps : KeepsRegs [31, 30] [15] [] [] t (t.handed m) :=
    KeepsRegs.trans (KeepsRegs.trans (Task.keepsRegs_setA _ _ _ _) (Task.keepsRegs_setS _ _ _ _)) (Task.keepsRegs_setS _ _ _ _)
  have keeps' : KeepsRegs [30, 31] [15] [] [] t (t.handed m) := KeepsRegs.mono keeps (by simp) (by simp) (by simp) (by simp)
  have place : (t.handed m).getA 15 = BitVec.ofNat 32 (64 * m.line) := Task.getA_setA_same t _ _ false
  have size : (t.handed m).getS 31 = BitVec.ofNat 32 m.lines := by
    rw [Task.handed, Task.getS_setS_other _ _ _ (by decide), Task.getS_setS_same]
  have name : (t.handed m).getS 30 = BitVec.ofNat 32 (m.seq.toNat + 65536 * m.channel.toNat + 2 ^ 20 * m.handler.toNat) :=
    Task.getS_setS_same _ _ _ _
  exact ⟨keeps', place, size, name⟩

/-- A pass whose next message has a handler enters it, and changes no more of its tile (R145, R188). -/
theorem State.passFrom_enters {s : State} {u : Nat} {m : Delivered} {ms : List Delivered} {x : Tile} {r : Task} {e : Word}
    (hx : s.tile u = x) (hr : x.task m.task.toNat = r) (he : x.handlers.get 0 m.handler.toNat = e) (hstate : r.state ≠ .faulted)
    (hvalid : e.getLsbD 31 = true) (hown : e.extractLsb' 16 2 = m.task) :
    ∃ t, s.passFrom u (m :: ms) = t ∧ { t with tiles := s.tiles } = s ∧
      (t.tile u).handling = some ⟨m.task.toFin, r.state, r.pc, m⟩ ∧ (t.tile u).delivered = ms ∧
      (t.tile u).task m.task.toNat = r.enterHandler e m ∧ (t.tile u).pad = x.pad ∧ (t.tile u).padPoison = x.padPoison := by
  have hok : handlerOk e m.task = true := by
    rw [handlerOk, hvalid, hown, beq_self_eq_true]
    rfl
  have enters : s.passFrom u (m :: ms) = s.setTile u { x.setTask m.task.toNat (r.enterHandler e m) with
      handling := some ⟨m.task.toFin, r.state, r.pc, m⟩, delivered := ms } := by
    rw [State.passFrom]
    simp only [hx, hr, he, if_neg hstate, hok, Bool.not_true, Bool.false_eq_true, if_false]
    rfl
  refine ⟨_, enters, rfl, ?_⟩
  rw [State.tile_setTile_same]
  exact ⟨rfl, rfl, Tile.task_setTask_same _ _ _, rfl, rfl⟩

theorem handlersRun : HandlersRun := by
  refine ⟨fun s w f h htake htn hs hrsv hn hhandling => ⟨fun hdone => ?_, fun m ms hnext => ?_⟩, fun s w f htake hhandling => ?_⟩
  -- The pass is over.
  · have hexec := exec_hend htake (FT.bits_eq_zero htn hs hrsv hn) hhandling
    rw [hdone, State.passFrom, State.tile_setTile_same] at hexec
    have task (k : Nat) := (s.tile w.tile).handlerEnded_task w.task h k
    obtain ⟨pad, poison, -⟩ := (s.tile w.tile).handlerEnded_keeps w.task h
    refine ⟨_, hexec, rfl, ?_⟩
    rw [PadSame, State.taskAt, State.tile_setTile_same]
    refine ⟨rfl, rfl, Tile.resumeAll_rings _, ?_, ?_, fun k hk => ?_, ?_, pad, poison⟩
    · rw [Tile.resumeAll_task_pc, task]
      exact if_pos rfl
    · rw [Tile.resumeAll_task_state, task]
      simp only [if_true]
    · have other : k.val ≠ w.task.val := fun e => hk (Fin.ext e)
      rw [Tile.resumeAll_task_state, task]
      simp only [if_neg other]
    · have regs := Tile.resumeAll_task_regs ((s.tile w.tile).handlerEnded w.task h) w.task.val
      rw [task] at regs
      exact regs
  -- The next message's handler begins.
  · intro k was back e hwas hvalid hown
    have hexec := exec_hend htake (FT.bits_eq_zero htn hs hrsv hn) hhandling
    obtain ⟨pad, poison, handlers⟩ := (s.tile w.tile).handlerEnded_keeps w.task h
    have task : ((s.tile w.tile).handlerEnded w.task h).task m.task.toNat =
        { s.taskAt k with state := was, pc := back, hold := .none } := Tile.handlerEnded_task _ _ _ _
    obtain ⟨t, hpass, rest, handling, delivered, self, pad', poison'⟩ := State.passFrom_enters (ms := ms) (State.tile_setTile_same s _ _)
      task (congrArg (Tbl.get 0 · _) handlers) hwas hvalid hown
    rw [hnext, hpass] at hexec
    obtain ⟨regs, place, size, name⟩ := Task.enterHandler_regs { s.taskAt k with state := was, pc := back, hold := .none } e m
    rw [← self] at regs place size name
    exact ⟨t, hexec, congrArg (fun v : State => { v with tiles := s.tiles }) rest, handling, delivered, congrArg Task.state self, congrArg Task.pc self, regs, place, size, name,
      pad'.trans pad, poison'.trans poison⟩
  -- Outside a handler HEND is invalid.
  · show execHend w f s = _
    rw [execHend, State.issue_take _ _ _ _ htake]
    simp only [hhandling]
    rfl

/-! ### Invalid words (R121) -/

/-- An opcode that is not listed. -/
theorem State.regOp_unlisted {s : State} {i : Instr} {w : Site} {word : Word} (o : RegOp) (h : s.issueOf i w = .unlisted word) :
    s.regOp i w o = .next (s.haltTask w 0x0105 (s.where_ w) word.toNat) := by
  rw [State.regOp, State.issue, h]

theorem State.issueOf_unlisted {s : State} (i : Instr) {w : Site} {word : Word} (hmay : s.mayIssue w = true)
    (hfetch : (s.taskAt w).fetchable (s.taskAt w).pc.toNat = true)
    (hword : (s.tile w.tile).wordAt (s.taskAt w) (s.taskAt w).pc.toNat = word)
    (hdecode : decodeTile w word ((s.tile w.tile).wordAt (s.taskAt w) ((s.taskAt w).pc.toNat + 4)) = none)
    (hguard : guardHolds (guardOf word) (s.taskAt w) = true) : s.issueOf i w = .unlisted word := by
  have htask : (s.tile w.tile).task w.task.val = s.taskAt w := rfl
  simp only [State.issueOf, htask, hmay, hfetch, hword, hdecode, hguard, Bool.not_true, Bool.false_eq_true, if_false, if_true]

theorem invalidHalts : InvalidHalts := by
  refine ⟨fun s i w word hmay hfetch hword hdecode hguard hi => ?_, fun s w f hhandling => ⟨fun htake => ?_, fun htake => ?_⟩,
    fun s w f htake hsz => ?_⟩
  · have hissue := State.issueOf_unlisted i hmay hfetch hword hdecode hguard
    obtain ⟨f, rfl | rfl⟩ := hi
    · exact State.regOp_unlisted _ hissue
    · exact State.regOp_unlisted _ hissue
  · show execCurf w f s = _
    rw [execCurf, State.issue_take _ _ _ _ htake, if_pos (.inr hhandling)]
    rfl
  · show execTend w f s = _
    rw [execTend, State.issue_take _ _ _ _ htake, if_pos (.inr hhandling)]
    rfl
  · show execSt w f s = _
    rw [execSt, State.issue_take _ _ _ _ htake, if_pos hsz]
    rfl

end Sys2Proof.Machine

namespace Sys2Proof
open Sys2Proof.Machine Sys2Proof.Claims

/-- Settles O14: HEND returns its own task, and then the pass ends or enters the next handler; a forbidden instruction halts before any
effect. -/
theorem handlersAndInvalidWords : Obligations.HandlersAndInvalidWords := ⟨handlersRun, invalidHalts⟩

end Sys2Proof
end

section
/-! What a control flit's arrival makes of a message (R168, R170, R171): the grant that lets a destination's lines depart, and the
acknowledgement that ends it there. -/

namespace Sys2Proof.Machine
open Sys2Proof.Claims

/-! ### A change of one destination -/

/-- The state with a message's entry for a destination changed. -/
def State.mapDest (s : State) (c msg dest : Nat) (f : MsgDest → MsgDest) : State := s.mapMsg c msg fun m => m.mapDest dest f

theorem State.mapDest_inJob (s : State) (c msg dest : Nat) (f : MsgDest → MsgDest) : InJob c s (s.mapDest c msg dest f) :=
  s.mapMsg_inJob _ _ _

theorem destOf_eq {s : State} {c msg dest : Nat} {m : Msg} {d : MsgDest} (hmsg : (s.job c).msg msg = some m)
    (hat : m.at_ dest = some d) : destOf s c msg dest = some d := by
  rw [destOf, hmsg]
  exact hat

theorem destOf_mapDest {s : State} {c msg dest : Nat} {d : MsgDest} {f : MsgDest → MsgDest} (hf : ∀ d, (f d).dest = d.dest)
    (h : destOf s c msg dest = some d) : destOf (s.mapDest c msg dest f) c msg dest = some (f d) := by
  obtain ⟨m, hmsg, hat⟩ := Option.bind_eq_some_iff.1 h
  refine destOf_eq ?_ (Msg.at_mapDest hf hat)
  rw [State.mapDest, State.mapMsg_job]
  exact Job.msg_mapMsg_same (f := fun m => m.mapDest dest f) (fun _ hm => hm) hmsg

/-- A flit's travel moves no message. -/
theorem Travelled.msg {c : Nat} {s t : State} (h : Travelled c s t) (msg : Nat) : (t.job c).msg msg = (s.job c).msg msg := by
  obtain ⟨-, -, -, msgs⟩ := h
  rw [Job.msg, msgs, Job.msg]

theorem Travelled.padSame {c : Nat} {s t : State} (h : Travelled c s t) (u : Nat) : PadSame u s t := by
  obtain ⟨-, records, -, -⟩ := h
  exact records.padSame u

/-! ### The two answers -/

section
variable {s : State} {c : Fin 8} {msg dest : Nat} {m : Msg} {d : MsgDest}

theorem exec_grantArrive (hmoves : (s.job c.val).moves = true) (hmsg : (s.job c.val).msg msg = some m) (hat : m.at_ dest = some d)
    (hstage : d.stage = .granted) : exec (.grantArrive c msg dest) s =
      let r := s.travel c.val m true (2 + 2 * dest) (s.pathBack m dest)
      .next (if r.2 then r.1.mapDest c.val msg dest fun d => { d with stage := .sending } else r.1) := by
  show execGrantArrive c msg dest s = _
  simp only [execGrantArrive, hmsg, hat, hmoves, hstage, and_self, if_true]
  rfl

/-- A message that an acknowledgement reaches, complete where it was the last (R171). -/
def Msg.acked (m : Msg) (dest : Nat) : Msg :=
  let m1 := m.mapDest dest fun d => { d with stage := .acked }
  { m1 with complete := m1.dests.all fun d => d.stage == .acked }

theorem Msg.acked_at (hat : m.at_ dest = some d) : (m.acked dest).at_ dest = some { d with stage := .acked } :=
  Msg.at_mapDest (f := fun d => { d with stage := .acked }) (fun _ => rfl) hat

theorem Msg.acked_complete (m : Msg) (dest : Nat) :
    (m.acked dest).complete = true ↔ ∀ x ∈ (m.acked dest).dests, x.stage = .acked := by
  simp [Msg.acked]

theorem exec_deliveryAckArrive (hmoves : (s.job c.val).moves = true) (hmsg : (s.job c.val).msg msg = some m)
    (hat : m.at_ dest = some d) (hstage : d.stage = .delivered) : exec (.deliveryAckArrive c msg dest) s =
      let r := s.travel c.val m true (3 + 2 * dest) (s.pathBack m dest)
      .next (if r.2 then r.1.mapMsg c.val msg fun m => m.acked dest else r.1) := by
  show execDeliveryAckArrive c msg dest s = _
  simp only [execDeliveryAckArrive, hmsg, hat, hmoves, hstage, Bool.not_true, Bool.false_eq_true, ne_eq, not_true_eq_false, or_self,
    if_false]
  rfl

/-- Neither answer comes for a request that waits (R168). -/
theorem exec_answers_refused (hmsg : (s.job c.val).msg msg = some m) (hat : m.at_ dest = some d) (hstage : d.stage = .refused) :
    exec (.grantArrive c msg dest) s = .next s ∧ exec (.deliveryAckArrive c msg dest) s = .next s := by
  constructor
  · show execGrantArrive c msg dest s = _
    simp [execGrantArrive, hmsg, hat, hstage]
  · show execDeliveryAckArrive c msg dest s = _
    simp [execDeliveryAckArrive, hmsg, hat, hstage]

end

end Sys2Proof.Machine

namespace Sys2Proof
open Sys2Proof.Machine Sys2Proof.Claims

/-- Settles O20: the flit's travel moves no message, and where it gets its links one destination of one message changes. -/
theorem grantsAndAcks : Obligations.GrantsAndAcks := by
  unfold Obligations.GrantsAndAcks
  intro s c msg dest m d hmoves hmsg hat
  have granted := exec_grantArrive (s := s) hmoves hmsg hat
  have acked := exec_deliveryAckArrive (s := s) hmoves hmsg hat
  have back (part : Nat) := s.travel_travelled c.val m true part (s.pathBack m dest)
  refine ⟨fun hstage hgets => ?_, fun hstage hlost => ?_, fun hstage hgets => ?_, fun hstage hlost => ?_,
    exec_answers_refused hmsg hat⟩
  · have went := back (2 + 2 * dest)
    refine ⟨_, _, (granted hstage).trans (congrArg _ (if_pos hgets)), InJob.trans went.1 (State.mapDest_inJob _ _ _ _ _),
      went.padSame, destOf_mapDest (fun _ => rfl) (destOf_eq ((went.msg msg).trans hmsg) hat), rfl⟩
  · obtain ⟨inJob, -, -, msgs⟩ := back (2 + 2 * dest)
    exact ⟨_, (granted hstage).trans (congrArg _ (if_neg hlost)), inJob, (back _).padSame, msgs⟩
  · have went := back (3 + 2 * dest)
    refine ⟨_, m.acked dest, _, (acked hstage).trans (congrArg _ (if_pos hgets)), InJob.trans went.1 (State.mapMsg_inJob _ _ _ _),
      went.padSame, ?_, Msg.acked_at hat, rfl, m.acked_complete dest⟩
    rw [State.mapMsg_job]
    exact Job.msg_mapMsg_same (f := fun m => m.acked dest) (fun _ hm => hm) ((went.msg msg).trans hmsg)
  · obtain ⟨inJob, -, -, msgs⟩ := back (3 + 2 * dest)
    exact ⟨_, (acked hstage).trans (congrArg _ (if_neg hlost)), inJob, (back _).padSame, msgs⟩

end Sys2Proof
end

section
/-! A request at its destination (R168, R170, R172, R180 to R182, R271, R470): it is noted there in its turn, and its sink grants it, or
it waits. -/

namespace Sys2Proof.Machine
open Sys2Proof.Claims

/-! ### A request that is noted at a destination -/

/-- A destination that a request has reached: its stage, the Caravan cycle, and its place in the order of arrival. -/
def MsgDest.reached (st : MsgStage) (clock order : Nat) (d : MsgDest) : MsgDest :=
  { d with stage := st, refusedAt := clock, arrivedAt := order }

/-- The state with a request noted at a destination. -/
def State.noted (s : State) (c msg dest : Nat) (st : MsgStage) (clock order : Nat) : State :=
  s.setJob c { (s.job c).mapMsg msg fun m => m.mapDest dest (MsgDest.reached st clock order) with nextMsg := order + 1 }

theorem State.noted_inJob (s : State) (c msg dest : Nat) (st : MsgStage) (clock order : Nat) :
    InJob c s (s.noted c msg dest st clock order) := s.setJob_inJob _ _

theorem State.noted_msg {s : State} {c msg : Nat} {m : Msg} (dest : Nat) (st : MsgStage) (clock order : Nat)
    (h : (s.job c).msg msg = some m) :
    ((s.noted c msg dest st clock order).job c).msg msg = some (m.mapDest dest (MsgDest.reached st clock order)) := by
  rw [State.noted, State.job_setJob_same]
  exact Job.msg_mapMsg_same (f := fun m => m.mapDest dest (MsgDest.reached st clock order)) (fun _ hm => hm) h

/-- The other messages are as they were. -/
theorem State.noted_others {s : State} {c msg dest clock order : Nat} {st : MsgStage} {o : Msg}
    (h : o ∈ ((s.noted c msg dest st clock order).job c).msgs) (ho : o.id ≠ msg) : o ∈ (s.job c).msgs := by
  rw [State.noted, State.job_setJob_same] at h
  obtain ⟨m, hm, rfl⟩ := List.mem_map.1 h
  by_cases hid : m.id = msg
  · rw [if_pos hid] at ho
    exact absurd hid ho
  · rwa [if_neg hid]

/-- A request that is noted as waiting takes no place in the delivery index (R182). -/
theorem State.noted_indexCount (s : State) (c msg dest clock order : Nat) (overflow : Bool) :
    ((s.noted c msg dest .refused clock order).job c).indexCount dest overflow ≤ (s.job c).indexCount dest overflow := by
  rw [State.noted, State.job_setJob_same]
  refine (List.countP_map).trans_le (List.countP_mono_left fun m _ h => ?_)
  simp only [Function.comp_apply] at h
  split at h
  · have unplaced : (m.mapDest dest (MsgDest.reached .refused clock order)).dests.any
        (fun d => d.dest == dest && d.overflow == overflow && d.placed) = false := by
      simp only [Msg.mapDest, List.any_map, List.any_eq_false, Function.comp_apply]
      intro d _
      split
      · simp [MsgDest.reached, MsgDest.placed]
      · next hd => simp [hd]
    rw [unplaced, Bool.and_false] at h
    cases h
  · exact h

/-! ### What the sink answers -/

section
variable {s : State} {c msg dest : Nat} {m : Msg} {d : MsgDest}

theorem State.offer_unblocked (hmsg : (s.job c).msg msg = some m) (hat : m.at_ dest = some d) (hstage : d.stage = .refused)
    (hfree : (s.job c).blocked m dest d.arrivedAt = false) : s.offer c msg dest = (s.tryGrant c m dest).getD s := by
  simp [State.offer, hmsg, hat, hstage, hfree]

theorem State.offer_ungranted (hmsg : (s.job c).msg msg = some m) (h : s.tryGrant c m dest = none) : s.offer c msg dest = s := by
  unfold State.offer
  dsimp only
  rw [hmsg]
  dsimp only
  rw [h]
  split
  · rfl
  · exact ite_self s

theorem State.tryGrant_gate (hpoint : m.entry.point = 1) : s.tryGrant c m dest = some (s.granted c m.id dest 0 false) := by
  simp [State.tryGrant, hpoint]

/-- A tile without a record discards a multicast's copy (R470). -/
theorem State.tryGrant_unrecorded (hpoint : m.entry.point = 0) (hrec : (s.tile dest).recorded = false) (hmode : m.entry.mode = 1) :
    s.tryGrant c m dest = some (s.granted c m.id dest 0 false) := by
  simp [State.tryGrant, hpoint, hrec, hmode]

theorem State.tryGrant_ring (hpoint : m.entry.point = 0) (hrec : (s.tile dest).recorded = true) :
    s.tryGrant c m dest = s.grantRing c m dest := by
  simp [State.tryGrant, hpoint, hrec]

theorem State.tryGrant_ostler_none (hpoint : m.entry.point = 2) (h : s.boundDesc c dest m.entry.destCh = none) :
    s.tryGrant c m dest = none := by
  simp [State.tryGrant, hpoint, h]

theorem State.tryGrant_ostler {q : Desc} (hpoint : m.entry.point = 2) (h : s.boundDesc c dest m.entry.destCh = some q)
    (hroom : 64 * (q.granted + m.lines) ≤ q.consumes) : s.tryGrant c m dest =
      some ((s.mapDesc q.id fun d => { d with granted := d.granted + m.lines }).granted c m.id dest 0 false) := by
  simp [State.tryGrant, hpoint, h, hroom]

theorem State.grantRing_none (h : (s.tile dest).current.sink m.entry.destCh = none) : s.grantRing c m dest = none := by
  simp [State.grantRing, h]

end

/-- The Waybill of a wrap marker (R202). -/
def wrapMarker (c dest ch : Nat) : Waybill :=
  { handler := 0, channel := ch, seq := 0, length := 0, source := 0, dest := dest, part := c, redOp := 0
    poison := false, nonfinite := false, wrap := true, overflow := false, gate := false, chain := false }

/-- A tile with a message's Waybill at a line of a ring, a wrap marker before it where it wraps, and the ring's lines taken. -/
def Tile.ringTaken (x : Tile) (c dest : Nat) (m : Msg) (k : SinkEntry) (line : Nat) (wrapped : Bool) : Tile :=
  let r := x.rings.get ⟨0, 0, 0⟩ k.inCh.toNat
  let x1 := if wrapped then x.putLine k.task.toNat (k.offset.toNat + r.tail) (wrapMarker c dest k.inCh.toNat).line false else x
  let x2 := x1.putLine k.task.toNat (k.offset.toNat + line) (m.waybill c dest false).line false
  { x2 with rings := x2.rings.set k.inCh.toNat (r.after k.lines.toNat (m.lines + 1) line wrapped) }

theorem State.grantRing_placed {s : State} {c dest line : Nat} {m : Msg} {k : SinkEntry} {wrapped : Bool}
    (hsink : (s.tile dest).current.sink m.entry.destCh = some k) (hindex : (s.job c).indexCount dest false < 512)
    (hplace : ((s.tile dest).rings.get ⟨0, 0, 0⟩ k.inCh.toNat).place k.lines.toNat (m.lines + 1) = some (line, wrapped)) :
    s.grantRing c m dest = some ((s.setTile dest ((s.tile dest).ringTaken c dest m k line wrapped)).granted c m.id dest
      (k.offset.toNat + line) false) := by
  unfold State.grantRing
  dsimp only
  rw [hsink]
  dsimp only
  rw [if_neg (Nat.not_le.2 hindex), hplace]
  rfl

/-- The Waybill stands at its line (R181). -/
theorem Tile.ringTaken_waybill {x : Tile} (hwf : Memory.wf x.pad = true) (c dest : Nat) (m : Msg) (k : SinkEntry) (line : Nat)
    (wrapped : Bool) : (x.ringTaken c dest m k line wrapped).pad.read ((x.task k.task.toNat).padAddr (64 * (k.offset.toNat + line))) 64 =
      (m.waybill c dest false).line := by
  have landed (pad : Mem) (h : Memory.wf pad = true) (a : Nat) :
      (pad.write a (m.waybill c dest false).line).read a 64 = (m.waybill c dest false).line := by
    have read := Mem.read_write pad a (m.waybill c dest false).line h
    rwa [Waybill.line_length] at read
  cases wrapped with
  | false =>
    rw [Tile.ringTaken, if_neg Bool.false_ne_true, Tile.putLine_pad]
    exact landed _ hwf _
  | true =>
    rw [Tile.ringTaken, if_pos rfl, Tile.putLine_pad, Tile.putLine_task, Tile.putLine_pad]
    exact landed _ (Memory.wf_write _ _ _ hwf) _

theorem Tile.ringTaken_ring (x : Tile) (c dest : Nat) (m : Msg) (k : SinkEntry) (line : Nat) (wrapped : Bool) :
    (x.ringTaken c dest m k line wrapped).rings.get ⟨0, 0, 0⟩ k.inCh.toNat =
      (x.rings.get ⟨0, 0, 0⟩ k.inCh.toNat).after k.lines.toNat (m.lines + 1) line wrapped :=
  Tbl.get_set_same _ _ _ _

/-! ### Arrival -/

section
variable {s : State} {c : Fin 8} {msg dest : Nat} {m : Msg} {d : MsgDest}

/-- The state once the flit of a request has travelled. -/
def State.cameTo (s : State) (c : Nat) (m : Msg) (dest : Nat) : State := (s.travel c m true 0 (s.pathTo m dest 0)).1

theorem State.cameTo_travelled (s : State) (c : Nat) (m : Msg) (dest : Nat) : Travelled c s (s.cameTo c m dest) :=
  s.travel_travelled _ _ _ _ _

theorem exec_requestArrive_lost (hmoves : (s.job c.val).moves = true) (hmsg : (s.job c.val).msg msg = some m)
    (hat : m.at_ dest = some d) (hstage : d.stage = .requested) (hlost : ¬ Gets s c.val m true 0 (s.pathTo m dest 0)) :
    exec (.requestArrive c msg dest) s =
      .next (if (s.job c.val).outOfTurn m dest = true then s else s.cameTo c.val m dest) := by
  show execRequestArrive c msg dest s = _
  simp only [execRequestArrive, hmsg, hat, hmoves, hstage, Bool.not_true, Bool.false_eq_true, if_false, reduceCtorEq, false_and,
    ne_eq, not_true_eq_false, false_or, Bool.not_eq_true _ ▸ hlost, Bool.not_false, if_true]
  split <;> rfl

/-- A request of its turn that gets its links is noted at its destination, and what becomes of it there depends on its kind. -/
theorem exec_requestArrive (hmoves : (s.job c.val).moves = true) (hmsg : (s.job c.val).msg msg = some m)
    (hat : m.at_ dest = some d) (hstage : d.stage = .requested) (hturn : (s.job c.val).outOfTurn m dest = false)
    (hgets : Gets s c.val m true 0 (s.pathTo m dest 0)) :
    exec (.requestArrive c msg dest) s =
      let noted (st : MsgStage) := (s.cameTo c.val m dest).noted c.val msg dest st (s.job c.val).clock (s.job c.val).nextMsg
      .next (if m.chains then
          if (s.tile dest).takesChain m.entry.destCh then
            (noted .arrived).mapMsg c.val msg fun m => { m with complete := m.complete || m.null }
          else noted .refused
        else if m.null then (noted .acked).mapMsg c.val msg fun m => { m with complete := true }
        else (noted .refused).offer c.val msg dest) := by
  show execRequestArrive c msg dest s = _
  simp only [execRequestArrive, hmsg, hat, hmoves, hstage, hturn, Bool.not_true, Bool.false_eq_true, if_false, reduceCtorEq, false_and,
    ne_eq, not_true_eq_false, or_self, hgets]
  split
  · split <;> rfl
  · split <;> rfl

/-- A request that waits at its sink is offered to it again. -/
theorem exec_requestArrive_refused (hmoves : (s.job c.val).moves = true) (hmsg : (s.job c.val).msg msg = some m)
    (hat : m.at_ dest = some d) (hstage : d.stage = .refused) (hchains : m.chains = false) :
    exec (.requestArrive c msg dest) s = .next (s.offer c.val msg dest) := by
  show execRequestArrive c msg dest s = _
  simp [execRequestArrive, hmsg, hat, hmoves, hstage, hchains]

end

/-- From `s` to `t` the request `m` for `dest` has come to wait at its sink, as `m'` with the entry `d'`, or waits there as it did; no
other message has moved. -/
structure Waiting (c msg dest : Nat) (m : Msg) (d : MsgDest) (s t : State) (m' : Msg) (d' : MsgDest) : Prop where
  inJob : InJob c s t
  records : RecordsOnly s t
  descs : t.descs = s.descs
  index : (t.job c).indexCount dest false ≤ (s.job c).indexCount dest false
  others : ∀ o ∈ (t.job c).msgs, o.id ≠ msg → o ∈ (s.job c).msgs
  msg : (t.job c).msg msg = some m'
  route : m'.entry = m.entry
  lines : m'.lines = m.lines
  waybill : m'.waybill c dest false = m.waybill c dest false
  entry : m'.at_ dest = some d'
  refused : d'.stage = .refused
  written : d'.written = d.written

section
variable {s : State} {c : Fin 8} {msg dest : Nat} {m : Msg} {d : MsgDest}

/-- The entry of a request that has been noted. -/
theorem destOf_noted (hmsg : (s.job c.val).msg msg = some m) (hat : m.at_ dest = some d) (st : MsgStage) (clock order : Nat) :
    destOf ((s.cameTo c.val m dest).noted c.val msg dest st clock order) c.val msg dest = some (d.reached st clock order) :=
  destOf_eq (State.noted_msg _ _ _ _ (((s.cameTo_travelled c.val m dest).msg msg).trans hmsg))
    (Msg.at_mapDest (f := MsgDest.reached st clock order) (fun _ => rfl) hat)

theorem State.noted_frame (s : State) (c : Fin 8) (msg dest : Nat) (m : Msg) (st : MsgStage) (clock order : Nat) :
    InJob c.val s ((s.cameTo c.val m dest).noted c.val msg dest st clock order) ∧
      ∀ u, PadSame u s ((s.cameTo c.val m dest).noted c.val msg dest st clock order) := by
  have came := s.cameTo_travelled c.val m dest
  exact ⟨InJob.trans came.1 (State.noted_inJob _ _ _ _ _ _ _), came.padSame⟩

/-- A request that is noted moves to the stage in which it is noted. -/
theorem moves_noted {st : MsgStage} {P : MsgDest → Prop} (hmsg : (s.job c.val).msg msg = some m) (hat : m.at_ dest = some d)
    {clock order : Nat} (hexec : exec (.requestArrive c msg dest) s =
      .next ((s.cameTo c.val m dest).noted c.val msg dest st clock order)) (hP : P (d.reached st clock order)) :
    Moves (.requestArrive c msg dest) c.val msg dest s P :=
  have frame := s.noted_frame c msg dest m st clock order
  ⟨_, _, hexec, frame.1, frame.2, destOf_noted hmsg hat _ _ _, hP⟩

/-- A request that is noted, and whose message changes in its completeness at most, moves to the stage in which it is noted. -/
theorem moves_noted_complete {st : MsgStage} {P : MsgDest → Prop} {b : Msg → Bool} (hmsg : (s.job c.val).msg msg = some m)
    (hat : m.at_ dest = some d) {clock order : Nat} (hexec : exec (.requestArrive c msg dest) s =
      .next (((s.cameTo c.val m dest).noted c.val msg dest st clock order).mapMsg c.val msg fun m => { m with complete := b m }))
    (hP : P (d.reached st clock order)) : Moves (.requestArrive c msg dest) c.val msg dest s P := by
  obtain ⟨inJob, pads⟩ := s.noted_frame c msg dest m st clock order
  obtain ⟨m', hmsg', hat'⟩ := Option.bind_eq_some_iff.1 (destOf_noted hmsg hat st clock order)
  refine ⟨_, _, hexec, InJob.trans inJob (State.mapMsg_inJob _ _ _ _), pads, destOf_eq (m := { m' with complete := b m' }) ?_ hat', hP⟩
  rw [State.mapMsg_job]
  exact Job.msg_mapMsg_same (f := fun m => { m with complete := b m }) (fun _ hm => hm) hmsg'

/-- A request that comes to its sink is offered to it, and waits there until the sink has answered. -/
theorem exec_requestArrive_comes (hmoves : (s.job c.val).moves = true) (hmsg : (s.job c.val).msg msg = some m)
    (hat : m.at_ dest = some d) (hnull : m.null = false) (hchains : m.chains = false) (hcomes : ComesTo s c.val m d) :
    ∃ t m' d', exec (.requestArrive c msg dest) s = .next (t.offer c.val msg dest) ∧ Waiting c.val msg dest m d s t m' d' := by
  rcases hcomes with hstage | ⟨hstage, hturn, hgets⟩
  · exact ⟨s, m, d, exec_requestArrive_refused hmoves hmsg hat hstage hchains, InJob.refl _ s, RecordsOnly.refl s, rfl, le_rfl,
      fun _ ho _ => ho, hmsg, rfl, rfl, rfl, hat, hstage, rfl⟩
  · have hdest := Msg.dest_of_at hat
    rw [hdest] at hturn hgets
    have hexec := exec_requestArrive hmoves hmsg hat hstage hturn hgets
    simp only [hchains, hnull, Bool.false_eq_true, if_false] at hexec
    obtain ⟨inJob, records, descs, msgs⟩ := s.cameTo_travelled c.val m dest
    refine ⟨_, _, _, hexec, InJob.trans inJob (State.noted_inJob _ _ _ _ _ _ _), records, descs, ?_, fun o ho hid => ?_,
      State.noted_msg _ _ _ _ (((s.cameTo_travelled c.val m dest).msg msg).trans hmsg), rfl, rfl, rfl,
      Msg.at_mapDest (f := MsgDest.reached .refused _ _) (fun _ => rfl) hat, rfl, rfl⟩
    · refine (State.noted_indexCount _ _ _ _ _ _ _).trans_eq ?_
      rw [Job.indexCount, msgs, Job.indexCount]
    · have before := State.noted_others ho hid
      rwa [msgs] at before

/-- Where no other request waits at a destination, none goes before this one (R180). -/
theorem Waiting.unblocked {t : State} {m' : Msg} {d' : MsgDest} (w : Waiting c.val msg dest m d s t m' d')
    (hfree : ∀ o ∈ (s.job c.val).msgs, o.id ≠ msg → ∀ d' ∈ o.dests, d'.dest = dest → d'.stage ≠ .refused) :
    (t.job c.val).blocked m' dest d'.arrivedAt = false := by
  have hid : m'.id = msg := by simpa using List.find?_some w.msg
  rw [Job.blocked, List.any_eq_false]
  intro o ho
  rw [hid]
  by_cases hother : o.id = msg
  · simp [hother]
  · have unrefused : o.dests.any (fun d => d.dest == dest && d.stage == .refused && decide (d.arrivedAt < d'.arrivedAt)) = false := by
      rw [List.any_eq_false]
      intro x hx
      by_cases hx' : x.dest = dest
      · simp [hfree o (w.others o ho hother) hother x hx hx']
      · simp [hx']
    simp only [unrefused, Bool.and_false, Bool.false_eq_true, not_false_eq_true]

/-- A sink that takes a request grants it at a line. -/
theorem Waiting.granted {t t' : State} {m' : Msg} {d' : MsgDest} (w : Waiting c.val msg dest m d s t m' d') (line : Nat)
    (h : t'.job c.val = t.job c.val) :
    destOf (t'.granted c.val m'.id dest line false) c.val msg dest =
      some { d' with stage := .granted, line := line, overflow := false } := by
  have hid : m'.id = msg := by simpa using List.find?_some w.msg
  rw [hid]
  exact destOf_granted_same line false (destOf_eq (h ▸ w.msg) w.entry)

/-- A request that its sink does not grant waits there from this Caravan cycle on (R180). -/
theorem moves_ungranted (hmoves : (s.job c.val).moves = true) (hmsg : (s.job c.val).msg msg = some m) (hat : m.at_ dest = some d)
    (hstage : d.stage = .requested) (hturn : (s.job c.val).outOfTurn m dest = false)
    (hgets : Gets s c.val m true 0 (s.pathTo m dest 0)) (hnull : m.null = false) (hchains : m.chains = false)
    (hungranted : ((s.cameTo c.val m dest).noted c.val msg dest .refused (s.job c.val).clock (s.job c.val).nextMsg).tryGrant c.val
      (m.mapDest dest (MsgDest.reached .refused (s.job c.val).clock (s.job c.val).nextMsg)) dest = none) :
    Moves (.requestArrive c msg dest) c.val msg dest s fun d' => d'.stage = .refused ∧ d'.refusedAt = (s.job c.val).clock := by
  have hexec := exec_requestArrive hmoves hmsg hat hstage hturn hgets
  simp only [hchains, hnull, Bool.false_eq_true, if_false] at hexec
  rw [State.offer_ungranted (State.noted_msg _ _ _ _ (((s.cameTo_travelled c.val m dest).msg msg).trans hmsg)) hungranted] at hexec
  exact moves_noted hmsg hat hexec ⟨rfl, rfl⟩

end
end Sys2Proof.Machine

namespace Sys2Proof
open Sys2Proof.Machine Sys2Proof.Claims

/-- Settles O19: a request of its turn is noted at its destination, and its sink grants it where nothing else waits there. -/
theorem requestsArrive : Obligations.RequestsArrive := by
  unfold Obligations.RequestsArrive
  intro s c msg dest m d hmoves hmsg hat i free
  refine ⟨fun hstage hlost => ?_, fun hstage hturn hgets => ?_, fun hnull hchains hfree hcomes => ?_⟩
  -- A request that loses a link.
  · obtain ⟨inJob, -, -, msgs⟩ := s.cameTo_travelled c.val m dest
    refine ⟨_, exec_requestArrive_lost hmoves hmsg hat hstage hlost, ?_⟩
    split
    · exact ⟨InJob.refl _ s, fun _ => ⟨rfl, rfl⟩, rfl⟩
    · exact ⟨inJob, (s.cameTo_travelled c.val m dest).padSame, msgs⟩
  -- A request that is noted, and granted by no sink.
  · have hexec := exec_requestArrive hmoves hmsg hat hstage hturn hgets
    have ungranted := moves_ungranted hmoves hmsg hat hstage hturn hgets
    obtain ⟨-, records, descs, -⟩ := s.cameTo_travelled c.val m dest
    obtain ⟨_, _, tile⟩ := records dest
    refine ⟨fun hnull hchains => ?_, fun hnull hchains => ?_, fun hnull hchains hpoint hrec hsink => ungranted hnull hchains ?_,
      fun hnull hchains hpoint hbound => ungranted hnull hchains (State.tryGrant_ostler_none hpoint ?_), fun hchains htakes => ?_,
      fun hchains htakes => ?_⟩
    · simp only [hchains, hnull, Bool.false_eq_true, if_false, if_true] at hexec
      exact moves_noted_complete hmsg hat hexec rfl
    · simp only [hchains, hnull, Bool.false_eq_true, if_false, if_true] at hexec
      refine ⟨_, hexec, fun n hn => ?_⟩
      rw [State.mapMsg_job, Job.msg_mapMsg_same (f := fun m => { m with complete := true }) (fun _ hm => hm)
        (State.noted_msg _ _ _ _ (((s.cameTo_travelled c.val m dest).msg msg).trans hmsg)), Option.some_inj] at hn
      rw [← hn]
    · exact Eq.trans (State.tryGrant_ring hpoint ((congrArg Tile.recorded tile).trans hrec))
        (State.grantRing_none ((congrArg (fun x : Tile => x.current.sink m.entry.destCh) tile).trans hsink))
    · rw [State.boundDesc, ← hbound, State.boundDesc]
      exact congrArg _ descs
    · simp only [hchains, htakes, if_true] at hexec
      exact moves_noted_complete hmsg hat hexec rfl
    · simp only [hchains, htakes, Bool.false_eq_true, if_true, if_false] at hexec
      exact moves_noted hmsg hat hexec rfl
  -- A request that its sink grants.
  · obtain ⟨t, m', d', hexec, w⟩ := exec_requestArrive_comes hmoves hmsg hat hnull hchains hcomes
    rw [State.offer_unblocked w.msg w.entry w.refused (w.unblocked hfree)] at hexec
    obtain ⟨_, _, tile⟩ := w.records dest
    have recorded := congrArg Tile.recorded tile
    rw [← w.route, ← w.lines, ← w.waybill]
    refine ⟨fun hpoint => ?_, fun hpoint hrec hmode => ?_, fun q hpoint hbound hdesc hroom => ?_,
      fun k line wrapped hpoint hrec hsink hwf hindex hplace => ?_⟩
    · rw [State.tryGrant_gate hpoint, Option.getD_some] at hexec
      exact ⟨_, _, hexec, InJob.trans w.inJob (State.mapMsg_inJob _ _ _ _), w.records.padSame, w.granted 0 rfl, rfl, w.written⟩
    · rw [State.tryGrant_unrecorded hpoint (recorded.trans hrec) hmode, Option.getD_some] at hexec
      exact ⟨_, _, hexec, InJob.trans w.inJob (State.mapMsg_inJob _ _ _ _), w.records.padSame, w.granted 0 rfl, rfl⟩
    · have bound : t.boundDesc c.val dest m'.entry.destCh = some q := by
        rw [State.boundDesc, w.descs]
        exact hbound
      have desc : t.desc q.id = some q := by
        rw [State.desc, w.descs]
        exact hdesc
      rw [State.tryGrant_ostler hpoint bound hroom, Option.getD_some] at hexec
      exact ⟨_, _, hexec, InJob.trans w.inJob (InJob.trans (State.mapDesc_inJob _ _ _ _) (State.mapMsg_inJob _ _ _ _)),
        w.records.padSame, w.granted 0 (State.mapDesc_job _ _ _ _), rfl,
        State.desc_mapDesc (f := fun d => { d with granted := d.granted + m'.lines }) (fun _ => rfl) desc⟩
    · have ring : (t.tile dest).rings.get ⟨0, 0, 0⟩ k.inCh.toNat = (s.tile dest).rings.get ⟨0, 0, 0⟩ k.inCh.toNat := by rw [tile]
      have task : (t.tile dest).task k.task.toNat = (s.tile dest).task k.task.toNat := by rw [tile]; rfl
      have pad : (t.tile dest).pad = (s.tile dest).pad := by rw [tile]
      have own := State.tile_setTile_same t dest ((t.tile dest).ringTaken c.val dest m' k line wrapped)
      rw [← pad] at hwf
      rw [← ring] at hplace ⊢
      rw [← task]
      rw [State.tryGrant_ring hpoint (recorded.trans hrec),
        State.grantRing_placed ((congrArg (fun x : Tile => x.current.sink m'.entry.destCh) tile).trans hsink)
          (w.index.trans_lt hindex) hplace, Option.getD_some] at hexec
      refine ⟨_, _, hexec, InJob.trans w.inJob (InJob.trans (State.setTile_inJob _ _ _ _) (State.mapMsg_inJob _ _ _ _)),
        w.granted _ (State.setTile_job _ _ _ _), rfl, rfl, rfl, ?_, ?_, fun u hu => ?_⟩
      · rw [State.granted, State.mapMsg_tile, own]
        exact Tile.ringTaken_waybill hwf _ _ _ _ _ _
      · rw [State.granted, State.mapMsg_tile, own]
        exact Tile.ringTaken_ring _ _ _ _ _ _ _
      · rw [PadSame, State.granted, State.mapMsg_tile, State.tile_setTile_other _ _ hu]
        exact w.records.padSame u

end Sys2Proof
end

section
/-! A message's departure (R168, R169, R172, R173, R177, R292): what it takes with it from its tile, for each way in which it departs. -/

namespace Sys2Proof.Machine
open Sys2Proof.Claims

/-! ### Departure -/

/-- A tile whose queued message has left on a channel (R177). -/
def Tile.sentOn (x : Tile) (ch : BitVec 4) (q : Queued) : Tile :=
  { x with queued := x.queued.erase q, seqs := x.seqs.set ch.toNat (x.seqs.get 0 ch.toNat + 1) }

/-- A message on a route that carries nothing (R173). -/
def SourceEntry.nullMsg (e : SourceEntry) (id u : Nat) : Msg :=
  { id := id, source := u, last := u, outCh := e.outCh, task := 0, pc := 0, addr := 0, lines := 0, handler := 0, seq := 0
    nonfinite := false, entry := e, gate := none, pred := none, own := false, dests := newDests e.dests, payload := [], null := true
    complete := false }

/-- A message on a route that carries the lines of a queued one (R168). -/
def SourceEntry.ownMsg (e : SourceEntry) (id u : Nat) (x : Tile) (fresh : Nat) (q : Queued) : Msg :=
  { e.nullMsg id u with
    task := q.task, pc := q.pc, addr := q.addr, lines := q.lines, handler := q.hid, seq := x.seqs.get 0 e.outCh.toNat
    nonfinite := x.nonfinite, own := true, payload := x.readLines fresh (x.task q.task.val) q.addr q.lines, null := false }

/-- A message on a route that carries a partial on, with nothing of its own (R172). -/
def SourceEntry.partialMsg (e : SourceEntry) (id u : Nat) (p : Msg) : Msg :=
  { e.nullMsg id u with
    lines := p.lines, handler := p.handler, seq := p.seq, last := p.last, nonfinite := p.nonfinite, pred := some p.id
    payload := List.replicate p.lines ([], false), null := false }

/-- The state with a message on its way from tile `u`, which becomes `x`; `j` is its job before, which a bad chain tells to stop. -/
def State.launched (s : State) (c u : Nat) (e : SourceEntry) (x : Tile) (j : Job) (m : Msg) (bad : Bool) : State :=
  { (s.setTile u x).setJob c { j with
      msgs := j.msgs ++ [m], nextMsg := j.nextMsg + 1
      chainDone := if e.isReduce then (u, e.outCh.toNat) :: j.chainDone else j.chainDone
      stop := j.stop || bad } with fresh := s.fresh + (s.tile u).inFlight.length }

section
variable (s : State) (c u : Nat) (e : SourceEntry)

theorem State.departWith_own (q : Queued) : s.departWith c u e (some q) none =
    s.launched c u e ((s.tile u).sentOn e.outCh q) (s.job c) (e.ownMsg (s.job c).nextMsg u (s.tile u) s.fresh q) false := rfl

theorem State.departWith_null : s.departWith c u e none none =
    s.launched c u e (s.tile u) (s.job c) (e.nullMsg (s.job c).nextMsg u) false := rfl

variable {p : Msg} (hp : p.null = false)
include hp

/-- The partial alone goes on (R172). -/
theorem State.departWith_partial : ∃ f, s.departWith c u e none (some p) =
    s.launched c u e (s.tile u) ((s.job c).mapMsg p.id f) (e.partialMsg (s.job c).nextMsg u p) false := by
  simp only [State.departWith, hp, Bool.false_eq_true, if_false]
  exact ⟨_, rfl⟩

/-- The message and the partial become one (R172). -/
theorem State.departWith_combined {q : Queued} (hlines : p.lines = q.lines) (hhandler : p.handler = q.hid) (hmode : p.entry.mode = e.mode) :
    ∃ f, s.departWith c u e (some q) (some p) = s.launched c u e ((s.tile u).sentOn e.outCh q) ((s.job c).mapMsg p.id f)
      { e.ownMsg (s.job c).nextMsg u (s.tile u) s.fresh q with
        nonfinite := (s.tile u).nonfinite || p.nonfinite, pred := some p.id } false := by
  simp only [State.departWith, hp, Bool.false_eq_true, if_false, hlines, hhandler, hmode, bne_self_eq_false, Bool.or_self]
  exact ⟨_, rfl⟩

/-- Where the two do not agree, a null message goes, and the job is to stop (R173). -/
theorem State.departWith_bad {q : Queued} (h : p.lines ≠ q.lines ∨ p.handler ≠ q.hid ∨ p.entry.mode ≠ e.mode) :
    ∃ f, s.departWith c u e (some q) (some p) = (s.launched c u e ((s.tile u).sentOn e.outCh q) ((s.job c).mapMsg p.id f)
      (e.nullMsg (s.job c).nextMsg u) true).event 0x0303 kTile c u e.outCh.toNat p.last := by
  have bad : (p.lines != q.lines || p.handler != q.hid || p.entry.mode != e.mode) = true := by
    simpa [or_assoc] using h
  simp only [State.departWith, hp, Bool.false_eq_true, if_false, bad, if_true]
  exact ⟨_, rfl⟩

end

section
variable (s : State) (c u : Nat) (e : SourceEntry) (x : Tile) (j : Job) (m : Msg) (bad : Bool)

theorem State.launched_inJob : InJob c s (s.launched c u e x j m bad) :=
  ⟨rfl, rfl, rfl, rfl, rfl, rfl, fun _ hd => State.job_setJob_other _ _ hd⟩

theorem State.launched_job : (s.launched c u e x j m bad).job c = { j with
    msgs := j.msgs ++ [m], nextMsg := j.nextMsg + 1
    chainDone := if e.isReduce then (u, e.outCh.toNat) :: j.chainDone else j.chainDone
    stop := j.stop || bad } := State.job_setJob_same _ _ _

theorem State.launched_msgs : ((s.launched c u e x j m bad).job c).msgs = j.msgs ++ [m] := by rw [State.launched_job]

theorem State.launched_last : ((s.launched c u e x j m bad).job c).msgs.getLast? = some m := by
  rw [State.launched_msgs, List.getLast?_concat]

/-- A chain entry that has sent is done for this Caravan (R172). -/
theorem State.launched_done (h : e.isReduce = true) : (u, e.outCh.toNat) ∈ ((s.launched c u e x j m bad).job c).chainDone := by
  rw [State.launched_job, if_pos h]
  exact List.mem_cons_self

theorem State.launched_tile : (s.launched c u e x j m bad).tile u = x := State.tile_setTile_same _ _ _

theorem State.launched_tile_other {v : Nat} (hv : v ≠ u) : (s.launched c u e x j m bad).tile v = s.tile v :=
  State.tile_setTile_other _ _ hv

end

/-- A message that leaves its tile's queue changes no scratchpad. -/
theorem State.launched_padSame (s : State) (c u : Nat) (e : SourceEntry) (q : Queued) (j : Job) (m : Msg) (bad : Bool) (v : Nat) :
    PadSame v s (s.launched c u e ((s.tile u).sentOn e.outCh q) j m bad) := by
  unfold PadSame
  by_cases hv : v = u
  · rw [hv, State.launched_tile]
    exact ⟨rfl, rfl⟩
  · rw [State.launched_tile_other _ _ _ _ _ _ _ _ hv]
    exact ⟨rfl, rfl⟩

/-- A message that leaves its tile unchanged leaves every tile unchanged. -/
theorem State.launched_tile_same (s : State) (c u : Nat) (e : SourceEntry) (j : Job) (m : Msg) (bad : Bool) (v : Nat) :
    (s.launched c u e (s.tile u) j m bad).tile v = s.tile v := by
  by_cases hv : v = u
  · rw [hv, State.launched_tile]
  · exact State.launched_tile_other _ _ _ _ _ _ _ _ hv

theorem newDests_dest (l : List Nat) : (newDests l).map (·.dest) = l := by
  simp [newDests, Function.comp_def]

theorem newDests_requested {l : List Nat} : ∀ d ∈ newDests l, d.stage = .requested := by
  simp [newDests]

/-- Where no Ostler line is in flight a message takes its lines as they stand (R97, R168). -/
theorem Tile.readLines_quiet {x : Tile} (h : x.inFlight = []) (fresh : Nat) (t : Task) (addr : Word) {n i : Nat} (hi : i < n) :
    (x.readLines fresh t addr n)[i]? = some (x.pad.read (t.padAddr (addr.toNat + 64 * i)) 64,
      decide (t.padAddr (addr.toNat + 64 * i) / 64 ∈ x.padPoison)) := by
  simp [Tile.readLines, Tile.seen_quiet fresh h, hi]

theorem HostOnly.inJob {s t : State} (h : HostOnly s t) (c : Nat) : InJob c s t := by
  obtain ⟨_, rfl⟩ := h
  exact InJob.refl c s

/-- ACC_SEND_OPEN is noted once, and nothing departs (R94, R292). -/
theorem State.noteSendOpen_keeps (s : State) (c u : Nat) (q : Queued) :
    InJob c s (s.noteSendOpen u q) ∧ (s.noteSendOpen u q).job c = s.job c ∧
      ((s.noteSendOpen u q).tile u).queued.length = (s.tile u).queued.length ∧ ∀ v, PadSame v s (s.noteSendOpen u q) := by
  unfold State.noteSendOpen
  dsimp only
  split
  · exact ⟨InJob.refl c s, rfl, rfl, fun _ => ⟨rfl, rfl⟩⟩
  · refine ⟨State.setTile_inJob _ _ _ _, rfl, ?_, fun v => ?_⟩
    · rw [State.tile_setTile_same]
      exact List.length_map ..
    · rw [PadSame, State.tile_setTile]
      split
      · next hv => exact hv ▸ ⟨rfl, rfl⟩
      · exact ⟨rfl, rfl⟩

/-! ### The command -/

section
variable {s : State} {u c : Nat} {ch : Fin 16} {e : SourceEntry} (hctx : s.ctxOf u = some c) (hmoves : (s.job c).moves = true)
include hctx hmoves

section
variable (hsource : (s.tile u).current.source (BitVec.ofNat 4 ch.val) = some e) (hstart : e.start.toNat ≤ (s.job c).clock)
include hsource hstart

/-- A queued message departs by itself, or waits for a region (R169, R292). -/
theorem exec_requestDepart_queued {q : Queued} (hq : (s.tile u).queued.find? (fun q => q.ch == BitVec.ofNat 4 ch.val) = some q)
    (hfree : (e.isReduce = false ∧ (s.job c).channelFree u (BitVec.ofNat 4 ch.val) = true) ∨
      (e.isReduce = true ∧ e.pred = false ∧ (u, ch.val) ∉ (s.job c).chainDone)) : exec (.requestDepart u ch) s =
      .next (if (s.tile u).readWaits q then s.noteSendOpen u q else s.departWith c u e (some q) none) := by
  show execRequestDepart u ch s = _
  rcases hfree with ⟨hreduce, hchannel⟩ | ⟨hreduce, hpred, hdone⟩
  · simp only [execRequestDepart, hctx, hmoves, hsource, hq, hreduce, hstart, hchannel, Bool.not_true, Bool.false_eq_true, if_false,
      decide_true, Bool.or_self]
    split <;> rfl
  · simp only [execRequestDepart, hctx, hmoves, hsource, hq, hreduce, hstart, hpred, hdone, Bool.not_true, Bool.false_eq_true, if_false,
      decide_true, or_self, if_true]
    split <;> rfl

/-- A chain entry without a predecessor and without a message of its own sends a null one (R173). -/
theorem exec_requestDepart_null (hq : (s.tile u).queued.find? (fun q => q.ch == BitVec.ofNat 4 ch.val) = none)
    (hreduce : e.isReduce = true) (hpred : e.pred = false) (hdone : (u, ch.val) ∉ (s.job c).chainDone) :
    exec (.requestDepart u ch) s = .next (s.departWith c u e none none) := by
  show execRequestDepart u ch s = _
  simp only [execRequestDepart, hctx, hmoves, hsource, hq, hreduce, hstart, hpred, hdone, Bool.not_true, Bool.false_eq_true, if_false,
    decide_true, or_self, if_true]

/-- A chain entry with a predecessor sends once its partial has come (R172). -/
theorem exec_requestDepart_chain {o : Option Queued} {p : Msg}
    (hq : (s.tile u).queued.find? (fun q => q.ch == BitVec.ofNat 4 ch.val) = o) (hwaits : ∀ q ∈ o, (s.tile u).readWaits q = false)
    (hreduce : e.isReduce = true) (hpred : e.pred = true) (hdone : (u, ch.val) ∉ (s.job c).chainDone)
    (hp : (s.job c).predecessor u e = some p) : exec (.requestDepart u ch) s = .next (s.departWith c u e o (some p)) := by
  show execRequestDepart u ch s = _
  cases o with
  | none =>
    simp only [execRequestDepart, hctx, hmoves, hsource, hq, hreduce, hstart, hpred, hdone, hp, Bool.not_true, Bool.false_eq_true,
      if_false, decide_true, or_self, if_true]
  | some q =>
    simp only [execRequestDepart, hctx, hmoves, hsource, hq, hreduce, hstart, hpred, hdone, hp, hwaits q rfl, Bool.not_true,
      Bool.false_eq_true, if_false, decide_true, or_self, if_true]

end

/-- A gate's delivery departs by a channel that its tile does not route (R407). -/
theorem exec_requestDepart_gate {g : GateOut} (hsource : (s.tile u).current.source (BitVec.ofNat 4 ch.val) = none)
    (hg : (s.job c).gateReady u (BitVec.ofNat 4 ch.val) = some g) :
    exec (.requestDepart u ch) s = .next (s.departGate c u g) := by
  show execRequestDepart u ch s = _
  simp only [execRequestDepart, hctx, hmoves, hsource, hg, Bool.not_true, Bool.false_eq_true, if_false]

end

end Sys2Proof.Machine

namespace Sys2Proof
open Sys2Proof.Machine Sys2Proof.Claims

/-- Settles O18: each way of departing by the message that goes and the tile that it leaves. -/
theorem requestsDepart : Obligations.RequestsDepart := by
  unfold Obligations.RequestsDepart
  intro s u ch c hctx hmoves x n
  refine ⟨fun e hsource hstart => ?_, fun g s1 l hsource hg htake => ?_⟩
  · have hch : e.outCh.toNat = ch.val := by
      have key : e.outCh = n := by simpa using List.find?_some hsource
      rw [key, BitVec.toNat_ofNat]
      exact Nat.mod_eq_of_lt ch.isLt
    refine ⟨fun q hq hfree => ?_, fun hq hreduce hpred hdone => ?_, fun p hreduce hpred hdone hp hnull => ?_⟩
    -- A queued message by itself (R168, R169), or one that waits for a region (R292).
    · have hexec := exec_requestDepart_queued hctx hmoves hsource hstart hq hfree
      refine ⟨fun hwaits => ?_, fun hwaits => ?_⟩
      · rw [if_neg (by simp [x, hwaits]), State.departWith_own] at hexec
        refine ⟨_, _, hexec, State.launched_inJob .., State.launched_msgs .., rfl, rfl, rfl, rfl, congrArg (x.seqs.get 0) hch, rfl, rfl,
          rfl, by simp [SourceEntry.ownMsg, Tile.readLines], newDests_dest _, newDests_requested,
          congrArg Tile.queued (State.launched_tile ..), fun hquiet i hi => Tile.readLines_quiet hquiet _ _ _ hi, ?_,
          fun _ => State.launched_padSame .., fun v hv => State.launched_tile_other (hv := hv) ..⟩
        rw [State.launched_tile, Tile.sentOn, hch]
        exact Tbl.get_set_same _ _ _ _
      · rw [if_pos (by simpa [x] using hwaits)] at hexec
        exact ⟨_, hexec, s.noteSendOpen_keeps c u q⟩
    -- A chain entry without a predecessor or a message (R173).
    · have hexec := exec_requestDepart_null hctx hmoves hsource hstart hq hreduce hpred hdone
      rw [State.departWith_null] at hexec
      exact ⟨_, _, hexec, State.launched_inJob .., State.launched_msgs .., rfl, rfl, rfl, hch ▸ State.launched_done (h := hreduce) ..,
        fun _ => State.launched_tile_same ..⟩
    · refine ⟨fun hq => ?_, fun q hq hwaits => ?_⟩
      -- The partial alone (R172).
      · have hexec := exec_requestDepart_chain hctx hmoves hsource hstart hq nofun hreduce hpred hdone hp
        obtain ⟨f, hdepart⟩ := s.departWith_partial c u e hnull
        rw [hdepart] at hexec
        exact ⟨_, e.partialMsg (s.job c).nextMsg u p, hexec, State.launched_inJob .., State.launched_last .., rfl, rfl, rfl, rfl, rfl,
          rfl, rfl, rfl, hch ▸ State.launched_done (h := hreduce) .., fun _ => State.launched_tile_same ..⟩
      -- The message combined with the partial (R172), or none of either where they differ (R173).
      · have hexec := exec_requestDepart_chain hctx hmoves hsource hstart hq (by rintro _ ⟨⟩; exact hwaits) hreduce hpred hdone hp
        refine ⟨fun hagree => ?_, fun hdiffer => ?_⟩
        · obtain ⟨hlines, hhandler, hmode⟩ := hagree
          obtain ⟨f, hdepart⟩ := s.departWith_combined c u e hnull hlines hhandler hmode
          rw [hdepart] at hexec
          exact ⟨_, _, hexec, State.launched_inJob .., State.launched_last .., rfl, rfl, rfl, rfl, rfl, rfl, rfl,
            congrArg Tile.queued (State.launched_tile ..), fun _ => State.launched_padSame ..⟩
        · obtain ⟨f, hdepart⟩ := s.departWith_bad c u e hnull hdiffer
          rw [hdepart] at hexec
          have told := State.event_hostOnly (s.launched c u e ((s.tile u).sentOn e.outCh q) ((s.job c).mapMsg p.id f)
            (e.nullMsg (s.job c).nextMsg u) true) 0x0303 kTile c u e.outCh.toNat p.last
          refine ⟨_, e.nullMsg (s.job c).nextMsg u, hexec, InJob.trans (State.launched_inJob ..) (told.inJob c), ?_, rfl, ?_, ?_,
            fun v => ?_⟩
          · rw [told.job, State.launched_last]
          · rw [told.job, State.launched_job, Bool.or_true]
          · rw [told.work.tile, State.launched_tile]
            rfl
          · rw [PadSame, told.work.tile]
            exact State.launched_padSame ..
  -- A gate's delivery (R407).
  · have hexec := exec_requestDepart_gate hctx hmoves hsource hg
    rw [State.departGate, htake] at hexec
    refine ⟨_, _, hexec, by rw [State.job_setJob_same], rfl, rfl, rfl, rfl, rfl, rfl, by simp, newDests_requested, ?_, rfl, rfl, rfl⟩
    rw [State.job_setJob_same]

end Sys2Proof
end

section
/-! The scatter-accumulates that wait for a region at a step's final Curfew (R108, R310): with none left the Curfew finds nothing to
open. -/

namespace Sys2Proof.Machine
open Sys2Proof.Claims

theorem Ring.nextEntry_mem {r : Ring} {order : BitVec 512 → Bool} {e : Entry} (h : r.nextEntry order = some e) : e ∈ r.entries := by
  unfold Ring.nextEntry at h
  split at h
  · cases h
  · next e' hfind =>
    split at h
    · cases h
    · cases h
      exact List.mem_of_find?_eq_some hfind

/-- With no adding descriptor left, none of a context's sources offers one. -/
theorem State.nextDescriptor_noAdds {s : State} {c : Nat} (h : NoAdds s c) {src : Source} (hsrc : src ∈ s.descSources c)
    {x : BitVec 16 × Nat × Option Nat × BitVec 512 × Bool} (hx : s.nextDescriptor src = some x) :
    (odesc x.2.2.2.1).adds = false := by
  obtain ⟨-, engine, rings⟩ := h
  cases src with
  | ring r =>
    have context : (s.ring r.val).context = c := by
      simp only [State.descSources, List.mem_append, List.mem_map, List.mem_filter, Bool.and_eq_true, beq_iff_eq, reduceCtorEq,
        and_false, exists_false, or_false, Source.ring.injEq] at hsrc
      obtain ⟨r', ⟨-, -, hc⟩, rfl⟩ := hsrc
      exact hc
    simp only [State.nextDescriptor] at hx
    split at hx
    · obtain ⟨e, he, rfl⟩ := Option.map_eq_some_iff.1 hx
      exact rings r.val context e (Ring.nextEntry_mem he)
    · cases hx
  | engine k =>
    have context : k.val = c := by
      simp only [State.descSources, List.mem_append, List.mem_map, List.mem_filter, beq_iff_eq, reduceCtorEq, and_false, exists_false,
        false_or, Source.engine.injEq] at hsrc
      obtain ⟨k', ⟨-, hc⟩, rfl⟩ := hsrc
      exact hc
    simp only [State.nextDescriptor] at hx
    split at hx
    · next e he =>
      have owner : e.1 = k := by
        have found := List.find?_some he
        simp only [Bool.and_eq_true, beq_iff_eq] at found
        exact found.1
      split at hx
      · cases hx
      · cases hx
        exact engine e (List.mem_of_find?_eq_some he) (owner ▸ context)
    · cases hx

theorem State.fetchAdd_noAdds {s : State} {c : Nat} (h : NoAdds s c) {src : Source} (hsrc : src ∈ s.descSources c) :
    s.fetchAdd src = s := by
  unfold State.fetchAdd
  split
  · next raw hnext =>
    have none_ : (odesc raw).adds = false := State.nextDescriptor_noAdds h hsrc hnext
    rw [none_, Bool.false_and, if_neg Bool.false_ne_true]
  · rfl

theorem State.waitingAdds_noAdds {s : State} {c : Nat} (h : NoAdds s c) : s.waitingAdds c = [] := by
  obtain ⟨descs, -⟩ := h
  have none_ : (s.descs.filter fun q => decide (q.ctx.val = c) && (odesc q.raw).adds && s.unopened (odesc q.raw) && q.ended.isNone &&
      q.fed && !(q.chunksLeft == 0 && q.next == (odesc q.raw).total)) = [] := by
    rw [List.filter_eq_nil_iff]
    intro q hq
    by_cases hc : q.ctx.val = c
    · simp [descs q hq hc]
    · simp [hc]
  rw [State.waitingAdds]
  dsimp only
  rw [none_]
  exact List.flatMap_eq_nil_iff.2 fun _ _ => rfl

/-- Where no descriptor adds, the step's end opens no region (R108). -/
theorem State.openRegions_noAdds {s : State} {c : Nat} (h : NoAdds s c) : s.openRegions c = s := by
  have fetched : (s.descSources c).foldl State.fetchAdd s = s :=
    List.foldlRecOn _ _ (motive := (· = s)) rfl fun t ht src hsrc => by rw [ht, State.fetchAdd_noAdds h hsrc]
  unfold State.openRegions State.applyAdds
  dsimp only
  rw [fetched, State.waitingAdds_noAdds h]

end Sys2Proof.Machine
end

section
/-! What a release takes up (R155, R157, R407, R482): its actions, gate deliveries and images leave the other jobs, and of the job that
goes on change what it is told to do next alone. -/

namespace Sys2Proof.Machine
open Sys2Proof.Claims

/-! ### A job that goes on -/

/-- From the first state to the second the other jobs stay, and a job that computes or is in its Caravan goes on: its actions, queues and
gate deliveries change at most, and whether it is told to stop. -/
def GoesOn (c : Nat) (s t : State) : Prop :=
  (∀ d, d ≠ c → t.job d = s.job d) ∧ ((s.job c).phase = .compute ∨ (s.job c).phase = .caravan →
    ∃ actions queues gates stop, t.job c = { s.job c with actions := actions, queues := queues, gateOut := gates, stop := stop })

theorem GoesOn.of_jobs {c : Nat} {s t : State} (h : t.jobs = s.jobs) : GoesOn c s t := by
  have same (d : Nat) : t.job d = s.job d := by rw [State.job, h, State.job]
  exact ⟨fun d _ => same d, fun _ => ⟨_, _, _, _, same c⟩⟩

theorem GoesOn.trans {c : Nat} {s t u : State} (h : GoesOn c s t) (k : GoesOn c t u) : GoesOn c s u := by
  obtain ⟨others, own⟩ := h
  obtain ⟨others', own'⟩ := k
  refine ⟨fun d hd => (others' d hd).trans (others d hd), fun hp => ?_⟩
  obtain ⟨_, _, _, _, h⟩ := own hp
  obtain ⟨_, _, _, _, k⟩ := own' (by rw [h]; exact hp)
  exact ⟨_, _, _, _, by rw [k, h]⟩

theorem GoesOn.setJob {c : Nat} {s : State} {j : Job} {actions : List Action} {queues : Tbl PipeQueue} {gates : List GateOut} {stop : Bool}
    (h : j = { s.job c with actions := actions, queues := queues, gateOut := gates, stop := stop }) : GoesOn c s (s.setJob c j) :=
  ⟨fun _ hd => State.job_setJob_other _ _ hd, fun _ => ⟨_, _, _, _, (State.job_setJob_same _ _ _).trans h⟩⟩

theorem State.stopAtCurfew_goesOn (s : State) (c : Nat) : GoesOn c s (s.stopAtCurfew c) := by
  refine ⟨fun d hd => (s.stopAtCurfew_stopsOnly c).others hd, fun hp => ?_⟩
  have told : s.stopAtCurfew c = s.setJob c { s.job c with stop := true } := by
    rcases hp with hp | hp
    · exact State.stopAtCurfew_compute hp
    · simp [State.stopAtCurfew, hp]
  exact ⟨_, _, _, _, by rw [told, State.job_setJob_same]⟩

/-- Work that leaves the tiles, and with which a job goes on. -/
def Issuing (c : Nat) (s t : State) : Prop := GoesOn c s t ∧ t.tiles = s.tiles

theorem Issuing.refl (c : Nat) (s : State) : Issuing c s s := ⟨.of_jobs rfl, rfl⟩

theorem Issuing.trans {c : Nat} {s t u : State} (h : Issuing c s t) (k : Issuing c t u) : Issuing c s u :=
  ⟨h.1.trans k.1, k.2.trans h.2⟩

theorem Issuing.foldl {α : Type} {c : Nat} {f : State → α → State} (h : ∀ s a, Issuing c s (f s a)) (l : List α) (s : State) :
    Issuing c s (l.foldl f s) :=
  List.foldlRecOn l f (motive := Issuing c s) (Issuing.refl c s) fun t ht a _ => ht.trans (h t a)

theorem MemoryOnly.issuing {s t : State} (c : Nat) (h : MemoryOnly s t) : Issuing c s t := by
  obtain ⟨_, _, _, _, rfl⟩ := h
  exact ⟨.of_jobs rfl, rfl⟩

theorem State.stopEvent_memoryOnly (s : State) (c : Nat) (kind : BitVec 4) (unit ref : Nat) (why : Stop) :
    MemoryOnly s (s.stopEvent c kind unit ref why) := by
  cases why with
  | page code va => exact s.event_memoryOnly _ _ _ _ _ _
  | poison addr => exact s.event_memoryOnly _ _ _ _ _ _

theorem State.stepStop_issuing (s : State) (c : Nat) (why : Stop) : Issuing c s (s.stepStop c why) := by
  have stopped : Issuing c s (s.engineStop c kStep 0 (Config.engineRef s.fresh c).toNat why) :=
    ((s.stopEvent_memoryOnly _ _ _ _ _).issuing c).trans
      ⟨State.stopAtCurfew_goesOn _ c, (State.stopAtCurfew_stopsOnly _ c).tiles⟩
  exact stopped

/-! ### The actions of a list (R410, R416, R482) -/

theorem State.readArrays_memoryOnly (s : State) (c : Nat) (l : List (Nat × Nat)) : MemoryOnly s (s.readArrays c l).1 := by
  induction l generalizing s with
  | nil => exact MemoryOnly.refl s
  | cons a t ih =>
    obtain ⟨va, n⟩ := a
    have walked := s.vdemand_memoryOnly c va n
    unfold State.readArrays
    dsimp only
    split
    · exact walked
    · have rest := ih (s.vdemand c va n)
      split
      · next h => rw [h] at rest; exact walked.trans rest
      · next h => rw [h] at rest; exact walked.trans rest

theorem State.actionsAt_memoryOnly (s : State) (c n : Nat) : MemoryOnly s (s.actionsAt c n).1 := by
  unfold State.actionsAt
  dsimp only
  split
  · exact MemoryOnly.refl s
  · split
    · exact MemoryOnly.refl s
    · next r hr hcount =>
      have read := s.readArrays_memoryOnly c [((s.job c).listActions.toNat + 32 * r.first.toNat, 32 * r.count.toNat)]
      split
      · next h => rw [h] at read; exact read
      · next h => rw [h] at read; exact read

theorem State.queueCommand_issuing (s : State) (c : Nat) (ctx : Fin 8) (a : Action) : Issuing c s (s.queueCommand c ctx a).1 := by
  have read := (s.readArrays_memoryOnly c [(a.cmdVA, 64)]).issuing c
  unfold State.queueCommand
  split
  · next h => rw [h] at read; exact read
  · next h => rw [h] at read; exact read

theorem State.queueDescs_issuing (s : State) (c : Nat) (ctx : Fin 8) (a : Action) : Issuing c s (s.queueDescs c ctx a).1 := by
  have read := (s.readArrays_memoryOnly c [(a.descVA, 64 * a.count)]).issuing c
  unfold State.queueDescs
  split
  · exact Issuing.refl c s
  · split
    · next h => rw [h] at read; exact read
    · next h => rw [h] at read; exact read

theorem State.addAction_issuing (s : State) (c : Nat) (a : Action) : Issuing c s (s.addAction c a) := ⟨.setJob rfl, rfl⟩

theorem State.setQueue_issuing (s : State) (c key : Nat) (q : PipeQueue) : Issuing c s (s.setQueue c key q) := ⟨.setJob rfl, rfl⟩

theorem State.flitOut_issuing (s : State) (c p : Nat) (class1 : Bool) (f : TxFlit) : Issuing c s (s.flitOut p class1 f) :=
  ⟨.of_jobs rfl, rfl⟩

theorem State.takeAction_issuing (s : State) (c : Nat) (ctx : Fin 8) (a : Action) : Issuing c s (s.takeAction c ctx a) := by
  unfold State.takeAction
  split
  · have queued := s.queueCommand_issuing c ctx a
    split
    · next h =>
      rw [h] at queued
      exact queued.trans (State.stepStop_issuing _ _ _)
    · next s1 h =>
      rw [h] at queued
      have added := queued.trans (s1.addAction_issuing c { a with descsLeft := a.count, cmdOpen := true })
      have descs := added.trans (State.queueDescs_issuing _ c ctx a)
      split
      · next h' => rw [h'] at descs; exact descs.trans (State.stepStop_issuing _ _ _)
      · next h' => rw [h'] at descs; exact descs
  · split
    · have descs := (s.addAction_issuing c { a with descsLeft := a.count, cmdDue := true }).trans
        (State.queueDescs_issuing _ c ctx a)
      split
      · next h' => rw [h'] at descs; exact descs.trans (State.stepStop_issuing _ _ _)
      · next h' => rw [h'] at descs; exact descs
    · exact s.addAction_issuing c a

theorem State.releaseEntries_issuing (s : State) (c : Nat) (a : Action) : Issuing c s (s.releaseEntries c a) := by
  unfold State.releaseEntries
  split
  · exact Issuing.refl c s
  · exact (s.setQueue_issuing c _ _).trans (Issuing.foldl (fun t p => t.flitOut_issuing c p _ _) _ _)

theorem State.readEntries_issuing (s : State) (c : Nat) (a : Action) : Issuing c s (s.readEntries c a) := by
  unfold State.readEntries
  split
  · exact Issuing.refl c s
  · exact s.setQueue_issuing c _ _

theorem State.runActions_issuing (s : State) (c : Nat) (ctx : Fin 8) (n : Nat) (kinds : List Nat) :
    Issuing c s (s.runActions c ctx n kinds) := by
  have read := (s.actionsAt_memoryOnly c n).issuing c
  unfold State.runActions
  split
  · next h => rw [h] at read; exact read.trans (State.stepStop_issuing _ _ _)
  · next h =>
    rw [h] at read
    refine read.trans (Issuing.foldl (fun t a => ?_) _ _)
    split
    · exact t.readEntries_issuing c a
    · exact t.releaseEntries_issuing c a
    · exact t.takeAction_issuing c ctx a

theorem State.openGates_issuing (s : State) (c n : Nat) : Issuing c s (s.openGates c n) := ⟨.setJob rfl, rfl⟩

/-! ### Images (R157, R166, R470) -/

/-- Work with which a job goes on and which loads images into its tiles' other tables at most. -/
def Imaging (c : Nat) (s t : State) : Prop :=
  GoesOn c s t ∧ ∀ u, ∃ next, t.tile u = { s.tile u with next := next } ∧ ((s.tile u).next.isSome = true → next.isSome = true)

theorem Imaging.refl (c : Nat) (s : State) : Imaging c s s := ⟨.of_jobs rfl, fun _ => ⟨_, rfl, id⟩⟩

theorem Imaging.trans {c : Nat} {s t u : State} (h : Imaging c s t) (k : Imaging c t u) : Imaging c s u := by
  obtain ⟨job, tiles⟩ := h
  obtain ⟨job', tiles'⟩ := k
  refine ⟨job.trans job', fun v => ?_⟩
  obtain ⟨_, h, loaded⟩ := tiles v
  obtain ⟨_, k, loaded'⟩ := tiles' v
  rw [h] at k loaded'
  exact ⟨_, k, loaded' ∘ loaded⟩

theorem Issuing.imaging {c : Nat} {s t : State} (h : Issuing c s t) : Imaging c s t :=
  ⟨h.1, fun u => ⟨_, congrArg (fun l : Tbl Tile => l.get Tile.reset u) h.2, id⟩⟩

theorem State.setNext_imaging (s : State) (c u : Nat) (r : RouteTable) : Imaging c s (s.setTile u { s.tile u with next := some r }) := by
  refine ⟨.of_jobs rfl, fun v => ?_⟩
  rw [State.tile_setTile]
  split
  · next hv => exact ⟨_, by rw [hv], fun _ => rfl⟩
  · exact ⟨_, rfl, id⟩

theorem State.setNext_loaded (s : State) (u : Nat) (x : Tile) (r : RouteTable) :
    ((s.setTile u { x with next := some r }).tile u).next.isSome = true := by
  rw [State.tile_setTile_same]
  rfl

/-- An image that fails leaves an empty one, and the job is to stop (R166). -/
theorem State.imageFailed_imaging {s s1 : State} {c : Nat} (h : Issuing c s s1) (u : Nat) (r : RouteTable) :
    let s2 := s1.setTile u { s.tile u with next := some r }
    Imaging c s (s2.setJob c { s2.job c with stop := true }) := by
  intro s2
  have tile : s.tile u = s1.tile u := congrArg (fun l : Tbl Tile => l.get Tile.reset u) h.2.symm
  have put : Imaging c s1 s2 := by
    rw [show s2 = s1.setTile u { s1.tile u with next := some r } by rw [← tile]]
    exact s1.setNext_imaging c u r
  have told : Issuing c s2 (s2.setJob c { s2.job c with stop := true }) := ⟨.setJob rfl, rfl⟩
  exact (h.imaging.trans put).trans told.imaging

/-- An image is loaded, or an empty one where it fails (R157, R166, R470). -/
theorem State.loadImage_imaging (s : State) (c u i : Nat) :
    Imaging c s (s.loadImage c u i) ∧ ((s.loadImage c u i).tile u).next.isSome = true := by
  unfold State.loadImage
  dsimp only
  split
  · exact ⟨s.setNext_imaging c u _, s.setNext_loaded u _ _⟩
  · split
    · next l _ =>
      have told := (s.event_memoryOnly 0x0202 kTile c u (Config.engineRef s.fresh c).toNat (64 * l)).issuing c
      exact ⟨State.imageFailed_imaging (s1 := { s.event 0x0202 kTile c u (Config.engineRef s.fresh c).toNat (64 * l) with
        fresh := s.fresh + 1 }) told u _, State.setNext_loaded _ u _ _⟩
    · split
      · exact ⟨s.setNext_imaging c u _, s.setNext_loaded u _ _⟩
      · exact ⟨State.imageFailed_imaging ((s.event_memoryOnly _ _ _ _ _ _).issuing c) u _, State.setNext_loaded _ u _ _⟩

/-- Every tile of a list has its next image. -/
theorem State.loadImages_imaging (c i : Nat) (l : List Nat) (s : State) :
    Imaging c s (l.foldl (fun s t => s.loadImage c t i) s) ∧
      ∀ u ∈ l, ((l.foldl (fun s t => s.loadImage c t i) s).tile u).next.isSome = true := by
  induction l generalizing s with
  | nil => exact ⟨Imaging.refl c s, nofun⟩
  | cons t ts ih =>
    obtain ⟨first, loaded⟩ := s.loadImage_imaging c t i
    obtain ⟨rest, others⟩ := ih (s.loadImage c t i)
    refine ⟨first.trans rest, fun u hu => ?_⟩
    rcases List.mem_cons.1 hu with rfl | hu
    · obtain ⟨_, kept⟩ := rest
      obtain ⟨_, tile, stays⟩ := kept u
      rw [List.foldl_cons, tile]
      exact stays loaded
    · exact others u hu

/-! ### The Caravan that a release begins -/

/-- The actions that a job holds on to when Caravan `n` begins (R482). -/
def Job.keptActions (j : Job) (n : Nat) : List Action :=
  j.actions.filter fun a => !a.finished || decide ((n + 1) - (n + 1) % j.len ≤ a.superstep + 1)

/-- A job that enters its Caravan (R155, R157, R194). -/
def Job.inCaravan (j : Job) : Job :=
  { j with
    phase := .caravan, curfew := BitVec.ofNat 32 (j.superstep + 1), tokens := j.tokens.filter fun t => t.2 != BitVec.ofNat 32 j.superstep
    clock := 0, frozen := if j.throttleFreeze then 32 else 0, throttleFreeze := false, thawed := j.throttleFreeze, flits := []
    measured := 0, msgs := [], chainDone := [], actions := j.keptActions j.superstep, restored := false }

theorem State.tallyAdd_job (s : State) (c cause n : Nat) : ∃ tally, (s.tallyAdd c cause n).job c = { s.job c with tally := tally } :=
  ⟨_, State.job_setJob_same _ _ _⟩

theorem State.tallyAdd_others (s : State) (c cause n : Nat) {d : Nat} (hd : d ≠ c) : (s.tallyAdd c cause n).job d = s.job d :=
  State.job_setJob_other _ _ hd

/-- The state with its job in the Caravan, before the release takes up anything. -/
def State.caravanOpened (s : State) (c : Nat) : State :=
  let s1 := s.setJob c (s.job c).inCaravan
  if (s.job c).throttleFreeze then s1.tallyAdd c 8 32 else s1

theorem State.beginCaravan_eq (s : State) (c : Nat) (ctx : Fin 8) : s.beginCaravan c ctx =
    (s.job c).cfg.tiles.foldl (fun t u => t.loadImage c u ((s.job c).imageOf ((s.job c).superstep + 1)))
      ((((s.caravanOpened c).runActions c ctx (s.job c).superstep [2, 3, 5]).runActions c ctx ((s.job c).superstep + 1) [1, 4]).openGates c
        (s.job c).superstep) := rfl

theorem State.caravanOpened_keeps (s : State) (c : Nat) :
    (∃ tally, (s.caravanOpened c).job c = { (s.job c).inCaravan with tally := tally }) ∧
      (∀ d, d ≠ c → (s.caravanOpened c).job d = s.job d) ∧ (s.caravanOpened c).tiles = s.tiles := by
  unfold State.caravanOpened
  dsimp only
  split
  · obtain ⟨tally, h⟩ := (s.setJob c (s.job c).inCaravan).tallyAdd_job c 8 32
    rw [State.job_setJob_same] at h
    exact ⟨⟨tally, h⟩, fun d hd => (State.tallyAdd_others _ _ _ _ hd).trans (State.job_setJob_other _ _ hd), rfl⟩
  · exact ⟨⟨_, State.job_setJob_same _ _ _⟩, fun d hd => State.job_setJob_other _ _ hd, rfl⟩

/-- What a release makes of a job, its tiles and the other jobs when a Caravan begins. -/
theorem State.beginCaravan_keeps (s : State) (c : Nat) (ctx : Fin 8) :
    (∃ tally actions queues gates stop, (s.beginCaravan c ctx).job c = { (s.job c).inCaravan with
      tally := tally, actions := actions, queues := queues, gateOut := gates, stop := stop }) ∧
      (∀ d, d ≠ c → (s.beginCaravan c ctx).job d = s.job d) ∧
      ∀ u ∈ (s.job c).cfg.tiles, ((s.beginCaravan c ctx).tile u).next.isSome = true ∧
        ((s.beginCaravan c ctx).tile u).current = (s.tile u).current := by
  obtain ⟨⟨tally, hopened⟩, opened, openedTiles⟩ := s.caravanOpened_keeps c
  have issued := (((s.caravanOpened c).runActions_issuing c ctx (s.job c).superstep [2, 3, 5]).trans
    (State.runActions_issuing _ c ctx ((s.job c).superstep + 1) [1, 4])).trans (State.openGates_issuing _ c (s.job c).superstep)
  obtain ⟨images, loaded⟩ := State.loadImages_imaging c ((s.job c).imageOf ((s.job c).superstep + 1)) (s.job c).cfg.tiles
    ((((s.caravanOpened c).runActions c ctx (s.job c).superstep [2, 3, 5]).runActions c ctx ((s.job c).superstep + 1) [1, 4]).openGates c
      (s.job c).superstep)
  obtain ⟨⟨others, own⟩, tiles⟩ := issued.imaging.trans images
  rw [State.beginCaravan_eq]
  refine ⟨?_, fun d hd => (others d hd).trans (opened d hd), fun u hu => ⟨loaded u hu, ?_⟩⟩
  · obtain ⟨actions, queues, gates, stop, h⟩ := own (.inr (by rw [hopened]; rfl))
    exact ⟨tally, actions, queues, gates, stop, by rw [h, hopened]⟩
  · obtain ⟨_, tile, -⟩ := tiles u
    rw [tile, State.tile, openedTiles, State.tile]

end Sys2Proof.Machine
end

section
/-! The release of a Curfew (R155, R157, R159, R447, R480): no release without every token; a job that has not begun starts its enabled
tasks, and one in its Curfew, or restored, enters its Caravan. -/

namespace Sys2Proof.Machine
open Sys2Proof.Claims

/-! ### The tasks that a job begins with (R155, R480) -/

/-- Work that leaves the control registers of every task. -/
def CtrlKept (s t : State) : Prop := ∀ u n, ((t.tile u).task n).ctrl = ((s.tile u).task n).ctrl

theorem CtrlKept.of_tiles {s t : State} (h : t.tiles = s.tiles) : CtrlKept s t := fun u n => by rw [State.tile, h, State.tile]

theorem State.setTile_ctrlKept {s : State} {u : Nat} {x : Tile} (h : ∀ n, (x.task n).ctrl = ((s.tile u).task n).ctrl) :
    CtrlKept s (s.setTile u x) := by
  intro v n
  rw [State.tile_setTile]
  split
  · next hv => rw [h, hv]
  · rfl

/-- Work with which a job goes on and which leaves the control registers of every task. -/
def Filling (c : Nat) (s t : State) : Prop := GoesOn c s t ∧ CtrlKept s t

theorem Filling.refl (c : Nat) (s : State) : Filling c s s := ⟨.of_jobs rfl, fun _ _ => rfl⟩

theorem Filling.trans {c : Nat} {s t u : State} (h : Filling c s t) (k : Filling c t u) : Filling c s u :=
  ⟨h.1.trans k.1, fun v n => (k.2 v n).trans (h.2 v n)⟩

theorem Filling.foldl {α : Type} {c : Nat} {f : State → α → State} (h : ∀ s a, Filling c s (f s a)) (l : List α) (s : State) :
    Filling c s (l.foldl f s) :=
  List.foldlRecOn l f (motive := Filling c s) (Filling.refl c s) fun t ht a _ => ht.trans (h t a)

theorem Issuing.filling {c : Nat} {s t : State} (h : Issuing c s t) : Filling c s t := ⟨h.1, .of_tiles h.2⟩

theorem State.setTile_filling {s : State} {u : Nat} {x : Tile} (c : Nat) (h : ∀ n, (x.task n).ctrl = ((s.tile u).task n).ctrl) :
    Filling c s (s.setTile u x) := ⟨.of_jobs rfl, State.setTile_ctrlKept h⟩

theorem State.fillTask_filling (s : State) (c u n : Nat) : Filling c s (s.fillTask c u n) := by
  unfold State.fillTask
  dsimp only
  split
  · exact Filling.refl c s
  · refine Filling.foldl (fun t i => ?_) _ s
    split
    · exact Filling.refl c t
    · refine ((t.vdemand_memoryOnly c (t.scaleVA c (((s.tile u).task n).slotTensors.get 0 i).toNat) 128).issuing c).filling.trans ?_
      split
      · next e _ => exact (State.stepStop_issuing _ c e).filling
      · refine State.setTile_filling c fun k => ?_
        by_cases hk : k = n
        · rw [hk, Tile.task_setTask_same]
        · rw [Tile.task_setTask_other _ _ hk]

theorem Task.ctrl_ordinalZero (tasks : Tbl Task) (n : Nat) :
    ((tasks.mapAll fun k => { k with ordinal := 0 }).get Task.reset n).ctrl = (tasks.get Task.reset n).ctrl := by
  rw [Tbl.get_mapAll Task.reset (fun k : Task => { k with ordinal := 0 }) rfl]

theorem State.fillSlots_filling (s : State) (c : Nat) : Filling c s (s.fillSlots c) := by
  refine Filling.foldl (fun t u => ?_) (s.job c).cfg.tiles s
  refine (Filling.foldl (fun t n => t.fillTask_filling c u n) (List.range 4) t).trans ?_
  exact State.setTile_filling c fun n => Task.ctrl_ordinalZero _ n

/-- A task that starts, where it is enabled, from its entry (R480). -/
def Task.started (k : Task) : Task := if k.enabled then { k with state := .running, pc := k.entry } else k

theorem Task.started_started (k : Task) : k.started.started = k.started := by
  unfold Task.started
  by_cases h : k.enabled = true
  · rw [if_pos h]
    exact if_pos h
  · rw [if_neg h, if_neg h]

/-- A tile whose enabled tasks start. -/
def Tile.started (x : Tile) : Tile := { x with tasks := x.tasks.mapAll Task.started }

theorem Tile.started_started (x : Tile) : x.started.started = x.started := by
  simp [Tile.started, Tbl.mapAll, Task.started_started]

theorem Tile.started_task (x : Tile) (n : Nat) : x.started.task n = (x.task n).started := Tbl.get_mapAll Task.reset Task.started rfl _ n

/-- A change that a second time does nothing, of each tile of a list. -/
theorem State.foldl_setTile {g : Tile → Tile} (hg : ∀ x, g (g x) = g x) (l : List Nat) (s : State) (u : Nat) :
    (l.foldl (fun s t => s.setTile t (g (s.tile t))) s).tile u = if u ∈ l then g (s.tile u) else s.tile u := by
  induction l generalizing s with
  | nil => rfl
  | cons t ts ih =>
    rw [List.foldl_cons, ih, State.tile_setTile]
    by_cases hut : u = t
    · subst hut
      simp [hg]
    · simp [hut]

theorem State.foldl_setTile_jobs (g : Tile → Tile) (l : List Nat) (s : State) :
    (l.foldl (fun s t => s.setTile t (g (s.tile t))) s).jobs = s.jobs :=
  List.foldlRecOn l _ (motive := fun t : State => t.jobs = s.jobs) rfl fun _ ht _ _ => ht

/-- The state of a job that begins, before its tasks start. -/
def State.jobOpened (s : State) (c : Nat) (ctx : Fin 8) : State :=
  ((s.setJob c { s.job c with phase := .compute, measured := 0, throttleFreeze := false }).runActions c ctx 0 [1, 4]).fillSlots c

theorem State.beginJob_eq (s : State) (c : Nat) (ctx : Fin 8) : s.beginJob c ctx =
    (s.job c).cfg.tiles.foldl (fun s t => s.setTile t (s.tile t).started) (s.jobOpened c ctx) := rfl

/-- A job begins: it computes, and its enabled tasks run from their entries. -/
theorem State.beginJob_keeps (s : State) (c : Nat) (ctx : Fin 8) :
    (∃ actions queues gates stop, (s.beginJob c ctx).job c = { s.job c with
      phase := .compute, measured := 0, throttleFreeze := false, actions := actions, queues := queues, gateOut := gates, stop := stop }) ∧
      (∀ d, d ≠ c → (s.beginJob c ctx).job d = s.job d) ∧
      ∀ u ∈ (s.job c).cfg.tiles, ∀ n, ((s.tile u).task n).enabled = true →
        (((s.beginJob c ctx).tile u).task n).state = .running ∧
          (((s.beginJob c ctx).tile u).task n).pc = ((s.tile u).task n).entry := by
  have opened (d : Nat) (hd : d ≠ c) := s.job_setJob_other { s.job c with phase := .compute, measured := 0, throttleFreeze := false } hd
  obtain ⟨⟨others, own⟩, ctrl⟩ := (State.runActions_issuing
    (s.setJob c { s.job c with phase := .compute, measured := 0, throttleFreeze := false }) c ctx 0 [1, 4]).filling.trans
    (State.fillSlots_filling _ c)
  have jobs (d : Nat) : (s.beginJob c ctx).job d = (s.jobOpened c ctx).job d := by
    rw [State.beginJob_eq, State.job, State.foldl_setTile_jobs, State.job]
  refine ⟨?_, fun d hd => (jobs d).trans ((others d hd).trans (opened d hd)), fun u hu n henabled => ?_⟩
  · obtain ⟨actions, queues, gates, stop, h⟩ := own (.inl (by rw [State.job_setJob_same]))
    exact ⟨actions, queues, gates, stop, by rw [jobs, State.jobOpened, h, State.job_setJob_same]⟩
  · have task : ((s.beginJob c ctx).tile u).task n = (((s.jobOpened c ctx).tile u).task n).started := by
      rw [State.beginJob_eq, State.foldl_setTile Tile.started_started, if_pos hu, Tile.started_task]
    have same : (((s.jobOpened c ctx).tile u).task n).ctrl = ((s.tile u).task n).ctrl := ctrl u n
    have enabled : (((s.jobOpened c ctx).tile u).task n).enabled = true := by
      rw [Task.enabled, same]
      exact henabled
    rw [task, Task.started, if_pos enabled, Task.entry, same]
    exact ⟨rfl, rfl⟩

/-! ### The command (R159, R301, R440, R447) -/

theorem exec_curfewRelease_held {s : State} {c : Fin 8} (h : (s.job c.val).held = true) : exec (.curfewRelease c) s = .next s := by
  show execCurfewRelease c s = _
  simp [execCurfewRelease, h]

theorem exec_curfewRelease_blocked {s : State} {c : Fin 8} (h : s.blocks c.val ≠ []) : exec (.curfewRelease c) s = .next s := by
  show execCurfewRelease c s = _
  simp [execCurfewRelease, h]

/-- A missing token blocks the release (R159). -/
theorem State.blocks_of_tokenMissing {s : State} {c : Nat} {p : Fin 8} {a : Nat} (hphase : (s.job c).phase = .curfew)
    (hport : (p.val, a) ∈ s.tokenPorts c) (htoken : (p, (s.job c).curfew) ∉ (s.job c).tokens) : s.blocks c ≠ [] := by
  have missing : ((s.job c).tokens.any fun t => t.1.val == p.val && t.2 == (s.job c).curfew) = false := by
    rw [List.any_eq_false]
    rintro ⟨q, n⟩ ht h
    simp only [Bool.and_eq_true, beq_iff_eq] at h
    obtain ⟨hq, hn⟩ := h
    exact htoken (Fin.ext hq ▸ hn ▸ ht)
  have block : a + 1 ∈ s.tokenBlocks c :=
    List.mem_map.2 ⟨(p.val, a), List.mem_filter.2 ⟨hport, by rw [missing]; rfl⟩, rfl⟩
  unfold State.blocks
  dsimp only
  rw [hphase]
  intro h
  simp only [List.append_eq_nil_iff] at h
  simp [h] at block

section
variable {s : State} {c : Fin 8} (hblocks : s.blocks c.val = []) (hheld : (s.job c.val).held = false)
include hblocks hheld

theorem exec_curfewRelease_loaded (hphase : (s.job c.val).phase = .loaded) : exec (.curfewRelease c) s =
    .next (if (s.job c.val).restored then (s.setJob c.val (s.job c.val).takeStep).beginCaravan c.val c
      else (s.setJob c.val (s.job c.val).takeStep).beginJob c.val c) := by
  show execCurfewRelease c s = _
  simp only [execCurfewRelease, Job.running, hphase, hheld, hblocks, Bool.not_true, Bool.false_or, ne_eq, not_true_eq_false, decide_false,
    Bool.false_eq_true, if_false]

theorem exec_curfewRelease_middle (hphase : (s.job c.val).phase = .curfew) (hfinal : (s.job c.val).isFinal = false) :
    exec (.curfewRelease c) s = .next ((s.chargeWait c.val).beginCaravan c.val c) := by
  show execCurfewRelease c s = _
  simp only [execCurfewRelease, Job.running, hphase, hheld, hblocks, hfinal, Bool.not_true, Bool.not_false, Bool.false_or, ne_eq,
    not_true_eq_false, decide_false, Bool.false_eq_true, if_false, if_true]

end

/-- The wait is charged to the Tally, and nothing else changes (R422). -/
theorem State.chargeWait_keeps (s : State) (c : Nat) :
    (∃ tally, (s.chargeWait c).job c = { s.job c with tally := tally }) ∧ ∃ jobs, s.chargeWait c = { s with jobs := jobs } ∧
      ∀ d, d ≠ c → (s.chargeWait c).job d = s.job d := by
  unfold State.chargeWait
  dsimp only
  split
  · split
    · exact ⟨State.tallyAdd_job _ _ _ _, _, rfl, fun d hd => State.tallyAdd_others _ _ _ _ hd⟩
    · exact ⟨⟨_, rfl⟩, _, rfl, fun _ _ => rfl⟩
  · exact ⟨⟨_, rfl⟩, _, rfl, fun _ _ => rfl⟩

/-- The state in which the next step's Caravan begins: the wait charged, the step in force recorded, the next one taken (R440). -/
def State.stepTaken (s : State) (c : Nat) : State :=
  let s1 := s.chargeWait c
  let s2 := match (s.job c).step with
    | some k => s1.completeStep c k
    | none => s1
  s2.setJob c (s2.job c).takeStep

theorem exec_curfewRelease_final {s : State} {c : Fin 8} (hblocks : s.blocks c.val = []) (hheld : (s.job c.val).held = false)
    (hphase : (s.job c.val).phase = .curfew) (hfinal : (s.job c.val).isFinal = true) (hadds : NoAdds s c.val) :
    exec (.curfewRelease c) s = .next ((s.stepTaken c.val).beginCaravan c.val c) := by
  obtain ⟨⟨tally, job⟩, jobs, charged, -⟩ := s.chargeWait_keeps c.val
  have adds : NoAdds (s.chargeWait c.val) c.val := by
    rw [charged]
    exact hadds
  have running : ((s.chargeWait c.val).job c.val).running = true := by
    rw [job]
    simp only [Job.running, hphase]
  show execCurfewRelease c s = _
  simp only [execCurfewRelease, State.openRegions_noAdds adds, running, if_true]
  simp only [Job.running, hphase, hheld, hblocks, hfinal, Bool.not_true, Bool.false_or, ne_eq,
    not_true_eq_false, decide_false, Bool.false_eq_true, if_false]
  rfl

/-- The next step is in force, undecided. -/
theorem State.stepTaken_keeps (s : State) (c : Nat) :
    (∃ tally, (s.stepTaken c).job c = { (s.job c).takeStep with tally := tally }) ∧
      ∀ d, d ≠ c → (s.stepTaken c).job d = s.job d := by
  obtain ⟨⟨tally, job⟩, _, _, others⟩ := s.chargeWait_keeps c
  have recorded : HostOnly (s.chargeWait c) (match (s.job c).step with
      | some k => (s.chargeWait c).completeStep c k
      | none => s.chargeWait c) := by
    split
    · exact State.complete_hostOnly _ _ _ _ _ _ _
    · exact HostOnly.refl _
  refine ⟨⟨tally, ?_⟩, fun d hd => ?_⟩
  · rw [State.stepTaken, State.job_setJob_same, recorded.job, job]
    rfl
  · rw [State.stepTaken, State.job_setJob_other _ _ hd, recorded.job, others d hd]

theorem releaseBegins : ReleaseBegins := by
  intro s c hblocks hheld
  have taken := State.job_setJob_same s c.val (s.job c.val).takeStep
  have others (d : Nat) (hd : d ≠ c.val) := s.job_setJob_other (s.job c.val).takeStep hd
  refine ⟨fun hphase hnew => ?_, fun hphase hrestored => ?_, fun hphase hfinal hadds => ?_, fun hphase hmiddle => ?_⟩
  · have hexec := exec_curfewRelease_loaded hblocks hheld hphase
    rw [hnew, if_neg Bool.false_ne_true] at hexec
    obtain ⟨⟨_, _, _, _, job⟩, jobs, tasks⟩ := (s.setJob c.val (s.job c.val).takeStep).beginJob_keeps c.val c
    rw [taken] at job tasks
    refine ⟨_, hexec, ?_, ?_, ?_, tasks, fun d hd => (jobs d hd).trans (others d hd)⟩ <;> rw [job] <;> rfl
  · have hexec := exec_curfewRelease_loaded hblocks hheld hphase
    rw [hrestored, if_pos rfl] at hexec
    obtain ⟨⟨_, _, _, _, _, job⟩, jobs, -⟩ := (s.setJob c.val (s.job c.val).takeStep).beginCaravan_keeps c.val c
    rw [taken] at job
    refine ⟨_, hexec, ?_, ?_, ?_, ?_, ?_, fun d hd => (jobs d hd).trans (others d hd)⟩ <;> rw [job] <;> rfl
  · obtain ⟨⟨_, step⟩, stays⟩ := s.stepTaken_keeps c.val
    obtain ⟨⟨_, _, _, _, _, job⟩, jobs, -⟩ := (s.stepTaken c.val).beginCaravan_keeps c.val c
    rw [step] at job
    refine ⟨_, exec_curfewRelease_final hblocks hheld hphase hfinal hadds, ?_, ?_, ?_, ?_, ?_, ?_, ?_, ?_,
      fun d hd => (jobs d hd).trans (stays d hd)⟩ <;> rw [job] <;> rfl
  · obtain ⟨⟨_, own⟩, _, charged, stays⟩ := s.chargeWait_keeps c.val
    obtain ⟨⟨_, _, _, _, _, job⟩, jobs, tiles⟩ := (s.chargeWait c.val).beginCaravan_keeps c.val c
    rw [own] at job tiles
    have tile (u : Nat) : (s.chargeWait c.val).tile u = s.tile u := by rw [charged]; rfl
    refine ⟨_, exec_curfewRelease_middle hblocks hheld hphase hmiddle, ?_, ?_, ?_, ?_, ?_, ?_, ?_, fun u hu => tile u ▸ tiles u hu,
      fun d hd => (jobs d hd).trans (stays d hd)⟩ <;> rw [job] <;> rfl

end Sys2Proof.Machine

namespace Sys2Proof
open Sys2Proof.Machine Sys2Proof.Claims

/-- Settles O17: a missing token is a condition that is not met; a release with every condition met begins the job or its Caravan. -/
theorem releases : Obligations.Releases :=
  ⟨fun _ _ _ _ hphase hport htoken => exec_curfewRelease_blocked (State.blocks_of_tokenMissing hphase hport htoken), releaseBegins⟩

end Sys2Proof
end

section
/-! The local arrival at a Curfew, its tokens and the end of its waits (R156, R159 to R161, R198, R306, R327, R364, R382, R383, R483). -/

namespace Sys2Proof.Machine
open Sys2Proof.Claims

/-! ### What a read of job memory depends on (R212, R229 to R232) -/

/-- Two states in which a context reads the same: the memory, with no storage upset, the banks out of service, and the page table's root. -/
def ReadsAlike (c : Nat) (s t : State) : Prop :=
  s.mem.errors = [] ∧ t.mem = s.mem ∧ t.health = s.health ∧ (t.job c).cfg = (s.job c).cfg

theorem State.seen_clean {s : State} (h : s.mem.errors = []) (pa n : Nat) : s.seen pa n = s := if_pos h

section
variable {c : Nat} {s t : State} (h : ReadsAlike c s t)
include h

theorem ReadsAlike.seen_mem (pa n : Nat) : (t.seen pa n).mem = (s.seen pa n).mem := by
  obtain ⟨clean, mem, -, -⟩ := h
  rw [State.seen_clean clean, State.seen_clean (mem ▸ clean), mem]

theorem ReadsAlike.rangePoison (pa n : Nat) : t.rangePoison pa n = s.rangePoison pa n := by
  rw [State.rangePoison, h.seen_mem, State.rangePoison]

theorem ReadsAlike.firstPoison (pa n : Nat) : t.firstPoison pa n = s.firstPoison pa n := by
  rw [State.firstPoison, h.seen_mem, State.firstPoison]

theorem ReadsAlike.bytes (pa n : Nat) : t.bytes pa n = s.bytes pa n := by
  rw [State.bytes, h.seen_mem, State.bytes]

theorem ReadsAlike.owns (d frame : Nat) : t.owns d frame = s.owns d frame := by
  obtain ⟨-, mem, health, -⟩ := h
  have retires : t.frameRetires frame = s.frameRetires frame := by rw [State.frameRetires, health, State.frameRetires]
  simp only [State.owns, State.ownerOf, mem, retires]

theorem ReadsAlike.walkFrom (d va : Nat) (write : Bool) (table level n : Nat) :
    t.walkFrom d va write table level n = s.walkFrom d va write table level n := by
  induction n generalizing table level with
  | zero => rfl
  | succ n ih => simp only [State.walkFrom, h.rangePoison, h.bytes, h.owns, ih]

theorem ReadsAlike.translate (va : Int) (write : Bool) : t.translate c va write = s.translate c va write := by
  have walk := h.walkFrom
  have owns := h.owns
  obtain ⟨-, -, -, cfg⟩ := h
  simp only [State.translate, cfg, owns, walk]

theorem ReadsAlike.translateRange (va n : Nat) (write : Bool) (k : Nat) (acc : List (Nat × Nat)) :
    t.translateRange c va n write k acc = s.translateRange c va n write k acc := by
  induction k generalizing va n acc with
  | zero => rfl
  | succ k ih => simp only [State.translateRange, h.translate, ih]

theorem ReadsAlike.vread (va : Int) (n : Nat) : t.vread c va n = s.vread c va n := by
  simp only [State.vread, State.pages, State.pageBytes, h.translateRange, h.bytes, h.rangePoison, h.firstPoison]

theorem ReadsAlike.vuse (va : Int) (n : Nat) : t.vuse c va n = s.vuse c va n := by
  rw [State.vuse, h.vread, State.vuse]

end

/-! ### The contract records of a superstep (R94) -/

/-- Work that leaves what every ring holds, and the context that it is bound to. -/
def EntriesKept (s t : State) : Prop := ∀ n, (t.ring n).context = (s.ring n).context ∧ (t.ring n).entries = (s.ring n).entries

theorem EntriesKept.refl (s : State) : EntriesKept s s := fun _ => ⟨rfl, rfl⟩

theorem EntriesKept.trans {s t u : State} (h : EntriesKept s t) (k : EntriesKept t u) : EntriesKept s u :=
  fun n => ⟨(k n).1.trans (h n).1, (k n).2.trans (h n).2⟩

theorem EntriesKept.of_ring {s t : State} (h : ∀ n, t.ring n = s.ring n) : EntriesKept s t := fun n => by rw [h]; exact ⟨rfl, rfl⟩

theorem State.setRing_entriesKept {s t : State} {n : Nat} {r : Ring} (h : EntriesKept s t) (hcfg : r.cfg = (s.ring n).cfg)
    (hentries : r.entries = (s.ring n).entries) : EntriesKept s (t.setRing n r) := by
  intro k
  rw [State.ring_setRing]
  split
  · next hk => exact ⟨by rw [Ring.context, hcfg, Ring.context, hk], by rw [hentries, hk]⟩
  · exact h k

theorem State.emit_entriesKept (s : State) (w : HostWrite) : EntriesKept s (s.emit w) := by
  unfold State.emit
  split <;> exact .of_ring fun _ => rfl

theorem Ring.advance_cfg (r : Ring) : r.advance.cfg = r.cfg := by
  unfold Ring.advance
  split <;> rfl

theorem Ring.advance_entries (r : Ring) : r.advance.entries = r.entries := by
  unfold Ring.advance
  split <;> rfl

theorem State.putEvent_entriesKept (s : State) (n : Nat) (e : Ev) : EntriesKept s (s.putEvent n e) := by
  have put (w : HostWrite) : EntriesKept s ((s.emit w).setRing n (s.ring n).advance) :=
    State.setRing_entriesKept (s.emit_entriesKept w) (Ring.advance_cfg _) (Ring.advance_entries _)
  unfold State.putEvent
  dsimp only
  split
  · exact (put _).trans (.of_ring fun _ => rfl)
  · exact put _

theorem State.deliver_entriesKept (s : State) (n : Nat) (e : Ev) : EntriesKept s (s.deliver n e) := by
  unfold State.deliver
  dsimp only
  split
  · exact s.putEvent_entriesKept n e
  · have counted : EntriesKept s (s.setRing n { s.ring n with lostHere := (s.ring n).lostHere + 1 }) :=
      State.setRing_entriesKept (EntriesKept.refl s) rfl rfl
    exact counted.trans (.of_ring fun _ => rfl)

theorem State.deliverDevice_entriesKept (s : State) (e : Ev) : EntriesKept s (s.deliverDevice e) := by
  unfold State.deliverDevice
  dsimp only
  split
  · exact s.deliver_entriesKept _ e
  · exact .of_ring fun _ => rfl

/-- An event takes no entry from a ring and adds none to it. -/
theorem State.raise_entriesKept (s : State) (e : Ev) : EntriesKept s (s.raise e) := by
  unfold State.raise
  dsimp only
  split
  · split
    · exact s.deliver_entriesKept _ e
    · exact s.deliverDevice_entriesKept e
  · exact s.deliverDevice_entriesKept e

theorem State.sendRecords_entriesKept (s : State) (c u : Nat) (l : List Contract) (extra : Nat) :
    EntriesKept s (s.sendRecords c u l extra) :=
  List.foldlRecOn l.zipIdx _ (motive := EntriesKept s) (EntriesKept.refl s) fun _ ht _ _ => ht.trans (State.raise_entriesKept _ _)

/-- A tile whose contract records have gone. -/
def Tile.reported (x : Tile) : Tile := { x with records := [], recordsOver := 0 }

/-- What the sending of the records of some tiles changes: the host interface but for what its rings hold, and those records. -/
def Reported (l : List Nat) (s t : State) : Prop :=
  (∃ host tiles, t = { s with host := host, tiles := tiles }) ∧ EntriesKept s t ∧
    ∀ u, t.tile u = if u ∈ l then (s.tile u).reported else s.tile u

theorem State.sendTileRecords_reported (s : State) (c u : Nat) : Reported [u] s (s.sendTileRecords c u) := by
  have host := s.sendRecords_hostOnly c u (s.tile u).records (s.tile u).recordsOver
  have tile := host.work.tile
  have entries := s.sendRecords_entriesKept c u (s.tile u).records (s.tile u).recordsOver
  refine ⟨?_, fun n => entries n, fun v => ?_⟩
  · obtain ⟨_, host⟩ := host
    exact ⟨_, _, by rw [State.sendTileRecords, host]; rfl⟩
  · rw [State.sendTileRecords, State.tile_setTile, tile, tile]
    by_cases hv : v = u
    · rw [if_pos hv, if_pos (List.mem_singleton.2 hv), hv, Tile.reported]
    · rw [if_neg hv, if_neg (mt List.mem_singleton.1 hv)]

theorem State.sendAllRecords_reported (s : State) (c : Nat) (l : List Nat) :
    Reported l s (l.foldl (fun s u => s.sendTileRecords c u) s) := by
  induction l generalizing s with
  | nil => exact ⟨⟨_, _, rfl⟩, EntriesKept.refl s, fun _ => rfl⟩
  | cons v vs ih =>
    obtain ⟨⟨_, _, first⟩, entries, tile⟩ := s.sendTileRecords_reported c v
    obtain ⟨⟨_, _, rest⟩, entries', tile'⟩ := ih (s.sendTileRecords c v)
    refine ⟨⟨_, _, by rw [List.foldl_cons, rest, first]⟩, entries.trans entries', fun u => ?_⟩
    rw [List.foldl_cons, tile', tile]
    by_cases hv : u = v
    · subst hv
      simp [Tile.reported]
    · simp [hv]

/-! ### The arrival (R156, R198, R199) -/

/-- The state of a job's tiles that have arrived: the records sent, and the local latency charged. -/
def State.arrived (s : State) (c : Nat) : State :=
  ((s.job c).cfg.tiles.foldl (fun s u => s.sendTileRecords c u) s).tallyAdd c 0 18

/-- The job in its Curfew. -/
def State.inCurfew (s : State) (c : Nat) : State :=
  s.setJob c { s.job c with phase := .curfew, waited := 0, waitCycles := 0, lastMet := none }

theorem State.arrived_job (s : State) (c : Nat) : (s.arrived c).job c =
    { s.job c with tally := (s.job c).tally.set 0 ((s.job c).tally.get 0 0 + 18) } := by
  obtain ⟨⟨_, _, sent⟩, -⟩ := s.sendAllRecords_reported c (s.job c).cfg.tiles
  rw [State.arrived, sent, State.tallyAdd, State.job_setJob_same]
  rfl

/-- What an arrival leaves. -/
theorem State.arrived_keeps (s : State) (c : Nat) :
    (∃ host tiles jobs, s.arrived c = { s with host := host, tiles := tiles, jobs := jobs }) ∧
    (∀ d, d ≠ c → (s.arrived c).job d = s.job d) ∧ EntriesKept s (s.arrived c) ∧
    ∀ u, (s.arrived c).tile u = if u ∈ (s.job c).cfg.tiles then (s.tile u).reported else s.tile u := by
  obtain ⟨⟨_, _, sent⟩, entries, tile⟩ := s.sendAllRecords_reported c (s.job c).cfg.tiles
  refine ⟨⟨_, _, _, by rw [State.arrived, sent]; rfl⟩, fun d hd => ?_, entries, tile⟩
  rw [State.arrived, State.tallyAdd_others _ _ _ _ hd, sent]
  rfl

theorem State.arrived_budget (s : State) (c : Nat) : (s.arrived c).budget c = s.budget c := by
  obtain ⟨-, -, -, tile⟩ := s.arrived_keeps c
  have current (u : Nat) : ((s.arrived c).tile u).current = (s.tile u).current := by
    rw [tile]
    split <;> rfl
  simp only [State.budget, State.arrived_job, current]

/-- A superstep within its deadline passes the check (R199). -/
theorem State.checkDeadline_met {s : State} {c : Nat}
    (h : s.budget c = 0 ∨ (s.job c).measured * 128 ≤ s.budget c * (128 + (s.job c).cfg.deadlineMargin.toNat)) :
    s.checkDeadline c = s := if_pos h

section
variable {s : State} {c : Fin 8} (hphase : (s.job c.val).phase = .compute)
  (harrived : ∀ u ∈ (s.job c.val).cfg.tiles, (s.tile u).atCurfew = true)
  (hdeadline : s.budget c.val = 0 ∨ (s.job c.val).measured * 128 ≤ s.budget c.val * (128 + (s.job c.val).cfg.deadlineMargin.toNat))
include hphase harrived hdeadline

theorem exec_localArrival : exec (.localArrivalComplete c) s =
    if ((s.arrived c.val).job c.val).stop then .next ((s.arrived c.val).stopNow c.val)
    else
      let held := ((s.arrived c.val).job c.val).held
      let t := if held then (s.arrived c.val).inCurfew c.val else ((s.arrived c.val).inCurfew c.val).sendTokens c.val
      .next (if (s.job c.val).isFinal && !held then t.finalArrival c.val else t) := by
  have all : ((s.job c.val).cfg.tiles.all fun t => (s.tile t).atCurfew) = true := List.all_eq_true.2 harrived
  have met : (((s.job c.val).cfg.tiles.foldl (fun s u => s.sendTileRecords c.val u) s).tallyAdd c.val 0 18).checkDeadline c.val =
      s.arrived c.val := State.checkDeadline_met (by rw [← State.arrived, State.arrived_budget, State.arrived_job]; exact hdeadline)
  show execLocalArrivalComplete c s = _
  unfold execLocalArrivalComplete
  dsimp only
  rw [hphase, all, if_neg (by simp), met]
  rfl

theorem exec_localArrival_stops (hstop : (s.job c.val).stop = true) :
    exec (.localArrivalComplete c) s = .next ((s.arrived c.val).stopNow c.val) := by
  have stop : ((s.arrived c.val).job c.val).stop = true := by rw [State.arrived_job]; exact hstop
  rw [exec_localArrival hphase harrived hdeadline, if_pos stop]

theorem exec_localArrival_middle (hstop : (s.job c.val).stop = false) (hfinal : (s.job c.val).isFinal = false) :
    exec (.localArrivalComplete c) s = .next (if (s.job c.val).held then (s.arrived c.val).inCurfew c.val
      else ((s.arrived c.val).inCurfew c.val).sendTokens c.val) := by
  have stop : ((s.arrived c.val).job c.val).stop = false := by rw [State.arrived_job]; exact hstop
  have held : ((s.arrived c.val).job c.val).held = (s.job c.val).held := by rw [State.arrived_job]
  rw [exec_localArrival hphase harrived hdeadline, stop, held, hfinal]
  rfl

theorem exec_localArrival_final (hstop : (s.job c.val).stop = false) (hfinal : (s.job c.val).isFinal = true)
    (hheld : (s.job c.val).held = false) :
    exec (.localArrivalComplete c) s = .next ((((s.arrived c.val).inCurfew c.val).sendTokens c.val).finalArrival c.val) := by
  have stop : ((s.arrived c.val).job c.val).stop = false := by rw [State.arrived_job]; exact hstop
  have held : ((s.arrived c.val).job c.val).held = false := by rw [State.arrived_job]; exact hheld
  rw [exec_localArrival hphase harrived hdeadline, stop, held, hfinal]
  rfl

end

theorem exec_localArrival_waits {s : State} {c : Fin 8} (h : ∃ u ∈ (s.job c.val).cfg.tiles, (s.tile u).atCurfew = false) :
    exec (.localArrivalComplete c) s = .next s := by
  obtain ⟨u, hu, hat⟩ := h
  have all : ((s.job c.val).cfg.tiles.all fun t => (s.tile t).atCurfew) = false := List.all_eq_false.2 ⟨u, hu, by simp [hat]⟩
  show execLocalArrivalComplete c s = _
  simp [execLocalArrivalComplete, all]

/-! ### The tokens that go out (R159, R382) -/

/-- A port on which a token goes out, where its partner is joined. -/
def Port.tokenSent (x : Port) (f : TxFlit) : Port := if x.joined then { x with class0 := x.class0 ++ [f] } else x

/-- A token on one port, where its partner is joined. -/
def State.sendToken (f : TxFlit) (s : State) (p : Nat × Nat) : State := if (s.port p.1).joined then s.flitOut p.1 false f else s

theorem State.sendTokens_eq (s : State) (c : Nat) : s.sendTokens c =
    (s.tokenPorts c).foldl (State.sendToken (tokenFlit ((s.job c).cfg.tag.setWidth 32) (s.job c).curfew)) s := rfl

theorem State.sendToken_port (f : TxFlit) (s : State) (p : Nat × Nat) (q : Nat) :
    (State.sendToken f s p).port q = if q = p.1 then (s.port q).tokenSent f else s.port q := by
  unfold State.sendToken Port.tokenSent
  by_cases hq : q = p.1
  · subst hq
    rw [if_pos rfl]
    split
    · rw [State.flitOut, State.port_setPort_same]
      rfl
    · rfl
  · rw [if_neg hq]
    split
    · rw [State.flitOut, State.port_setPort_other _ _ hq]
    · rfl

/-- Tokens change ports alone. -/
theorem State.sendToken_ports (f : TxFlit) (l : List (Nat × Nat)) (s : State) :
    ∃ ports, l.foldl (State.sendToken f) s = { s with ports := ports } := by
  refine List.foldlRecOn l _ (motive := fun t : State => ∃ ports, t = { s with ports := ports }) ⟨_, rfl⟩ fun t ht p _ => ?_
  obtain ⟨_, rfl⟩ := ht
  unfold State.sendToken
  split <;> exact ⟨_, rfl⟩

/-- Over ports that differ, one token goes out on each of them. -/
theorem State.sendToken_each (f : TxFlit) (l : List (Nat × Nat)) (hl : (l.map Prod.fst).Nodup) (s : State) (q : Nat) :
    (l.foldl (State.sendToken f) s).port q = if q ∈ l.map Prod.fst then (s.port q).tokenSent f else s.port q := by
  induction l generalizing s with
  | nil => rfl
  | cons p ps ih =>
    rw [List.map_cons, List.nodup_cons] at hl
    obtain ⟨new, hps⟩ := hl
    rw [List.foldl_cons, ih hps, State.sendToken_port, List.map_cons]
    by_cases hq : q = p.1
    · rw [if_neg (hq ▸ new), if_pos hq, if_pos (hq ▸ List.mem_cons_self)]
    · simp only [List.mem_cons, hq, if_false, false_or]

/-- The ports of an axis are among its two. -/
theorem State.axisPorts_half {s : State} {c a q : Nat} (h : q ∈ s.axisPorts c a) : q / 2 = a := by
  have two : q = 2 * a ∨ q = 2 * a + 1 := by
    unfold State.axisPorts at h
    dsimp only at h
    split at h
    · cases h
    · split at h
      · simpa using h
      · rcases List.mem_append.1 h with h | h
        · split at h
          · exact .inl (List.mem_singleton.1 h)
          · cases h
        · split at h
          · exact .inr (List.mem_singleton.1 h)
          · cases h
  omega

theorem State.axisPorts_nodup (s : State) (c a : Nat) : (s.axisPorts c a).Nodup := by
  unfold State.axisPorts
  dsimp only
  split
  · exact List.nodup_nil
  · split
    · simp
    · split <;> split <;> simp

/-- No port leads along two axes. -/
theorem State.tokenPorts_nodup (s : State) (c : Nat) : ((s.tokenPorts c).map Prod.fst).Nodup := by
  have ports (a : Nat) : (if (s.job c).cfg.curfewAxes.getLsbD a = true then (s.axisPorts c a).map fun p => (p, a) else []).map Prod.fst =
      if (s.job c).cfg.curfewAxes.getLsbD a = true then s.axisPorts c a else [] := by
    split
    · rw [List.map_map]
      exact List.map_id _
    · rfl
  have along (a q : Nat) (h : q ∈ if (s.job c).cfg.curfewAxes.getLsbD a = true then s.axisPorts c a else []) : q / 2 = a := by
    split at h
    · exact State.axisPorts_half h
    · cases h
  rw [State.tokenPorts, List.map_flatMap, List.nodup_flatMap]
  refine ⟨fun a _ => ?_, (List.nodup_range (n := 4)).imp fun {a b} hab => ?_⟩
  · rw [ports]
    split
    · exact s.axisPorts_nodup c a
    · exact List.nodup_nil
  · rw [Function.onFun, ports, ports]
    exact fun q ha hb => hab ((along a q ha).symm.trans (along b q hb))

/-- A token of the Curfew goes out on each of its ports whose partner is joined. -/
theorem State.sendTokens_class0 {s : State} {c : Nat} {p : Nat × Nat} (hp : p ∈ s.tokenPorts c) (hjoined : (s.port p.1).joined = true) :
    ((s.sendTokens c).port p.1).class0 =
      (s.port p.1).class0 ++ [tokenFlit ((s.job c).cfg.tag.setWidth 32) (s.job c).curfew] := by
  rw [State.sendTokens_eq, State.sendToken_each _ _ (s.tokenPorts_nodup c), if_pos (List.mem_map_of_mem hp), Port.tokenSent, if_pos hjoined]

theorem State.sendTokens_ports (s : State) (c : Nat) : ∃ ports, s.sendTokens c = { s with ports := ports } :=
  State.sendToken_ports _ _ s

/-! ### A job enters its Curfew -/

/-- A job in its Curfew, the local latency charged to cause 0 (R198, R422). -/
def Job.arrived (j : Job) : Job :=
  { j with tally := j.tally.set 0 (j.tally.get 0 0 + 18), phase := .curfew, waited := 0, waitCycles := 0, lastMet := none }

/-- What the entry into a Curfew changes: the job, the records of its tiles, the ports, and the host interface but for what its rings
hold. -/
def Entered (c : Nat) (s t : State) : Prop :=
  (∃ host tiles jobs ports, t = { s with host := host, tiles := tiles, jobs := jobs, ports := ports }) ∧
    t.job c = (s.job c).arrived ∧ (∀ d, d ≠ c → t.job d = s.job d) ∧ EntriesKept s t ∧
    ∀ u, t.tile u = if u ∈ (s.job c).cfg.tiles then (s.tile u).reported else s.tile u

theorem State.inCurfew_entered (s : State) (c : Nat) : Entered c s ((s.arrived c).inCurfew c) := by
  obtain ⟨⟨_, _, _, same⟩, others, entries, tile⟩ := s.arrived_keeps c
  refine ⟨⟨_, _, _, _, by rw [State.inCurfew, same]; rfl⟩, ?_, fun d hd => ?_, fun n => entries n, fun u => tile u⟩
  · rw [State.inCurfew, State.job_setJob_same, State.arrived_job]
    rfl
  · rw [State.inCurfew, State.job_setJob_other _ _ hd, others d hd]

theorem Entered.sendTokens {c : Nat} {s t : State} (h : Entered c s t) : Entered c s (t.sendTokens c) := by
  obtain ⟨⟨_, _, _, _, same⟩, own, others, entries, tile⟩ := h
  obtain ⟨_, sent⟩ := t.sendTokens_ports c
  rw [sent]
  exact ⟨⟨_, _, _, _, by rw [same]⟩, own, others, entries, tile⟩

theorem State.inCurfew_ports (s : State) (c : Nat) : ((s.arrived c).inCurfew c).ports = s.ports := by
  obtain ⟨⟨_, _, _, same⟩, -⟩ := s.arrived_keeps c
  rw [State.inCurfew, same]
  rfl

theorem State.inCurfew_tokenPorts (s : State) (c : Nat) : ((s.arrived c).inCurfew c).tokenPorts c = s.tokenPorts c := by
  obtain ⟨⟨_, _, _, _, same⟩, own, -⟩ := s.inCurfew_entered c
  have cfg : (((s.arrived c).inCurfew c).job c).cfg = (s.job c).cfg := by rw [own]; rfl
  have self : ((s.arrived c).inCurfew c).selfCoord = s.selfCoord := by rw [same]
  have position (a : Nat) : ((s.arrived c).inCurfew c).position c a = s.position c a := by simp only [State.position, cfg, self]
  have axisPorts (a : Nat) : ((s.arrived c).inCurfew c).axisPorts c a = s.axisPorts c a := by
    simp only [State.axisPorts, cfg, position]
  simp only [State.tokenPorts, cfg, axisPorts]

section
variable {c : Nat} {s t : State} (h : Entered c s t)
include h

theorem Entered.mem : t.mem = s.mem := by
  obtain ⟨⟨_, _, _, _, rfl⟩, -⟩ := h
  rfl

theorem Entered.noAdds (hadds : NoAdds s c) : NoAdds t c := by
  obtain ⟨dealt, engine, rings⟩ := hadds
  obtain ⟨⟨_, _, _, _, same⟩, -, -, entries, -⟩ := h
  refine ⟨?_, ?_, fun r hr e he => rings r ((entries r).1 ▸ hr) e ((entries r).2 ▸ he)⟩
  · rw [same]
    exact dealt
  · rw [same]
    exact engine

theorem Entered.records {u : Nat} (hu : u ∈ (s.job c).cfg.tiles) : (t.tile u).records = [] ∧
    { t.tile u with records := (s.tile u).records, recordsOver := (s.tile u).recordsOver } = s.tile u := by
  obtain ⟨-, -, -, -, tile⟩ := h
  rw [tile, if_pos hu]
  exact ⟨rfl, rfl⟩

theorem Entered.stepFlags : t.stepFlags c = s.stepFlags c := by
  obtain ⟨-, own, -, -, tile⟩ := h
  have nonfinite (u : Nat) : (t.tile u).nonfinite = (s.tile u).nonfinite := by
    rw [tile]
    split <;> rfl
  simp only [State.stepFlags, own, nonfinite]
  rfl

end

/-! ### Pass one at a step's end (R314, R327, R335, R341) -/

/-- The rules of a layer entry depend on nothing of the job but its coefficients. -/
theorem firstBad_rules {j k : Job} (h : k.rules = j.rules) (l : List Layer) (ids : List Nat) : firstBad k l ids = firstBad j l ids := by
  have bad (x : LF) (seen : List Nat) : x.bad k seen = x.bad j seen := by simp only [LF.bad, Job.rule, h]
  induction l generalizing ids with
  | nil => rfl
  | cons x xs ih => simp only [firstBad, bad, ih]

/-- Dealing the layers changes the micro-engines' queues alone. -/
theorem State.dealLayers_engines (s : State) (c : Nat) : ∃ engines, s.dealLayers c = { s with engines := engines } := by
  refine List.foldlRecOn (s.job c).layers _ (motive := fun t : State => ∃ engines, t = { s with engines := engines }) ⟨_, rfl⟩
    fun t ht x _ => ?_
  obtain ⟨_, rfl⟩ := ht
  exact ⟨_, rfl⟩

/-- The coefficients in force once the pending ones have come into force (R314). -/
def Job.newRules (j : Job) : Tbl Word := j.pendingRules.foldl (fun t x => t.set x.1 x.2) j.rules

/-- The valid entries of a layer table's bytes (R327). -/
def validLayers (n : Nat) (l : List Byte) : List Layer :=
  ((cutBytes 64 n l).zipIdx.map fun x => (⟨x.2, BitVec.ofNat 512 (ofBytes x.1), false, false, 0, 0, 0, 0, false⟩ : Layer)).filter
    fun x => (layerFields x.raw).valid

/-- How many of some layers are frozen (R335). -/
def frozenCount (layers : List Layer) : Nat := layers.countP fun x => (layerFields x.raw).freeze

/-- A job whose pass one has begun over a table's layers. -/
def Job.inPassOne (j : Job) (layers : List Layer) (va : Nat) : Job :=
  { j with
    rules := j.newRules, pendingRules := [], layers := layers, layerTable := va, passOneBegun := true
    frozenLayers := frozenCount layers, fellBackLayers := 0 }

theorem State.stopAtCurfew_curfew {s : State} {c : Nat} (h : (s.job c).phase = .curfew) : s.stopAtCurfew c = s.stopNow c := by
  unfold State.stopAtCurfew
  dsimp only
  rw [h]

/-- The pending coefficients have come into force (R314). -/
def State.ruled (s : State) (c : Nat) : State := s.setJob c { s.job c with rules := (s.job c).newRules, pendingRules := [] }

theorem State.ruled_job (s : State) (c : Nat) : (s.ruled c).job c = { s.job c with rules := (s.job c).newRules, pendingRules := [] } :=
  State.job_setJob_same _ _ _

/-- The frozen layers of a table counted (R335). -/
def State.countFrozen (s : State) (c n : Nat) : State :=
  { s with frozenSkips := s.frozenSkips.set c (s.frozenSkips.get 0 c + BitVec.ofNat 64 n) }

/-- Pass one has begun over the layers of a table (R335, R341). -/
def State.passOneOver (s : State) (c : Nat) (layers : List Layer) (va : Nat) : State :=
  ((s.setJob c { s.job c with
    layers := layers, layerTable := va, passOneBegun := true, frozenLayers := frozenCount layers, fellBackLayers := 0 }).countFrozen c
      (frozenCount layers)).dealLayers c

theorem State.passOneOver_keeps (s : State) (c : Nat) (layers : List Layer) (va : Nat) :
    (s.passOneOver c layers va).job c = { s.job c with
      layers := layers, layerTable := va, passOneBegun := true, frozenLayers := frozenCount layers, fellBackLayers := 0 } ∧
      (s.passOneOver c layers va).mem = s.mem := by
  obtain ⟨_, dealt⟩ := State.dealLayers_engines ((s.setJob c { s.job c with
    layers := layers, layerTable := va, passOneBegun := true, frozenLayers := frozenCount layers, fellBackLayers := 0 }).countFrozen c
      (frozenCount layers)) c
  rw [State.passOneOver, dealt]
  exact ⟨State.job_setJob_same _ _ _, rfl⟩

section
variable {s : State} {c : Nat} {k : StepCmd} {l : List Byte} (hstep : (s.job c).step = some k) (hclean : s.mem.errors = [])
  (hread : s.vuse c k.tableVA.toNat (64 * k.entries) = .ok l)
include hstep hclean hread

/-- With a table that reads whole, pass one begins, or the table is refused and the job stops. -/
theorem State.beginPassOne_read : s.beginPassOne c =
    match firstBad ((s.ruled c).job c) (validLayers k.entries l) [] with
    | some i => ((s.ruled c).event 0x000A kUpdate c 0 k.number.toNat i).stopAtCurfew c
    | none => (s.ruled c).passOneOver c (validLayers k.entries l) k.tableVA.toNat := by
  have quiet : (s.ruled c).vdemand c k.tableVA.toNat (64 * k.entries) = s.ruled c := State.vdemand_clean (s := s.ruled c) hclean _ _ _
  have alike : ReadsAlike c s (s.ruled c) := ⟨hclean, rfl, rfl, by rw [State.ruled_job]⟩
  have read := (alike.vuse k.tableVA.toNat (64 * k.entries)).trans hread
  unfold State.beginPassOne
  extract_lets j rules
  split
  · next hnone => cases hnone.symm.trans hstep
  · next cmd hcmd =>
    obtain rfl := Option.some.inj (hcmd.symm.trans hstep)
    extract_lets n va s1 j1
    have same : s1 = s.ruled c := quiet
    have job : j1 = (s.ruled c).job c := congrArg (State.job · c) same
    rw [same, job, read]
    rfl

theorem State.beginPassOne_begins (hgood : firstBad ((s.ruled c).job c) (validLayers k.entries l) [] = none) :
    (s.beginPassOne c).job c = (s.job c).inPassOne (validLayers k.entries l) k.tableVA.toNat ∧ (s.beginPassOne c).mem = s.mem := by
  rw [State.beginPassOne_read hstep hclean hread, hgood]
  obtain ⟨job, mem⟩ := (s.ruled c).passOneOver_keeps c (validLayers k.entries l) k.tableVA.toNat
  refine ⟨job.trans ?_, mem⟩
  rw [State.ruled_job]
  rfl

theorem State.beginPassOne_refused (hphase : (s.job c).phase = .curfew)
    (hbad : firstBad ((s.ruled c).job c) (validLayers k.entries l) [] ≠ none) :
    (s.beginPassOne c).mem = s.mem ∧ ((s.job c).closing = [] → ((s.beginPassOne c).job c).phase = .stopped) := by
  obtain ⟨i, hi⟩ := Option.ne_none_iff_exists'.1 hbad
  have told := (s.ruled c).event_hostOnly 0x000A kUpdate c 0 k.number.toNat i
  have job := (told.job c).trans (s.ruled_job c)
  have stops : s.beginPassOne c = ((s.ruled c).event 0x000A kUpdate c 0 k.number.toNat i).stopNow c := by
    rw [State.beginPassOne_read hstep hclean hread, hi]
    exact State.stopAtCurfew_curfew (by rw [job]; exact hphase)
  rw [stops]
  refine ⟨(State.stopNow_mem _ _).trans ?_, fun hclosing => ?_⟩
  · obtain ⟨_, told⟩ := told
    rw [told]
    rfl
  · obtain ⟨phase, -⟩ := State.stopNow_stopped (c := c) (by rw [job]; exact hclosing)
    exact phase

end

/-! ### The end of an evaluation step (R296, R306) -/

/-- A tile whose flag has been read and cleared (R296). -/
def Tile.flagCleared (x : Tile) : Tile := { x with nonfinite := false }

theorem State.clearFlags_job (s : State) (c : Nat) : (s.clearFlags c).job c = { s.job c with nonfinite := false, poisonFlag := false } := by
  have jobs := State.foldl_setTile_jobs Tile.flagCleared (s.job c).cfg.tiles
    (s.setJob c { s.job c with nonfinite := false, poisonFlag := false })
  exact (congrArg (Tbl.get Job.reset · c) jobs).trans (State.job_setJob_same _ _ _)

/-- The slots of every tensor of a job's scale table taken into it. -/
def State.slotsRead (s : State) (c : Nat) : State :=
  (List.range ((s.clearFlags c).job c).cfg.scaleEntries.toNat).foldl (fun s t => s.readSlots c t) (s.clearFlags c)

theorem State.endEvaluation_eq (s : State) (c : Nat) : s.endEvaluation c =
    if !((s.slotsRead c).job c).running then s.slotsRead c
    else (s.slotsRead c).setJob c { (s.slotsRead c).job c with
      decision := .applied, local_ := (s.stepFlags c).1, combinedPoison := (s.stepFlags c).2, kappa := one32, g := 0, layers := [] } := rfl

/-- An evaluation job's step ends with its flags kept, where the job goes on (R306). -/
theorem State.endEvaluation_ends {s : State} {c : Nat} (h : ((s.endEvaluation c).job c).phase = .curfew) :
    ((s.endEvaluation c).job c).decision = .applied ∧ ((s.endEvaluation c).job c).kappa = one32 ∧ ((s.endEvaluation c).job c).g = 0 ∧
      ((s.endEvaluation c).job c).local_ = (s.stepFlags c).1 ∧ ((s.endEvaluation c).job c).layers = [] := by
  rw [State.endEvaluation_eq] at h ⊢
  cases running : ((s.slotsRead c).job c).running with
  | false =>
    rw [running, Bool.not_false, if_pos rfl] at h
    simp only [Job.running, h, Bool.true_eq_false] at running
  | true =>
    rw [Bool.not_true, if_neg Bool.false_ne_true, State.job_setJob_same]
    exact ⟨rfl, rfl, rfl, rfl, rfl⟩

/-- With no tensor to take, the job stays in its Curfew. -/
theorem State.endEvaluation_curfew {s : State} {c : Nat} (hphase : (s.job c).phase = .curfew) (hscale : (s.job c).cfg.scaleEntries = 0) :
    ((s.endEvaluation c).job c).phase = .curfew := by
  have none_ : s.slotsRead c = s.clearFlags c := by
    rw [State.slotsRead, State.clearFlags_job]
    show (List.range (s.job c).cfg.scaleEntries.toNat).foldl _ _ = _
    rw [hscale]
    rfl
  have phase : ((s.slotsRead c).job c).phase = .curfew := by
    rw [none_, State.clearFlags_job]
    exact hphase
  rw [State.endEvaluation_eq]
  split
  · exact phase
  · rw [State.job_setJob_same]
    exact phase

/-- What the final arrival of a step begins, where no scatter-accumulate is left to apply (R306, R483). -/
theorem State.finalArrival_noAdds {s : State} {c : Nat} (hphase : (s.job c).phase = .curfew) (hadds : NoAdds s c) :
    s.finalArrival c = if (s.job c).evaluation then s.endEvaluation c else if (s.job c).passOneBegun then s else s.beginPassOne c := by
  have running : (s.job c).running = true := by simp only [Job.running, hphase]
  unfold State.finalArrival
  dsimp only
  rw [State.openRegions_noAdds hadds, running]
  rfl

/-! ### LOCAL_ARRIVAL_COMPLETE -/

section
variable {c : Nat} {s t : State} (h : Entered c s t)
include h

theorem Entered.passOne {k : StepCmd} {l : List Byte} (heval : (s.job c).evaluation = false) (hpass : (s.job c).passOneBegun = false)
    (hstep : (s.job c).step = some k) (hadds : NoAdds s c) (hclean : s.mem.errors = [])
    (hread : s.vuse c k.tableVA.toNat (64 * k.entries) = .ok l) :
    (t.finalArrival c).mem = s.mem ∧
      (firstBad { s.job c with rules := (s.job c).newRules } (validLayers k.entries l) [] = none →
        ((t.finalArrival c).job c).phase = .curfew ∧ ((t.finalArrival c).job c).passOneBegun = true ∧
          ((t.finalArrival c).job c).layerTable = k.tableVA.toNat ∧ ((t.finalArrival c).job c).rules = (s.job c).newRules ∧
          ((t.finalArrival c).job c).pendingRules = [] ∧ ((t.finalArrival c).job c).layers = validLayers k.entries l) ∧
      (firstBad { s.job c with rules := (s.job c).newRules } (validLayers k.entries l) [] ≠ none → (s.job c).closing = [] →
        ((t.finalArrival c).job c).phase = .stopped) := by
  have mem := h.mem
  have adds := h.noAdds hadds
  obtain ⟨⟨_, _, _, _, same⟩, own, -, -, -⟩ := h
  have phase : (t.job c).phase = .curfew := by rw [own, Job.arrived]
  have alike : ReadsAlike c s t := ⟨hclean, mem, by rw [same], by rw [own, Job.arrived]⟩
  have step : (t.job c).step = some k := by rw [own]; exact hstep
  have clean : t.mem.errors = [] := by rw [mem]; exact hclean
  have read := (alike.vuse k.tableVA.toNat (64 * k.entries)).trans hread
  have rules : ((t.ruled c).job c).rules = (s.job c).newRules := by rw [State.ruled_job, own]; rfl
  have bad : firstBad ((t.ruled c).job c) (validLayers k.entries l) [] =
      firstBad { s.job c with rules := (s.job c).newRules } (validLayers k.entries l) [] := firstBad_rules rules _ _
  have begins : t.finalArrival c = t.beginPassOne c := by
    rw [State.finalArrival_noAdds phase adds, own]
    show (if (s.job c).evaluation = true then _ else if (s.job c).passOneBegun = true then _ else _) = _
    rw [heval, hpass, if_neg Bool.false_ne_true, if_neg Bool.false_ne_true]
  rw [begins, ← bad]
  by_cases good : firstBad ((t.ruled c).job c) (validLayers k.entries l) [] = none
  · obtain ⟨job, kept⟩ := State.beginPassOne_begins step clean read good
    refine ⟨kept.trans mem, fun _ => ?_, fun refused => absurd good refused⟩
    rw [job, own]
    exact ⟨rfl, rfl, rfl, rfl, rfl, rfl⟩
  · obtain ⟨kept, stops⟩ := State.beginPassOne_refused step clean read phase good
    exact ⟨kept.trans mem, fun fine => absurd fine good, fun _ hclosing => stops (by rw [own]; exact hclosing)⟩

theorem Entered.evaluation (heval : (s.job c).evaluation = true) (hadds : NoAdds s c) :
    ((s.job c).cfg.scaleEntries = 0 → ((t.finalArrival c).job c).phase = .curfew) ∧
      (((t.finalArrival c).job c).phase = .curfew → ((t.finalArrival c).job c).decision = .applied ∧
        ((t.finalArrival c).job c).kappa = one32 ∧ ((t.finalArrival c).job c).g = 0 ∧
        ((t.finalArrival c).job c).local_ = (s.stepFlags c).1 ∧ ((t.finalArrival c).job c).layers = []) := by
  have adds := h.noAdds hadds
  have flags := h.stepFlags
  obtain ⟨-, own, -⟩ := h
  have phase : (t.job c).phase = .curfew := by rw [own, Job.arrived]
  have evaluation : (t.job c).evaluation = true := by rw [own]; exact heval
  rw [State.finalArrival_noAdds phase adds, evaluation, if_pos rfl, ← flags]
  exact ⟨fun hscale => State.endEvaluation_curfew phase (by rw [own]; exact hscale), State.endEvaluation_ends⟩

end

/-- A token goes out on a port of the Curfew, with the Curfew's number. -/
theorem State.inCurfew_token {s : State} {c : Nat} {p : Nat × Nat} (hp : p ∈ s.tokenPorts c) (hjoined : (s.port p.1).joined = true) :
    ((((s.arrived c).inCurfew c).sendTokens c).port p.1).class0 =
      (s.port p.1).class0 ++ [tokenFlit ((s.job c).cfg.tag.setWidth 32) (s.job c).curfew] := by
  have port : ((s.arrived c).inCurfew c).port p.1 = s.port p.1 := congrArg (Tbl.get Port.reset · p.1) (s.inCurfew_ports c)
  obtain ⟨-, job, -⟩ := s.inCurfew_entered c
  rw [State.sendTokens_class0 (by rw [State.inCurfew_tokenPorts]; exact hp) (by rw [port]; exact hjoined), port, job]
  rfl

theorem localArrival : LocalArrival := by
  intro s c hphase
  refine ⟨fun harrived hdeadline => ⟨fun hstop hfinal => ?_, fun k l hstop hfinal hheld heval hpass hstep hadds hclean hread => ?_,
    fun hstop hfinal hheld heval hadds => ?_, fun hstop hclosing => ?_⟩, exec_localArrival_waits⟩
  · -- in the middle of a step
    have entered : Entered c.val s (if (s.job c.val).held then (s.arrived c.val).inCurfew c.val
        else ((s.arrived c.val).inCurfew c.val).sendTokens c.val) := by
      split
      · exact s.inCurfew_entered c.val
      · exact (s.inCurfew_entered c.val).sendTokens
    obtain ⟨-, own, others, -, tile⟩ := id entered
    refine ⟨_, exec_localArrival_middle hphase harrived hdeadline hstop hfinal, ?_, ?_, ?_, ?_, fun k hk => ?_, entered.mem, others,
      fun u hu => entered.records hu, fun u hu => (tile u).trans (if_neg hu), fun hheld p hp hjoined => ?_, fun hheld => ?_⟩
    · rw [own, Job.arrived]
    · rw [own, Job.arrived]
    · rw [own, Job.arrived]
    · rw [own, Job.arrived, Tbl.get_set_same]
    · rw [own, Job.arrived, Tbl.get_set_other _ _ _ hk]
    · rw [hheld, if_neg Bool.false_ne_true]
      exact State.inCurfew_token hp hjoined
    · rw [hheld, if_pos rfl, State.inCurfew_ports]
  · -- pass one
    have entered := (s.inCurfew_entered c.val).sendTokens
    exact ⟨_, exec_localArrival_final hphase harrived hdeadline hstop hfinal hheld,
      entered.passOne heval hpass hstep hadds hclean hread⟩
  · -- the end of an evaluation step
    have entered := (s.inCurfew_entered c.val).sendTokens
    exact ⟨_, exec_localArrival_final hphase harrived hdeadline hstop hfinal hheld, entered.evaluation heval hadds⟩
  · -- a job that is to stop
    obtain ⟨⟨_, _, _, same⟩, -⟩ := s.arrived_keeps c.val
    obtain ⟨phase, -⟩ := State.stopNow_stopped (s := s.arrived c.val) (c := c.val) (by rw [State.arrived_job]; exact hclosing)
    obtain ⟨-, ports, -⟩ := (s.arrived c.val).stopNow_stopsOnly c.val
    refine ⟨_, exec_localArrival_stops hphase harrived hdeadline hstop, phase, ports.trans ?_, (State.stopNow_mem _ _).trans ?_⟩
    · rw [same]
    · rw [same]

/-! ### CURFEW_TOKEN (R160, R383) -/

/-- The state once a port's receive buffer has given a flit (R362). -/
def State.took (s : State) (p : Nat) (f : TxFlit) : State := s.setPort p ((s.port p).takeFlit f)

/-- What an accepted token makes of the state. -/
def State.tokenAccepted (s : State) (p : Fin 8) (tag n : Word) : State :=
  match s.ctxOfTag tag with
  | some c => if (s.job c).running then s.takeToken c p n else s
  | none =>
    { s with pendingTokens := (if 8 ≤ s.pendingTokens.length then s.pendingTokens.drop 1 else s.pendingTokens) ++ [(p, tag, n, s.tick)] }

theorem exec_curfewToken (s : State) (p : Fin 8) (tag n : Word) : exec (.curfewToken p tag n) s = .next
    (if (s.port p.val).carries && (s.port p.val).hasFlit (tokenFlit tag n) then
      (s.took p.val (tokenFlit tag n)).tokenAccepted p tag n else s) := rfl

theorem exec_curfewToken_none {s : State} {p : Fin 8} {tag n : Word}
    (h : (s.port p.val).carries = false ∨ (s.port p.val).hasFlit (tokenFlit tag n) = false) :
    exec (.curfewToken p tag n) s = .next s := by
  rw [exec_curfewToken, if_neg]
  rcases h with h | h <;> simp [h]

theorem exec_curfewToken_accepted {s : State} {p : Fin 8} {tag n : Word} (hcarries : (s.port p.val).carries = true)
    (hflit : (s.port p.val).hasFlit (tokenFlit tag n) = true) : exec (.curfewToken p tag n) s =
      .next ((s.took p.val (tokenFlit tag n)).tokenAccepted p tag n) := by
  rw [exec_curfewToken, hcarries, hflit]
  rfl

theorem State.tokenAccepted_running {s : State} {c : Nat} {tag : Word} (hctx : s.ctxOfTag tag = some c)
    (hrunning : (s.job c).running = true) (p : Fin 8) (n : Word) : s.tokenAccepted p tag n = s.takeToken c p n := by
  rw [State.tokenAccepted, hctx]
  exact if_pos hrunning

theorem State.tokenAccepted_ended {s : State} {c : Nat} {tag : Word} (hctx : s.ctxOfTag tag = some c)
    (hrunning : (s.job c).running = false) (p : Fin 8) (n : Word) : s.tokenAccepted p tag n = s := by
  rw [State.tokenAccepted, hctx]
  exact if_neg (by rw [hrunning]; exact Bool.false_ne_true)

theorem State.tokenAccepted_unknown {s : State} {tag : Word} (hctx : s.ctxOfTag tag = none) (p : Fin 8) (n : Word) :
    s.tokenAccepted p tag n = { s with
      pendingTokens := (if 8 ≤ s.pendingTokens.length then s.pendingTokens.drop 1 else s.pendingTokens) ++ [(p, tag, n, s.tick)] } := by
  rw [State.tokenAccepted, hctx]

/-- A token of the job's Curfew, or of the next, is noted once (R160). -/
theorem State.takeToken_noted {s : State} {c : Nat} {n : Word} (h : n = (s.job c).curfew ∨ n = (s.job c).curfew + 1) (p : Fin 8) :
    s.takeToken c p n = s.setJob c { s.job c with
      tokens := if (p, n) ∈ (s.job c).tokens then (s.job c).tokens else (s.job c).tokens ++ [(p, n)] } := if_pos h

/-- A token of another number stops a job that computes at its next Curfew (R160, R603). -/
theorem State.takeToken_mismatch {s : State} {c : Nat} {n : Word} (hphase : (s.job c).phase = .compute) (hn : n ≠ (s.job c).curfew)
    (hn1 : n ≠ (s.job c).curfew + 1) (p : Fin 8) : (s.takeToken c p n).job c = { s.job c with stop := true } ∧
      ∀ d, d ≠ c → (s.takeToken c p n).job d = s.job d := by
  have told := s.event_hostOnly 0x0301 kStep c 0 (s.job c).curfew.toNat n.toNat
  have stops : s.takeToken c p n = (s.event 0x0301 kStep c 0 (s.job c).curfew.toNat n.toNat).stopAtCurfew c :=
    if_neg (not_or.2 ⟨hn, hn1⟩)
  rw [stops, State.stopAtCurfew_compute (by rw [told.job]; exact hphase)]
  exact ⟨by rw [State.job_setJob_same, told.job], fun d hd => by rw [State.job_setJob_other _ _ hd, told.job]⟩

theorem mem_ite_append_singleton {α : Type} (l : List α) (a x : α) [Decidable (a ∈ l)] :
    x ∈ (if a ∈ l then l else l ++ [a]) ↔ x = a ∨ x ∈ l := by
  split
  · next ha => exact ⟨.inr, fun h => h.elim (fun hx => hx ▸ ha) id⟩
  · rw [List.mem_append, List.mem_singleton, or_comm]

/-- The table of held tokens stays within its eight (R383). -/
theorem length_held_tokens {α : Type} {l : List α} (h : l.length ≤ 8) (x : α) :
    ((if 8 ≤ l.length then l.drop 1 else l) ++ [x]).length ≤ 8 := by
  rw [List.length_append, List.length_singleton]
  split
  · rw [List.length_drop]
    omega
  · omega

theorem tokensAreNoted : TokensAreNoted := by
  intro s p tag n
  refine ⟨fun hcarries hflit => ?_, exec_curfewToken_none⟩
  have hexec := exec_curfewToken_accepted hcarries hflit
  refine ⟨fun c hctx hrunning hn => ?_, fun c hctx hphase hn hn1 => ?_, fun c hctx hrunning => ?_, fun hctx hroom => ?_⟩
  · rw [State.tokenAccepted_running (s := s.took p.val (tokenFlit tag n)) hctx hrunning,
      State.takeToken_noted (s := s.took p.val (tokenFlit tag n)) hn] at hexec
    refine ⟨_, hexec, rfl, State.port_setPort_same _ _ _, fun q hq => State.port_setPort_other _ _ hq,
      fun d hd => State.job_setJob_other _ _ hd, fun y => ?_, ?_⟩
    · rw [State.job_setJob_same]
      exact mem_ite_append_singleton _ _ _
    · rw [State.job_setJob_same]
      rfl
  · have running : (s.job c).running = true := by simp only [Job.running, hphase]
    rw [State.tokenAccepted_running (s := s.took p.val (tokenFlit tag n)) hctx running] at hexec
    obtain ⟨job, others⟩ := State.takeToken_mismatch (s := s.took p.val (tokenFlit tag n)) hphase hn hn1 p
    exact ⟨_, hexec, job, others⟩
  · rw [State.tokenAccepted_ended (s := s.took p.val (tokenFlit tag n)) hctx hrunning] at hexec
    exact hexec
  · rw [State.tokenAccepted_unknown (s := s.took p.val (tokenFlit tag n)) hctx] at hexec
    refine ⟨_, hexec, rfl, State.port_setPort_same _ _ _, List.mem_append_right _ (List.mem_singleton_self _), ?_⟩
    exact length_held_tokens hroom _

/-! ### The end of a wait (R161, R383) -/

/-- A job that has no token from a partner of its Curfew waits for it. -/
theorem State.awaits_of_missing {s : State} {c : Nat} {p : Fin 8} (hphase : (s.job c).phase = .curfew) (hheld : (s.job c).held = false)
    (hport : ∃ x ∈ s.tokenPorts c, x.1 = p.val) (hmissing : (p, (s.job c).curfew) ∉ (s.job c).tokens) : s.awaits c p.val = true := by
  have port : (s.tokenPorts c).any (fun q => q.1 == p.val) = true := by simpa using hport
  have missing : ((s.job c).tokens.all fun t => t.1.val != p.val || t.2 != (s.job c).curfew) = true := by
    rw [List.all_eq_true]
    rintro ⟨q, m⟩ hq
    by_contra hsame
    simp only [Bool.or_eq_true, bne_iff_ne, ne_eq, not_or, not_not] at hsame
    obtain ⟨hp, hm⟩ := hsame
    exact hmissing (Fin.ext hp ▸ hm ▸ hq)
  simp only [State.awaits, hphase, hheld, port, missing]
  rfl

/-- The wait for a partner that is lost ends with the job held. -/
theorem State.partnerLost_keeps (s : State) (c p : Nat) : { s.partnerLost c p with jobs := s.jobs, host := s.host } = s ∧
    (∀ d, d ≠ c → (s.partnerLost c p).job d = s.job d) ∧ (s.partnerLost c p).job c = { s.job c with held := true } := by
  have told := s.event_hostOnly 0x0801 kStep c 0 (s.job c).curfew.toNat p
  refine ⟨?_, fun d hd => ?_, ?_⟩
  · obtain ⟨_, told⟩ := told
    rw [State.partnerLost, told]
    rfl
  · rw [State.partnerLost, State.holdJob, State.job_setJob_other _ _ hd, told.job]
  · rw [State.partnerLost, State.holdJob, State.job_setJob_same, told.job]

theorem exec_curfewTimeout_lost {s : State} {c p : Fin 8} (hawaits : s.awaits c.val p.val = true)
    (hlost : (s.port p.val).joined = false ∨ (s.job c.val).cfg.timeoutTicks ≤ (s.job c.val).waited) :
    exec (.curfewTimeout c p) s = .next (s.partnerLost c.val p.val) := by
  have ended : ((s.port p.val).joined && decide ((s.job c.val).waited < (s.job c.val).cfg.timeoutTicks)) = false := by
    rcases hlost with h | h
    · rw [h, Bool.false_and]
    · rw [decide_eq_false (Nat.not_lt.2 h), Bool.and_false]
  show execCurfewTimeout c p s = _
  unfold execCurfewTimeout
  dsimp only
  rw [hawaits, ended]
  rfl

/-- A token is held for 1 s: 1,600,000,000 ticks (R383). -/
theorem second_ticks : minuteTicks / 60 = 1600000000 := by decide

theorem exec_curfewTagUnknown_held {s : State} {n : Nat} {e : Fin 8 × Word × Word × Nat} (he : s.pendingTokens[n]? = some e)
    (ht : s.tick < e.2.2.2 + 1600000000) : exec (.curfewTagUnknown n) s = .next s := by
  show execCurfewTagUnknown n s = _
  unfold execCurfewTagUnknown
  rw [he, second_ticks]
  exact if_pos ht

theorem exec_curfewTagUnknown_due {s : State} {n : Nat} {e : Fin 8 × Word × Word × Nat} (he : s.pendingTokens[n]? = some e)
    (ht : e.2.2.2 + 1600000000 ≤ s.tick) : exec (.curfewTagUnknown n) s =
      .next ({ s with pendingTokens := s.pendingTokens.eraseIdx n }.event 0x0607 kPort 0xF e.1.val e.1.val e.2.1.toNat) := by
  show execCurfewTagUnknown n s = _
  unfold execCurfewTagUnknown
  rw [he, second_ticks]
  exact if_neg (Nat.not_lt.2 ht)

theorem curfewWaitsEnd : CurfewWaitsEnd := by
  refine ⟨fun s c p hphase hheld hport hmissing hlost => ?_, fun _ _ => exec_curfewRelease_held, fun s n e he ht => ?_,
    fun _ _ _ => exec_curfewTagUnknown_held⟩
  · exact ⟨_, exec_curfewTimeout_lost (State.awaits_of_missing hphase hheld hport hmissing) hlost, s.partnerLost_keeps c.val p.val⟩
  · obtain ⟨_, told⟩ := { s with pendingTokens := s.pendingTokens.eraseIdx n }.event_hostOnly
      0x0607 kPort 0xF e.1.val e.1.val e.2.1.toNat
    refine ⟨_, exec_curfewTagUnknown_due he ht, ?_, ?_⟩
    · rw [told]
    · rw [told]

end Sys2Proof.Machine

namespace Sys2Proof
open Sys2Proof.Machine Sys2Proof.Claims

/-- Settles O16: what each arrival enters, by the phase that the job is in and what its step ends with; what each token is to the job
that its tag names; and the two waits that end. -/
theorem curfewArrivals : Obligations.CurfewArrivals := ⟨localArrival, tokensAreNoted, curfewWaitsEnd⟩

end Sys2Proof
end

section
/-! Frames change hands (R226 to R228): what FRAME_ASSIGN and FRAME_RELEASE make of the frame table, and what zeroing a frame makes of
memory and of the copies that lay in it. -/

namespace Sys2Proof.Machine
open Sys2Proof.Claims

/-! ### The controllers without a symbol in error (R212, R233) -/

theorem State.readLine_clean {s : State} (h : s.mem.errors = []) (line : Nat) :
    s.readLine line = (s, s.lineData line, s.linePoison line) := by
  unfold State.readLine
  rw [h]
  exact if_pos rfl

theorem State.applyInjection_elsewhere {s : State} {line : Nat}
    (h : s.mem.inject.getLsbD 63 = false ∨ (s.mem.inject.extractLsb' 6 34).toNat ≠ line) : s.applyInjection line = s := by
  refine if_neg fun ⟨armed, here⟩ => ?_
  rcases h with h | h
  · rw [h] at armed
    cases armed
  · exact h here

/-! ### The frame table (R226, R227) -/

/-- The state with another frame table. -/
def State.withOwners (s : State) (owner : Tbl Byte) : State := { s with mem := { s.mem with owner := owner } }

theorem State.setOwner_clean {s : State} (he : s.mem.errors = []) (hi : s.mem.inject.getLsbD 63 = false) (frame : Nat) (b : Byte) :
    s.setOwner frame b = s.withOwners (s.mem.owner.set frame b) := by
  rw [State.setOwner, State.readLine_clean he]
  exact State.applyInjection_elsewhere (.inl hi)

theorem State.setOwners_clean {s : State} (he : s.mem.errors = []) (hi : s.mem.inject.getLsbD 63 = false) (first : Nat) (b : Byte)
    (l : List Nat) : l.foldl (fun s i => s.setOwner (first + i) b) s =
      s.withOwners (l.foldl (fun t i => t.set (first + i) b) s.mem.owner) := by
  induction l generalizing s with
  | nil => rfl
  | cons i l ih =>
    rw [List.foldl_cons, List.foldl_cons, State.setOwner_clean he hi]
    exact ih (s := s.withOwners (s.mem.owner.set (first + i) b)) he hi

/-- Entries written one after another with one value. -/
theorem Tbl.get_setAll {α : Type} (d v : α) (g : Nat → Nat) (l : List Nat) (t : Tbl α) (k : Nat) :
    Tbl.get d (l.foldl (fun t i => t.set (g i) v) t) k = if k ∈ l.map g then v else Tbl.get d t k := by
  induction l generalizing t with
  | nil => rfl
  | cons i l ih =>
    rw [List.foldl_cons, ih, Tbl.get_set]
    by_cases h : k = g i <;> simp [h]

theorem mem_map_range_add {first n f : Nat} : f ∈ (List.range n).map (first + ·) ↔ first ≤ f ∧ f < first + n := by
  rw [List.mem_map]
  constructor
  · rintro ⟨i, hi, rfl⟩
    have := List.mem_range.1 hi
    omega
  · intro ⟨hlo, hhi⟩
    exact ⟨f - first, List.mem_range.2 (by omega), by omega⟩

theorem all_range_add {p : Nat → Bool} {first n : Nat} :
    ((List.range n).all fun i => p (first + i)) = true ↔ ∀ f, first ≤ f → f < first + n → p f = true := by
  have : ((List.range n).all fun i => p (first + i)) = ((List.range n).map (first + ·)).all p := by rw [List.all_map]; rfl
  rw [this, List.all_eq_true]
  simp only [mem_map_range_add, and_imp]

/-! ### The two commands of the host -/

section
variable {s : State} {ring : Fin 64} {e : Entry} (hheader : headerFault (s.ring ring.val) e.raw 8 = none)
  (hcount : 0 < bodyAt e.raw 4 4) (hroom : bodyAt e.raw 0 4 + bodyAt e.raw 4 4 ≤ 2 ^ 24)
include hheader hcount hroom

theorem exec_frameAssign_checked (he : s.entryOf ring.val 0x10 = some e) : exec (.frameAssign ring) s =
    if ((List.range (bodyAt e.raw 4 4)).all fun i => s.ownerOf (bodyAt e.raw 0 4 + i) == 0xF &&
        (s.stack (stackOfPA ((bodyAt e.raw 0 4 + i) * 65536))).trained) = true
    then .next (((List.range (bodyAt e.raw 4 4)).foldl
      (fun s i => s.setOwner (bodyAt e.raw 0 4 + i) (BitVec.ofNat 8 (headerCtx e.raw))) s).complete ring.val e.index 0 0 0 0)
    else .next (s.complete ring.val e.index 2 0 0 0) := by
  change execFrameAssign ring s = _
  unfold execFrameAssign
  simp only [he, hheader, frameRange, hroom, true_and]
  exact if_neg (by omega)

theorem exec_frameRelease_checked (he : s.entryOf ring.val 0x11 = some e) : exec (.frameRelease ring) s =
    if ((List.range (bodyAt e.raw 4 4)).all fun i => s.owns (headerCtx e.raw) (bodyAt e.raw 0 4 + i)) = true
    then
      let marked := ((List.range (bodyAt e.raw 4 4)).foldl
        (fun s i => s.setOwner (bodyAt e.raw 0 4 + i) (0x80 ||| BitVec.ofNat 8 (headerCtx e.raw))) s).startEntry ring.val e.index
      .next { marked with mem := { marked.mem with releases := marked.mem.releases ++
        [⟨ring, e.index, ⟨headerCtx e.raw % 8, Nat.mod_lt _ (by decide)⟩,
          (List.range (bodyAt e.raw 4 4)).map (bodyAt e.raw 0 4 + ·)⟩] } }
    else .next (s.complete ring.val e.index 2 0 0 0) := by
  change execFrameRelease ring s = _
  unfold execFrameRelease
  simp only [he, hheader, frameRange, hroom, true_and]
  exact if_neg (by omega)
end

theorem framesAssigned {s : State} {ring : Fin 64} {e : Entry} (hheader : headerFault (s.ring ring.val) e.raw 8 = none)
    (hcount : 0 < bodyAt e.raw 4 4) (hroom : bodyAt e.raw 0 4 + bodyAt e.raw 4 4 ≤ 2 ^ 24) (hclean : s.mem.errors = [])
    (hidle : s.mem.inject.getLsbD 63 = false) (he : s.entryOf ring.val 0x10 = some e)
    (hfree : ∀ f, bodyAt e.raw 0 4 ≤ f → f < bodyAt e.raw 0 4 + bodyAt e.raw 4 4 →
      s.ownerOf f = 0xF ∧ (s.stack (stackOfPA (f * 65536))).trained = true) :
    ∃ t u, exec (.frameAssign ring) s = .next t ∧ Ends ring e 0 u t ∧ { u with mem := { u.mem with owner := s.mem.owner } } = s ∧
      ∀ f, u.mem.owner.get 0xF f = if bodyAt e.raw 0 4 ≤ f ∧ f < bodyAt e.raw 0 4 + bodyAt e.raw 4 4
        then BitVec.ofNat 8 (headerCtx e.raw) else s.mem.owner.get 0xF f := by
  have free : ((List.range (bodyAt e.raw 4 4)).all fun i => s.ownerOf (bodyAt e.raw 0 4 + i) == 0xF &&
      (s.stack (stackOfPA ((bodyAt e.raw 0 4 + i) * 65536))).trained) = true :=
    (all_range_add (p := fun f => s.ownerOf f == 0xF && (s.stack (stackOfPA (f * 65536))).trained)).2
      fun f hlo hhi => by simpa using hfree f hlo hhi
  rw [exec_frameAssign_checked hheader hcount hroom he, if_pos free, State.setOwners_clean hclean hidle]
  refine ⟨_, _, rfl, ⟨0, 0, 0, rfl⟩, rfl, fun f => ?_⟩
  exact (Tbl.get_setAll _ _ _ _ _ _).trans (if_congr mem_map_range_add rfl rfl)

theorem framesHeld {s : State} {ring : Fin 64} {e : Entry} (hheader : headerFault (s.ring ring.val) e.raw 8 = none)
    (hcount : 0 < bodyAt e.raw 4 4) (hroom : bodyAt e.raw 0 4 + bodyAt e.raw 4 4 ≤ 2 ^ 24) (he : s.entryOf ring.val 0x10 = some e)
    (htaken : ∃ f, bodyAt e.raw 0 4 ≤ f ∧ f < bodyAt e.raw 0 4 + bodyAt e.raw 4 4 ∧ s.ownerOf f ≠ 0xF) :
    ∃ t, exec (.frameAssign ring) s = .next t ∧ Ends ring e 2 s t := by
  rw [exec_frameAssign_checked hheader hcount hroom he, if_neg]
  · exact ⟨_, rfl, 0, 0, 0, rfl⟩
  · intro free
    obtain ⟨f, hlo, hhi, howned⟩ := htaken
    have := (all_range_add (p := fun f => s.ownerOf f == 0xF && (s.stack (stackOfPA (f * 65536))).trained)).1 free f hlo hhi
    rw [Bool.and_eq_true, beq_iff_eq] at this
    exact howned this.1

theorem framesReleased {s : State} {ring : Fin 64} {e : Entry} (hheader : headerFault (s.ring ring.val) e.raw 8 = none)
    (hcount : 0 < bodyAt e.raw 4 4) (hroom : bodyAt e.raw 0 4 + bodyAt e.raw 4 4 ≤ 2 ^ 24) (hclean : s.mem.errors = [])
    (hidle : s.mem.inject.getLsbD 63 = false) (he : s.entryOf ring.val 0x11 = some e)
    (howned : ∀ f, bodyAt e.raw 0 4 ≤ f → f < bodyAt e.raw 0 4 + bodyAt e.raw 4 4 → s.owns (headerCtx e.raw) f = true) :
    ∃ t r, exec (.frameRelease ring) s = .next t ∧ { t with mem := s.mem, host := s.host } = s ∧
      t.mem.data = s.mem.data ∧ t.mem.releases = s.mem.releases ++ [r] ∧ r.ring = ring ∧ r.index = e.index ∧
      (∀ f, f ∈ r.frames ↔ bodyAt e.raw 0 4 ≤ f ∧ f < bodyAt e.raw 0 4 + bodyAt e.raw 4 4) ∧
      ∀ f, t.mem.owner.get 0xF f = if bodyAt e.raw 0 4 ≤ f ∧ f < bodyAt e.raw 0 4 + bodyAt e.raw 4 4
        then 0x80 ||| BitVec.ofNat 8 (headerCtx e.raw) else s.mem.owner.get 0xF f := by
  rw [exec_frameRelease_checked hheader hcount hroom he, if_pos (all_range_add.2 howned), State.setOwners_clean hclean hidle]
  refine ⟨_, _, rfl, rfl, rfl, rfl, rfl, rfl, fun f => mem_map_range_add, fun f => ?_⟩
  exact (Tbl.get_setAll _ _ _ _ _ _).trans (if_congr mem_map_range_add rfl rfl)

theorem framesNotOwned {s : State} {ring : Fin 64} {e : Entry} (hheader : headerFault (s.ring ring.val) e.raw 8 = none)
    (hcount : 0 < bodyAt e.raw 4 4) (hroom : bodyAt e.raw 0 4 + bodyAt e.raw 4 4 ≤ 2 ^ 24) (he : s.entryOf ring.val 0x11 = some e)
    (hother : ∃ f, bodyAt e.raw 0 4 ≤ f ∧ f < bodyAt e.raw 0 4 + bodyAt e.raw 4 4 ∧ s.owns (headerCtx e.raw) f = false) :
    ∃ t, exec (.frameRelease ring) s = .next t ∧ Ends ring e 2 s t := by
  rw [exec_frameRelease_checked hheader hcount hroom he, if_neg]
  · exact ⟨_, rfl, 0, 0, 0, rfl⟩
  · intro owned
    obtain ⟨f, hlo, hhi, hno⟩ := hother
    rw [all_range_add.1 owned f hlo hhi] at hno
    cases hno

/-! ### Zeroing -/

/-- Entries left out by their key read as the default. -/
theorem Tbl.get_filter_key {α : Type} (d : α) (p : Nat → Bool) (t : Tbl α) (k : Nat) :
    Tbl.get d (t.filter fun e => p e.1) k = if p k = true then Tbl.get d t k else d := by
  induction t with
  | nil => simp
  | cons e t ih =>
    obtain ⟨j, v⟩ := e
    by_cases hp : p j = true
    · rw [List.filter_cons_of_pos (by exact hp), Tbl.get_cons, Tbl.get_cons, ih]
      by_cases hk : j = k
      · simp [hk ▸ hp, hk]
      · simp [hk]
    · rw [List.filter_cons_of_neg (by exact hp), Tbl.get_cons, ih]
      by_cases hk : j = k
      · simp [hk ▸ hp]
      · simp [hk]

/-- The state with a frame's data, poison and symbol errors cleared. -/
def State.blanked (s : State) (frame : Nat) : State :=
  { s with mem := { s.mem with
      data := s.mem.data.clear (frame * 65536) 65536
      poison := s.mem.poison.filter fun l => decide (l / 1024 ≠ frame)
      errors := s.mem.errors.filter fun e => decide (e.1 / 1024 ≠ frame) } }

theorem State.zeroFrame_idle {s : State} (hidle : s.mem.inject.getLsbD 63 = false) (frame : Nat) :
    s.zeroFrame frame = s.blanked frame := by
  change (if _ then (s.blanked frame).applyInjection _ else s.blanked frame) = _
  rw [State.applyInjection_elsewhere (s := s.blanked frame) (.inl hidle), ite_self]

theorem State.blanked_data (s : State) (frame a : Nat) :
    (s.blanked frame).mem.data.get a = if a / 65536 = frame then 0 else s.mem.data.get a := by
  have := Tbl.get_filter_key Mem.blank (fun n => decide (n < frame * 65536) || decide (frame * 65536 + 65536 ≤ n)) s.mem.data a
  refine this.trans ?_
  simp only [Bool.or_eq_true, decide_eq_true_eq]
  split <;> split
  · omega
  · rfl
  · rfl
  · omega

theorem State.blanked_poison (s : State) (frame l : Nat) :
    (s.blanked frame).linePoison l = (s.linePoison l && decide (l / 1024 ≠ frame)) := by
  simp [State.linePoison, State.blanked, List.mem_filter, Bool.decide_and]

/-- What a context's Porter still holds once a frame is zeroed. -/
def Porter.dropCopies (p : Porter) (frame : Nat) : Porter :=
  if (p.slotFrames ++ p.mirrorFrames).all fun e => frame ∉ e.2 then p
  else { p with
    slots := p.slots.filter fun e => !(p.slotFrames.get [] e.1).any fun f => f == frame
    mirrors := p.mirrors.filter fun e => !(p.mirrorFrames.get [] e.1).any fun f => f == frame }

theorem Tbl.mem_of_get {α : Type} {t : Tbl (List α)} {k : Nat} {a : α} (h : a ∈ t.get [] k) : ∃ e ∈ t, a ∈ e.2 := by
  induction t with
  | nil => cases h
  | cons e t ih =>
    obtain ⟨j, l⟩ := e
    rw [Tbl.get_cons] at h
    split at h
    · exact ⟨_, List.mem_cons_self, h⟩
    · obtain ⟨e, he, ha⟩ := ih h
      exact ⟨e, List.mem_cons_of_mem _ he, ha⟩

theorem Porter.dropCopies_gone {p : Porter} {frame k : Nat} :
    (frame ∈ p.slotFrames.get [] k → (p.dropCopies frame).slots.get Snap.empty k = Snap.empty) ∧
      (frame ∈ p.mirrorFrames.get [] k → (p.dropCopies frame).mirrors.get Snap.empty k = Snap.empty) := by
  have held {fs : Tbl (List Nat)} (h : frame ∈ fs.get [] k) (hfs : ∀ e ∈ fs, e ∈ p.slotFrames ++ p.mirrorFrames) :
      ¬ ((p.slotFrames ++ p.mirrorFrames).all fun e => frame ∉ e.2) = true := by
    obtain ⟨e, he, hin⟩ := Tbl.mem_of_get h
    intro none
    simpa [hin] using List.all_eq_true.1 none e (hfs e he)
  have gone {fs : Tbl (List Nat)} (t : Tbl Snap) (h : frame ∈ fs.get [] k) :
      Tbl.get Snap.empty (t.filter fun e => !(fs.get [] e.1).any fun f => f == frame) k = Snap.empty := by
    refine (Tbl.get_filter_key _ (fun n => !(fs.get [] n).any fun f => f == frame) t k).trans (if_neg ?_)
    simpa using h
  constructor
  · intro h
    rw [Porter.dropCopies, if_neg (held h fun e he => List.mem_append_left _ he)]
    exact gone _ h
  · intro h
    rw [Porter.dropCopies, if_neg (held h fun e he => List.mem_append_right _ he)]
    exact gone _ h

/-- One context's part of `State.dropCopies`. -/
def State.dropCopiesOf (s : State) (frame c : Nat) : State :=
  if ((s.porter c).slotFrames ++ (s.porter c).mirrorFrames).all fun e => frame ∉ e.2 then s
  else s.setPorter c ((s.porter c).dropCopies frame)

theorem State.dropCopies_eq (s : State) (frame : Nat) :
    s.dropCopies frame = (List.range 8).foldl (fun s c => s.dropCopiesOf frame c) s := by
  unfold State.dropCopies
  congr 1
  funext s c
  unfold State.dropCopiesOf Porter.dropCopies
  dsimp only
  split <;> rfl

theorem State.dropCopiesOf_porter (s : State) (frame d c : Nat) :
    (s.dropCopiesOf frame d).porter c = if c = d then (s.porter c).dropCopies frame else s.porter c := by
  unfold State.dropCopiesOf
  split
  · next h =>
    split
    · next hc => rw [hc, Porter.dropCopies, if_pos h]
    · rfl
  · rw [State.porter_setPorter]
    split
    · next hc => rw [hc]
    · rfl

theorem State.dropCopies_porter (s : State) (frame : Nat) {c : Nat} (hc : c < 8) :
    (s.dropCopies frame).porter c = (s.porter c).dropCopies frame := by
  have once : (List.range 8).count c = 1 := List.count_eq_one_of_mem List.nodup_range (List.mem_range.2 hc)
  rw [State.dropCopies_eq]
  calc ((List.range 8).foldl (fun s d => s.dropCopiesOf frame d) s).porter c
      = (List.range 8).foldl (fun p d => if c = d then p.dropCopies frame else p) (s.porter c) :=
        (List.foldl_hom (fun t : State => t.porter c) fun t d => (t.dropCopiesOf_porter frame d c).symm).symm
    _ = (s.porter c).dropCopies frame := by
        rw [foldl_ite_eq_iterate (fun p : Porter => p.dropCopies frame), once, Function.iterate_one]

theorem State.dropCopies_porters (s : State) (frame : Nat) : ∃ porters, s.dropCopies frame = { s with porters := porters } := by
  rw [State.dropCopies_eq]
  refine List.foldlRecOn _ _ (motive := fun t : State => ∃ porters, t = { s with porters := porters }) ⟨_, rfl⟩ fun t ht c _ => ?_
  obtain ⟨porters, rfl⟩ := ht
  unfold State.dropCopiesOf
  split
  · exact ⟨_, rfl⟩
  · exact ⟨_, rfl⟩

/-- The state in which a frame has been zeroed and set free. -/
def State.freed (s : State) (frame : Nat) : State :=
  ((s.blanked frame).dropCopies frame).withOwners (s.mem.owner.set frame (if s.frameRetires frame then 0xE else 0xF))

theorem State.freed_eq {s : State} (hclean : s.mem.errors = []) (hidle : s.mem.inject.getLsbD 63 = false) (frame : Nat) :
    ((s.zeroFrame frame).dropCopies frame).setOwner frame (if s.frameRetires frame then 0xE else 0xF) = s.freed frame := by
  have mem : ((s.blanked frame).dropCopies frame).mem = (s.blanked frame).mem := by
    obtain ⟨_, dropped⟩ := (s.blanked frame).dropCopies_porters frame
    rw [dropped]
  have clean : ((s.blanked frame).dropCopies frame).mem.errors = [] := by
    rw [mem, State.blanked, hclean]
    rfl
  have idle : ((s.blanked frame).dropCopies frame).mem.inject.getLsbD 63 = false := by
    rw [mem]
    exact hidle
  rw [State.zeroFrame_idle hidle, State.setOwner_clean clean idle, mem]
  rfl

/-- A frame's zeroing leaves of a release what `FRAME_ZERO` then notes: only the releases differ, and with the last frame the host
interface. -/
theorem exec_frameZero_of {s : State} {f : Nat} {r : Release} (hr : s.mem.releases.find? (fun r => f ∈ r.frames) = some r)
    (hclean : s.mem.errors = []) (hidle : s.mem.inject.getLsbD 63 = false) : ∃ releases host,
      exec (.frameZero f) s = .next { s.freed f with mem := { (s.freed f).mem with releases := releases }, host := host } ∧
        (dropFrom r.frames f ≠ [] → host = (s.freed f).host) := by
  have run : exec (.frameZero f) s = if dropFrom r.frames f = [] then
        .next (({ s.freed f with mem := { (s.freed f).mem with
          releases := (s.freed f).mem.releases.filter fun x => x ≠ r } } : State).complete r.ring.val r.index 0 0 0 0)
      else .next { s.freed f with mem := { (s.freed f).mem with
        releases := (s.freed f).mem.releases.map fun x => if x = r then { r with frames := dropFrom r.frames f } else x } } := by
    change execFrameZero f s = _
    unfold execFrameZero
    rw [hr]
    dsimp only
    rw [State.freed_eq hclean hidle]
  rw [run]
  split
  · next last =>
    obtain ⟨host, ended⟩ := State.complete_hostOnly ({ s.freed f with mem := { (s.freed f).mem with
      releases := (s.freed f).mem.releases.filter fun x => x ≠ r } } : State) r.ring.val r.index 0 0 0 0
    exact ⟨_, host, by rw [ended], fun left => absurd last left⟩
  · exact ⟨_, _, rfl, fun _ => rfl⟩

theorem State.withOwners_porter (s : State) (owner : Tbl Byte) (c : Nat) : (s.withOwners owner).porter c = s.porter c := rfl

theorem State.freed_porter (s : State) (frame : Nat) {c : Nat} (hc : c < 8) :
    (s.freed frame).porter c = (s.porter c).dropCopies frame := by
  rw [State.freed, State.withOwners_porter, State.dropCopies_porter _ _ hc]
  rfl

/-- What zeroing a frame does to memory, and what it leaves of the rest. -/
theorem State.freed_keeps (s : State) (frame : Nat) : (s.freed frame).tiles = s.tiles ∧ (s.freed frame).jobs = s.jobs ∧
    (s.freed frame).host = s.host ∧ (s.freed frame).mem.data = (s.blanked frame).mem.data ∧
    (s.freed frame).mem.poison = (s.blanked frame).mem.poison ∧
    (s.freed frame).mem.owner = s.mem.owner.set frame (if s.frameRetires frame then 0xE else 0xF) := by
  obtain ⟨_, dropped⟩ := (s.blanked frame).dropCopies_porters frame
  rw [State.freed, dropped]
  exact ⟨rfl, rfl, rfl, rfl, rfl, rfl⟩

theorem frameZeroed {s : State} {f : Nat} {r : Release} (hr : s.mem.releases.find? (fun r => f ∈ r.frames) = some r)
    (hidle : s.mem.inject.getLsbD 63 = false) (hclean : s.mem.errors = []) :
    ∃ t, exec (.frameZero f) s = .next t ∧ t.tiles = s.tiles ∧ t.jobs = s.jobs ∧
      (∀ a, t.mem.data.get a = if a / 65536 = f then 0 else s.mem.data.get a) ∧
      (∀ l, t.linePoison l = (s.linePoison l && decide (l / 1024 ≠ f))) ∧
      t.mem.owner.get 0xF f = (if s.frameRetires f then 0xE else 0xF) ∧
      (∀ g, g ≠ f → t.mem.owner.get 0xF g = s.mem.owner.get 0xF g) ∧
      (∀ c k, c < 8 → (f ∈ (s.porter c).slotFrames.get [] k → (t.porter c).slots.get Snap.empty k = Snap.empty) ∧
        (f ∈ (s.porter c).mirrorFrames.get [] k → (t.porter c).mirrors.get Snap.empty k = Snap.empty)) ∧
      ((∃ g ∈ r.frames, g ≠ f) → t.host = s.host) := by
  obtain ⟨tiles, jobs, hostSame, data, poison, owner⟩ := s.freed_keeps f
  obtain ⟨releases, host, run, more⟩ := exec_frameZero_of hr hclean hidle
  have porter : ∀ c, c < 8 → (s.freed f).porter c = (s.porter c).dropCopies f := fun c => s.freed_porter f
  generalize s.freed f = x at *
  refine ⟨_, run, tiles, jobs, fun a => ?_, fun l => ?_, ?_, fun g hg => ?_, fun c k hc => ?_, fun ⟨g, hg, hne⟩ => ?_⟩
  · dsimp only
    rw [data, State.blanked_data]
  · rw [← State.blanked_poison]
    exact congrArg (fun p : List Nat => decide (l ∈ p)) poison
  · dsimp only
    rw [owner, Tbl.get_set_same]
  · dsimp only
    rw [owner, Tbl.get_set_other _ _ _ hg]
  · have same : State.porter { x with mem := { x.mem with releases := releases }, host := host } c = (s.porter c).dropCopies f :=
      porter c hc
    rw [same]
    exact Porter.dropCopies_gone
  · have left : dropFrom r.frames f ≠ [] := List.ne_nil_of_mem (List.mem_filter.2 ⟨hg, by simpa using hne⟩)
    exact (more left).trans hostSame

theorem exec_frameZero_none {s : State} {f : Nat} (h : s.mem.releases.find? (fun r => f ∈ r.frames) = none) :
    exec (.frameZero f) s = .next s := by
  change execFrameZero f s = _
  unfold execFrameZero
  rw [h]

end Sys2Proof.Machine

namespace Sys2Proof
open Sys2Proof.Machine Sys2Proof.Claims

/-- Settles O42: what each of the three commands makes of the frame table, and what a frame's zeroing makes of memory and of the copies
that lay in the frame. -/
theorem framesChangeHands : Obligations.FramesChangeHands := by
  refine ⟨fun s ring e hheader hcount hroom hclean hidle => ⟨fun he => ⟨?_, ?_⟩, fun he => ⟨?_, ?_⟩⟩,
    fun s f r hr hidle hclean => frameZeroed hr hidle hclean, fun s f => exec_frameZero_none⟩
  · exact framesAssigned hheader hcount hroom hclean hidle he
  · exact framesHeld hheader hcount hroom he
  · exact framesReleased hheader hcount hroom hclean hidle he
  · exact framesNotOwned hheader hcount hroom he

end Sys2Proof
end

section
/-! The read of a line of memory (R210 to R215, R226, R233): with no symbol in error it changes nothing; with one it corrects and counts it;
with two in one codeword it poisons the line and counts it. -/

namespace Sys2Proof.Machine
open Sys2Proof.Claims

/-! ### Upsets and codewords (R211, R212) -/

/-- The state in which a line's symbols differ from their codewords as listed, and no other line's. -/
def State.withUpset (s : State) (line : Nat) (errs : List (Nat × Byte)) : State :=
  { s with mem := { s.mem with errors := [(line, errs)] } }

theorem State.upset_nil {s : State} (h : s.mem.errors = []) (line : Nat) : s.upset line [] = s := by
  unfold State.upset
  rw [h]
  exact congrArg (fun e : Tbl (List (Nat × Byte)) => ({ s with mem := { s.mem with errors := e } } : State)) h.symm

theorem State.upset_withUpset {s : State} (h : s.mem.errors = []) (line : Nat) {u : List (Nat × Byte)}
    (hu : u.foldl upsetSymbol [] ≠ []) : s.upset line u = s.withUpset line (u.foldl upsetSymbol []) := by
  unfold State.upset
  rw [h]
  exact congrArg (fun e => ({ s with mem := { s.mem with errors := e } } : State)) (if_neg hu)

theorem upsetSymbol_one {n : Nat} {v : Byte} (hv : v ≠ 0) : upsetSymbol [] (n, v) = [(n, v)] := by
  simp [upsetSymbol, Tbl.modify, Tbl.set, show ¬ v = 0#8 from hv]

theorem State.upset_one {s : State} (h : s.mem.errors = []) (line : Nat) {n : Nat} {v : Byte} (hv : v ≠ 0) :
    s.upset line [(n, v)] = s.withUpset line [(n, v)] := by
  have one := upsetSymbol_one (n := n) hv
  rw [State.upset_withUpset h, List.foldl_cons, one, List.foldl_nil]
  rw [List.foldl_cons, one]
  exact List.cons_ne_nil _ _

theorem upsetSymbol_two {n k : Nat} {v w : Byte} (hne : n ≠ k) (hv : v ≠ 0) (hw : w ≠ 0) :
    upsetSymbol [(n, v)] (k, w) = [(n, v), (k, w)] ∨ upsetSymbol [(n, v)] (k, w) = [(k, w), (n, v)] := by
  by_cases h : k < n
  · right
    simp [upsetSymbol, Tbl.modify, Tbl.set, Tbl.get, hne, h, show ¬ v = 0#8 from hv, show ¬ w = 0#8 from hw]
  · left
    simp [upsetSymbol, Tbl.modify, Tbl.set, Tbl.get, hne, Ne.symm hne, h, show ¬ v = 0#8 from hv, show ¬ w = 0#8 from hw]

theorem decodeCodeword_one {n : Nat} {v : Byte} (hv : v ≠ 0) : decodeCodeword [(n, v)] = .corrected := by
  simp [decodeCodeword, show ¬ v = 0#8 from hv]

theorem decodeCodeword_two {n k : Nat} {v w : Byte} (hv : v ≠ 0) (hw : w ≠ 0) : decodeCodeword [(n, v), (k, w)] = .detected := by
  simp [decodeCodeword, show ¬ v = 0#8 from hv, show ¬ w = 0#8 from hw]

/-! ### The counters (R213, R214) -/

theorem stackOfPA_line (pa : Nat) : stackOfPA (64 * (pa / 64)) = stackOfPA pa := by
  unfold stackOfPA
  omega

/-- Counting a corrected symbol changes its stack's counters, the health records and the host interface. -/
theorem State.countCorrected_eq (s : State) (pa : Nat) : ∃ k health host,
    s.countCorrected pa = { s.setStack (stackOfPA pa) k with health := health, host := host } ∧
      k.ce = (s.stack (stackOfPA pa)).ce + 1 ∧ k.ue = (s.stack (stackOfPA pa)).ue := by
  unfold State.countCorrected
  extract_lets m b k l hit s1
  split
  · obtain ⟨host, told⟩ := s1.event_hostOnly 0x0701 kMemory 0xF m m b
    rw [told]
    exact ⟨_, _, host, rfl, rfl, rfl⟩
  · exact ⟨_, _, _, rfl, rfl, rfl⟩

/-- Counting an uncorrectable line changes its stack's count and the host interface. -/
theorem State.countUncorrectable_eq (s : State) (line : Nat) : ∃ host,
    s.countUncorrectable line = { s.setStack (stackOfPA (64 * line)) { s.stack (stackOfPA (64 * line)) with
      ue := (s.stack (stackOfPA (64 * line))).ue + 1 } with host := host } :=
  State.event_hostOnly _ _ _ _ _ _ _

/-! ### An injection that a write of its line takes (R233) -/

/-- An injection is armed for a line. -/
def State.armedFor (s : State) (line : Nat) : Prop :=
  s.mem.inject.getLsbD 63 = true ∧ (s.mem.inject.extractLsb' 6 34).toNat = line

theorem State.applyInjection_unarmed {s : State} {line : Nat} (h : ¬ s.armedFor line) : s.applyInjection line = s := if_neg h

theorem getLsbD_clearTop (i : Dword) : (i &&& ~~~(1#64 <<< 63)).getLsbD 63 = false := by simp

/-- An injection changes the symbols and the poison of its line, and is armed no longer. -/
theorem State.applyInjection_eq (s : State) (line : Nat) : ∃ errors poison inject,
    s.applyInjection line = { s with mem := { s.mem with errors := errors, poison := poison, inject := inject } } ∧
      (s.armedFor line → inject.getLsbD 63 = false) ∧ (∀ l ∈ s.mem.poison, l ∈ poison) ∧
      ∀ l ∈ poison, l ≠ line → l ∈ s.mem.poison := by
  unfold State.applyInjection
  dsimp only
  split
  · have off : s.armedFor line → (s.mem.inject &&& ~~~(1#64 <<< 63)).getLsbD 63 = false := fun _ => getLsbD_clearTop _
    split
    · exact ⟨_, _, _, rfl, off, fun _ hl => hl, fun _ hl _ => hl⟩
    · split
      · exact ⟨_, _, _, rfl, off, fun _ hl => hl, fun _ hl _ => hl⟩
      · exact ⟨_, _, _, rfl, off, fun _ hl => mem_addTo.2 (.inr hl), fun _ hl hne => (mem_addTo.1 hl).resolve_left hne⟩
  · next h => exact ⟨_, _, _, rfl, fun armed => absurd armed h, fun _ hl => hl, fun _ hl _ => hl⟩

/-! ### One wrong symbol (R212, R213) -/

theorem setMember_self (l : List Nat) (n : Nat) : setMember l n (decide (n ∈ l)) = l := by
  unfold setMember
  by_cases h : n ∈ l
  · simp [h, addTo]
  · simp only [h, decide_false, Bool.false_eq_true, if_false, dropFrom]
    exact List.filter_eq_self.2 fun a ha => by simpa using fun hn : a = n => h (hn ▸ ha)

/-- One wrong symbol of a line has been corrected, counted once and written back. -/
structure CorrectedOnce (s t : State) (line : Nat) : Prop where
  data : t.mem.data = s.mem.data
  owner : t.mem.owner = s.mem.owner
  unarmed : ¬ s.armedFor line → t.mem.poison = s.mem.poison ∧ t.mem.errors = []
  armed : s.armedFor line → t.mem.inject.getLsbD 63 = false
  ce : (t.stack (stackOfPA (64 * line))).ce = (s.stack (stackOfPA (64 * line))).ce + 1
  ue : (t.stack (stackOfPA (64 * line))).ue = (s.stack (stackOfPA (64 * line))).ue
  tiles : t.tiles = s.tiles
  jobs : t.jobs = s.jobs

theorem codewordErrs_one (n : Nat) (v : Byte) (c : Nat) :
    codewordErrs [(n, v)] c = if n / 36 = c then [(n % 36, v)] else [] := by
  unfold codewordErrs
  by_cases h : n / 36 = c <;> simp [h]

theorem decode_one {n : Nat} {v : Byte} (hv : v ≠ 0) (c : Nat) :
    decodeCodeword (codewordErrs [(n, v)] c) = if n / 36 = c then .corrected else .clean := by
  rw [codewordErrs_one]
  split
  · exact decodeCodeword_one hv
  · rfl

theorem storedLine_nil (data : List Byte) : storedLine data [] = data := by
  simp [storedLine, List.mapIdx_eq_zipIdx_map]

/-- The state after the write-back of a line: sound symbols, and its poison as the read answered it. -/
def State.wroteBack (s : State) (line : Nat) (poison : Bool) : State :=
  { s with mem := { s.mem with errors := s.mem.errors.drop line, poison := setMember s.mem.poison line poison } }

/-- The errors of a line that its read does not correct. -/
def uncorrected (errs : List (Nat × Byte)) (d0 d1 : Decoded) : List (Nat × Byte) :=
  errs.filter fun e => decide (e.1 < 72) && (if e.1 / 36 = 0 then decide (d0 ≠ .corrected) else decide (d1 ≠ .corrected))

/-- The read of a line whose poison byte holds no upset and which it writes back. -/
theorem State.readLine_writesBack {s : State} {line : Nat} {errs : List (Nat × Byte)} {d0 d1 : Decoded}
    (herrs : Tbl.get [] s.mem.errors line = errs) (hne : errs ≠ []) (hmark : Tbl.get (0 : Byte) errs 72 = 0)
    (h0 : decodeCodeword (codewordErrs errs 0) = d0) (h1 : decodeCodeword (codewordErrs errs 1) = d1)
    (hfix : (decide (d0 = .detected) || decide (d1 = .detected) || decide (d0 = .corrected) || decide (d1 = .corrected)) = true) :
    s.readLine line =
      (let s1 := if d0 = .corrected then s.countCorrected (64 * line) else s
       let s2 := if d1 = .corrected then s1.countCorrected (64 * line) else s1
       let bad := decide (d0 = .detected) || decide (d1 = .detected)
       let data := storedLine (s.lineData line) (uncorrected errs d0 d1)
       let sK := if uncorrected errs d0 d1 = [] then s2 else s2.storeLine line data
       let s4 := (sK.wroteBack line (s.linePoison line || bad)).applyInjection line
       (if bad then s4.countUncorrectable line else s4, data, s.linePoison line || bad)) := by
  rw [State.readLine, herrs, if_neg hne, h0, h1]
  extract_lets mark poisoned c0 c1 bad keep data written left s1 s2 sK mK s3 s4
  have hpoisoned : poisoned = s.linePoison line := by
    change decide (4 ≤ popCount (_ ^^^ Tbl.get 0 errs 72)) = _
    rw [hmark]
    cases s.linePoison line <;> rfl
  have hwritten : written = true := by
    change (decide (d0 = .detected) || decide (d1 = .detected) || decide (d0 = .corrected) || decide (d1 = .corrected) ||
      decide (popCount mark = 4)) = true
    rw [hfix, Bool.true_or]
  have h3 : s3 = sK.wroteBack line (s.linePoison line || bad) := by
    rw [← hpoisoned]
    exact congrArg (fun e => ({ sK with mem := { sK.mem with
      errors := e, poison := setMember sK.mem.poison line (poisoned || bad) } } : State)) (if_pos (if_pos hwritten))
  have h4 : s4 = _ := if_pos hwritten
  rw [h4, h3, hpoisoned]
  rfl

theorem State.readLine_oneSymbol (s : State) (line : Nat) {n : Nat} {v : Byte} (hn : n < 72) (hv : v ≠ 0) :
    (s.withUpset line [(n, v)]).readLine line =
      ((((s.withUpset line [(n, v)]).countCorrected (64 * line)).wroteBack line (s.linePoison line)).applyInjection line,
        s.lineData line, s.linePoison line) := by
  have errs : Tbl.get [] (s.withUpset line [(n, v)]).mem.errors line = [(n, v)] := if_pos rfl
  have unmarked : Tbl.get (0 : Byte) [(n, v)] 72 = 0 := by rw [Tbl.get_cons, if_neg (by omega), Tbl.get_nil]
  have h0 := decode_one (n := n) hv 0
  have h1 := decode_one (n := n) hv 1
  have data : (s.withUpset line [(n, v)]).lineData line = s.lineData line := rfl
  have poison : (s.withUpset line [(n, v)]).linePoison line = s.linePoison line := rfl
  have place : n / 36 = 0 ∨ n / 36 = 1 := by omega
  rcases place with h | h <;> rw [h] at h0 h1 <;> rw [State.readLine_writesBack errs (List.cons_ne_nil _ _) unmarked h0 h1 rfl]
  · have none : uncorrected [(n, v)] .corrected .clean = [] := by
      simp [uncorrected]
      omega
    simp [none, storedLine_nil, data, poison]
  · have none : uncorrected [(n, v)] .clean .corrected = [] := by
      simp [uncorrected]
      omega
    simp [none, storedLine_nil, data, poison]

/-- One wrong symbol of a line is corrected, counted once and written back; the read answers the line as it was. -/
theorem State.readLine_correctedOnce (s : State) (line : Nat) {n : Nat} {v : Byte} (hn : n < 72) (hv : v ≠ 0) :
    ∃ t, (s.withUpset line [(n, v)]).readLine line = (t, s.lineData line, s.linePoison line) ∧ CorrectedOnce s t line := by
  refine ⟨_, s.readLine_oneSymbol line hn hv, ?_⟩
  obtain ⟨k, health, host, counted, ce, ue⟩ := (s.withUpset line [(n, v)]).countCorrected_eq (64 * line)
  have poison : setMember s.mem.poison line (s.linePoison line) = s.mem.poison := setMember_self _ _
  have sound : (((s.withUpset line [(n, v)]).countCorrected (64 * line)).wroteBack line (s.linePoison line)).mem =
      { s.mem with errors := [], stackTbl := s.mem.stackTbl.set (stackOfPA (64 * line)) k } := by
    rw [counted]
    simp [State.wroteBack, State.withUpset, State.setStack, Tbl.drop, poison]
  have rest : (((s.withUpset line [(n, v)]).countCorrected (64 * line)).wroteBack line (s.linePoison line)).tiles = s.tiles ∧
      (((s.withUpset line [(n, v)]).countCorrected (64 * line)).wroteBack line (s.linePoison line)).jobs = s.jobs := by
    rw [counted]
    exact ⟨rfl, rfl⟩
  generalize ((s.withUpset line [(n, v)]).countCorrected (64 * line)).wroteBack line (s.linePoison line) = x at sound rest
  obtain ⟨errors, poison, inject, taken, off, -⟩ := x.applyInjection_eq line
  have armed : x.armedFor line ↔ s.armedFor line := by rw [State.armedFor, sound, State.armedFor]
  have stack : (x.applyInjection line).stack (stackOfPA (64 * line)) = k := by
    rw [taken, State.stack, sound]
    exact Tbl.get_set_same _ _ _ _
  constructor
  case unarmed =>
    intro h
    rw [State.applyInjection_unarmed (mt armed.1 h), sound]
    exact ⟨rfl, rfl⟩
  case armed => exact fun h => by rw [taken]; exact off (armed.2 h)
  case ce => rw [stack]; exact ce
  case ue => rw [stack]; exact ue
  case data => rw [taken, sound]
  case owner => rw [taken, sound]
  case tiles => rw [taken]; exact rest.1
  case jobs => rw [taken]; exact rest.2

/-! ### Two wrong symbols of a codeword (R212, R214) -/

/-- Two errors, in the order in which the error list holds them. -/
theorem State.readLine_twoSymbols {s : State} {line n k : Nat} {v w : Byte} (hn : n < 72) (hk : k < 72) (hword : n / 36 = k / 36)
    (hv : v ≠ 0) (hw : w ≠ 0) (hsound : s.linePoison line = false) : ∃ d,
    (s.withUpset line [(n, v), (k, w)]).readLine line =
      (((((s.withUpset line [(n, v), (k, w)]).storeLine line d).wroteBack line true).applyInjection line).countUncorrectable line,
        d, true) := by
  have errs : Tbl.get [] (s.withUpset line [(n, v), (k, w)]).mem.errors line = [(n, v), (k, w)] := if_pos rfl
  have unmarked : Tbl.get (0 : Byte) [(n, v), (k, w)] 72 = 0 := by
    rw [Tbl.get_cons, if_neg (by omega), Tbl.get_cons, if_neg (by omega), Tbl.get_nil]
  have word (c : Nat) : decodeCodeword (codewordErrs [(n, v), (k, w)] c) = if k / 36 = c then .detected else .clean := by
    unfold codewordErrs
    by_cases h : k / 36 = c
    · simp only [List.filter, hword, h, decide_true, List.map, if_true]
      exact decodeCodeword_two hv hw
    · simp only [List.filter, hword, h, decide_false, List.map, if_false]
      rfl
  have h0 := word 0
  have h1 := word 1
  have poison : (s.withUpset line [(n, v), (k, w)]).linePoison line = false := hsound
  have place : k / 36 = 0 ∨ k / 36 = 1 := by omega
  refine ⟨storedLine ((s.withUpset line [(n, v), (k, w)]).lineData line) [(n, v), (k, w)], ?_⟩
  rcases place with h | h <;> rw [h] at h0 h1 <;> rw [State.readLine_writesBack errs (List.cons_ne_nil _ _) unmarked h0 h1 rfl]
  · have all : uncorrected [(n, v), (k, w)] .detected .clean = [(n, v), (k, w)] := by simp [uncorrected, hn, hk]
    simp [all, poison]
  · have all : uncorrected [(n, v), (k, w)] .clean .detected = [(n, v), (k, w)] := by simp [uncorrected, hn, hk]
    simp [all, poison]

/-- Two wrong symbols of a codeword of a line have poisoned it, and are counted once. -/
structure PoisonedOnce (s t : State) (line : Nat) : Prop where
  poisoned : t.linePoison line = true
  others : ∀ l, l ≠ line → t.linePoison l = s.linePoison l
  armed : s.armedFor line → t.mem.inject.getLsbD 63 = false
  ue : (t.stack (stackOfPA (64 * line))).ue = (s.stack (stackOfPA (64 * line))).ue + 1
  ce : (t.stack (stackOfPA (64 * line))).ce = (s.stack (stackOfPA (64 * line))).ce
  tiles : t.tiles = s.tiles
  jobs : t.jobs = s.jobs

theorem State.storeLine_eq (s : State) (line : Nat) (l : List Byte) : ∃ data owner,
    s.storeLine line l = { s with mem := { s.mem with data := data, owner := owner } } := by
  unfold State.storeLine
  split
  · exact ⟨_, _, rfl⟩
  · exact ⟨_, _, rfl⟩

theorem State.wroteBack_poisonedOnce (s : State) (line : Nat) (errs : List (Nat × Byte)) (d : List Byte) :
    PoisonedOnce s (((((s.withUpset line errs).storeLine line d).wroteBack line true).applyInjection line).countUncorrectable line)
      line := by
  obtain ⟨data, owner, stored⟩ := (s.withUpset line errs).storeLine_eq line d
  rw [stored]
  generalize hx : State.wroteBack _ line true = x
  have marked : x.mem.poison = setMember s.mem.poison line true := by rw [← hx]; rfl
  have table : x.mem.stackTbl = s.mem.stackTbl := by rw [← hx]; rfl
  have inject : x.mem.inject = s.mem.inject := by rw [← hx]; rfl
  have rest : x.tiles = s.tiles ∧ x.jobs = s.jobs := by rw [← hx]; exact ⟨rfl, rfl⟩
  obtain ⟨_, poison, off, taken, disarmed, kept, added⟩ := x.applyInjection_eq line
  obtain ⟨host, counted⟩ := (x.applyInjection line).countUncorrectable_eq line
  have same : (x.applyInjection line).stack (stackOfPA (64 * line)) = s.stack (stackOfPA (64 * line)) := by
    rw [taken, State.stack, table, State.stack]
  have now : ((x.applyInjection line).countUncorrectable line).stack (stackOfPA (64 * line)) =
      { s.stack (stackOfPA (64 * line)) with ue := (s.stack (stackOfPA (64 * line))).ue + 1 } := by
    rw [counted, same]
    exact Tbl.get_set_same _ _ _ _
  have armed : x.armedFor line ↔ s.armedFor line := by rw [State.armedFor, inject, State.armedFor]
  constructor
  case ue => rw [now]
  case ce => rw [now]
  all_goals rw [counted, taken]
  case poisoned => exact decide_eq_true (kept line (by rw [marked, mem_setMember, if_pos rfl]))
  case others =>
    intro l hl
    refine decide_eq_decide.2 ⟨fun h => ?_, fun h => kept l ?_⟩
    · have := added l h hl
      rwa [marked, mem_setMember, if_neg hl] at this
    · rwa [marked, mem_setMember, if_neg hl]
  case armed => exact fun h => disarmed (armed.2 h)
  case tiles => exact rest.1
  case jobs => exact rest.2

theorem State.readLine_poisonedOnce {s : State} (hclean : s.mem.errors = []) (line : Nat) {n k : Nat} {v w : Byte} (hne : n ≠ k)
    (hn : n < 72) (hk : k < 72) (hword : n / 36 = k / 36) (hv : v ≠ 0) (hw : w ≠ 0) (hsound : s.linePoison line = false) :
    ∃ t d, (s.upset line [(n, v), (k, w)]).readLine line = (t, d, true) ∧ PoisonedOnce s t line := by
  have both : [(n, v), (k, w)].foldl upsetSymbol [] = upsetSymbol [(n, v)] (k, w) := by
    rw [List.foldl_cons, upsetSymbol_one hv]
    rfl
  rcases upsetSymbol_two hne hv hw with h | h <;> rw [h] at both
  · obtain ⟨d, read⟩ := State.readLine_twoSymbols hn hk hword hv hw hsound
    rw [State.upset_withUpset hclean line (by rw [both]; exact List.cons_ne_nil _ _), both, read]
    exact ⟨_, d, rfl, s.wroteBack_poisonedOnce line _ d⟩
  · obtain ⟨d, read⟩ := State.readLine_twoSymbols hk hn hword.symm hw hv hsound
    rw [State.upset_withUpset hclean line (by rw [both]; exact List.cons_ne_nil _ _), both, read]
    exact ⟨_, d, rfl, s.wroteBack_poisonedOnce line _ d⟩

/-! ### MEMORY_READ -/

/-- The answer of a read, noted in its stack. -/
def State.responds (s : State) (m line : Nat) (data : List Byte) (poison : Bool) : State :=
  s.setStack m { s.stack m with response := some (line, data, poison) }

theorem exec_memoryRead_line {s t : State} {pa : BitVec 40} {u : List (Nat × Byte)} {data : List Byte} {poison : Bool}
    (hserved : s.served pa.toNat = none) (hframe : 256 ≤ pa.toNat / 65536)
    (hread : (s.upset (pa.toNat / 64) u).readLine (pa.toNat / 64) = (t, data, poison)) :
    exec (.memoryRead pa u) s = .next (t.responds (stackOfPA pa.toNat) (pa.toNat / 64) data poison) := by
  have outside : inTable (pa.toNat / 64) = false := decide_eq_false (by omega)
  change execMemoryRead pa u s = _
  unfold execMemoryRead
  rw [hserved]
  simp only [outside, hread]
  rfl

theorem readsSound {s : State} {pa : BitVec 40} (hserved : s.served pa.toNat = none) (hframe : 256 ≤ pa.toNat / 65536)
    (hclean : s.mem.errors = []) : ∃ t, exec (.memoryRead pa []) s = .next t ∧
      { t with mem := { t.mem with stackTbl := s.mem.stackTbl } } = s ∧
      t.stack (stackOfPA pa.toNat) = { s.stack (stackOfPA pa.toNat) with
        response := some (pa.toNat / 64, s.lineData (pa.toNat / 64), s.linePoison (pa.toNat / 64)) } ∧
      ∀ k, k ≠ stackOfPA pa.toNat → t.stack k = s.stack k := by
  refine ⟨_, exec_memoryRead_line hserved hframe (by rw [State.upset_nil hclean, State.readLine_clean hclean]), rfl, ?_, fun k hk => ?_⟩
  · exact State.stack_setStack_same _ _ _
  · exact State.stack_setStack_other _ _ hk

theorem readCorrects {s : State} {pa : BitVec 40} {n : Nat} {v : Byte} (hserved : s.served pa.toNat = none)
    (hframe : 256 ≤ pa.toNat / 65536) (hclean : s.mem.errors = []) (hn : n < 72) (hv : v ≠ 0) :
    ∃ t, exec (.memoryRead pa [(n, v)]) s = .next t ∧ t.mem.data = s.mem.data ∧
      (¬ s.armedFor (pa.toNat / 64) → t.mem.poison = s.mem.poison ∧ t.mem.errors = []) ∧
      (s.armedFor (pa.toNat / 64) → t.mem.inject.getLsbD 63 = false) ∧
      (t.stack (stackOfPA pa.toNat)).response = some (pa.toNat / 64, s.lineData (pa.toNat / 64), s.linePoison (pa.toNat / 64)) ∧
      (t.stack (stackOfPA pa.toNat)).ce = (s.stack (stackOfPA pa.toNat)).ce + 1 ∧
      (t.stack (stackOfPA pa.toNat)).ue = (s.stack (stackOfPA pa.toNat)).ue ∧ t.tiles = s.tiles ∧ t.jobs = s.jobs := by
  obtain ⟨t, read, once⟩ := s.readLine_correctedOnce (pa.toNat / 64) hn hv
  have ce := once.ce
  have ue := once.ue
  rw [stackOfPA_line] at ce ue
  have upset : s.upset (pa.toNat / 64) [(n, v)] = s.withUpset (pa.toNat / 64) [(n, v)] := State.upset_one hclean _ hv
  refine ⟨_, exec_memoryRead_line hserved hframe (upset ▸ read), once.data, once.unarmed, once.armed, ?_, ?_, ?_, once.tiles, once.jobs⟩
  all_goals rw [State.responds, State.stack_setStack_same]
  · exact ce
  · exact ue

theorem readPoisons {s : State} {pa : BitVec 40} {n k : Nat} {v w : Byte} (hserved : s.served pa.toNat = none)
    (hframe : 256 ≤ pa.toNat / 65536) (hclean : s.mem.errors = []) (hne : n ≠ k) (hn : n < 72) (hk : k < 72)
    (hword : n / 36 = k / 36) (hv : v ≠ 0) (hw : w ≠ 0) (hsound : s.linePoison (pa.toNat / 64) = false) :
    ∃ t d, exec (.memoryRead pa [(n, v), (k, w)]) s = .next t ∧ t.linePoison (pa.toNat / 64) = true ∧
      (t.stack (stackOfPA pa.toNat)).response = some (pa.toNat / 64, d, true) ∧
      (t.stack (stackOfPA pa.toNat)).ue = (s.stack (stackOfPA pa.toNat)).ue + 1 ∧
      (t.stack (stackOfPA pa.toNat)).ce = (s.stack (stackOfPA pa.toNat)).ce ∧
      (∀ l, l ≠ pa.toNat / 64 → t.linePoison l = s.linePoison l) ∧
      (s.armedFor (pa.toNat / 64) → t.mem.inject.getLsbD 63 = false) ∧ t.tiles = s.tiles ∧ t.jobs = s.jobs := by
  obtain ⟨t, d, read, once⟩ := State.readLine_poisonedOnce hclean (pa.toNat / 64) hne hn hk hword hv hw hsound
  have ce := once.ce
  have ue := once.ue
  rw [stackOfPA_line] at ce ue
  refine ⟨_, d, exec_memoryRead_line hserved hframe read, once.poisoned, ?_, ?_, ?_, once.others, once.armed, once.tiles, once.jobs⟩
  all_goals rw [State.responds, State.stack_setStack_same]
  · exact ue
  · exact ce

/-! ### Lines that no requester reaches (R210, R226) -/

theorem served_iff {s : State} {pa : Nat} : s.served pa = none ↔ (s.stack (stackOfPA pa)).trained = true := by
  unfold State.served
  cases (s.stack (stackOfPA pa)).trained <;> simp

theorem exec_memory_frameTable {s : State} {pa : BitVec 40} (u : List (Nat × Byte)) (data : List Byte) (poison : Bool)
    (hframe : pa.toNat / 65536 < 256) (hserved : s.served pa.toNat = none) :
    exec (.memoryRead pa u) s = .next s ∧ exec (.memoryWrite pa data poison) s = .next s := by
  have inside : inTable (pa.toNat / 64) = true := decide_eq_true (by omega)
  constructor
  · change execMemoryRead pa u s = _
    unfold execMemoryRead
    rw [hserved]
    exact if_pos inside
  · change execMemoryWrite pa data poison s = _
    unfold execMemoryWrite
    rw [hserved]
    exact congrArg _ (if_pos inside)

theorem exec_memory_untrained {s : State} {pa : BitVec 40} (u : List (Nat × Byte)) (data : List Byte) (poison : Bool)
    (h : (s.stack (stackOfPA pa.toNat)).trained = false) :
    exec (.memoryRead pa u) s = .fault .stackAbsent ∧ exec (.memoryWrite pa data poison) s = .fault .stackAbsent ∧
      exec (.patrolScrub pa u) s = .fault .stackAbsent := by
  have absent : s.served pa.toNat = some .stackAbsent := by rw [State.served, h]; rfl
  refine ⟨?_, ?_, ?_⟩
  · change execMemoryRead pa u s = _
    rw [execMemoryRead, absent]
  · change execMemoryWrite pa data poison s = _
    rw [execMemoryWrite, absent]
  · change execPatrolScrub pa u s = _
    rw [execPatrolScrub, absent]

theorem linesAreRead : LinesAreRead := by
  refine ⟨fun s pa u hserved hframe hclean => ⟨?_, ?_, ?_⟩, fun s pa u data poison => ⟨fun hframe htrained => ?_, fun h => ?_⟩⟩
  · rintro rfl
    exact readsSound hserved hframe hclean
  · rintro n v rfl hn hv
    exact readCorrects hserved hframe hclean hn hv
  · rintro n v k w rfl hne hn hk hword hv hw hsound
    exact readPoisons hserved hframe hclean hne hn hk hword hv hw hsound
  · exact exec_memory_frameTable u data poison hframe (served_iff.2 htrained)
  · exact exec_memory_untrained u data poison h

end Sys2Proof.Machine
end

section
/-! The write of a line of memory (R217, R518), and the commands of the controllers that move no data (R222, R223, R233). -/

namespace Sys2Proof.Machine
open Sys2Proof.Claims

/-! ### Writes with no symbol in error (R217, R518) -/

theorem State.demand_clean {s : State} (h : s.mem.errors = []) (pa n : Nat) : s.demand pa n = s := by
  rw [State.demand, h]
  rfl

theorem State.copyBefore_clean {s : State} (h : s.mem.errors = []) (frame : Nat) : ∃ porters,
    s.copyBefore frame = { s with porters := porters } := by
  refine List.foldlRecOn _ _ (motive := fun t : State => ∃ porters, t = { s with porters := porters }) ⟨_, rfl⟩ fun t ht c _ => ?_
  obtain ⟨porters, rfl⟩ := ht
  dsimp only
  split
  · split
    · rw [State.demand_clean (by exact h)]
      exact ⟨_, rfl⟩
    · exact ⟨_, rfl⟩
  · exact ⟨_, rfl⟩

theorem State.markDirty_eq (s : State) (frame : Nat) : ∃ dirty, s.markDirty frame = { s with mem := { s.mem with dirty := dirty } } := by
  unfold State.markDirty
  split
  · exact ⟨_, rfl⟩
  · exact ⟨_, rfl⟩

/-- The state before a line's write: what the Porter still had to copy of its frame is copied, and the frame's dirty bits are set. -/
def State.prepared (s : State) (porters : Tbl Porter) (dirty : List (Nat × Nat)) : State :=
  { s with porters := porters, mem := { s.mem with dirty := dirty } }

/-- The state with a line's bytes and poison written. -/
def State.lineWritten (s : State) (line : Nat) (bytes : List Byte) (poison : Bool) : State :=
  { s with mem := { s.mem with data := s.mem.data.write (64 * line) bytes, poison := setMember s.mem.poison line poison } }

theorem State.lineWritten_poison (s : State) (line : Nat) (bytes : List Byte) (poison : Bool) (l : Nat) :
    (s.lineWritten line bytes poison).linePoison l = if l = line then poison else s.linePoison l := by
  by_cases h : l = line <;> simp [State.linePoison, State.lineWritten, mem_setMember, h]

theorem State.putLine_clean {s : State} {line : Nat} (hclean : s.mem.errors = [])
    (hidle : s.mem.inject.getLsbD 63 = false ∨ (s.mem.inject.extractLsb' 6 34).toNat ≠ line) (whole : Bool)
    (merge : List Byte → List Byte) (poison : Bool) : ∃ porters dirty, s.putLine line whole merge poison =
      (s.prepared porters dirty).lineWritten line (merge (s.lineData line)) (poison || (!whole && s.linePoison line)) := by
  obtain ⟨porters, copied⟩ := State.copyBefore_clean hclean (line / 1024)
  obtain ⟨dirty, marked⟩ := ({ s with porters := porters } : State).markDirty_eq (line / 1024)
  refine ⟨porters, dirty, ?_⟩
  unfold State.putLine
  extract_lets s0 s1 m1 s2
  have h0 : s0 = s.prepared porters dirty := (congrArg (State.markDirty · (line / 1024)) copied).trans marked
  have h1 : s1 = s.prepared porters dirty := by
    change (if whole = true then s0 else (s0.readLine line).1) = _
    rw [h0, State.readLine_clean (s := s.prepared porters dirty) hclean, ite_self]
  have h2 : s2 = (s.prepared porters dirty).lineWritten line (merge (s.lineData line)) (poison || (!whole && s.linePoison line)) := by
    change ({ s1 with mem := { s1.mem with
      data := s1.mem.data.write (64 * line) (merge (s1.lineData line))
      errors := s1.mem.errors.drop line
      poison := setMember s1.mem.poison line (poison || (!whole && s1.linePoison line)) } } : State) = _
    have none : (s.prepared porters dirty).mem.errors.drop line = (s.prepared porters dirty).mem.errors :=
      (congrArg (Tbl.drop · line) hclean).trans hclean.symm
    rw [h1, none]
    rfl
  rw [h2]
  exact State.applyInjection_elsewhere hidle

/-! ### The bytes of a write -/

theorem Mem.read_getD (m : Mem) (a n i : Nat) (h : i < n) : (m.read a n).getD i 0 = m.get (a + i) := by
  induction n generalizing a i with
  | zero => omega
  | succ n ih =>
    cases i with
    | zero => rfl
    | succ i => simpa [Mem.read, Nat.add_assoc, Nat.add_comm 1 i] using ih (a + 1) i (by omega)

/-- A write of a byte string, read back at any address. -/
theorem Mem.get_write {m : Mem} (hm : Memory.wf m = true) (a : Nat) (l : List Byte) (c : Nat) :
    (m.write a l).get c = if a ≤ c ∧ c < a + l.length then l.getD (c - a) 0 else m.get c := by
  split
  · next h =>
    have := Mem.get_write_inside m a l (c - a) hm (by omega)
    rw [Nat.add_sub_cancel' h.1] at this
    rw [this, List.getD_eq_getElem _ _ (by omega)]
  · next h => exact Mem.get_write_outside m a l c (by omega)

/-- Bytes merged into a line at an offset (R217). -/
def spliced (old data : List Byte) (off : Nat) : List Byte := old.take off ++ data ++ old.drop (off + data.length)

theorem spliced_length {old data : List Byte} {off : Nat} (h : off + data.length ≤ old.length) :
    (spliced old data off).length = old.length := by
  simp [spliced]
  omega

theorem spliced_getD {old data : List Byte} {off : Nat} (h : off + data.length ≤ old.length) (i : Nat) :
    (spliced old data off).getD i 0 = if off ≤ i ∧ i < off + data.length then data.getD (i - off) 0 else old.getD i 0 := by
  have hoff : (old.take off).length = off := by simp; omega
  unfold spliced
  rw [List.append_assoc]
  rcases Nat.lt_or_ge i off with hlt | hge
  · rw [List.getD_append _ _ _ _ (by omega), if_neg (by omega)]
    simp [List.getD, hlt]
  · rw [List.getD_append_right _ _ _ _ (by omega), hoff]
    rcases Nat.lt_or_ge i (off + data.length) with hin | hout
    · rw [List.getD_append _ _ _ _ (by omega), if_pos ⟨hge, hin⟩]
    · rw [List.getD_append_right _ _ _ _ (by omega), if_neg (by omega)]
      simp only [List.getD, List.getElem?_drop]
      congr 2
      omega

/-- Bytes merged into a line of memory change those bytes alone. -/
theorem Mem.get_write_spliced {m : Mem} (hm : Memory.wf m = true) {pa : Nat} {data : List Byte} (hfit : pa % 64 + data.length ≤ 64)
    (c : Nat) : (m.write (64 * (pa / 64)) (spliced (m.read (64 * (pa / 64)) 64) data (pa % 64))).get c =
      if pa ≤ c ∧ c < pa + data.length then data.getD (c - pa) 0 else m.get c := by
  have hfit' : pa % 64 + data.length ≤ (m.read (64 * (pa / 64)) 64).length := by rw [Mem.read_length]; exact hfit
  rw [Mem.get_write hm, spliced_length hfit', Mem.read_length]
  split
  · next hline =>
    rw [spliced_getD hfit', Mem.read_getD _ _ _ _ (by omega), Nat.add_sub_cancel' hline.1]
    refine if_congr ?_ ?_ rfl
    · omega
    · congr 1
      omega
  · next hline => rw [if_neg (by omega)]

/-! ### MEMORY_WRITE -/

theorem exec_memoryWrite_line {s : State} {pa : BitVec 40} {data : List Byte} (poison : Bool) (hserved : s.served pa.toNat = none)
    (hframe : 256 ≤ pa.toNat / 65536) (hfit : pa.toNat % 64 + data.length ≤ 64) : exec (.memoryWrite pa data poison) s =
      .next (s.putLine (pa.toNat / 64) (decide (pa.toNat % 64 = 0) && decide (data.length = 64))
        (fun old => spliced old data (pa.toNat % 64)) poison) := by
  have outside : inTable (pa.toNat / 64) = false := decide_eq_false (by omega)
  change execMemoryWrite pa data poison s = _
  unfold execMemoryWrite
  rw [hserved, outside, List.take_of_length_le (by omega)]
  rfl

theorem lineWritten {s : State} {pa : BitVec 40} {data : List Byte} {poison : Bool} (hserved : s.served pa.toNat = none)
    (hframe : 256 ≤ pa.toNat / 65536) (hfit : pa.toNat % 64 + data.length ≤ 64) (hm : Memory.wf s.mem.data = true)
    (hclean : s.mem.errors = [])
    (hidle : s.mem.inject.getLsbD 63 = false ∨ (s.mem.inject.extractLsb' 6 34).toNat ≠ pa.toNat / 64) :
    ∃ t, exec (.memoryWrite pa data poison) s = .next t ∧ { t with mem := s.mem, porters := s.porters } = s ∧
      (∀ i, i < data.length → t.mem.data.get (pa.toNat + i) = data.getD i 0) ∧
      (∀ a, (a < pa.toNat ∨ pa.toNat + data.length ≤ a) → t.mem.data.get a = s.mem.data.get a) ∧
      (t.linePoison (pa.toNat / 64) = (poison || (decide (data.length ≠ 64) && s.linePoison (pa.toNat / 64)))) ∧
      (∀ l, l ≠ pa.toNat / 64 → t.linePoison l = s.linePoison l) ∧ t.mem.owner = s.mem.owner ∧ t.mem.errors = [] := by
  obtain ⟨porters, dirty, written⟩ := State.putLine_clean hclean hidle (decide (pa.toNat % 64 = 0) && decide (data.length = 64))
    (fun old => spliced old data (pa.toNat % 64)) poison
  have outside : s.lineData (pa.toNat / 64) = s.mem.data.read (64 * (pa.toNat / 64)) 64 := by
    rw [State.lineData, show inTable (pa.toNat / 64) = false from decide_eq_false (by omega)]
    rfl
  have whole : (!(decide (pa.toNat % 64 = 0) && decide (data.length = 64))) = decide (data.length ≠ 64) := by
    by_cases h : data.length = 64
    · have aligned : pa.toNat % 64 = 0 := by omega
      simp [h, aligned]
    · simp [h]
  rw [outside, whole] at written
  rw [exec_memoryWrite_line poison hserved hframe hfit, written]
  have bytes := Mem.get_write_spliced hm hfit
  refine ⟨_, rfl, rfl, fun i hi => ?_, fun a ha => ?_, ?_, fun l hl => ?_, rfl, hclean⟩
  · refine (bytes _).trans ?_
    rw [if_pos (by omega), Nat.add_sub_cancel_left]
  · exact (bytes a).trans (if_neg (by omega))
  · rw [State.lineWritten_poison, if_pos rfl]
  · rw [State.lineWritten_poison, if_neg hl]
    rfl

/-! ### PATROL_SCRUB, REFRESH and MEM_INJECT_ARM -/

theorem exec_patrolScrub_line {s : State} {pa : BitVec 40} (u : List (Nat × Byte)) (hserved : s.served pa.toNat = none) :
    exec (.patrolScrub pa u) s = .next ((s.upset (pa.toNat / 64) u).readLine (pa.toNat / 64)).1 := by
  change execPatrolScrub pa u s = _
  rw [execPatrolScrub, hserved]

theorem scrubCorrects {s : State} {pa : BitVec 40} {n : Nat} {v : Byte} (hserved : s.served pa.toNat = none)
    (hclean : s.mem.errors = []) (hn : n < 72) (hv : v ≠ 0) :
    ∃ t, exec (.patrolScrub pa [(n, v)]) s = .next t ∧ t.mem.data = s.mem.data ∧ t.mem.owner = s.mem.owner ∧
      (s.mem.inject.getLsbD 63 = false ∨ (s.mem.inject.extractLsb' 6 34).toNat ≠ pa.toNat / 64 →
        t.mem.poison = s.mem.poison ∧ t.mem.errors = []) ∧
      (t.stack (stackOfPA pa.toNat)).ce = (s.stack (stackOfPA pa.toNat)).ce + 1 ∧ t.tiles = s.tiles ∧ t.jobs = s.jobs := by
  obtain ⟨t, read, once⟩ := s.readLine_correctedOnce (pa.toNat / 64) hn hv
  have ce := once.ce
  rw [stackOfPA_line] at ce
  refine ⟨t, ?_, once.data, once.owner, fun h => once.unarmed fun ⟨armed, here⟩ => ?_, ce, once.tiles, once.jobs⟩
  · rw [exec_patrolScrub_line _ hserved, State.upset_one hclean _ hv, read]
  · rcases h with h | h
    · rw [h] at armed
      cases armed
    · exact h here

theorem injectionArmed {s : State} {value : Dword} (hopen : s.blocksOpen = true) (harm : value.getLsbD 63 = true)
    (hkind : (value.extractLsb' 61 2).toNat = 2 ∨ (value.extractLsb' 61 2).toNat < 2 ∧ (value.extractLsb' 0 6).toNat < 36) :
    exec (.memInjectArm value) s =
      .next (if s.anyJob = true then s else { s with mem := { s.mem with inject := value &&& 0xE00000FFFFFFFFFF } }) := by
  have kinds : ¬ ((value.extractLsb' 61 2).toNat = 3 ∨ (value.extractLsb' 61 2).toNat < 2 ∧ 35 < (value.extractLsb' 0 6).toNat) := by
    omega
  change execMemInjectArm value s = _
  unfold execMemInjectArm State.writeInject
  rw [hopen, harm]
  simp only [Bool.and_self, if_true, true_and, or_iff_left kinds]

theorem linesAreWritten : LinesAreWritten := by
  refine ⟨fun s pa data poison => lineWritten, fun s pa hserved hclean => ?_, fun s pa n v => scrubCorrects,
    fun s k bank => ⟨_, rfl, rfl, fun m hm => State.stack_setStack_other _ _ hm, State.stack_setStack_same _ _ _⟩,
    fun s value hopen harm hkind => ⟨fun hidle => ?_, fun hbusy => ?_⟩⟩
  · rw [exec_patrolScrub_line _ hserved, State.upset_nil hclean, State.readLine_clean hclean]
  · rw [injectionArmed hopen harm hkind, if_neg (by rw [hidle]; exact Bool.false_ne_true)]
    exact ⟨_, rfl, rfl, rfl, rfl⟩
  · rw [injectionArmed hopen harm hkind, if_pos hbusy]

end Sys2Proof.Machine

namespace Sys2Proof
open Sys2Proof.Machine Sys2Proof.Claims

/-- Settles O41: what a read makes of a line by the symbols that are wrong in it, what a write covers, and what the controllers' other
commands leave of memory. -/
theorem memoryLines : Obligations.MemoryLines := ⟨linesAreRead, linesAreWritten⟩

end Sys2Proof
end

section
/-! Copies are delivered (R216, R303, R304, R340, R440). -/

namespace Sys2Proof.Machine
open Sys2Proof.Claims

/-! ### Lines on the host bus -/

theorem State.emit_host_congr {s t : State} (h : s.host = t.host) (w : HostWrite) : (s.emit w).host = (t.emit w).host := by
  unfold State.emit
  rw [h]
  split <;> rfl

theorem State.emitLines_hostOnly (s : State) (a : Nat) (ls : List (List Byte × Bool)) : HostOnly s (s.emitLines a ls) :=
  List.foldlRecOn _ _ (motive := HostOnly s) (HostOnly.refl s) fun _ ht _ _ => ht.trans (State.emit_hostOnly _ _)

theorem State.emitLines_host_congr {s t : State} (h : s.host = t.host) (a : Nat) (ls : List (List Byte × Bool)) :
    (s.emitLines a ls).host = (t.emitLines a ls).host := by
  unfold State.emitLines
  induction ls.zipIdx generalizing s t with
  | nil => exact h
  | cons x l ih => exact ih (State.emit_host_congr h _)

/-- A rejected command ends with status 2 and raises its event; nothing else changes (R442). -/
theorem State.reject_ends (s : State) (ring : Fin 64) (e : Entry) (c byte : Nat) : ∃ u,
    Ends ring e 2 u (s.reject ring.val e.index c byte) ∧ { u with host := s.host } = s := by
  refine ⟨_, ⟨0, 0, 0, rfl⟩, ?_⟩
  obtain ⟨_, told⟩ := State.event_hostOnly s 0x000E kHost _ 0 (ringIndex ring.val e.index) byte
  rw [told]

theorem State.emitArrays_hostOnly (s : State) (a : Nat) (ls : List (List MByte)) : HostOnly s (s.emitArrays a ls).1 := by
  induction ls generalizing s a with
  | nil => exact HostOnly.refl s
  | cons l ls ih => exact (s.emitLines_hostOnly _ _).trans (ih _ _)

/-! ### SHIP -/

/-- The Porter of a context with a shipment under way, and what it has sent (R303). -/
def State.shipsWith (s : State) (c : Nat) (out : List (Nat × PorterMsg)) : State :=
  s.setPorter c { s.porter c with shipping := true, out := out }

theorem State.shipsWith_keeps (s : State) (c : Nat) (out : List (Nat × PorterMsg)) :
    { s.shipsWith c out with porters := s.porters } = s ∧ ((s.shipsWith c out).porter c).shipping = true ∧
      ((s.shipsWith c out).porter c).slots = (s.porter c).slots ∧ ((s.shipsWith c out).porter c).out = out ∧
      ∀ d, d ≠ c → (s.shipsWith c out).porter d = s.porter d := by
  have own : (s.shipsWith c out).porter c = { s.porter c with shipping := true, out := out } := State.porter_setPorter_same _ _ _
  rw [own]
  exact ⟨rfl, rfl, rfl, rfl, fun d hd => State.porter_setPorter_other _ _ hd⟩

/-- The shipment of a snapshot: its lines to the host, or one message on a port (R303). -/
def State.shipped (s : State) (c kind port : Nat) (rctx : Byte) (dst : Nat) (ls : List (List Byte × Bool)) : State :=
  let out := if kind = 1 then (s.porter c).out ++ [(port, .ship rctx (BitVec.ofNat 64 dst) ls)] else (s.porter c).out
  if kind = 0 then (s.shipsWith c out).emitLines dst ls else s.shipsWith c out

theorem State.shipped_keeps (s : State) (c kind port : Nat) (rctx : Byte) (dst : Nat) (ls : List (List Byte × Bool)) :
    let u := s.shipped c kind port rctx dst ls
    { u with porters := s.porters, host := s.host } = s ∧ (u.porter c).shipping = true ∧ (u.porter c).slots = (s.porter c).slots ∧
      (kind = 0 → (u.porter c).out = (s.porter c).out ∧ u.host = (s.emitLines dst ls).host) ∧
      (kind = 1 → u.host = s.host ∧ (u.porter c).out = (s.porter c).out ++ [(port, .ship rctx (BitVec.ofNat 64 dst) ls)]) ∧
      ∀ d, d ≠ c → u.porter d = s.porter d := by
  intro u
  by_cases host : kind = 0
  · obtain ⟨frame, shipping, slots, out, others⟩ := s.shipsWith_keeps c (s.porter c).out
    have hu : u = (s.shipsWith c (s.porter c).out).emitLines dst ls := by
      subst host
      rfl
    have written : u.host = (s.emitLines dst ls).host := by
      rw [hu]
      exact State.emitLines_host_congr (show (s.shipsWith c (s.porter c).out).host = s.host from rfl) dst ls
    obtain ⟨_, emitted⟩ := (s.shipsWith c (s.porter c).out).emitLines_hostOnly dst ls
    rw [emitted] at hu
    rw [written, hu]
    exact ⟨frame, shipping, slots, fun _ => ⟨out, rfl⟩, fun h => by omega, others⟩
  · have hu : u = s.shipsWith c (if kind = 1 then (s.porter c).out ++ [(port, .ship rctx (BitVec.ofNat 64 dst) ls)]
      else (s.porter c).out) := if_neg host
    rw [hu]
    obtain ⟨frame, shipping, slots, out, others⟩ := s.shipsWith_keeps c
      (if kind = 1 then (s.porter c).out ++ [(port, .ship rctx (BitVec.ofNat 64 dst) ls)] else (s.porter c).out)
    exact ⟨frame, shipping, slots, fun h => absurd h host, fun h => ⟨rfl, out.trans (if_pos h)⟩, others⟩

section
variable {s : State} {ring : Fin 64} {e : Entry} (he : s.entryOf ring.val 0x31 = some e) (hcmd : JobCmd s ring e 24)
  (hdst : bodyAt e.raw 0 8 % 64 = 0) (hkind : bodyAt e.raw 8 1 ≤ 1) (hport : bodyAt e.raw 9 1 ≤ 7) (hctx : bodyAt e.raw 10 1 ≤ 7)
  (hrest : bodyAt e.raw 11 5 = 0)
include he hcmd hdst hkind hport hctx hrest

theorem exec_ship_waits (hwait : (s.porter (headerCtx e.raw)).capturing = true ∨
    ((s.porter (headerCtx e.raw)).deferred = true ∧ (s.porter (headerCtx e.raw)).ready = true)) :
    exec (.ship ring) s = .next s := by
  have wait : ((s.porter (headerCtx e.raw)).capturing ||
      ((s.porter (headerCtx e.raw)).deferred && (s.porter (headerCtx e.raw)).ready)) = true := by
    rwa [Bool.or_eq_true, Bool.and_eq_true]
  change execShip ring s = _
  unfold execShip
  simp only [he, show s.jobCommand ring.val e.raw 24 = none from hcmd, hdst, Nat.not_lt.2 hkind, Nat.not_lt.2 hport, Nat.not_lt.2 hctx,
    hrest, ne_eq, not_true, if_false, wait, if_true]

variable (hready : (s.porter (headerCtx e.raw)).capturing = false) (hfree : (s.porter (headerCtx e.raw)).deferred = false ∨
    (s.porter (headerCtx e.raw)).ready = false)
include hready hfree

theorem exec_ship_none (hpick : pickSnap (s.porter (headerCtx e.raw)).slots 0 (s.porter (headerCtx e.raw)).recoveryStep = none) :
    exec (.ship ring) s = .next (s.complete ring.val e.index 2 0 0 0) := by
  have free : ((s.porter (headerCtx e.raw)).capturing ||
      ((s.porter (headerCtx e.raw)).deferred && (s.porter (headerCtx e.raw)).ready)) = false := by
    rw [hready, Bool.and_eq_false_iff.2 hfree]
    rfl
  change execShip ring s = _
  unfold execShip
  simp only [he, show s.jobCommand ring.val e.raw 24 = none from hcmd, hdst, Nat.not_lt.2 hkind, Nat.not_lt.2 hport, Nat.not_lt.2 hctx,
    hrest, ne_eq, not_true, if_false, free, Bool.false_eq_true, hpick]

theorem exec_ship_some {i : Nat} {snap : Snap}
    (hpick : pickSnap (s.porter (headerCtx e.raw)).slots 0 (s.porter (headerCtx e.raw)).recoveryStep = some (i, snap)) :
    exec (.ship ring) s =
      if bodyAt e.raw 16 8 < snap.bytes.length then .next (s.complete ring.val e.index 2 0 0 0)
      else if bodyAt e.raw 8 1 = 1 ∧ (!(s.port (bodyAt e.raw 9 1)).joined) = true then .next (s.complete ring.val e.index 5 0 0 0)
      else
        let lines := linesFrom (snap.bytes.length / 64 + 1) snap.bytes
        .next ((s.shipped (headerCtx e.raw) (bodyAt e.raw 8 1) (bodyAt e.raw 9 1) (BitVec.ofNat 8 (bodyAt e.raw 10 1))
          (bodyAt e.raw 0 8) lines).complete ring.val e.index (if lines.any (·.2) then 1 else 0) (BitVec.ofNat 64 snap.bytes.length)
          (snap.step.setWidth 64) 0) := by
  have free : ((s.porter (headerCtx e.raw)).capturing ||
      ((s.porter (headerCtx e.raw)).deferred && (s.porter (headerCtx e.raw)).ready)) = false := by
    rw [hready, Bool.and_eq_false_iff.2 hfree]
    rfl
  change execShip ring s = _
  unfold execShip
  simp only [he, show s.jobCommand ring.val e.raw 24 = none from hcmd, hdst, Nat.not_lt.2 hkind, Nat.not_lt.2 hport, Nat.not_lt.2 hctx,
    hrest, ne_eq, not_true, if_false, free, Bool.false_eq_true, hpick]
  rfl

theorem shipmentDelivered {i : Nat} {snap : Snap}
    (hpick : pickSnap (s.porter (headerCtx e.raw)).slots 0 (s.porter (headerCtx e.raw)).recoveryStep = some (i, snap)) :
    let c := headerCtx e.raw
    let p := s.porter c
    let kind := bodyAt e.raw 8 1
    let port := bodyAt e.raw 9 1
    let dst := bodyAt e.raw 0 8
    let lines := linesFrom (snap.bytes.length / 64 + 1) snap.bytes
    (snap.bytes.length ≤ bodyAt e.raw 16 8 → (kind = 1 → (s.port port).joined = true) →
      ∃ t u : State, exec (.ship ring) s = .next t ∧
        t = u.complete ring.val e.index (if lines.any (·.2) then 1 else 0) (BitVec.ofNat 64 snap.bytes.length)
          (snap.step.setWidth 64) 0 ∧
        { u with porters := s.porters, host := s.host } = s ∧ (u.porter c).shipping = true ∧ (u.porter c).slots = p.slots ∧
        (kind = 0 → (u.porter c).out = p.out ∧ u.host = (s.emitLines dst lines).host) ∧
        (kind = 1 → u.host = s.host ∧ (u.porter c).out =
          p.out ++ [(port, .ship (BitVec.ofNat 8 (bodyAt e.raw 10 1)) (BitVec.ofNat 64 dst) lines)]) ∧
        ∀ d, d ≠ c → u.porter d = s.porter d) ∧
    (bodyAt e.raw 16 8 < snap.bytes.length → ∃ t, exec (.ship ring) s = .next t ∧ Ends ring e 2 s t) ∧
    (snap.bytes.length ≤ bodyAt e.raw 16 8 → kind = 1 → (s.port port).joined = false →
      ∃ t, exec (.ship ring) s = .next t ∧ Ends ring e 5 s t) := by
  intro c p kind port dst lines
  rw [exec_ship_some he hcmd hdst hkind hport hctx hrest hready hfree hpick]
  refine ⟨fun hroom hjoined => ?_, fun hlong => ?_, fun hroom hkind hlost => ?_⟩
  · have partner : ¬ (kind = 1 ∧ (!(s.port port).joined) = true) := by
      rintro ⟨h, lost⟩
      rw [hjoined h] at lost
      cases lost
    rw [if_neg (Nat.not_lt.2 hroom), if_neg partner]
    exact ⟨_, _, rfl, rfl, s.shipped_keeps c kind port _ dst lines⟩
  · rw [if_pos hlong]
    exact ⟨_, rfl, 0, 0, 0, rfl⟩
  · rw [if_neg (Nat.not_lt.2 hroom), if_pos ⟨hkind, by rw [hlost]; rfl⟩]
    exact ⟨_, rfl, 0, 0, 0, rfl⟩

end

/-! ### LAYER_READ -/

theorem State.vtake_fst (s : State) (c va n : Nat) : (s.vtake c va n).1 = s.vdemand c va n := by
  unfold State.vtake
  dsimp only
  split <;> rfl

theorem State.takeArrays_memoryOnly (s : State) (c : Nat) (l : List (Nat × Nat)) : MemoryOnly s (s.takeArrays c l).1 := by
  induction l generalizing s with
  | nil => exact MemoryOnly.refl s
  | cons x l ih =>
    have read : MemoryOnly s (s.vtake c x.1 x.2).1 := by rw [State.vtake_fst]; exact s.vdemand_memoryOnly _ _ _
    unfold State.takeArrays
    split
    · next h => rwa [h] at read
    · next s1 _ h =>
      rw [h] at read
      have rest := ih s1
      split
      · next h => rw [h] at rest; exact read.trans rest
      · next h => rw [h] at rest; exact read.trans rest

theorem State.takeArrays_clean {s : State} (h : s.mem.errors = []) (c : Nat) (l : List (Nat × Nat)) : (s.takeArrays c l).1 = s := by
  induction l with
  | nil => rfl
  | cons x l ih =>
    have read : (s.vtake c x.1 x.2).1 = s := by rw [State.vtake_fst, State.vdemand_clean h]
    unfold State.takeArrays
    split
    · next h => rwa [h] at read
    · next s1 _ h =>
      rw [h] at read
      cases read
      split
      · next h => rwa [h] at ih
      · next h => rwa [h] at ih

theorem State.readArrays_clean {s : State} (h : s.mem.errors = []) (c : Nat) (l : List (Nat × Nat)) : (s.readArrays c l).1 = s := by
  induction l with
  | nil => rfl
  | cons x l ih =>
    unfold State.readArrays
    dsimp only
    rw [State.vdemand_clean h]
    split
    · rfl
    · split
      · next h => rwa [h] at ih
      · next h => rwa [h] at ih

/-- Finding a layer's entry reads memory at most. -/
theorem State.layerRaw_keeps (s : State) (c i : Nat) :
    MemoryOnly s (s.layerRaw c i).1 ∧ (s.mem.errors = [] → (s.layerRaw c i).1 = s) := by
  have same : MemoryOnly s s ∧ (s.mem.errors = [] → s = s) := ⟨MemoryOnly.refl s, fun _ => rfl⟩
  unfold State.layerRaw
  dsimp only
  split
  · exact same
  · split
    · exact same
    · next k _ =>
      split
      · exact same
      · have read := s.readArrays_memoryOnly c [(k.tableVA.toNat + 64 * i, 64)]
        have clean := fun h => State.readArrays_clean (s := s) h c [(k.tableVA.toNat + 64 * i, 64)]
        split
        · next h => rw [h] at read clean; exact ⟨read, clean⟩
        · next h => rw [h] at read clean; exact ⟨read, clean⟩

section
variable {s r : State} {ring : Fin 64} {e : Entry} (he : s.entryOf ring.val 0x32 = some e) (hcmd : JobCmd s ring e 10)
  (hdst : bodyAt e.raw 0 8 % 64 = 0)
include he hcmd hdst

theorem layerDelivered {x : BitVec 512} {ls : List (List MByte)} {u : State}
    (hraw : s.layerRaw (headerCtx e.raw) (bodyAt e.raw 8 2) = (r, .ok (some x)))
    (htake : r.takeArrays (headerCtx e.raw) (layerFields x).shipped = (u, .ok ls)) :
    ∃ t v : State, exec (.layerRead ring) s = .next t ∧
      t = v.complete ring.val e.index (if ls.any fun l => l.any (·.poison) then 1 else 0)
        (BitVec.ofNat 64 ((ls.map (·.length)).sum + 64)) ((s.job (headerCtx e.raw)).stepNumber.setWidth 64) 0 ∧
      v = (u.emitArrays (bodyAt e.raw 0 8) (ls ++ [cleanBytes ((s.job (headerCtx e.raw)).normLine (layerFields x))])).1 ∧
      { v with host := u.host } = u ∧ t.jobs = s.jobs ∧ t.tiles = s.tiles ∧ t.ports = s.ports ∧
      (s.mem.errors = [] → t.mem = s.mem) := by
  have run : exec (.layerRead ring) s =
      .next ((u.emitArrays (bodyAt e.raw 0 8) (ls ++ [cleanBytes ((s.job (headerCtx e.raw)).normLine (layerFields x))])).1.complete
        ring.val e.index (if ls.any fun l => l.any (·.poison) then 1 else 0) (BitVec.ofNat 64 ((ls.map (·.length)).sum + 64))
        ((s.job (headerCtx e.raw)).stepNumber.setWidth 64) 0) := by
    change execLayerRead ring s = _
    unfold execLayerRead
    simp only [he, show s.jobCommand ring.val e.raw 10 = none from hcmd, hdst, ne_eq, not_true, if_false, hraw, htake]
  obtain ⟨found, foundClean⟩ := s.layerRaw_keeps (headerCtx e.raw) (bodyAt e.raw 8 2)
  have taken := r.takeArrays_memoryOnly (headerCtx e.raw) (layerFields x).shipped
  have takenClean := fun h => State.takeArrays_clean (s := r) h (headerCtx e.raw) (layerFields x).shipped
  rw [hraw] at found foundClean
  rw [htake] at taken takenClean
  dsimp only at found foundClean taken takenClean
  have clean (h : s.mem.errors = []) : u.mem = s.mem := by
    have hr : r = s := foundClean h
    rw [takenClean (hr ▸ h), hr]
  obtain ⟨_, _, _, _, read⟩ := found.trans taken
  obtain ⟨host, emitted⟩ := u.emitArrays_hostOnly (bodyAt e.raw 0 8)
    (ls ++ [cleanBytes ((s.job (headerCtx e.raw)).normLine (layerFields x))])
  obtain ⟨_, ended⟩ := State.complete_hostOnly
    (u.emitArrays (bodyAt e.raw 0 8) (ls ++ [cleanBytes ((s.job (headerCtx e.raw)).normLine (layerFields x))])).1 ring.val e.index
    (if ls.any fun l => l.any (·.poison) then 1 else 0) (BitVec.ofNat 64 ((ls.map (·.length)).sum + 64))
    ((s.job (headerCtx e.raw)).stepNumber.setWidth 64) 0
  refine ⟨_, _, run, rfl, rfl, ?_, ?_, ?_, ?_, fun h => ?_⟩
  · rw [emitted]
  · rw [ended, emitted, read]
  · rw [ended, emitted, read]
  · rw [ended, emitted, read]
  · rw [ended, emitted]
    exact clean h

theorem layerAbsent (hraw : s.layerRaw (headerCtx e.raw) (bodyAt e.raw 8 2) = (r, .ok none)) :
    ∃ t u, exec (.layerRead ring) s = .next t ∧ Ends ring e 2 u t ∧ { u with host := r.host } = r := by
  have run : exec (.layerRead ring) s = .next (r.reject ring.val e.index (headerCtx e.raw) 8) := by
    change execLayerRead ring s = _
    unfold execLayerRead
    simp only [he, show s.jobCommand ring.val e.raw 10 = none from hcmd, hdst, ne_eq, not_true, if_false, hraw]
  obtain ⟨u, ends, told⟩ := r.reject_ends ring e (headerCtx e.raw) 8
  exact ⟨_, u, run, ends, told⟩

end
end Sys2Proof.Machine
end

section
/-! RESTORE (R216, R526): what writing a snapshot's memory back leaves, and what the snapshot puts into the job and its tiles. -/

namespace Sys2Proof.Machine
open Sys2Proof.Claims

/-! ### What the Porters have sent stands -/

/-- No Porter has sent anything from the first state to the second. -/
def NothingSent (s t : State) : Prop := ∀ c, (t.porter c).out = (s.porter c).out

theorem NothingSent.refl (s : State) : NothingSent s s := fun _ => rfl

theorem NothingSent.trans {s t u : State} (h : NothingSent s t) (k : NothingSent t u) : NothingSent s u :=
  fun c => (k c).trans (h c)

theorem NothingSent.of_porters {s t : State} (h : t.porters = s.porters) : NothingSent s t := fun c => by
  rw [State.porter, h, State.porter]

theorem NothingSent.ite {s t u : State} {p : Prop} [Decidable p] (h : NothingSent s t) (k : NothingSent s u) :
    NothingSent s (if p then t else u) := by
  split
  · exact h
  · exact k

theorem NothingSent.foldl {α : Type} {f : State → α → State} (h : ∀ s a, NothingSent s (f s a)) (l : List α) (s : State) :
    NothingSent s (l.foldl f s) :=
  List.foldlRecOn l f (motive := NothingSent s) (NothingSent.refl s) fun t ht a _ => ht.trans (h t a)

theorem State.countCorrected_sent (s : State) (pa : Nat) : NothingSent s (s.countCorrected pa) := by
  obtain ⟨_, _, _, counted, -, -⟩ := s.countCorrected_eq pa
  exact .of_porters (by rw [counted]; rfl)

theorem State.countUncorrectable_sent (s : State) (line : Nat) : NothingSent s (s.countUncorrectable line) := by
  obtain ⟨_, counted⟩ := s.countUncorrectable_eq line
  exact .of_porters (by rw [counted]; rfl)

theorem State.applyInjection_sent (s : State) (line : Nat) : NothingSent s (s.applyInjection line) := by
  obtain ⟨_, _, _, taken, -⟩ := s.applyInjection_eq line
  exact .of_porters (by rw [taken])

theorem State.readLine_sent (s : State) (line : Nat) : NothingSent s (s.readLine line).1 := by
  unfold State.readLine
  extract_lets errs mark poisoned d0 d1 bad keep data written left s1 s2 sK mK s3 s4
  split
  · exact NothingSent.refl s
  · have first : NothingSent s s1 := .ite (s.countCorrected_sent _) (NothingSent.refl s)
    have second : NothingSent s s2 := first.trans (.ite (s1.countCorrected_sent _) (NothingSent.refl s1))
    have kept : NothingSent s sK := second.trans (.ite (NothingSent.refl s2) (NothingSent.of_porters rfl))
    have marked : NothingSent s s3 := kept.trans (NothingSent.of_porters rfl)
    have written : NothingSent s s4 := marked.trans (.ite (s3.applyInjection_sent _) (NothingSent.refl s3))
    exact written.trans (.ite (s4.countUncorrectable_sent _) (NothingSent.refl s4))

theorem State.demand_sent (s : State) (pa n : Nat) : NothingSent s (s.demand pa n) :=
  NothingSent.foldl (f := fun (t : State) (e : Nat × List (Nat × Byte)) => (t.readLine e.1).1) (fun t e => t.readLine_sent e.1) _ s

theorem State.demandFrom_sent (s : State) (c va table level n : Nat) : NothingSent s (s.demandFrom c va table level n) := by
  induction n generalizing s table level with
  | zero => exact NothingSent.refl s
  | succ n ih =>
    have read := s.demand_sent (table + 8 * vaIndex va level) 8
    exact .ite (read.trans (ih _ _ _)) read

theorem State.demandWalks_sent (s : State) (c va n k : Nat) : NothingSent s (s.demandWalks c va n k) := by
  induction k generalizing s va n with
  | zero => exact NothingSent.refl s
  | succ k ih => exact .ite (NothingSent.refl s) ((s.demandFrom_sent _ _ _ _ _).trans (ih _ _ _))

theorem State.copyBefore_sent (s : State) (frame : Nat) : NothingSent s (s.copyBefore frame) := by
  refine NothingSent.foldl (fun t c => ?_) _ s
  dsimp only
  split
  · split
    · intro d
      rw [State.porter_setPorter]
      split
      · next hd => rw [hd]; rfl
      · exact t.demand_sent (frame * 65536) 65536 d
    · exact NothingSent.refl t
  · exact NothingSent.refl t

theorem State.markDirty_sent (s : State) (frame : Nat) : NothingSent s (s.markDirty frame) := by
  obtain ⟨_, marked⟩ := s.markDirty_eq frame
  exact .of_porters (by rw [marked])

theorem State.putLine_sent (s : State) (line : Nat) (whole : Bool) (merge : List Byte → List Byte) (poison : Bool) :
    NothingSent s (s.putLine line whole merge poison) := by
  unfold State.putLine
  extract_lets s0 s1 m1 s2
  have copied : NothingSent s s0 := (s.copyBefore_sent _).trans (State.markDirty_sent _ _)
  have read : NothingSent s s1 := copied.trans (.ite (NothingSent.refl s0) (s0.readLine_sent _))
  exact (read.trans (NothingSent.of_porters rfl)).trans (s2.applyInjection_sent _)

theorem State.writeSpan_sent (s : State) (pa : Nat) (data : List Byte) (poison : Bool) (n : Nat) :
    NothingSent s (s.writeSpan pa data poison n) := by
  induction n generalizing s pa data with
  | zero => exact NothingSent.refl s
  | succ n ih => exact .ite (NothingSent.refl s) ((s.putLine_sent _ _ _ _).trans (ih _ _ _))

theorem State.writePages_sent (s : State) (data : List Byte) (poison : Bool) (pages : List (Nat × Nat)) :
    NothingSent s (s.writePages data poison pages) := by
  induction pages generalizing s data with
  | nil => exact NothingSent.refl s
  | cons p ps ih => exact (s.writeSpan_sent _ _ _ _).trans (ih _ _)

theorem State.vwrite_sent (s : State) (c va : Nat) (data : List Byte) (poison : Bool) :
    NothingSent s (s.vwrite c va data poison).1 := by
  have walked := s.demandWalks_sent c va data.length (data.length / 65536 + 2)
  unfold State.vwrite
  dsimp only
  split <;> exact walked.trans (State.writePages_sent _ _ _ _)

/-! ### Memory written back -/

/-- Memory is written back: memory changes, and with it what a write of memory reaches, but no Porter sends anything. -/
def WritesBack (s t : State) : Prop := MemoryOnly s t ∧ NothingSent s t

theorem WritesBack.refl (s : State) : WritesBack s s := ⟨MemoryOnly.refl s, NothingSent.refl s⟩

theorem WritesBack.trans {s t u : State} (h : WritesBack s t) (k : WritesBack t u) : WritesBack s u :=
  ⟨h.1.trans k.1, h.2.trans k.2⟩

/-- Writes of a list, each of which writes back. -/
theorem WritesBack.foldl {α : Type} {g : State × Option Stop → α → State × Option Stop} (h : ∀ r a, WritesBack r.1 (g r a).1)
    (l : List α) (r : State × Option Stop) : WritesBack r.1 (l.foldl g r).1 :=
  List.foldlRecOn l g (motive := fun q : State × Option Stop => WritesBack r.1 q.1) (WritesBack.refl r.1)
    fun q hq a _ => hq.trans (h q a)

theorem State.restoreLines_writesBack (s : State) (c va n : Nat) (line : Nat → List Byte) (poison : List Nat) :
    WritesBack s (s.restoreLines c va n line poison).1 := by
  refine WritesBack.foldl (fun r i => ?_) _ (s, none)
  split
  · exact WritesBack.refl r.1
  · exact ⟨r.1.vwrite_memoryOnly _ _ _ _, r.1.vwrite_sent _ _ _ _⟩

theorem State.restoreBlocks_writesBack (s : State) (c : Nat) (disp : Int) (l : List Block) :
    WritesBack s (s.restoreBlocks c disp l).1 := by
  refine WritesBack.foldl (fun r b => ?_) l (s, none)
  split
  · exact WritesBack.refl r.1
  · exact r.1.restoreLines_writesBack _ _ _ _ _

/-! ### What a snapshot puts into its job (R526) -/

/-- What loading an image changes of the jobs: its own is told to stop at most. The Porters stand. -/
def ToldAtMost (c : Nat) (s t : State) : Prop :=
  (∃ stop, t.job c = { s.job c with stop := stop }) ∧ (∀ d, d ≠ c → t.job d = s.job d) ∧ t.porters = s.porters

theorem ToldAtMost.of_eq {c : Nat} {s t : State} (hj : t.jobs = s.jobs) (hp : t.porters = s.porters) : ToldAtMost c s t :=
  ⟨⟨(s.job c).stop, by rw [State.job, hj, State.job]⟩, fun d _ => by rw [State.job, hj, State.job], hp⟩

theorem ToldAtMost.trans {c : Nat} {s t u : State} (h : ToldAtMost c s t) (k : ToldAtMost c t u) : ToldAtMost c s u := by
  obtain ⟨⟨_, own⟩, others, porters⟩ := h
  obtain ⟨⟨stop, own'⟩, others', porters'⟩ := k
  exact ⟨⟨stop, by rw [own', own]⟩, fun d hd => (others' d hd).trans (others d hd), porters'.trans porters⟩

theorem ToldAtMost.foldl {α : Type} {c : Nat} {f : State → α → State} (h : ∀ s a, ToldAtMost c s (f s a)) (l : List α) (s : State) :
    ToldAtMost c s (l.foldl f s) :=
  List.foldlRecOn l f (motive := ToldAtMost c s) (.of_eq rfl rfl) fun t ht a _ => ht.trans (h t a)

theorem State.tellStop_toldAtMost (s : State) (c : Nat) : ToldAtMost c s (s.setJob c { s.job c with stop := true }) :=
  ⟨⟨true, State.job_setJob_same _ _ _⟩, fun _ hd => State.job_setJob_other _ _ hd, rfl⟩

theorem HostOnly.toldAtMost {s t : State} (c : Nat) (h : HostOnly s t) : ToldAtMost c s t := by
  obtain ⟨_, rfl⟩ := h
  exact .of_eq rfl rfl

theorem State.setTile_toldAtMost (s : State) (c u : Nat) (x : Tile) : ToldAtMost c s (s.setTile u x) := .of_eq rfl rfl

theorem State.loadImage_toldAtMost (s : State) (c u i : Nat) : ToldAtMost c s (s.loadImage c u i) := by
  unfold State.loadImage
  dsimp only
  split
  · exact s.setTile_toldAtMost c u _
  · split
    · next l _ =>
      have told := (s.event_hostOnly 0x0202 kTile c u (Config.engineRef s.fresh c).toNat (64 * l)).toldAtMost c
      have put (x : State) (n : Nat) (y : Tile) : ToldAtMost c x (({ x with fresh := n } : State).setTile u y) := .of_eq rfl rfl
      exact (told.trans (put _ _ _)).trans (State.tellStop_toldAtMost _ c)
    · split
      · exact s.setTile_toldAtMost c u _
      · have told := fun e => (s.event_hostOnly 0x0302 kTile c u i e).toldAtMost c
        exact ((told _).trans (State.setTile_toldAtMost _ c u _)).trans (State.tellStop_toldAtMost _ c)

theorem State.restoreImages_toldAtMost (s : State) (c n : Nat) : ToldAtMost c s (s.restoreImages c n) := by
  unfold State.restoreImages
  refine ToldAtMost.foldl (fun t u => ?_) _ s
  exact (t.loadImage_toldAtMost c u _).trans (State.setTile_toldAtMost _ c u _)

theorem State.restoreTiles_toldAtMost (s : State) (c : Nat) (m : List Byte) (l : List TileRec) :
    ToldAtMost c s (s.restoreTiles c m l) := by
  unfold State.restoreTiles
  extract_lets s1
  have awaiting : ToldAtMost c s s1 := by
    refine ToldAtMost.foldl (fun t u => ?_) _ s
    exact t.setTile_toldAtMost c u _
  refine awaiting.trans (ToldAtMost.foldl (fun t r => ?_) l s1)
  exact t.setTile_toldAtMost c _ _

/-- A job with what a snapshot holds of its engine (R526). -/
structure Restored (j : Job) (snap : Snap) (only : Bool) : Prop where
  restored : j.restored = !only
  rules : j.rules = snap.engine.rules
  queues : j.queues = snap.engine.queues
  superstep : j.superstep = if only then 0 else snap.engine.superstep

theorem Restored.told {j : Job} {snap : Snap} {only : Bool} (h : Restored j snap only) (stop : Bool) :
    Restored { j with stop := stop } snap only := ⟨h.restored, h.rules, h.queues, h.superstep⟩

/-- The job of a context takes over what a snapshot holds of its engine (R526). -/
def State.engineRestored (s : State) (c : Nat) (snap : Snap) (only : Bool) (held : Nat) : State :=
  s.setJob c { s.job c with
    rules := snap.engine.rules, pendingRules := [], queues := snap.engine.queues
    tally := snap.engine.tally.set 13 (snap.engine.tally.get 0 13 + BitVec.ofNat 64 held)
    superstep := if only then 0 else snap.engine.superstep, restored := !only }

/-- A restore that no access fails writes memory back, then the job, and then its tiles unless it restores memory only. -/
theorem State.restoreFrom_eq {s u : State} {c : Nat} {snap : Snap} {only : Bool} {disp : Int} {m : List Byte} {held : Nat}
    (h : s.restoreFrom c snap only disp m held = (u, none)) : ∃ w, WritesBack s w ∧
      u = if only then w.engineRestored c snap only held
        else ((w.engineRestored c snap only held).restoreTiles c m snap.tiles).restoreImages c snap.engine.superstep := by
  have blocks := s.restoreBlocks_writesBack c disp snap.blocks
  unfold State.restoreFrom at h
  split at h
  · cases h
  · next s1 hb =>
    rw [hb] at blocks
    dsimp only at h blocks
    have lines := s1.restoreLines_writesBack c (s1.job c).cfg.scaleBase.toNat (2 * (s1.job c).cfg.scaleEntries.toNat)
      (fun i => fitBytes 64 (snap.scale.drop (64 * i))) snap.scalePoison
    split at h
    · cases h
    · next s2 hl =>
      rw [hl] at lines
      exact ⟨s2, blocks.trans lines, (congrArg Prod.fst h).symm⟩

theorem State.restoreFrom_done {s u : State} {c : Nat} {snap : Snap} {only : Bool} {disp : Int} {m : List Byte} {held : Nat}
    (h : s.restoreFrom c snap only disp m held = (u, none)) : Restored (u.job c) snap only ∧ (∀ d, d ≠ c → u.job d = s.job d) ∧
      NothingSent s u ∧ (only = true → u.tiles = s.tiles) := by
  obtain ⟨w, ⟨memory, sent⟩, hu⟩ := State.restoreFrom_eq h
  have kept : (∀ d, w.job d = s.job d) ∧ w.tiles = s.tiles := by
    obtain ⟨_, _, _, _, rfl⟩ := memory
    exact ⟨fun _ => rfl, rfl⟩
  have put : Restored ((w.engineRestored c snap only held).job c) snap only := by
    rw [State.engineRestored, State.job_setJob_same]
    exact ⟨rfl, rfl, rfl, rfl⟩
  have others (d : Nat) (hd : d ≠ c) : (w.engineRestored c snap only held).job d = s.job d :=
    (State.job_setJob_other _ _ hd).trans (kept.1 d)
  have told : ToldAtMost c (w.engineRestored c snap only held) u := by
    rw [hu]
    split
    · exact .of_eq rfl rfl
    · exact (State.restoreTiles_toldAtMost _ c m _).trans (State.restoreImages_toldAtMost _ c _)
  obtain ⟨⟨stop, own⟩, same, porters⟩ := told
  refine ⟨own ▸ put.told stop, fun d hd => (same d hd).trans (others d hd), sent.trans (.of_porters porters), fun honly => ?_⟩
  rw [hu, if_pos honly]
  exact kept.2

/-! ### The command -/

/-- What a RESTORE notes in its Porter: where the recovery point stands, or the request that it sent (R526). -/
def Porter.restoredFrom (p : Porter) (source port i : Nat) (step : Word) : Porter :=
  if source = 0 then { p with newestValid := true, newestSlot := i == 1, recoveryStep := step }
  else if source = 1 then { p with out := p.out ++ [(port, .request step)] } else p

/-- The fields of a RESTORE's body that its source uses are within their bounds. -/
theorem restoreBody_fits {s : State} {e : Entry}
    (hport : bodyAt e.raw 0 1 = 1 → bodyAt e.raw 1 1 ≤ 1 ∧ (s.port (bodyAt e.raw 1 1)).joined = true)
    (hslot : bodyAt e.raw 0 1 = 2 → bodyAt e.raw 2 1 ≤ 1) (hdisp : bodyAt e.raw 0 1 ≠ 2 → bodyAt e.raw 8 8 = 0) :
    ¬ (bodyAt e.raw 0 1 = 1 ∧ 1 < bodyAt e.raw 1 1) ∧ ¬ (bodyAt e.raw 0 1 = 2 ∧ 1 < bodyAt e.raw 2 1) ∧
      ¬ (¬ bodyAt e.raw 0 1 = 2 ∧ ¬ signedOf 64 (bodyAt e.raw 8 8) = 0) ∧
      ¬ (bodyAt e.raw 0 1 = 1 ∧ (!(s.port (bodyAt e.raw 1 1)).joined) = true) := by
  refine ⟨fun h => ?_, fun h => ?_, fun h => h.2 ?_, fun h => ?_⟩
  · exact absurd h.2 (Nat.not_lt.2 (hport h.1).1)
  · exact absurd h.2 (Nat.not_lt.2 (hslot h.1))
  · rw [hdisp h.1]; rfl
  · rw [(hport h.1).2] at h
    cases h.2

section
variable {s : State} {ring : Fin 64} {view : HostView} {remote : List Part} {e : Entry}
  (he : s.hostEntryOf ring.val 0x33 (fun raw => bodyAt raw 16 8 != 0) = some e) (hcmd : JobCmd s ring e 32)
  (hsource : bodyAt e.raw 0 1 ≤ 2)
  (hport : bodyAt e.raw 0 1 = 1 → bodyAt e.raw 1 1 ≤ 1 ∧ (s.port (bodyAt e.raw 1 1)).joined = true)
  (hslot : bodyAt e.raw 0 1 = 2 → bodyAt e.raw 2 1 ≤ 1) (hflags : bodyAt e.raw 3 1 ≤ 1)
  (hdisp : bodyAt e.raw 0 1 ≠ 2 → bodyAt e.raw 8 8 = 0) (hmap : bodyAt e.raw 16 8 % 64 = 0)
  (hloaded : (s.job (headerCtx e.raw)).phase = .loaded) (hbegun : (s.job (headerCtx e.raw)).stepsBegun = 0)
  (hwaiting : (s.job (headerCtx e.raw)).waitingSteps = [])
include he hcmd hsource hport hslot hflags hdisp hmap hloaded hbegun hwaiting

theorem exec_restore_none (hnone : (s.porter (headerCtx e.raw)).source (bodyAt e.raw 0 1) (bodyAt e.raw 2 1)
    (BitVec.ofNat 32 (bodyAt e.raw 4 4)) remote = none) :
    exec (.restore ring view remote) s = .next (s.reject ring.val e.index (headerCtx e.raw) 4) := by
  obtain ⟨k1, k2, k3, k4⟩ := restoreBody_fits hport hslot hdisp
  change execRestore ring view remote s = _
  unfold execRestore
  simp only [he, show s.jobCommand ring.val e.raw 32 = none from hcmd, Nat.not_lt.2 hsource, k1, k2, Nat.not_lt.2 hflags, k3, hmap,
    hloaded, hbegun, hwaiting, ne_eq, not_true, or_self, if_false, k4, hnone]

theorem exec_restore_some {i : Nat} {snap : Snap} {m : List Byte} {u : State}
    (hsome : (s.porter (headerCtx e.raw)).source (bodyAt e.raw 0 1) (bodyAt e.raw 2 1)
      (BitVec.ofNat 32 (bodyAt e.raw 4 4)) remote = some (i, snap))
    (hown : bodyAt e.raw 16 8 = 0 → m = (List.range 100).map fun k => BitVec.ofNat 8 k)
    (hhost : bodyAt e.raw 16 8 ≠ 0 → HostView.read view (bodyAt e.raw 16 8) 100 = .ok m)
    (htag : snap.tag = (s.job (headerCtx e.raw)).cfg.tag)
    (hcoord : bodyAt e.raw 0 1 = 1 → snap.coord = s.selfCoord.extractLsb' 0 20) (hcrc : ∀ b ∈ snap.blocks, b.crcOk = true)
    (hfit : bitOf (bodyAt e.raw 3 1) 0 = true ∨ ∀ r ∈ snap.tiles, s.recordFits (headerCtx e.raw) m r = true)
    (hfrom : s.restoreFrom (headerCtx e.raw) snap (bitOf (bodyAt e.raw 3 1) 0) (signedOf 64 (bodyAt e.raw 8 8)) m
      (bodyAt e.raw 24 8) = (u, none)) :
    ∃ t, exec (.restore ring view remote) s = .next t ∧ HostOnly (u.setPorter (headerCtx e.raw)
      ((u.porter (headerCtx e.raw)).restoredFrom (bodyAt e.raw 0 1) (bodyAt e.raw 1 1) i (BitVec.ofNat 32 (bodyAt e.raw 4 4)))) t := by
  obtain ⟨k1, k2, k3, k4⟩ := restoreBody_fits hport hslot hdisp
  have column : (if bodyAt e.raw 16 8 = 0 then HostRead.ok ((List.range 100).map fun k => BitVec.ofNat 8 k)
      else HostView.read view (bodyAt e.raw 16 8) 100) = .ok m := by
    split
    · next h => rw [hown h]
    · next h => exact hhost h
  have tagged : (snap.tag != (s.job (headerCtx e.raw)).cfg.tag) = false := by rw [htag]; exact bne_self_eq_false _
  have placed : (bodyAt e.raw 0 1 == 1 && snap.coord != s.selfCoord.extractLsb' 0 20) = false := by
    by_cases h : bodyAt e.raw 0 1 = 1
    · rw [hcoord h, bne_self_eq_false, Bool.and_false]
    · rw [beq_false_of_ne h, Bool.false_and]
  have sound : (snap.blocks.any fun b => !b.crcOk) = false := List.any_eq_false.2 fun b hb => by simp [hcrc b hb]
  have fits : (!bitOf (bodyAt e.raw 3 1) 0 && !(snap.tiles.all fun r => s.recordFits (headerCtx e.raw) m r)) = false := by
    rcases hfit with h | h
    · rw [h]; rfl
    · rw [List.all_eq_true.2 h]; exact Bool.and_false _
  change ∃ t, execRestore ring view remote s = _ ∧ _
  unfold execRestore
  simp only [he, show s.jobCommand ring.val e.raw 32 = none from hcmd, Nat.not_lt.2 hsource, k1, k2, Nat.not_lt.2 hflags, k3, hmap,
    hloaded, hbegun, hwaiting, ne_eq, not_true, or_self, if_false, k4, hsome, column, tagged, placed, sound, fits, hfrom,
    Bool.or_self, Bool.false_eq_true]
  exact ⟨_, rfl, (State.event_hostOnly _ _ _ _ _ _ _).trans (State.complete_hostOnly _ _ _ _ _ _ _)⟩

end

/-- What a RESTORE leaves: the job and its tiles as `restoreFrom` left them, and its Porter with the source noted (R526). -/
theorem restored_keeps {s u t : State} {c source port i held : Nat} {step : Word} {snap : Snap} {only : Bool} {disp : Int}
    {m : List Byte} (hfrom : s.restoreFrom c snap only disp m held = (u, none))
    (ht : HostOnly (u.setPorter c ((u.porter c).restoredFrom source port i step)) t) :
    (t.job c).restored = !only ∧ (t.job c).rules = snap.engine.rules ∧ (t.job c).queues = snap.engine.queues ∧
      (t.job c).superstep = (if only then 0 else snap.engine.superstep) ∧
      (source = 0 → (t.porter c).recoveryStep = step ∧ (t.porter c).newestValid = true ∧ (t.porter c).newestSlot = (i == 1)) ∧
      (source = 1 → (t.porter c).out = (s.porter c).out ++ [(port, .request step)]) ∧
      t.mem = u.mem ∧ t.tiles = u.tiles ∧ (only = true → t.tiles = s.tiles) ∧ ∀ d, d ≠ c → t.job d = s.job d := by
  obtain ⟨put, others, sent, tiles⟩ := State.restoreFrom_done hfrom
  obtain ⟨_, rfl⟩ := ht
  have own : (u.setPorter c ((u.porter c).restoredFrom source port i step)).porter c = (u.porter c).restoredFrom source port i step :=
    State.porter_setPorter_same _ _ _
  refine ⟨put.restored, put.rules, put.queues, put.superstep, fun hs => ?_, fun hs => ?_, rfl, rfl, tiles, others⟩
  · change ((u.setPorter c _).porter c).recoveryStep = _ ∧ ((u.setPorter c _).porter c).newestValid = _ ∧
      ((u.setPorter c _).porter c).newestSlot = _
    rw [own, Porter.restoredFrom, if_pos hs]
    exact ⟨rfl, rfl, rfl⟩
  · change ((u.setPorter c _).porter c).out = _
    rw [own, Porter.restoredFrom, if_neg (by omega), if_pos hs, ← sent c]

end Sys2Proof.Machine

namespace Sys2Proof
open Sys2Proof.Machine Sys2Proof.Claims

/-- Settles O39, the three commands one by one: each runs through its checks to one answer, and what the answer leaves is
read off the frame of its parts, the lines emitted, the arrays read and the snapshot written back. -/
theorem copiesAreDelivered : Obligations.CopiesAreDelivered := by
  refine ⟨fun s ring e => ?ship, fun s r ring e => ?layer, fun s ring view remote e => ?restore⟩
  case ship =>
    intro c p kind port dst he hcmd hdst hkind hport hctx hrest
    refine ⟨exec_ship_waits he hcmd hdst hkind hport hctx hrest, fun hready hfree => ⟨fun i snap hpick => ?_, fun hpick => ?_⟩⟩
    · exact shipmentDelivered he hcmd hdst hkind hport hctx hrest hready hfree hpick
    · exact ⟨_, exec_ship_none he hcmd hdst hkind hport hctx hrest hready hfree hpick, 0, 0, 0, rfl⟩
  case layer =>
    intro c he hcmd hdst
    exact ⟨fun x ls u => layerDelivered he hcmd hdst, layerAbsent he hcmd hdst⟩
  case restore =>
    intro c source port slot step map only p he hcmd hsource hport hslot hflags hdisp hmap hloaded hbegun hwaiting
    refine ⟨fun hnone => ?_, fun i snap m u hsome hown hhost htag hcoord hcrc hfit hfrom => ?_⟩
    · obtain ⟨u, ends, told⟩ := s.reject_ends ring e c 4
      exact ⟨_, u, exec_restore_none he hcmd hsource hport hslot hflags hdisp hmap hloaded hbegun hwaiting hnone, ends, told⟩
    · obtain ⟨t, run, left⟩ := exec_restore_some he hcmd hsource hport hslot hflags hdisp hmap hloaded hbegun hwaiting hsome hown
        hhost htag hcoord hcrc hfit hfrom
      exact ⟨t, run, restored_keeps hfrom left⟩

end Sys2Proof
end

section
/-! The queue stands (O57): what each part of the model does with the queue of commands, which is nothing, and where a command stops
the machine (R210, R590). The parts stand in the order of the model. A function that returns a state keeps its `pending`, one that
returns an outcome `LeavesQueue`. -/

namespace Sys2Proof.Machine
open Sys2Proof.Claims

/-- A command goes on, and the queue stands as it did. -/
inductive LeavesQueue (s : State) : Out → Prop
  | next {t : State} (h : t.pending = s.pending) : LeavesQueue s (.next t)

theorem LeavesQueue.next_iff {s t : State} : LeavesQueue s (.next t) ↔ t.pending = s.pending :=
  ⟨fun ⟨h⟩ => h, .next⟩

theorem LeavesQueue.refl (s : State) : LeavesQueue s (.next s) := .next rfl

theorem foldl_pending {α : Type} {f : State → α → State} (h : ∀ t a, (f t a).pending = t.pending) (l : List α) (s : State) :
    (l.foldl f s).pending = s.pending :=
  List.foldlRecOn l f (motive := fun t : State => t.pending = s.pending) rfl fun t ht a _ => (h t a).trans ht

theorem foldl_fst_pending {α β : Type} {f : State × β → α → State × β} (h : ∀ r a, (f r a).1.pending = r.1.pending) (l : List α)
    (r : State × β) : (l.foldl f r).1.pending = r.1.pending :=
  List.foldlRecOn l f (motive := fun t : State × β => t.1.pending = r.1.pending) rfl fun t ht a _ => (h t a).trans ht

/-! ### The shared operations -/

theorem State.setTaskAt_pending (s : State) (w : Site) (t : Task) : (s.setTaskAt w t).pending = s.pending := by
  simp only [State.setTaskAt, State.setTile_pending]

theorem State.emit_pending (s : State) (w : HostWrite) : (s.emit w).pending = s.pending :=
  (State.emit_hostOnly _ _).fields.1

theorem State.record_pending (s : State) (r : LogRec) : (s.record r).pending = s.pending := by
  simp only [State.record]

theorem State.putEvent_pending (s : State) (n : Nat) (e : Ev) : (s.putEvent n e).pending = s.pending :=
  (State.putEvent_hostOnly _ _ _).fields.1

theorem State.deliverDevice_pending (s : State) (e : Ev) : (s.deliverDevice e).pending = s.pending :=
  (State.deliverDevice_hostOnly _ _).fields.1

theorem State.raise_pending (s : State) (e : Ev) : (s.raise e).pending = s.pending :=
  (State.raise_hostOnly _ _).fields.1

theorem State.event_pending (s : State) (code : BitVec 16) (kind : BitVec 4) (ctx src : Nat) (arg0 arg1 : Nat) :
    (s.event code kind ctx src arg0 arg1).pending = s.pending :=
  (State.event_hostOnly _ _ _ _ _ _ _).fields.1

theorem State.complete_pending (s : State) (ring : Nat) (index : BitVec 16) (status : Byte) (a b c : Dword) :
    (s.complete ring index status a b c).pending = s.pending :=
  (State.complete_hostOnly _ _ _ _ _ _ _).fields.1

theorem State.startEntry_pending (s : State) (ring : Nat) (index : BitVec 16) : (s.startEntry ring index).pending = s.pending :=
  (State.startEntry_hostOnly _ _ _).fields.1

theorem State.tallyAdd_pending (s : State) (c cause n : Nat) : (s.tallyAdd c cause n).pending = s.pending :=
  (State.tallyAdd_work _ _ _ _).1

theorem State.contractStall_pending (s : State) (tile n : Nat) : (s.contractStall tile n).pending = s.pending :=
  (State.contractStall_work _ _ _).1

theorem State.abandon_pending (s : State) (c : Nat) : (s.abandon c).pending = s.pending :=
  (State.abandon_work _ _).1

theorem State.stopNow_pending (s : State) (c : Nat) : (s.stopNow c).pending = s.pending :=
  (State.stopNow_work _ _).1

theorem State.stopAtCurfew_pending (s : State) (c : Nat) : (s.stopAtCurfew c).pending = s.pending :=
  (State.stopAtCurfew_work _ _).1

theorem State.noteBucket_pending (s : State) (c : Nat) (action : Option Nat) (poison : Bool) :
    (s.noteBucket c action poison).pending = s.pending := by
  unfold State.noteBucket
  grind [State.setJob_pending]

theorem State.holdJob_pending (s : State) (c : Nat) : (s.holdJob c).pending = s.pending := by
  simp only [State.holdJob, State.setJob_pending]

/-! ### The offer of an instruction and the register instructions -/

theorem State.passFrom_pending (s : State) (tile : Nat) (l : List Delivered) : (s.passFrom tile l).pending = s.pending :=
  (State.passFrom_tileAndWork _ _ _).2.1

theorem State.haltTask_pending (s : State) (w : Site) (code : BitVec 16) (arg0 arg1 : Nat) :
    (s.haltTask w code arg0 arg1).pending = s.pending :=
  (State.haltTask_tileAndWork _ _ _ _ _).2.1

theorem State.retire_pending (s : State) (w : Site) (t : Task) : (s.retire w t).pending = s.pending :=
  (State.retire_tileAndWork _ _ _).2.1

theorem State.holdTask_pending (s : State) (w : Site) (h : Hold) : (s.holdTask w h).pending = s.pending :=
  (State.holdTask_tileAndWork _ _ _).2.1

theorem State.invalid_pending (s : State) (i : Instr) (w : Site) : (s.invalid i w).pending = s.pending := by
  simp only [State.invalid, State.haltTask_pending]

theorem State.operandBad_pending (s : State) (i : Instr) (w : Site) : (s.operandBad i w).pending = s.pending := by
  simp only [State.operandBad, State.haltTask_pending]

theorem State.outOfBounds_pending (s : State) (w : Site) (off : Nat) : (s.outOfBounds w off).pending = s.pending := by
  simp only [State.outOfBounds, State.haltTask_pending]

theorem State.eatTag_pending (s : State) (w : Site) : (s.eatTag w).pending = s.pending := by
  simp only [State.eatTag, State.haltTask_pending]

theorem State.eatPad_pending (s : State) (w : Site) (pa : Nat) : (s.eatPad w pa).pending = s.pending := by
  simp only [State.eatPad, State.haltTask_pending]

theorem State.issue_leavesQueue (s : State) (i : Instr) (w : Site) (eff : State → Out) (h : LeavesQueue s (eff s)) :
    LeavesQueue s (s.issue i w eff) := by
  unfold State.issue
  split
  · exact .refl s
  · exact .next (State.haltTask_pending s w _ _ _)
  · exact .next (State.haltTask_pending s w _ _ _)
  · exact .next (State.retire_pending s w _)
  · exact h

theorem State.regEffect_leavesQueue (s : State) (i : Instr) (w : Site) (o : RegOp) : LeavesQueue s (s.regEffect i w o) := by
  unfold State.regEffect
  grind [LeavesQueue.next_iff, State.invalid_pending, State.holdTask_pending, State.eatTag_pending, State.operandBad_pending,
    State.setTile_pending]

theorem State.regOp_leavesQueue (s : State) (i : Instr) (w : Site) (o : RegOp) : LeavesQueue s (s.regOp i w o) :=
  s.issue_leavesQueue i w _ (s.regEffect_leavesQueue i w o)

/-! ### Scratchpad loads and stores -/

theorem State.access_leavesQueue (s : State) (w : Site) (f : FM) (ss : List (BitVec 5)) (vs : List (BitVec 4)) (size : Nat)
    (store : Bool) (eff : State → Nat → Out) (h : ∀ off, LeavesQueue s (eff s off)) : LeavesQueue s (s.access w f ss vs size store eff) := by
  unfold State.access
  grind [LeavesQueue.next_iff, State.holdTask_pending, State.eatTag_pending, State.outOfBounds_pending]

theorem State.startLoad_pending (s : State) (w : Site) (vector : Bool) (dest : BitVec 5) (off size : Nat) (value : List Byte → VReg) :
    (s.startLoad w vector dest off size value).pending = s.pending := by
  simp only [State.startLoad, State.contractStall_pending, State.setTile_pending]

theorem State.startStore_pending (s : State) (w : Site) (vector : Bool) (off : Nat) (data : List Byte) (tag : Bool) :
    (s.startStore w vector off data tag).pending = s.pending := by
  simp only [State.startStore, State.setTile_pending]

theorem execLd_leavesQueue (w : Site) (f : FM) (s : State) : LeavesQueue s (execLd w f s) := by
  unfold execLd
  grind [LeavesQueue.next_iff, State.issue_leavesQueue, State.access_leavesQueue, State.startLoad_pending]

theorem execSt_leavesQueue (w : Site) (f : FM) (s : State) : LeavesQueue s (execSt w f s) := by
  unfold execSt
  grind [LeavesQueue.next_iff, State.issue_leavesQueue, State.invalid_pending, State.access_leavesQueue, State.startStore_pending]

theorem execVld_leavesQueue (w : Site) (f : FM) (s : State) : LeavesQueue s (execVld w f s) := by
  unfold execVld
  grind [LeavesQueue.next_iff, State.issue_leavesQueue, State.invalid_pending, State.access_leavesQueue, State.startLoad_pending]

theorem execVst_leavesQueue (w : Site) (f : FM) (s : State) : LeavesQueue s (execVst w f s) := by
  unfold execVst
  grind [LeavesQueue.next_iff, State.issue_leavesQueue, State.invalid_pending, State.access_leavesQueue, State.startStore_pending]

theorem execScratchpadLoadReturn_leavesQueue (w : Site) (n : Nat) (s : State) : LeavesQueue s (execScratchpadLoadReturn w n s) := by
  unfold execScratchpadLoadReturn
  grind [LeavesQueue.next_iff, State.setTaskAt_pending]

/-! ### The grid and its repair -/

theorem State.writeUsable_pending (s : State) (row : Nat) : (s.writeUsable row).pending = s.pending := by
  simp only [State.writeUsable]

theorem State.setSwitches_pending (s : State) (row : Nat) : (s.setSwitches row).pending = s.pending := by
  simp only [State.setSwitches]

theorem State.applyRow_pending (s : State) (row : Nat) : (s.applyRow row).pending = s.pending := by
  simp only [State.applyRow, State.setSwitches_pending, State.writeUsable_pending]

theorem State.applyRepairs_pending (s : State) : s.applyRepairs.pending = s.pending := by
  unfold State.applyRepairs
  refine foldl_pending (fun t a => ?_) _ _
  grind [State.applyRow_pending]

theorem State.retireTile_pending (s : State) (phys : Nat) : (s.retireTile phys).pending = s.pending := by
  unfold State.retireTile
  grind

/-! ### The array -/

theorem execArun_leavesQueue (w : Site) (f : FA) (s : State) : LeavesQueue s (execArun w f s) := by
  unfold execArun
  grind [LeavesQueue.next_iff, State.issue_leavesQueue, State.invalid_pending, State.holdTask_pending, State.eatTag_pending,
    State.operandBad_pending, State.outOfBounds_pending, State.eatPad_pending, State.setTile_pending]

theorem execArrayRunStart_leavesQueue (tile : Nat) (s : State) : LeavesQueue s (execArrayRunStart tile s) := by
  unfold execArrayRunStart
  grind [LeavesQueue.next_iff, State.contractStall_pending, State.setTile_pending]

theorem execArrayBlockComplete_leavesQueue (tile : Nat) (flips : List (Nat × Word)) (s : State) :
    LeavesQueue s (execArrayBlockComplete tile flips s) := by
  unfold execArrayBlockComplete
  grind [LeavesQueue.next_iff, State.setTile_pending]

theorem State.checkSpares_pending (s : State) (c tile : Nat) : (s.checkSpares c tile).pending = s.pending := by
  unfold State.checkSpares
  grind [State.event_pending]

theorem State.verdictEvent_pending (s : State) (tile : Nat) (r : Run) (a : Arbitration) (code : BitVec 16) :
    (s.verdictEvent tile r a code).pending = s.pending := by
  unfold State.verdictEvent
  grind [State.event_pending, State.record_pending]

theorem State.keepBlock_pending (s : State) (tile id : Nat) (totals : List Word) : (s.keepBlock tile id totals).pending = s.pending := by
  simp only [State.keepBlock, State.setTile_pending]

theorem State.decide__pending (s : State) (tile : Nat) (r : Run) (a : Arbitration) : (s.decide_ tile r a).pending = s.pending := by
  unfold State.decide_
  grind [State.setTile_pending, State.verdictEvent_pending, State.checkSpares_pending, State.holdJob_pending, State.keepBlock_pending]

theorem execRepeatRunComplete_leavesQueue (tile : Nat) (flips : List (Nat × Word)) (s : State) :
    LeavesQueue s (execRepeatRunComplete tile flips s) := by
  unfold execRepeatRunComplete
  grind [LeavesQueue.next_iff, State.decide__pending]

theorem execSpareRunComplete_leavesQueue (tile : Nat) (flips : List (Nat × Word)) (s : State) :
    LeavesQueue s (execSpareRunComplete tile flips s) := by
  unfold execSpareRunComplete
  grind [LeavesQueue.next_iff, State.decide__pending]

theorem execAdrn_leavesQueue (w : Site) (f : FA) (s : State) : LeavesQueue s (execAdrn w f s) := by
  unfold execAdrn
  grind [LeavesQueue.next_iff, State.issue_leavesQueue, State.invalid_pending, State.eatTag_pending, State.operandBad_pending,
    State.outOfBounds_pending, State.holdTask_pending, State.setTile_pending]

theorem execArrayDrainLineWrite_leavesQueue (tile : Nat) (s : State) : LeavesQueue s (execArrayDrainLineWrite tile s) := by
  unfold execArrayDrainLineWrite
  grind [LeavesQueue.next_iff, State.haltTask_pending, State.setTile_pending, State.contractStall_pending]

theorem execAchk_leavesQueue (w : Site) (f : FA) (s : State) : LeavesQueue s (execAchk w f s) := by
  unfold execAchk
  grind [LeavesQueue.next_iff, State.issue_leavesQueue, State.invalid_pending, State.holdTask_pending, State.retire_pending]

theorem execAccopen_leavesQueue (w : Site) (f : FT) (s : State) : LeavesQueue s (execAccopen w f s) := by
  unfold execAccopen
  grind [LeavesQueue.next_iff, State.issue_leavesQueue, State.invalid_pending, State.holdTask_pending, State.eatTag_pending,
    State.operandBad_pending, State.retire_pending]

theorem execAccRegionOpen_leavesQueue (w : Site) (s : State) : LeavesQueue s (execAccRegionOpen w s) := by
  unfold execAccRegionOpen
  grind [LeavesQueue.next_iff, State.setTaskAt_pending]

/-! ### Messages, handlers and fences -/

theorem execSend_leavesQueue (w : Site) (f : FX) (s : State) : LeavesQueue s (execSend w f s) := by
  unfold execSend
  grind [LeavesQueue.next_iff, State.issue_leavesQueue, State.invalid_pending, State.holdTask_pending, State.eatTag_pending,
    State.operandBad_pending, State.outOfBounds_pending, State.haltTask_pending, State.setTile_pending]

theorem execSwait_leavesQueue (w : Site) (f : FT) (s : State) : LeavesQueue s (execSwait w f s) := by
  unfold execSwait
  grind [LeavesQueue.next_iff, State.issue_leavesQueue, State.invalid_pending, State.holdTask_pending, State.retire_pending]

theorem execCurf_leavesQueue (w : Site) (f : FT) (s : State) : LeavesQueue s (execCurf w f s) := by
  unfold execCurf
  grind [LeavesQueue.next_iff, State.issue_leavesQueue, State.invalid_pending, State.holdTask_pending, State.retire_pending]

theorem execHend_leavesQueue (w : Site) (f : FT) (s : State) : LeavesQueue s (execHend w f s) := by
  unfold execHend
  grind [LeavesQueue.next_iff, State.issue_leavesQueue, State.invalid_pending, State.passFrom_pending, State.setTile_pending]

theorem execTwait_leavesQueue (w : Site) (f : FT) (s : State) : LeavesQueue s (execTwait w f s) := by
  unfold execTwait
  grind [LeavesQueue.next_iff, State.issue_leavesQueue, State.invalid_pending, State.holdTask_pending, State.eatTag_pending,
    State.operandBad_pending, State.retire_pending]

theorem execTend_leavesQueue (w : Site) (f : FT) (s : State) : LeavesQueue s (execTend w f s) := by
  unfold execTend
  grind [LeavesQueue.next_iff, State.issue_leavesQueue, State.invalid_pending, State.retire_pending]

theorem execFence_leavesQueue (w : Site) (f : FT) (s : State) : LeavesQueue s (execFence w f s) := by
  unfold execFence
  grind [LeavesQueue.next_iff, State.issue_leavesQueue, State.invalid_pending, State.holdTask_pending, State.retire_pending]

theorem execTflag_leavesQueue (w : Site) (f : FT) (s : State) : LeavesQueue s (execTflag w f s) := by
  unfold execTflag
  grind [LeavesQueue.next_iff, State.issue_leavesQueue, State.invalid_pending, State.retire_pending]

/-! ### Memory and its frames -/

theorem State.bankOver_pending (s : State) (m b : Nat) : (s.bankOver m b).pending = s.pending := by
  simp only [State.bankOver, State.record_pending]

theorem State.countCorrected_pending (s : State) (pa : Nat) : (s.countCorrected pa).pending = s.pending := by
  unfold State.countCorrected
  grind [State.setStack_pending, State.bankOver_pending, State.event_pending]

theorem State.bankSummaries_pending (s : State) : s.bankSummaries.pending = s.pending := by
  unfold State.bankSummaries
  refine foldl_pending (fun t m => foldl_pending (fun u b => ?_) _ t) _ s
  grind [State.record_pending]

theorem State.countUncorrectable_pending (s : State) (line : Nat) : (s.countUncorrectable line).pending = s.pending := by
  simp only [State.countUncorrectable, State.setStack_pending, State.event_pending]

theorem State.storeLine_pending (s : State) (line : Nat) (l : List Byte) : (s.storeLine line l).pending = s.pending := by
  simp only [State.storeLine]

theorem State.applyInjection_pending (s : State) (line : Nat) : (s.applyInjection line).pending = s.pending := by
  unfold State.applyInjection
  grind

theorem State.readLine_pending (s : State) (line : Nat) : (s.readLine line).1.pending = s.pending := by
  unfold State.readLine
  grind [State.countCorrected_pending, State.storeLine_pending, State.applyInjection_pending, State.countUncorrectable_pending]

theorem State.setOwner_pending (s : State) (frame : Nat) (b : Byte) : (s.setOwner frame b).pending = s.pending := by
  simp only [State.setOwner, State.readLine_pending, State.applyInjection_pending]

theorem State.demand_pending (s : State) (pa n : Nat) : (s.demand pa n).pending = s.pending := by
  unfold State.demand
  refine foldl_pending (fun t a => ?_) _ _
  grind [State.readLine_pending]

theorem State.copyBefore_pending (s : State) (frame : Nat) : (s.copyBefore frame).pending = s.pending := by
  unfold State.copyBefore
  refine foldl_pending (fun t a => ?_) _ _
  grind [State.demand_pending, State.setPorter_pending]

theorem State.markDirty_pending (s : State) (frame : Nat) : (s.markDirty frame).pending = s.pending := by
  unfold State.markDirty
  grind

theorem State.putLine_pending (s : State) (line : Nat) (whole : Bool) (merge : List Byte → List Byte) (poison : Bool) :
    (s.putLine line whole merge poison).pending = s.pending := by
  unfold State.putLine
  grind [State.markDirty_pending, State.copyBefore_pending, State.readLine_pending, State.applyInjection_pending]

theorem State.writeLine_pending (s : State) (pa : Nat) (data : List Byte) (poison : Bool) : (s.writeLine pa data poison).pending = s.pending := by
  simp only [State.writeLine, State.putLine_pending]

theorem State.writeSpan_pending (s : State) (pa : Nat) (data : List Byte) (poison : Bool) (n : Nat) :
    (s.writeSpan pa data poison n).pending = s.pending := by
  induction n generalizing s pa data poison with
  | zero => rfl
  | succ n ih =>
    unfold State.writeSpan
    grind [State.writeLine_pending]

theorem State.writeBytes_pending (s : State) (pa : Nat) (data : List Byte) (poison : Bool) :
    (s.writeBytes pa data poison).pending = s.pending := by
  simp only [State.writeBytes, State.writeSpan_pending]

theorem State.demandFrom_pending (s : State) (c va : Nat) (table level : Nat) (n : Nat) :
    (s.demandFrom c va table level n).pending = s.pending := by
  induction n generalizing s c va table level with
  | zero => rfl
  | succ n ih =>
    unfold State.demandFrom
    grind [State.demand_pending]

theorem State.demandWalks_pending (s : State) (c va n : Nat) (n' : Nat) : (s.demandWalks c va n n').pending = s.pending := by
  induction n' generalizing s c va n with
  | zero => rfl
  | succ n' ih =>
    unfold State.demandWalks
    grind [State.demandFrom_pending]

theorem State.writePages_pending (s : State) (data : List Byte) (poison : Bool) (l : List (Nat × Nat)) :
    (s.writePages data poison l).pending = s.pending := by
  induction l generalizing s data poison with
  | nil => rfl
  | cons x l ih =>
    unfold State.writePages
    grind [State.writeBytes_pending]

theorem State.demandPages_pending (s : State) (pages : List (Nat × Nat)) : (s.demandPages pages).pending = s.pending := by
  unfold State.demandPages
  refine foldl_pending (fun t a => ?_) _ _
  grind [State.demand_pending]

theorem State.vdemand_pending (s : State) (c : Nat) (va n : Nat) : (s.vdemand c va n).pending = s.pending := by
  unfold State.vdemand
  grind [State.demandWalks_pending, State.demandPages_pending]

theorem State.vwrite_pending (s : State) (c : Nat) (va : Nat) (data : List Byte) (poison : Bool) :
    (s.vwrite c va data poison).1.pending = s.pending := by
  unfold State.vwrite
  grind [State.demandWalks_pending, State.writePages_pending]

theorem State.stopEvent_pending (s : State) (c : Nat) (kind : BitVec 4) (unit ref : Nat) (e : Stop) :
    (s.stopEvent c kind unit ref e).pending = s.pending := by
  unfold State.stopEvent
  grind [State.event_pending]

theorem State.engineStop_pending (s : State) (c : Nat) (kind : BitVec 4) (unit ref : Nat) (why : Stop) :
    (s.engineStop c kind unit ref why).pending = s.pending := by
  simp only [State.engineStop, State.stopAtCurfew_pending, State.stopEvent_pending]

theorem State.upset_pending (s : State) (line : Nat) (u : List (Nat × Byte)) : (s.upset line u).pending = s.pending := by
  simp only [State.upset]

theorem execRefresh_leavesQueue (stack : Fin 8) (bank : Nat) (s : State) : LeavesQueue s (execRefresh stack bank s) := by
  unfold execRefresh
  grind [LeavesQueue.next_iff, State.setStack_pending]

theorem State.reject_pending (s : State) (ring : Nat) (index : BitVec 16) (ctx : Nat) (byte : Nat) :
    (s.reject ring index ctx byte).pending = s.pending := by
  simp only [State.reject, State.complete_pending, State.event_pending]

theorem execFrameAssign_leavesQueue (ring : Fin 64) (s : State) : LeavesQueue s (execFrameAssign ring s) := by
  unfold execFrameAssign
  dsimp only
  (repeat' split) <;> simp only [LeavesQueue.next_iff, foldl_pending, implies_true, State.reject_pending, State.complete_pending,
    State.setOwner_pending]

theorem execFrameRelease_leavesQueue (ring : Fin 64) (s : State) : LeavesQueue s (execFrameRelease ring s) := by
  unfold execFrameRelease
  dsimp only
  (repeat' split) <;> simp only [LeavesQueue.next_iff, foldl_pending, implies_true, State.reject_pending, State.setOwner_pending,
    State.startEntry_pending, State.complete_pending]

theorem State.zeroFrame_pending (s : State) (frame : Nat) : (s.zeroFrame frame).pending = s.pending := by
  unfold State.zeroFrame
  grind [State.applyInjection_pending]

theorem State.dropCopies_pending (s : State) (frame : Nat) : (s.dropCopies frame).pending = s.pending := by
  unfold State.dropCopies
  refine foldl_pending (fun t a => ?_) _ _
  grind [State.setPorter_pending]

theorem execFrameZero_leavesQueue (frame : Nat) (s : State) : LeavesQueue s (execFrameZero frame s) := by
  unfold execFrameZero
  grind [LeavesQueue.next_iff, State.setOwner_pending, State.dropCopies_pending, State.zeroFrame_pending, State.complete_pending]

theorem State.writeInject_pending (s : State) (value : Dword) : (s.writeInject value).pending = s.pending := by
  unfold State.writeInject
  grind

theorem execMemInjectArm_leavesQueue (value : Dword) (s : State) : LeavesQueue s (execMemInjectArm value s) := by
  unfold execMemInjectArm
  grind [LeavesQueue.next_iff, State.writeInject_pending]

/-! ### The scale table -/

theorem State.scaleWrite_pending (s : State) (c tensor : Nat) (e : ScaleEntry) : (s.scaleWrite c tensor e).1.pending = s.pending := by
  simp only [State.scaleWrite, State.vwrite_pending]

theorem State.scaleUpdate_pending (s : State) (c tensor : Nat) (f : ScaleEntry → ScaleEntry) :
    (s.scaleUpdate c tensor f).1.pending = s.pending := by
  unfold State.scaleUpdate
  grind [State.vdemand_pending, State.scaleWrite_pending]

theorem State.scaleStep_pending (s : State) (c tensor : Nat) (f : ScaleEntry → ScaleEntry) : (s.scaleStep c tensor f).pending = s.pending := by
  unfold State.scaleStep
  grind [State.scaleUpdate_pending, State.engineStop_pending]

theorem State.clearSlots_pending (s : State) (c tensor : Nat) : (s.clearSlots c tensor).pending = s.pending := by
  unfold State.clearSlots
  refine foldl_pending (fun t a => ?_) _ _
  grind [State.setTile_pending]

theorem State.readSlots_pending (s : State) (c tensor : Nat) : (s.readSlots c tensor).pending = s.pending := by
  simp only [State.readSlots, State.clearSlots_pending, State.scaleStep_pending]

theorem State.discardAmax_pending (s : State) (c tensor : Nat) : (s.discardAmax c tensor).pending = s.pending := by
  simp only [State.discardAmax, State.clearSlots_pending, State.scaleStep_pending]

theorem State.fillTask_pending (s : State) (c tile task : Nat) : (s.fillTask c tile task).pending = s.pending := by
  unfold State.fillTask
  dsimp only
  split
  · rfl
  · refine foldl_pending (fun t i => ?_) _ s
    grind [State.vdemand_pending, State.engineStop_pending, State.setTile_pending]

theorem State.fillSlots_pending (s : State) (c : Nat) : (s.fillSlots c).pending = s.pending := by
  simp only [State.fillSlots, foldl_pending, implies_true, State.fillTask_pending, State.setTile_pending]

theorem execAmaxCombineComplete_leavesQueue (ctx : Fin 8) (tensor : BitVec 16) (others : Word) (s : State) :
    LeavesQueue s (execAmaxCombineComplete ctx tensor others s) := by
  unfold execAmaxCombineComplete
  grind [LeavesQueue.next_iff, State.scaleStep_pending, State.clearSlots_pending, State.setJob_pending]

theorem State.probe_pending (s : State) (c tensor : Nat) (e : ScaleEntry) : (s.probe c tensor e).1.pending = s.pending := by
  unfold State.probe
  grind [State.vdemand_pending, State.scaleWrite_pending, State.setJob_pending]

theorem execProbeRequest_leavesQueue (ctx : Fin 8) (tensor : BitVec 16) (s : State) : LeavesQueue s (execProbeRequest ctx tensor s) := by
  unfold execProbeRequest
  grind [LeavesQueue.next_iff, State.engineStop_pending, State.vdemand_pending, State.probe_pending]

theorem execProbeCombineComplete_leavesQueue (ctx : Fin 8) (tensor : BitVec 16) (others : Word) (s : State) :
    LeavesQueue s (execProbeCombineComplete ctx tensor others s) := by
  unfold execProbeCombineComplete
  grind [LeavesQueue.next_iff, State.scaleStep_pending, State.setJob_pending]

/-! ### The Ostlers -/

theorem State.commitMem_pending (s : State) (l : List ByteWrite) : (s.commitMem l).pending = s.pending := by
  unfold State.commitMem
  refine foldl_pending (fun t a => ?_) _ _
  grind [State.putLine_pending]

theorem State.demandDst_pending (s : State) (c : Nat) (d : ODesc) (n : Nat) : (s.demandDst c d n).pending = s.pending := by
  unfold State.demandDst
  grind [State.demandWalks_pending]

theorem State.demandElems_pending (s : State) (c : Nat) (d : ODesc) (l : List Nat) : (s.demandElems c d l).pending = s.pending := by
  simp only [State.demandElems, foldl_pending, apply_ite State.pending, ite_self, implies_true, State.demandDst_pending,
    State.vdemand_pending]

theorem State.mapDesc_pending (s : State) (id : Nat) (f : Desc → Desc) : (s.mapDesc id f).pending = s.pending := by
  simp only [State.mapDesc]

theorem State.endDesc_pending (s : State) (id : Nat) (status : Byte) : (s.endDesc id status).pending = s.pending := by
  simp only [State.endDesc, State.mapDesc_pending]

theorem State.mergeScale_pending (s : State) (c : Nat) (d : ODesc) (g : Gathered) : (s.mergeScale c d g).1.pending = s.pending := by
  unfold State.mergeScale
  grind [State.scaleUpdate_pending]

theorem State.addElem_pending (c desc : Nat) (d : ODesc) (exp : Int) (pt : List (List Byte × Bool))
    (r : State × Gathered) (n : Nat) : (State.addElem c desc d exp pt r n).1.pending = r.1.pending := by
  unfold State.addElem
  grind [State.commitMem_pending, State.setTile_pending]

theorem State.gather_pending (s : State) (q : Desc) (d : ODesc) (k : Chunk) (en : Option ScaleEntry) :
    (s.gather q d k en).1.pending = s.pending := by
  unfold State.gather
  dsimp only
  split
  · rw [foldl_fst_pending (fun r n => State.addElem_pending _ _ _ _ _ r n), State.demandElems_pending]
  · exact s.demandElems_pending _ _ _

theorem State.performChunk_pending (s : State) (o : Nat) (q : Desc) (k : Chunk) : (s.performChunk o q k).pending = s.pending := by
  unfold State.performChunk
  dsimp only
  (repeat' split) <;> simp only [foldl_pending, implies_true, State.endDesc_pending, State.stopEvent_pending, State.gather_pending,
    State.commitMem_pending, State.setTile_pending, State.noteBucket_pending, State.setJob_pending, State.event_pending,
    State.mapDesc_pending, State.setOstler_pending, State.mergeScale_pending]

theorem State.takeDescriptor_pending (s : State) (src : Source) (index : BitVec 16) : (s.takeDescriptor src index).pending = s.pending := by
  unfold State.takeDescriptor
  grind [State.startEntry_pending]

theorem State.finishDesc_pending (s : State) (src : Source) (index : BitVec 16) (ctx : Nat) (action : Option Nat) (status : Byte)
    (a b c : Nat) :
    (s.finishDesc src index ctx action status a b c).pending = s.pending := by
  unfold State.finishDesc
  grind [State.complete_pending, State.setJob_pending]

theorem execOstlerDescriptorFetch_leavesQueue (src : Source) (s : State) : LeavesQueue s (execOstlerDescriptorFetch src s) := by
  unfold execOstlerDescriptorFetch
  split
  · exact .refl s
  · next index c action raw ep _ =>
    extract_lets j r0 d group o taken s1 s2 reject fail chk
    have demanded : s2.pending = s.pending := by
      change (if d.fp8Dst || d.fp8Src then s1.vdemand c (s1.scaleVA c d.tensor) 128 else s1).pending = _
      rw [apply_ite State.pending, State.vdemand_pending, ite_self]
      exact s.takeDescriptor_pending src index
    have rejected (code : BitVec 16) (n : Nat) : LeavesQueue s (reject s2 code n) := by
      refine .next ?_
      rw [State.stopAtCurfew_pending, State.finishDesc_pending, State.event_pending, demanded]
    have failed (t : State) (e : Stop) (h : t.pending = s.pending) : LeavesQueue s (fail t e) := by
      refine .next ?_
      rw [State.stopAtCurfew_pending, State.finishDesc_pending, State.stopEvent_pending, h]
    clear_value s2 reject fail
    grind [LeavesQueue.next_iff, State.event_pending, State.complete_pending, State.probe_pending]

theorem execOstlerChunkSplit_leavesQueue (ostler : Fin 40) (s : State) : LeavesQueue s (execOstlerChunkSplit ostler s) := by
  unfold execOstlerChunkSplit
  grind [LeavesQueue.next_iff, State.mapDesc_pending, State.setOstler_pending]

theorem execOstlerChunkRun_leavesQueue (ostler : Fin 40) (s : State) : LeavesQueue s (execOstlerChunkRun ostler s) := by
  unfold execOstlerChunkRun
  grind [LeavesQueue.next_iff, State.performChunk_pending, State.setOstler_pending]

theorem execChunkSteal_leavesQueue (ostler : Fin 40) (s : State) : LeavesQueue s (execChunkSteal ostler s) := by
  unfold execChunkSteal
  dsimp only
  (repeat' split) <;> simp only [LeavesQueue.next_iff, State.setOstler_pending]

theorem State.deliverToken_pending (s : State) (desc : Nat) (d : ODesc) (ok : Bool) : (s.deliverToken desc d ok).pending = s.pending := by
  unfold State.deliverToken
  grind [State.setTile_pending]

theorem State.completeDesc_pending (s : State) (q : Desc) : (s.completeDesc q).pending = s.pending := by
  unfold State.completeDesc
  simp only [apply_ite State.pending, State.stopAtCurfew_pending, State.finishDesc_pending, State.deliverToken_pending, ite_self]

theorem execOstlerDescriptorComplete_leavesQueue (desc : Nat) (s : State) : LeavesQueue s (execOstlerDescriptorComplete desc s) := by
  unfold execOstlerDescriptorComplete
  grind [LeavesQueue.next_iff, State.completeDesc_pending]

theorem State.applyWaiting_pending (s : State) (q : Desc) : (s.applyWaiting q).pending = s.pending := by
  unfold State.applyWaiting
  grind [State.event_pending, State.performChunk_pending, State.mapDesc_pending, State.completeDesc_pending]

theorem State.fetchAdd_pending (s : State) (src : Source) : (s.fetchAdd src).pending = s.pending := by
  have fetched := execOstlerDescriptorFetch_leavesQueue src s
  unfold State.fetchAdd
  grind [LeavesQueue.next_iff]

theorem State.applyAdds_pending (s : State) (c n : Nat) : (s.applyAdds c n).pending = s.pending := by
  induction n generalizing s with
  | zero => rfl
  | succ n ih =>
    have fetched := foldl_pending State.fetchAdd_pending (s.descSources c) s
    unfold State.applyAdds
    dsimp only
    split
    · exact fetched
    · rw [ih, foldl_pending fun t q => State.applyWaiting_pending t q, fetched]

/-! ### The Courier -/

theorem State.flitOut_pending (s : State) (p : Nat) (class1 : Bool) (f : TxFlit) : (s.flitOut p class1 f).pending = s.pending := by
  simp only [State.flitOut, State.setPort_pending]

theorem State.openStream_pending (s : State) (p n : Nat) (tag : BitVec 16) (origin final offset count : Nat) :
    (s.openStream p n tag origin final offset count).pending = s.pending := by
  simp only [State.openStream, State.flitOut_pending]

theorem State.emitSegment_pending (s : State) (h : HeldSegment) (n : Nat) : (s.emitSegment h n).pending = s.pending := by
  unfold State.emitSegment
  refine foldl_pending (fun t a => ?_) _ _
  grind [State.openStream_pending, State.flitOut_pending]

theorem State.sendSegment_pending (s : State) (h : HeldSegment) : (s.sendSegment h).pending = s.pending := by
  unfold State.sendSegment
  grind [State.emitSegment_pending]

theorem State.sendHeld_pending (s : State) (p : Nat) (n : Nat) : (s.sendHeld p n).pending = s.pending := by
  induction n generalizing s p with
  | zero => rfl
  | succ n ih =>
    unfold State.sendHeld
    grind [State.emitSegment_pending]

theorem State.sendTo_pending (s : State) (g : Group) (tag : BitVec 16) (seg target pos off es : Nat) (l : List MByte) :
    (s.sendTo g tag seg target pos off es l).pending = s.pending := by
  unfold State.sendTo
  refine foldl_pending (fun t a => ?_) _ _
  grind [State.sendSegment_pending]

theorem State.sendAll_pending (s : State) (g : Group) (tag : BitVec 16) (seg pos off es : Nat) (l : List MByte) :
    (s.sendAll g tag seg pos off es l).pending = s.pending := by
  simp only [State.sendAll, foldl_pending, implies_true, State.sendSegment_pending]

theorem State.vtake_pending (s : State) (c va n : Nat) : (s.vtake c va n).1.pending = s.pending := by
  unfold State.vtake
  grind [State.vdemand_pending]

theorem State.vput_pending (s : State) (c va : Nat) (l : List MByte) : (s.vput c va l).1.pending = s.pending := by
  unfold State.vput
  grind [State.demandWalks_pending, State.commitMem_pending]

theorem State.mapCmd_pending (s : State) (c : Nat) (tag : BitVec 16) (f : CCmd → CCmd) : (s.mapCmd c tag f).pending = s.pending := by
  simp only [State.mapCmd]

theorem State.setCmd_pending (s : State) (k : CCmd) : (s.setCmd k).pending = s.pending := by
  simp only [State.setCmd, State.mapCmd_pending]

theorem State.noteJob_pending (s : State) (c : Nat) (b : Bool) : (s.noteJob c b).pending = s.pending := by
  unfold State.noteJob
  grind [State.setJob_pending]

theorem State.cmdFail_pending (s : State) (k : CCmd) (e : Stop) : (s.cmdFail k e).pending = s.pending := by
  simp only [State.cmdFail, State.stopEvent_pending, State.setCmd_pending]

theorem State.cleanLines_pending (s : State) (c va n : Nat) (clean : List (Nat × Nat)) : (s.cleanLines c va n clean).pending = s.pending := by
  unfold State.cleanLines
  split
  · rfl
  · refine foldl_pending (fun t l => ?_) _ s
    split <;> rfl

theorem State.cmdPut_pending (s : State) (k : CCmd) (va : Nat) (l : List MByte) (counts : Bool) :
    (s.cmdPut k va l counts).pending = s.pending := by
  unfold State.cmdPut
  grind [State.vput_pending, State.noteJob_pending, State.cmdFail_pending, State.noteBucket_pending, State.cleanLines_pending,
    State.setCmd_pending]

theorem State.onCmd_pending (s : State) (c : Nat) (tag : BitVec 16) (f : CCmd → State → State)
    (h : ∀ k, (f k s).pending = s.pending) : (s.onCmd c tag f).pending = s.pending := by
  unfold State.onCmd
  grind

theorem State.cmdRead_pending (s : State) (k : CCmd) (va n : Nat) (f : List MByte → State → State)
    (h : ∀ l t, (f l t).pending = t.pending) : (s.cmdRead k va n f).pending = s.pending := by
  unfold State.cmdRead
  grind [State.vtake_pending, State.cmdFail_pending, State.mapCmd_pending]

theorem State.cmdSent_pending (s : State) (k : CCmd) (n : Nat) : (s.cmdSent k n).pending = s.pending := by
  simp only [State.cmdSent, State.mapCmd_pending]

theorem State.cmdFill_pending (s : State) (k : CCmd) (cs : List Nat) : (s.cmdFill k cs).pending = s.pending := by
  simp only [State.cmdFill, foldl_pending, apply_ite State.pending, ite_self, implies_true, State.onCmd_pending, State.cmdPut_pending,
    State.mapCmd_pending]

theorem State.ctrlTo_pending (s : State) (g : Group) (target kind : Nat) (payload : List Byte) :
    (s.ctrlTo g target kind payload).pending = s.pending := by
  unfold State.ctrlTo
  grind [State.flitOut_pending]

theorem State.grantNext_pending (s : State) (c : Nat) (tag : BitVec 16) : (s.grantNext c tag).pending = s.pending := by
  simp only [State.grantNext, foldl_pending, apply_ite State.pending, ite_self, implies_true, State.onCmd_pending, State.ctrlTo_pending,
    State.setCmd_pending]

theorem State.grantAll_pending (s : State) : s.grantAll.pending = s.pending := by
  unfold State.grantAll
  refine foldl_pending (fun t a => ?_) _ _
  grind [State.grantNext_pending]

theorem State.cmdFold_pending (s : State) (k : CCmd) : (s.cmdFold k).pending = s.pending := by
  unfold State.cmdFold
  grind [State.cmdPut_pending, State.onCmd_pending, State.cmdSent_pending, State.sendAll_pending, State.grantAll_pending]

theorem State.foldOut_pending (s : State) (k : CCmd) (n : Nat) : (s.foldOut k n).pending = s.pending := by
  induction n generalizing s k with
  | zero => rfl
  | succ n ih =>
    unfold State.foldOut
    grind [State.cmdFold_pending]

theorem State.contribute_pending (s : State) (k : CCmd) (owner : Nat) : (s.contribute k owner).pending = s.pending := by
  unfold State.contribute
  grind [State.cmdRead_pending, State.mapCmd_pending, State.cmdSent_pending, State.sendTo_pending]

theorem State.roundSend_pending (s : State) (k : CCmd) (r : List Move) : (s.roundSend k r).pending = s.pending := by
  unfold State.roundSend
  refine foldl_pending (fun t a => ?_) _ _
  grind [State.onCmd_pending, State.cmdRead_pending, State.cmdPut_pending, State.cmdSent_pending, State.sendTo_pending]

theorem State.roundCopy_pending (s : State) (k : CCmd) (r : List Move) : (s.roundCopy k r).pending = s.pending := by
  unfold State.roundCopy
  refine foldl_pending (fun t a => ?_) _ _
  grind [State.onCmd_pending, State.cmdRead_pending, State.cmdPut_pending]

theorem State.permuteOn_pending (s : State) (c : Nat) (tag : BitVec 16) (n : Nat) : (s.permuteOn c tag n).pending = s.pending := by
  induction n generalizing s with
  | zero => rfl
  | succ n ih =>
    refine State.onCmd_pending _ _ _ _ fun k => ?_
    dsimp only
    split
    · rfl
    · split
      · rfl
      · have told (b : Bool) (l : List Nat) (g : Nat → TxFlit) (f : CCmd → CCmd) :
            (if b then s else (l.foldl (fun (t : State) p => t.flitOut p false (g p)) s).mapCmd c tag f).pending = s.pending := by
          split
          · rfl
          · rw [State.mapCmd_pending, foldl_pending fun t p => t.flitOut_pending p _ _]
        split
        · split
          · rw [ih, State.onCmd_pending _ _ _ _ fun q => State.roundSend_pending _ _ _, State.mapCmd_pending,
              State.onCmd_pending _ _ _ _ fun q => State.roundCopy_pending _ _ _, told]
          · rw [ih, State.mapCmd_pending, State.onCmd_pending _ _ _ _ fun q => State.roundCopy_pending _ _ _, told]
        · exact told _ _ _ _

theorem State.cmdStart_pending (s : State) (k0 : CCmd) : (s.cmdStart k0).pending = s.pending := by
  unfold State.cmdStart
  extract_lets f c g n me k s0 first owned at_ mineAt filled moved
  have set : s0.pending = s.pending := State.setCmd_pending s k
  clear_value s0
  split
  case h_1 =>
    rw [State.cmdRead_pending _ _ _ _ _ fun l t => ?_, set]
    simp only [State.onCmd_pending, State.cmdSent_pending, State.sendAll_pending, State.cmdFill_pending, State.cmdPut_pending,
      implies_true]
  case h_2 | h_3 =>
    rw [State.cmdRead_pending _ _ _ _ _ fun l t => ?_, set]
    simp only [State.onCmd_pending, State.foldOut_pending, State.contribute_pending, State.grantNext_pending, State.mapCmd_pending,
      foldl_pending, implies_true]
  case h_4 =>
    rw [foldl_pending fun t j => ?_, State.cmdFill_pending, set]
    refine State.onCmd_pending _ _ _ _ fun q => State.cmdRead_pending _ _ _ _ _ fun l u => ?_
    split
    · exact State.cmdPut_pending _ _ _ _ _
    · rw [State.cmdSent_pending, State.sendTo_pending]
  case h_5 =>
    rw [State.permuteOn_pending]
    dsimp only [moved]
    split
    · rw [State.roundSend_pending, set]
    · exact set
  case h_6 =>
    split
    · rw [State.cmdRead_pending _ _ _ _ _ fun l t => ?_, set]
      simp only [State.onCmd_pending, State.cmdSent_pending, State.sendAll_pending, State.cmdPut_pending, implies_true]
    · exact set
  case h_7 | h_8 => exact set

theorem State.cmdTry_pending (s : State) (c : Nat) (tag : BitVec 16) : (s.cmdTry c tag).pending = s.pending := by
  unfold State.cmdTry
  grind [State.onCmd_pending, State.cmdStart_pending]

theorem State.partnerLost_pending (s : State) (c p : Nat) : (s.partnerLost c p).pending = s.pending := by
  simp only [State.partnerLost, State.holdJob_pending, State.event_pending]

theorem State.takeCommand_pending (s : State) (src : Source) (index : BitVec 16) : (s.takeCommand src index).pending = s.pending := by
  unfold State.takeCommand
  grind [State.startEntry_pending]

theorem State.closeCommand_pending (s : State) (src : Source) (index : BitVec 16) (c : Nat) (action : Option Nat) (status : Byte)
    (a b : Nat) :
    (s.closeCommand src index c action status a b).pending = s.pending := by
  unfold State.closeCommand
  grind [State.complete_pending, State.setJob_pending]

theorem State.cmdInvalid_pending (s : State) (src : Source) (index : BitVec 16) (c : Nat) (action : Option Nat) (tag : BitVec 16) :
    (s.cmdInvalid src index c action tag).pending = s.pending := by
  simp only [State.cmdInvalid, State.stopAtCurfew_pending, State.closeCommand_pending, State.event_pending]

theorem State.cmdLost_pending (s : State) (k : CCmd) (code : BitVec 16) (port : Nat) : (s.cmdLost k code port).pending = s.pending := by
  simp only [State.cmdLost, State.event_pending, State.holdJob_pending, State.setCmd_pending]

theorem State.cmdBegin_pending (s : State) (k : CCmd) : (s.cmdBegin k).pending = s.pending := by
  unfold State.cmdBegin
  dsimp only
  split <;> simp only [foldl_pending, implies_true, State.onCmd_pending, State.cmdLost_pending, State.flitOut_pending,
    State.cmdTry_pending]

theorem State.courierCommand_pending (s : State) (src : Source) (op : Nat) : (s.courierCommand src op).pending = s.pending := by
  unfold State.courierCommand
  grind [State.complete_pending, State.event_pending, State.takeCommand_pending, State.cmdInvalid_pending, State.vdemand_pending,
    State.cmdFail_pending, State.cmdBegin_pending]

theorem State.fromPort_pending (s : State) (p : Nat) (t : TxFlit) (f : State → State)
    (h : ∀ x, (f x).pending = x.pending) : (s.fromPort p t f).pending = s.pending := by
  unfold State.fromPort
  grind [State.setPort_pending]

theorem execCtrlOpen_leavesQueue (port : Fin 8) (stream : BitVec 6) (tag : BitVec 16) (origin final : Nat) (offset count : Nat)
    (s : State) : LeavesQueue s (execCtrlOpen port stream tag origin final offset count s) := by
  unfold execCtrlOpen
  extract_lets onward
  split
  · exact .refl s
  · refine .next (State.fromPort_pending _ _ _ _ fun t => ?_)
    refine foldl_fst_pending (fun r d => ?_) _ (t, [])
    split
    · exact State.openStream_pending _ _ _ _ _ _ _ _
    · rfl

theorem State.mismatch_pending (s : State) (k : CCmd) (p : Nat) : (s.mismatch k p).pending = s.pending := by
  simp only [State.mismatch, foldl_pending, implies_true, State.event_pending, State.flitOut_pending]

theorem execCtrlCheck_leavesQueue (port : Fin 8) (tag : BitVec 16) (crc : Word) (s : State) : LeavesQueue s (execCtrlCheck port tag crc s) := by
  unfold execCtrlCheck
  grind [LeavesQueue.next_iff, State.fromPort_pending, State.mismatch_pending, State.cmdTry_pending, State.setCmd_pending]

theorem execCtrlGrant_leavesQueue (port : Fin 8) (tag : BitVec 16) (grant : GrantTo) (s : State) :
    LeavesQueue s (execCtrlGrant port tag grant s) := by
  unfold execCtrlGrant
  grind [LeavesQueue.next_iff, State.fromPort_pending, State.ctrlTo_pending, State.setCmd_pending, State.contribute_pending]

theorem State.setQueue_pending (s : State) (c key : Nat) (q : PipeQueue) : (s.setQueue c key q).pending = s.pending := by
  simp only [State.setQueue, State.setJob_pending]

theorem execCtrlCredit_leavesQueue (port : Fin 8) (tag : BitVec 16) (credits : Nat) (s : State) :
    LeavesQueue s (execCtrlCredit port tag credits s) := by
  unfold execCtrlCredit
  grind [LeavesQueue.next_iff, State.fromPort_pending, State.setQueue_pending]

theorem execCtrlDone_leavesQueue (port : Fin 8) (tag : BitVec 16) (done : DoneOf) (s : State) : LeavesQueue s (execCtrlDone port tag done s) := by
  unfold execCtrlDone
  dsimp only
  split <;> simp only [LeavesQueue.next_iff, foldl_pending, apply_ite State.pending, ite_self, implies_true, State.fromPort_pending,
    State.flitOut_pending, State.permuteOn_pending, State.setCmd_pending]

theorem execCtrlAbort_leavesQueue (port : Fin 8) (tag : BitVec 16) (s : State) : LeavesQueue s (execCtrlAbort port tag s) := by
  unfold execCtrlAbort
  dsimp only
  split <;> simp only [LeavesQueue.next_iff, foldl_pending, apply_ite State.pending, ite_self, implies_true, State.fromPort_pending,
    State.flitOut_pending, State.setCmd_pending]

theorem State.acceptBytes_pending (s : State) (k : CCmd) (st : Stream) (l : List MByte) : (s.acceptBytes k st l).pending = s.pending := by
  unfold State.acceptBytes
  grind [State.cmdPut_pending, State.foldOut_pending, State.setCmd_pending, State.noteJob_pending, State.permuteOn_pending]

theorem State.acceptEntry_pending (s : State) (c key : Nat) (q : PipeQueue) (st : Stream) (l : List MByte) (last : Bool) :
    (s.acceptEntry c key q st l last).pending = s.pending := by
  unfold State.acceptEntry
  grind [State.vput_pending, State.noteJob_pending, State.setQueue_pending, State.engineStop_pending]

theorem State.landShipment_pending (s : State) (tag : BitVec 16) (st : Stream) (l : List MByte) :
    (s.landShipment tag st l).pending = s.pending := by
  unfold State.landShipment
  grind [State.vput_pending, State.stopEvent_pending]

theorem execDataFlit_leavesQueue (port : Fin 8) (stream : BitVec 6) (index : BitVec 22) (payload : List Byte) (poison : BitVec 15)
    (nonfinite : Bool) (s : State) :
    LeavesQueue s (execDataFlit port stream index payload poison nonfinite s) := by
  unfold execDataFlit
  dsimp only
  (repeat' split) <;> simp only [LeavesQueue.next_iff, foldl_pending, apply_ite State.pending, ite_self, implies_true,
    State.fromPort_pending, State.flitOut_pending, State.acceptBytes_pending, State.acceptEntry_pending, State.landShipment_pending]

theorem execCourierCommandComplete_leavesQueue (ctx : Fin 8) (tag : BitVec 16) (s : State) :
    LeavesQueue s (execCourierCommandComplete ctx tag s) := by
  unfold execCourierCommandComplete
  grind [LeavesQueue.next_iff, State.setJob_pending, State.closeCommand_pending, State.grantAll_pending, State.stopAtCurfew_pending]

theorem State.probeStalled_pending (s : State) (c tensor port : Nat) : (s.probeStalled c tensor port).pending = s.pending := by
  simp only [State.probeStalled, State.scaleStep_pending, State.event_pending, State.holdJob_pending, State.setJob_pending]

theorem execCourierStalled_leavesQueue (ctx : Fin 8) (what : Stalled) (port : Fin 8) (s : State) :
    LeavesQueue s (execCourierStalled ctx what port s) := by
  unfold execCourierStalled
  grind [LeavesQueue.next_iff, State.probeStalled_pending, State.cmdLost_pending]

/-! ### The Caravan -/

theorem State.loadImage_pending (s : State) (c tile i : Nat) : (s.loadImage c tile i).pending = s.pending := by
  unfold State.loadImage
  grind [State.setTile_pending, State.event_pending, State.setJob_pending]

theorem State.mapMsg_pending (s : State) (c id : Nat) (f : Msg → Msg) : (s.mapMsg c id f).pending = s.pending := by
  simp only [State.mapMsg, State.setJob_pending]

theorem State.noteSendOpen_pending (s : State) (tile : Nat) (q : Queued) : (s.noteSendOpen tile q).pending = s.pending := by
  unfold State.noteSendOpen
  grind [State.setTile_pending]

theorem State.departWith_pending (s : State) (c tile : Nat) (e : SourceEntry) (q : Option Queued) (p : Option Msg) :
    (s.departWith c tile e q p).pending = s.pending := by
  unfold State.departWith
  grind [State.setJob_pending, State.setTile_pending, State.event_pending]

theorem State.departGate_pending (s : State) (c tile : Nat) (g : GateOut) : (s.departGate c tile g).pending = s.pending := by
  unfold State.departGate
  grind [State.vtake_pending, State.stopEvent_pending, State.setJob_pending]

theorem execRequestDepart_leavesQueue (tile : Nat) (ch : Fin 16) (s : State) : LeavesQueue s (execRequestDepart tile ch s) := by
  unfold execRequestDepart
  dsimp only
  (repeat' split) <;> simp only [LeavesQueue.next_iff, State.departGate_pending, State.noteSendOpen_pending, State.departWith_pending]

theorem State.granted_pending (s : State) (c id dest line : Nat) (overflow : Bool) : (s.granted c id dest line overflow).pending = s.pending := by
  simp only [State.granted, State.mapMsg_pending]

theorem State.grantRing_pending {s t : State} {c : Nat} {m : Msg} {dest : Nat} (h : s.grantRing c m dest = some t) :
    t.pending = s.pending := by
  unfold State.grantRing at h
  grind [State.granted_pending, State.setTile_pending]

theorem State.tryGrant_pending {s t : State} {c : Nat} {m : Msg} {dest : Nat} (h : s.tryGrant c m dest = some t) :
    t.pending = s.pending := by
  unfold State.tryGrant at h
  grind [State.granted_pending, State.mapDesc_pending, State.grantRing_pending]

theorem State.tryGrant_getD_pending (s : State) (c : Nat) (m : Msg) (dest : Nat) :
    ((s.tryGrant c m dest).getD s).pending = s.pending := by
  cases granted : s.tryGrant c m dest with
  | none => rfl
  | some t => exact State.tryGrant_pending granted

theorem State.offer_pending (s : State) (c id dest : Nat) : (s.offer c id dest).pending = s.pending := by
  unfold State.offer
  grind [State.tryGrant_getD_pending]

theorem State.noteLoss_pending (s : State) (c : Nat) (u : LinkUse) : (s.noteLoss c u).pending = s.pending := by
  simp only [State.noteLoss, State.setTile_pending]

theorem State.travel_pending (s : State) (c : Nat) (m : Msg) (control : Bool) (part : Nat) (path : List (Nat × Nat × Nat)) :
    (s.travel c m control part path).1.pending = s.pending := by
  unfold State.travel
  dsimp only
  (repeat' split) <;> simp only [foldl_pending, implies_true, State.setJob_pending, State.noteLoss_pending]

theorem execRequestArrive_leavesQueue (ctx : Fin 8) (msg : Nat) (dest : Nat) (s : State) : LeavesQueue s (execRequestArrive ctx msg dest s) := by
  unfold execRequestArrive
  grind [LeavesQueue.next_iff, State.offer_pending, State.travel_pending, State.setJob_pending, State.mapMsg_pending]

theorem execGrantArrive_leavesQueue (ctx : Fin 8) (msg : Nat) (dest : Nat) (s : State) : LeavesQueue s (execGrantArrive ctx msg dest s) := by
  unfold execGrantArrive
  grind [LeavesQueue.next_iff, State.travel_pending, State.mapMsg_pending]

theorem State.delivered_pending (s : State) (c : Nat) (m : Msg) (d : MsgDest) : (s.delivered c m d).pending = s.pending := by
  unfold State.delivered
  grind [State.setTile_pending, State.noteJob_pending]

theorem execPayloadLineArrive_leavesQueue (ctx : Fin 8) (msg : Nat) (dest : Nat) (s : State) :
    LeavesQueue s (execPayloadLineArrive ctx msg dest s) := by
  unfold execPayloadLineArrive
  grind [LeavesQueue.next_iff, State.travel_pending, State.mapMsg_pending, State.setTile_pending, State.mapDesc_pending,
    State.delivered_pending]

theorem execDeliveryAckArrive_leavesQueue (ctx : Fin 8) (msg : Nat) (dest : Nat) (s : State) :
    LeavesQueue s (execDeliveryAckArrive ctx msg dest s) := by
  unfold execDeliveryAckArrive
  grind [LeavesQueue.next_iff, State.travel_pending, State.mapMsg_pending]

theorem State.sendRecords_pending (s : State) (c tile : Nat) (l : List Contract) (extra : Nat) :
    (s.sendRecords c tile l extra).pending = s.pending :=
  (State.sendRecords_hostOnly _ _ _ _ _).fields.1

theorem State.caravanRecords_pending (s : State) (c : Nat) : (s.caravanRecords c).pending = s.pending := by
  unfold State.caravanRecords
  refine foldl_pending (fun t a => ?_) _ _
  grind [State.sendRecords_pending, State.setTile_pending]

theorem State.deadlock_pending (s : State) (c : Nat) (m : Msg) : (s.deadlock c m).pending = s.pending := by
  simp only [State.deadlock, State.stopNow_pending, State.caravanRecords_pending, State.event_pending]

theorem execOverflowRoomEscape_leavesQueue (ctx : Fin 8) (msg : Nat) (dest : Nat) (s : State) :
    LeavesQueue s (execOverflowRoomEscape ctx msg dest s) := by
  unfold execOverflowRoomEscape
  dsimp only
  (repeat' split) <;> simp only [LeavesQueue.next_iff, foldl_pending, implies_true, State.deadlock_pending, State.event_pending,
    State.granted_pending, State.setTile_pending, State.offer_pending]

theorem execFreezeDecision_leavesQueue (ctx : Fin 8) (retry : Bool) (refresh : Bool) (s : State) :
    LeavesQueue s (execFreezeDecision ctx retry refresh s) := by
  unfold execFreezeDecision
  grind [LeavesQueue.next_iff, State.tallyAdd_pending, State.setJob_pending]

theorem State.stopLater_pending (s : State) (c : Nat) : (s.stopLater c).pending = s.pending := by
  simp only [State.stopLater, State.setJob_pending]

theorem State.queueEntry_pending (s : State) (c key : Nat) (m : Msg) (sentNow limit : Nat) :
    (s.queueEntry c key m sentNow limit).pending = s.pending := by
  unfold State.queueEntry
  dsimp only
  split <;> simp only [foldl_pending, apply_ite State.pending, ite_self, implies_true, State.stopLater_pending, State.event_pending,
    State.sendSegment_pending, State.noteJob_pending, State.setQueue_pending]

theorem State.collect_pending (s : State) (k : CCmd) (m : Msg) (used : Tbl Nat) : (s.collect k m used).1.pending = s.pending := by
  unfold State.collect
  grind [State.stopLater_pending, State.event_pending, State.onCmd_pending, State.mapCmd_pending, State.cmdPut_pending]

theorem State.gateStream_pending (s : State) (c : Nat) (stream : BitVec 4) : (s.gateStream c stream).pending = s.pending := by
  unfold State.gateStream
  dsimp only
  split
  · exact foldl_pending (fun t x => t.queueEntry_pending _ _ _ _ _) _ s
  · rw [State.cmdTry_pending, State.mapCmd_pending, foldl_fst_pending fun r m => State.collect_pending r.1 _ m r.2]
  · refine foldl_pending (fun t m => ?_) _ s
    rw [State.stopLater_pending, State.event_pending]

theorem State.gateStreams_pending (s : State) (c : Nat) : (s.gateStreams c).pending = s.pending := by
  unfold State.gateStreams
  refine foldl_pending (fun t a => ?_) _ _
  grind [State.gateStream_pending]

theorem State.gatesDelivered_pending (s : State) (c : Nat) : (s.gatesDelivered c).pending = s.pending := by
  simp only [State.gatesDelivered]

theorem State.swapTile_pending (s : State) (c tile : Nat) : (s.swapTile c tile).pending = s.pending := by
  simp only [State.swapTile, State.setTile_pending]

theorem execCaravanEnd_leavesQueue (ctx : Fin 8) (s : State) : LeavesQueue s (execCaravanEnd ctx s) := by
  unfold execCaravanEnd
  extract_lets c s1 s2 j s3 s4
  have swapped : s2.pending = s.pending :=
    (foldl_pending (fun t n => t.swapTile_pending c n) _ s1).trans <| by
      rw [State.caravanRecords_pending, State.gatesDelivered_pending, State.gateStreams_pending]
  clear_value s2
  have stepped : s3.pending = s.pending := (State.setJob_pending s2 c _).trans swapped
  clear_value s3
  have filled : s4.pending = s.pending := by
    change (if _ then s3.fillSlots c else s3).pending = _
    rw [apply_ite State.pending, State.fillSlots_pending, ite_self, stepped]
  clear_value s4
  split
  · exact .refl s
  · split
    · exact .next ((s2.stopNow_pending c).trans swapped)
    · exact .next ((foldl_pending (fun t n => t.passFrom_pending n _) _ s4).trans filled)

/-! ### The update -/

theorem State.hostCopy_pending (s : State) (c : Nat) (v : HostView) (src va n : Nat) (ep : Bool) (n' : Nat) :
    (s.hostCopy c v src va n ep n').1.pending = s.pending := by
  induction n' generalizing s c v src va n ep with
  | zero => rfl
  | succ n' ih =>
    unfold State.hostCopy
    grind [State.vwrite_pending]

theorem State.fromHost_pending (s : State) (c : Nat) (v : HostView) (src va n : Nat) : (s.fromHost c v src va n).1.pending = s.pending := by
  simp only [State.fromHost, State.hostCopy_pending]

theorem State.readFailed_pending (s : State) (ring : Nat) (index : BitVec 16) (c addr : Nat) :
    (s.readFailed ring index c addr).pending = s.pending := by
  simp only [State.readFailed, State.complete_pending, State.event_pending]

theorem execRuleLoad_leavesQueue (ring : Fin 64) (view : HostView) (s : State) : LeavesQueue s (execRuleLoad ring view s) := by
  unfold execRuleLoad
  dsimp only
  (repeat' split) <;> simp only [LeavesQueue.next_iff, State.reject_pending, State.readFailed_pending, State.complete_pending,
    State.event_pending, State.setJob_pending]

theorem State.updStop_pending (s : State) (c e : Nat) (why : Stop) : (s.updStop c e why).pending = s.pending := by
  simp only [State.updStop, State.engineStop_pending]

theorem State.dealLayers_pending (s : State) (c : Nat) : (s.dealLayers c).pending = s.pending := by
  unfold State.dealLayers
  refine foldl_pending (fun t a => ?_) _ _
  grind [State.setEngine_pending]

theorem State.beginPassOne_pending (s : State) (c : Nat) : (s.beginPassOne c).pending = s.pending := by
  unfold State.beginPassOne
  dsimp only
  (repeat' split) <;> simp only [State.vdemand_pending, State.setJob_pending, State.updStop_pending, State.stopAtCurfew_pending,
    State.event_pending, State.dealLayers_pending]

theorem State.mapLayer_pending (s : State) (c i : Nat) (f : Layer → Layer) : (s.mapLayer c i f).pending = s.pending := by
  simp only [State.mapLayer, State.setJob_pending]

theorem State.readArrays_pending (s : State) (c : Nat) (l : List (Nat × Nat)) : (s.readArrays c l).1.pending = s.pending := by
  induction l generalizing s c with
  | nil => rfl
  | cons x l ih =>
    unfold State.readArrays
    grind [State.vdemand_pending]

theorem State.writeArrays_pending (s : State) (c : Nat) (l : List (Nat × List Byte)) : (s.writeArrays c l).1.pending = s.pending := by
  induction l generalizing s c with
  | nil => rfl
  | cons x l ih =>
    unfold State.writeArrays
    grind [State.vwrite_pending]

theorem State.layerElems_pending (s : State) (c : Nat) (l : LF) (first n : Nat) : (s.layerElems c l first n).1.pending = s.pending := by
  unfold State.layerElems
  grind [State.readArrays_pending]

theorem State.buildList_pending (s : State) (c : Nat) (l : LF) : (s.buildList c l).1.pending = s.pending := by
  unfold State.buildList
  grind [State.readArrays_pending, State.vwrite_pending]

theorem State.spanElems_pending (s : State) (c : Nat) (l : LF) (l' : List (Nat × Nat × Nat)) : (s.spanElems c l l').1.pending = s.pending := by
  induction l' generalizing s c l with
  | nil => rfl
  | cons x l' ih =>
    unfold State.spanElems
    grind [State.layerElems_pending]

theorem State.spanGrads_pending (s : State) (c : Nat) (l : LF) (xs : List (Nat × Nat × Nat)) : (s.spanGrads c l xs).1.pending = s.pending := by
  unfold State.spanGrads
  grind [State.readArrays_pending]

theorem State.spanCounts_pending (s : State) (c : Nat) (l : LF) (xs : List (Nat × Nat × Nat)) : (s.spanCounts c l xs).1.pending = s.pending := by
  unfold State.spanCounts
  grind [State.readArrays_pending]

theorem State.layerSums_pending (s : State) (c : Nat) (l : LF) (listed : List Nat) : (s.layerSums c l listed).1.pending = s.pending := by
  unfold State.layerSums
  grind [State.spanGrads_pending, State.spanElems_pending, State.spanCounts_pending]

theorem State.passOneWork_pending (s : State) (c : Nat) (l : LF) : (s.passOneWork c l).1.pending = s.pending := by
  unfold State.passOneWork
  grind [State.buildList_pending, State.layerSums_pending, State.spanGrads_pending, State.vwrite_pending]

theorem State.actionsAt_pending (s : State) (c n : Nat) : (s.actionsAt c n).1.pending = s.pending := by
  unfold State.actionsAt
  grind [State.readArrays_pending]

theorem State.beginDue_pending (s : State) : s.beginDue.pending = s.pending := by
  unfold State.beginDue
  refine foldl_pending (fun t a => ?_) _ _
  grind [State.beginPassOne_pending]

theorem State.takeHead_pending (s : State) (e : Nat) (pass : BitVec 2) : (s.takeHead e pass).pending = s.pending := by
  simp only [State.takeHead, State.setEngine_pending]

theorem execPassOneEntry_leavesQueue (engine : Fin 16) (s : State) : LeavesQueue s (execPassOneEntry engine s) := by
  unfold execPassOneEntry
  grind [LeavesQueue.next_iff, State.beginDue_pending, State.takeHead_pending, State.passOneWork_pending, State.updStop_pending,
    State.mapLayer_pending]

theorem execUpdateEntrySteal_leavesQueue (engine : Fin 16) (s : State) : LeavesQueue s (execUpdateEntrySteal engine s) := by
  unfold execUpdateEntrySteal
  dsimp only
  (repeat' split) <;> simp only [LeavesQueue.next_iff, State.setEngine_pending]

theorem State.leftEvent_pending (s : State) (c e : Nat) (l : LF) (n : Nat) : (s.leftEvent c e l n).pending = s.pending := by
  unfold State.leftEvent
  grind [State.event_pending]

theorem State.writeStep_pending (s : State) (c : Nat) (x : Layer) : (s.writeStep c x).1.pending = s.pending := by
  simp only [State.writeStep, State.vwrite_pending]

theorem State.clearSparse_pending (s : State) (c : Nat) (x : Layer) : (s.clearSparse c x).1.pending = s.pending := by
  unfold State.clearSparse
  grind [State.readArrays_pending, State.writeArrays_pending]

theorem State.applySparse_pending (s : State) (c e : Nat) (x : Layer) : (s.applySparse c e x).1.pending = s.pending := by
  unfold State.applySparse
  grind [State.readArrays_pending, State.spanElems_pending, State.spanCounts_pending, State.writeArrays_pending,
    State.clearSparse_pending, State.leftEvent_pending]

theorem State.factored_pending (s : State) (c : Nat) (l : LF) (k : Coef) : (s.factored c l k).1.pending = s.pending := by
  unfold State.factored
  grind [State.readArrays_pending]

theorem State.fellBack_pending (s : State) (c e : Nat) (l : LF) (b : Nat × StageOut) : (s.fellBack c e l b).pending = s.pending := by
  simp only [State.fellBack, State.event_pending, State.setJob_pending]

theorem State.applyDense_pending (s : State) (c e : Nat) (x : Layer) : (s.applyDense c e x).1.pending = s.pending := by
  unfold State.applyDense
  grind [State.layerElems_pending, State.factored_pending, State.writeArrays_pending, State.leftEvent_pending, State.fellBack_pending,
    State.mapLayer_pending]

theorem State.passTwoWork_pending (s : State) (c e : Nat) (x : Layer) : (s.passTwoWork c e x).1.pending = s.pending := by
  unfold State.passTwoWork
  grind [State.clearSparse_pending, State.applySparse_pending, State.applyDense_pending, State.writeStep_pending]

theorem execPassTwoEntry_leavesQueue (engine : Fin 16) (s : State) : LeavesQueue s (execPassTwoEntry engine s) := by
  unfold execPassTwoEntry
  grind [LeavesQueue.next_iff, State.passTwoWork_pending, State.takeHead_pending, State.updStop_pending, State.mapLayer_pending]

theorem State.layerRaw_pending (s : State) (c i : Nat) : (s.layerRaw c i).1.pending = s.pending := by
  unfold State.layerRaw
  grind [State.readArrays_pending]

theorem State.commandStop_pending (s : State) (ring : Nat) (index : BitVec 16) (c : Nat) (kind : BitVec 4) (unit : Nat) (why : Stop) :
    (s.commandStop ring index c kind unit why).pending = s.pending := by
  simp only [State.commandStop, State.engineStop_pending, State.complete_pending]

theorem State.copyPieces_pending (s : State) (c : Nat) (v : HostView) (n : Nat) (ok : Bool) (l : List (Nat × Nat)) :
    (s.copyPieces c v n ok l).1.pending = s.pending := by
  induction l generalizing s c v n ok with
  | nil => rfl
  | cons x l ih =>
    unfold State.copyPieces
    grind [State.fromHost_pending]

theorem execWriteBack_leavesQueue (ring : Fin 64) (view : HostView) (s : State) : LeavesQueue s (execWriteBack ring view s) := by
  unfold execWriteBack
  split
  · exact .refl s
  · next e _ =>
    extract_lets c addr i j bad
    clear_value bad
    grind [LeavesQueue.next_iff, State.layerRaw_pending, State.reject_pending, State.commandStop_pending, State.setEngine_pending,
      State.copyPieces_pending, State.readFailed_pending, State.vwrite_pending, State.setJob_pending, State.complete_pending]

/-! ### The step -/

theorem State.stepStop_pending (s : State) (c : Nat) (e : Stop) : (s.stepStop c e).pending = s.pending := by
  simp only [State.stepStop, State.engineStop_pending]

theorem State.queueCommand_pending (s : State) (c : Nat) (ctx : Fin 8) (a : Action) : (s.queueCommand c ctx a).1.pending = s.pending := by
  unfold State.queueCommand
  grind [State.readArrays_pending]

theorem State.queueDescs_pending (s : State) (c : Nat) (ctx : Fin 8) (a : Action) : (s.queueDescs c ctx a).1.pending = s.pending := by
  unfold State.queueDescs
  grind [State.readArrays_pending]

theorem State.addAction_pending (s : State) (c : Nat) (a : Action) : (s.addAction c a).pending = s.pending := by
  simp only [State.addAction, State.setJob_pending]

theorem State.takeAction_pending (s : State) (c : Nat) (ctx : Fin 8) (a : Action) : (s.takeAction c ctx a).pending = s.pending := by
  unfold State.takeAction
  grind [State.queueCommand_pending, State.stepStop_pending, State.queueDescs_pending, State.addAction_pending]

theorem State.releaseEntries_pending (s : State) (c : Nat) (a : Action) : (s.releaseEntries c a).pending = s.pending := by
  unfold State.releaseEntries
  split
  · rfl
  · rw [foldl_pending fun t p => t.flitOut_pending p _ _, State.setQueue_pending]

theorem State.readEntries_pending (s : State) (c : Nat) (a : Action) : (s.readEntries c a).pending = s.pending := by
  unfold State.readEntries
  grind [State.setQueue_pending]

theorem State.runActions_pending (s : State) (c : Nat) (ctx : Fin 8) (n : Nat) (kinds : List Nat) :
    (s.runActions c ctx n kinds).pending = s.pending := by
  have read := s.actionsAt_pending c n
  unfold State.runActions
  split
  · next h =>
    rw [h] at read
    rw [State.stepStop_pending]
    exact read
  · next l h =>
    rw [h] at read
    rw [foldl_pending, read]
    intro t a
    split
    · exact t.readEntries_pending c a
    · exact t.releaseEntries_pending c a
    · exact t.takeAction_pending c ctx a

theorem State.sendTokens_pending (s : State) (c : Nat) : (s.sendTokens c).pending = s.pending := by
  unfold State.sendTokens
  refine foldl_pending (fun t a => ?_) _ _
  grind [State.flitOut_pending]

theorem State.checkDeadline_pending (s : State) (c : Nat) : (s.checkDeadline c).pending = s.pending := by
  unfold State.checkDeadline
  grind [State.event_pending, State.setJob_pending, State.holdJob_pending]

theorem State.sendTileRecords_pending (s : State) (c tile : Nat) : (s.sendTileRecords c tile).pending = s.pending := by
  simp only [State.sendTileRecords, State.sendRecords_pending, State.setTile_pending]

theorem State.openRegions_pending (s : State) (c : Nat) : (s.openRegions c).pending = s.pending := by
  simp only [State.openRegions, State.applyAdds_pending]

theorem State.clearFlags_pending (s : State) (c : Nat) : (s.clearFlags c).pending = s.pending := by
  unfold State.clearFlags
  refine foldl_pending (fun t a => ?_) _ _
  grind [State.setTile_pending, State.setJob_pending]

theorem State.endEvaluation_pending (s : State) (c : Nat) : (s.endEvaluation c).pending = s.pending := by
  simp only [State.endEvaluation, foldl_pending, apply_ite State.pending, ite_self, implies_true, State.clearFlags_pending,
    State.readSlots_pending, State.setJob_pending]

theorem State.finalArrival_pending (s : State) (c : Nat) : (s.finalArrival c).pending = s.pending := by
  unfold State.finalArrival
  grind [State.openRegions_pending, State.endEvaluation_pending, State.beginPassOne_pending]

theorem execLocalArrivalComplete_leavesQueue (ctx : Fin 8) (s : State) : LeavesQueue s (execLocalArrivalComplete ctx s) := by
  unfold execLocalArrivalComplete
  dsimp only
  (repeat' split) <;> simp only [LeavesQueue.next_iff, foldl_pending, implies_true, State.sendTileRecords_pending,
    State.checkDeadline_pending, State.tallyAdd_pending, State.stopNow_pending, State.setJob_pending, State.sendTokens_pending,
    State.finalArrival_pending]

theorem State.takeToken_pending (s : State) (c : Nat) (port : Fin 8) (number : Word) : (s.takeToken c port number).pending = s.pending := by
  unfold State.takeToken
  grind [State.setJob_pending, State.stopAtCurfew_pending, State.event_pending]

theorem execCurfewToken_leavesQueue (port : Fin 8) (tag : Word) (number : Word) (s : State) :
    LeavesQueue s (execCurfewToken port tag number s) := by
  unfold execCurfewToken
  grind [LeavesQueue.next_iff, State.fromPort_pending, State.takeToken_pending]

theorem execCurfewTimeout_leavesQueue (ctx : Fin 8) (port : Fin 8) (s : State) : LeavesQueue s (execCurfewTimeout ctx port s) := by
  unfold execCurfewTimeout
  grind [LeavesQueue.next_iff, State.partnerLost_pending]

theorem State.completeStep_pending (s : State) (c : Nat) (k : StepCmd) : (s.completeStep c k).pending = s.pending := by
  simp only [State.completeStep, State.complete_pending]

theorem State.chargeWait_pending (s : State) (c : Nat) : (s.chargeWait c).pending = s.pending := by
  unfold State.chargeWait
  grind [State.tallyAdd_pending]

theorem State.openGates_pending (s : State) (c n : Nat) : (s.openGates c n).pending = s.pending := by
  simp only [State.openGates, State.setJob_pending]

theorem State.beginCaravan_pending (s : State) (c : Nat) (ctx : Fin 8) : (s.beginCaravan c ctx).pending = s.pending := by
  simp only [State.beginCaravan, foldl_pending, apply_ite State.pending, ite_self, implies_true, State.setJob_pending,
    State.tallyAdd_pending, State.openGates_pending, State.runActions_pending, State.loadImage_pending]

theorem State.beginJob_pending (s : State) (c : Nat) (ctx : Fin 8) : (s.beginJob c ctx).pending = s.pending := by
  unfold State.beginJob
  extract_lets j s1 s2
  have filled : s2.pending = s.pending := by
    rw [State.fillSlots_pending, State.runActions_pending, State.setJob_pending]
  clear_value s2
  exact (foldl_pending (fun t n => State.setTile_pending t n _) _ s2).trans filled

theorem execCurfewRelease_leavesQueue (ctx : Fin 8) (s : State) : LeavesQueue s (execCurfewRelease ctx s) := by
  unfold execCurfewRelease
  grind [LeavesQueue.next_iff, State.setJob_pending, State.beginCaravan_pending, State.beginJob_pending, State.chargeWait_pending,
    State.openRegions_pending, State.completeStep_pending]

theorem execHandoffIssue_leavesQueue (ctx : Fin 8) (action : Nat) (s : State) : LeavesQueue s (execHandoffIssue ctx action s) := by
  unfold execHandoffIssue
  grind [LeavesQueue.next_iff, State.queueCommand_pending, State.stepStop_pending, State.setJob_pending]

theorem State.writeNorm_pending (s : State) (c : Nat) (va : Nat) (v : Tbl Word) : (s.writeNorm c va v).pending = s.pending := by
  have written := s.vwrite_pending c va (normBytes v) false
  unfold State.writeNorm
  split
  · next h =>
    rw [h] at written
    exact written
  · next h =>
    rw [h] at written
    rw [State.engineStop_pending]
    exact written

theorem State.skipScales_pending (s : State) (c : Nat) : (s.skipScales c).pending = s.pending := by
  unfold State.skipScales
  refine foldl_pending (fun t a => ?_) _ _
  grind [State.scaleStep_pending, State.discardAmax_pending]

theorem State.skipRows_pending (s : State) (c : Nat) : (s.skipRows c).pending = s.pending := by
  unfold State.skipRows
  refine foldl_pending (fun t a => ?_) _ _
  grind [State.clearSparse_pending, State.updStop_pending]

theorem State.decideSnapshot_pending (s : State) (c : Nat) (number : Word) (defer : Bool) :
    (s.decideSnapshot c number defer).pending = s.pending := by
  unfold State.decideSnapshot
  grind [State.event_pending, State.setPorter_pending]

theorem execStepDecision_leavesQueue (ctx : Fin 8) (others : List Contribution) (s : State) :
    LeavesQueue s (execStepDecision ctx others s) := by
  unfold execStepDecision
  extract_lets c j me wanted ready s0 mine theirs s1 j1
  split
  · exact .refl s
  · next k _ =>
    extract_lets due own parts norm g nf s2 sN s3 j3 s4 held pushes
    have opened : s0.pending = s.pending := s.openRegions_pending c
    have normed : sN.pending = s.pending := by
      rw [State.writeNorm_pending, State.setJob_pending, State.clearFlags_pending, opened]
    have decided : s3.pending = s.pending := (State.decideSnapshot_pending sN c _ _).trans normed
    have skipped : s4.pending = s.pending := (State.setJob_pending s3 c _).trans decided
    clear_value s0 sN s3 s4
    split
    · exact .refl s
    · split
      · exact .next opened
      · split
        · exact .next normed
        · split
          · refine .next ?_
            rw [State.event_pending, State.skipScales_pending, State.skipRows_pending, skipped]
          · refine .next ?_
            rw [State.dealLayers_pending, State.setJob_pending, decided]

theorem execStep_leavesQueue (ring : Fin 64) (s : State) : LeavesQueue s (execStep ring s) := by
  unfold execStep
  grind [LeavesQueue.next_iff, State.reject_pending, State.complete_pending, State.setJob_pending, State.startEntry_pending]

theorem execInput_leavesQueue (ring : Fin 64) (view : HostView) (s : State) : LeavesQueue s (execInput ring view s) := by
  unfold execInput
  grind [LeavesQueue.next_iff, State.reject_pending, State.complete_pending, State.fromHost_pending, State.readFailed_pending,
    State.commandStop_pending, State.setJob_pending]

/-! ### Loading and ending a job -/

theorem State.loadEvent_pending (s : State) (c ref : Nat) (e : LoadFail) : (s.loadEvent c ref e).pending = s.pending := by
  unfold State.loadEvent
  grind [State.event_pending, State.stopEvent_pending]

theorem State.memSegments_pending (s : State) (c : Nat) (v : HostView) (base i : Nat) (ep : Bool) (n : Nat) :
    (s.memSegments c v base i ep n).1.pending = s.pending := by
  induction n generalizing s c v base i ep with
  | zero => rfl
  | succ n ih =>
    unfold State.memSegments
    grind [State.fromHost_pending]

theorem State.readList_pending (s : State) (c : Nat) : (s.readList c).1.pending = s.pending := by
  unfold State.readList
  grind [State.readArrays_pending, State.setJob_pending]

theorem State.fillTile_pending (s : State) (tile : Nat) (tensors : Nat) (v : HostView) (r : List Byte) :
    (s.fillTile tile tensors v r).1.pending = s.pending := by
  unfold State.fillTile
  grind [State.setTile_pending]

theorem State.tileRecords_pending (s : State) (c : Nat) (v : HostView) (base i : Nat) (seen : List Nat) (ep : Bool) (n : Nat) :
    (s.tileRecords c v base i seen ep n).1.pending = s.pending := by
  induction n generalizing s c v base i seen ep with
  | zero => rfl
  | succ n ih =>
    unfold State.tileRecords
    grind [State.fillTile_pending]

theorem State.firstImages_pending (s : State) (c : Nat) : (s.firstImages c).1.pending = s.pending := by
  unfold State.firstImages
  dsimp only
  split
  · rfl
  · split <;> (refine foldl_pending (fun t n => ?_) _ s; grind [State.loadImage_pending, State.setTile_pending])

theorem State.freshContext_pending (s : State) (c : Nat) : (s.freshContext c).pending = s.pending := by
  simp only [State.freshContext, State.setPorter_pending]

theorem State.allDirty_pending (s : State) (c : Nat) : (s.allDirty c).pending = s.pending := by
  unfold State.allDirty
  refine foldl_pending (fun t a => ?_) _ _
  grind [State.markDirty_pending]

theorem State.takeScales_pending (s : State) (c i : Nat) (n : Nat) : (s.takeScales c i n).1.pending = s.pending := by
  induction n generalizing s c i with
  | zero => rfl
  | succ n ih =>
    unfold State.takeScales
    grind [State.vdemand_pending, State.scaleWrite_pending]

theorem State.loadJob_pending (s : State) (c : Nat) (v : HostView) (list : Nat) (h : List Byte) :
    (s.loadJob c v list h).1.pending = s.pending := by
  unfold State.loadJob
  grind [State.memSegments_pending, State.readList_pending, State.takeScales_pending, State.tileRecords_pending,
    State.firstImages_pending]

theorem State.heldTokens_pending (s : State) (c : Nat) : (s.heldTokens c).pending = s.pending := by
  unfold State.heldTokens
  refine foldl_pending (fun t a => ?_) _ _
  grind [State.takeToken_pending]

theorem execJobLoad_leavesQueue (ring : Fin 64) (view : HostView) (s : State) : LeavesQueue s (execJobLoad ring view s) := by
  unfold execJobLoad
  split
  · exact .refl s
  · next e _ =>
    extract_lets c ctxAt list ref bad closed
    have closes (t : State) (f : LoadFail) (h : t.pending = s.pending) : LeavesQueue s (closed t f) := by
      refine .next ?_
      rw [State.complete_pending, State.loadEvent_pending, h]
    clear_value bad closed
    grind (splits := 20) [LeavesQueue.next_iff, State.reject_pending, State.complete_pending, State.applyRepairs_pending, State.event_pending,
      State.freshContext_pending, State.setJob_pending, State.loadJob_pending, State.heldTokens_pending, State.allDirty_pending,
      State.loadEvent_pending, State.startEntry_pending]

theorem State.haltRings_pending (s : State) (c : Nat) : (s.haltRings c).pending = s.pending := by
  unfold State.haltRings
  refine foldl_pending (fun t a => ?_) _ _
  grind [State.setRing_pending]

theorem State.killContext_pending (s : State) (c : Nat) (by_ : List (Fin 64 × BitVec 16 × Byte)) : (s.killContext c by_).pending = s.pending := by
  simp only [State.killContext, State.abandon_pending, State.haltRings_pending, State.setJob_pending]

theorem execKill_leavesQueue (ring : Fin 64) (s : State) : LeavesQueue s (execKill ring s) := by
  unfold execKill
  grind [LeavesQueue.next_iff, State.reject_pending, State.complete_pending, State.setJob_pending, State.startEntry_pending,
    State.killContext_pending]

theorem execJobEnd_leavesQueue (ring : Fin 64) (s : State) : LeavesQueue s (execJobEnd ring s) := by
  unfold execJobEnd
  grind [LeavesQueue.next_iff, State.reject_pending, State.setJob_pending, State.startEntry_pending, State.stopAtCurfew_pending]

theorem State.scrub_pending (s : State) (c : Nat) : (s.scrub c).pending = s.pending := by
  unfold State.scrub
  refine foldl_pending (fun t a => ?_) _ _
  grind [State.setTile_pending, State.setJob_pending]

theorem execScrubComplete_leavesQueue (ctx : Fin 8) (s : State) : LeavesQueue s (execScrubComplete ctx s) := by
  unfold execScrubComplete
  dsimp only
  split <;> simp only [LeavesQueue.next_iff, foldl_pending, implies_true, State.bankSummaries_pending, State.applyRepairs_pending,
    State.scrub_pending, State.complete_pending]

/-! ### The Porter -/

theorem execSnapshot_leavesQueue (ring : Fin 64) (s : State) : LeavesQueue s (execSnapshot ring s) := by
  unfold execSnapshot
  grind [LeavesQueue.next_iff, State.reject_pending, State.complete_pending, State.setPorter_pending, State.startEntry_pending]

theorem State.demandRanges_pending (s : State) (c : Nat) (frames : Except Stop (List (Nat × Nat))) :
    (s.demandRanges c frames).pending = s.pending := by
  unfold State.demandRanges
  dsimp only
  (repeat' split) <;> simp only [foldl_pending, implies_true, State.vdemand_pending, State.demandWalks_pending]

theorem State.sendParts_pending (s : State) (c : Nat) (parts : List Part) : (s.sendParts c parts).pending = s.pending := by
  simp only [State.sendParts, State.setPorter_pending]

theorem execSnapshotCapture_leavesQueue (ctx : Fin 8) (s : State) : LeavesQueue s (execSnapshotCapture ctx s) := by
  unfold execSnapshotCapture
  grind [LeavesQueue.next_iff, State.demandRanges_pending, State.vtake_pending, State.engineStop_pending, State.sendParts_pending,
    State.setPorter_pending, State.vdemand_pending]

theorem execSnapshotFrameCopy_leavesQueue (ctx : Fin 8) (s : State) : LeavesQueue s (execSnapshotFrameCopy ctx s) := by
  unfold execSnapshotFrameCopy
  grind [LeavesQueue.next_iff, State.engineStop_pending, State.setPorter_pending, State.demand_pending, State.demandWalks_pending,
    State.sendParts_pending]

theorem State.snapshotDone_pending (s : State) (c : Nat) : (s.snapshotDone c).pending = s.pending := by
  unfold State.snapshotDone
  refine foldl_pending (fun t a => ?_) _ _
  grind [State.setPorter_pending, State.complete_pending]

theorem execSnapshotCommit_leavesQueue (ctx : Fin 8) (s : State) : LeavesQueue s (execSnapshotCommit ctx s) := by
  unfold execSnapshotCommit
  grind [LeavesQueue.next_iff, State.sendParts_pending, State.setPorter_pending, State.snapshotDone_pending]

theorem execMirrorPartReceive_leavesQueue (port : Fin 8) (ctx : Fin 8) (part : Part) (s : State) :
    LeavesQueue s (execMirrorPartReceive port ctx part s) := by
  unfold execMirrorPartReceive
  grind [LeavesQueue.next_iff, State.setPorter_pending]

theorem execMirrorAck_leavesQueue (ctx : Fin 8) (port : Fin 8) (s : State) : LeavesQueue s (execMirrorAck ctx port s) := by
  unfold execMirrorAck
  grind [LeavesQueue.next_iff, State.setPorter_pending, State.snapshotDone_pending]

theorem execMirrorServe_leavesQueue (port : Fin 8) (ctx : Fin 8) (step : Word) (s : State) : LeavesQueue s (execMirrorServe port ctx step s) := by
  unfold execMirrorServe
  grind [LeavesQueue.next_iff, State.setPorter_pending]

theorem State.emitLines_pending (s : State) (a : Nat) (ls : List (List Byte × Bool)) : (s.emitLines a ls).pending = s.pending := by
  unfold State.emitLines
  refine foldl_pending (fun t a => ?_) _ _
  grind [State.emit_pending]

theorem execShip_leavesQueue (ring : Fin 64) (s : State) : LeavesQueue s (execShip ring s) := by
  unfold execShip
  dsimp only
  (repeat' split) <;> simp only [LeavesQueue.next_iff, State.reject_pending, State.complete_pending, State.setPorter_pending,
    State.emitLines_pending]

theorem State.takeArrays_pending (s : State) (c : Nat) (l : List (Nat × Nat)) : (s.takeArrays c l).1.pending = s.pending := by
  induction l generalizing s c with
  | nil => rfl
  | cons x l ih =>
    unfold State.takeArrays
    grind [State.vtake_pending]

theorem State.emitArrays_pending (s : State) (a : Nat) (l : List (List MByte)) : (s.emitArrays a l).1.pending = s.pending := by
  induction l generalizing s a with
  | nil => rfl
  | cons x l ih =>
    unfold State.emitArrays
    grind [State.emitLines_pending]

theorem execLayerRead_leavesQueue (ring : Fin 64) (s : State) : LeavesQueue s (execLayerRead ring s) := by
  unfold execLayerRead
  grind [LeavesQueue.next_iff, State.layerRaw_pending, State.reject_pending, State.commandStop_pending, State.takeArrays_pending,
    State.emitArrays_pending, State.complete_pending]

theorem State.restoreLines_pending (s : State) (c va n : Nat) (line : Nat → List Byte) (poison : List Nat) :
    (s.restoreLines c va n line poison).1.pending = s.pending := by
  unfold State.restoreLines
  refine foldl_fst_pending (fun t a => ?_) _ _
  grind [State.vwrite_pending]

theorem State.restoreBlock_pending (s : State) (c : Nat) (va : Nat) (b : Block) : (s.restoreBlock c va b).1.pending = s.pending := by
  simp only [State.restoreBlock, State.restoreLines_pending]

theorem State.restoreBlocks_pending (s : State) (c : Nat) (disp : Int) (l : List Block) : (s.restoreBlocks c disp l).1.pending = s.pending := by
  unfold State.restoreBlocks
  refine foldl_fst_pending (fun t a => ?_) _ _
  grind [State.restoreBlock_pending]

theorem State.restoreImages_pending (s : State) (c n : Nat) : (s.restoreImages c n).pending = s.pending := by
  unfold State.restoreImages
  refine foldl_pending (fun t a => ?_) _ _
  grind [State.loadImage_pending, State.setTile_pending]

theorem State.restoreTiles_pending (s : State) (c : Nat) (m : List Byte) (l : List TileRec) :
    (s.restoreTiles c m l).pending = s.pending := by
  unfold State.restoreTiles
  extract_lets s1
  have awaiting : s1.pending = s.pending := foldl_pending (fun t n => t.setTile_pending n _) _ s
  clear_value s1
  exact (foldl_pending (fun t r => t.setTile_pending _ _) l s1).trans awaiting

theorem State.restoreFrom_pending (s : State) (c : Nat) (t : Snap) (only : Bool) (disp : Int) (m : List Byte) (held : Nat) :
    (s.restoreFrom c t only disp m held).1.pending = s.pending := by
  unfold State.restoreFrom
  grind [State.restoreBlocks_pending, State.restoreLines_pending, State.setJob_pending, State.restoreImages_pending,
    State.restoreTiles_pending]

theorem execRestore_leavesQueue (ring : Fin 64) (view : HostView) (remote : List Part) (s : State) :
    LeavesQueue s (execRestore ring view remote s) := by
  unfold execRestore
  split
  · exact .refl s
  · next e _ =>
    extract_lets c source port slot flags step disp map held only j bad p col
    clear_value bad col
    split
    · exact .next (s.reject_pending _ _ _ _)
    · split
      · exact .next (s.complete_pending _ _ _ _ _ _)
      · split
        · exact .next (s.reject_pending _ _ _ _)
        · next i t _ =>
          split
          · exact .next (s.reject_pending _ _ _ _)
          · exact .next (s.readFailed_pending _ _ _ _)
          · next _ m =>
            have restored := s.restoreFrom_pending c t only disp m held
            extract_lets coordBad
            split
            · exact .next (s.reject_pending _ _ _ _)
            · split
              · next h =>
                rw [h] at restored
                exact .next ((State.commandStop_pending _ _ _ _ _ _ _).trans restored)
              · next h =>
                rw [h] at restored
                refine .next ?_
                rw [State.complete_pending, State.event_pending, State.setPorter_pending]
                exact restored

/-! ### The Logbook and the field tests -/

theorem State.retire__pending (s : State) (phys : Nat) (cause : BitVec 16) : (s.retire_ phys cause).pending = s.pending := by
  unfold State.retire_
  grind [State.retireTile_pending, State.record_pending, State.event_pending, State.checkSpares_pending, State.holdJob_pending]

theorem State.judge_pending (s : State) (r : LogRec) : (s.judge r).pending = s.pending := by
  unfold State.judge
  grind [State.retire__pending]

theorem execLogbookAppend_leavesQueue (s : State) : LeavesQueue s (execLogbookAppend s) := by
  unfold execLogbookAppend
  grind [LeavesQueue.next_iff, State.judge_pending]

theorem execLogbookRead_leavesQueue (ring : Fin 64) (s : State) : LeavesQueue s (execLogbookRead ring s) := by
  unfold execLogbookRead
  grind [LeavesQueue.next_iff, State.reject_pending, State.complete_pending, State.emitLines_pending]

theorem execFieldTest_leavesQueue (ring : Fin 64) (s : State) : LeavesQueue s (execFieldTest ring s) := by
  unfold execFieldTest
  grind [LeavesQueue.next_iff, State.reject_pending, State.complete_pending, State.startEntry_pending]

theorem State.march_pending (s : State) (which : Nat) : (s.march which).pending = s.pending := by
  unfold State.march
  grind [State.applyInjection_pending]

theorem State.failUnit_pending (s : State) (f : TestFailure) : (s.failUnit f).pending = s.pending := by
  unfold State.failUnit
  dsimp only
  split <;> simp only [foldl_pending, apply_ite State.pending, ite_self, implies_true, State.record_pending, State.event_pending,
    State.retire__pending, State.setOwner_pending]

theorem State.endLoopbacks_pending (s : State) : s.endLoopbacks.pending = s.pending := by
  unfold State.endLoopbacks
  refine foldl_pending (fun t a => ?_) _ _
  grind [State.setPort_pending]

theorem execFieldTestComplete_leavesQueue (failures : List TestFailure) (s : State) : LeavesQueue s (execFieldTestComplete failures s) := by
  unfold execFieldTestComplete
  dsimp only
  split <;> simp only [LeavesQueue.next_iff, foldl_pending, apply_ite State.pending, ite_self, implies_true, State.march_pending,
    State.failUnit_pending, State.complete_pending, State.endLoopbacks_pending]

/-! ### The ports -/

theorem State.portEvent_pending (s : State) (p : Nat) (code : BitVec 16) (arg1 : Nat) : (s.portEvent p code arg1).pending = s.pending := by
  simp only [State.portEvent, State.event_pending]

theorem State.courierLost_pending (s : State) (p : Nat) : (s.courierLost p).pending = s.pending := by
  unfold State.courierLost
  refine foldl_pending (fun t a => ?_) _ _
  grind [State.onCmd_pending, State.cmdLost_pending]

theorem State.curfewLost_pending (s : State) (p : Nat) : (s.curfewLost p).pending = s.pending := by
  unfold State.curfewLost
  refine foldl_pending (fun t a => ?_) _ _
  grind [State.partnerLost_pending]

theorem State.dropPort_pending (s : State) (p : Nat) (st : Link) : (s.dropPort p st).pending = s.pending := by
  unfold State.dropPort
  grind [State.setPort_pending, State.curfewLost_pending, State.courierLost_pending]

theorem State.faulty_pending (s : State) (p : Nat) : (s.faulty p).pending = s.pending := by
  simp only [State.faulty, State.setPort_pending, State.portEvent_pending, State.dropPort_pending]

theorem State.judgeNaks_pending (s : State) (p : Nat) : (s.judgeNaks p).pending = s.pending := by
  unfold State.judgeNaks
  grind [State.faulty_pending]

theorem State.quarantine_pending (s : State) (p : Nat) (code : BitVec 16) : (s.quarantine p code).pending = s.pending := by
  simp only [State.quarantine, State.portEvent_pending, State.dropPort_pending]

theorem State.retrain_pending (s : State) (p : Nat) (ask : Bool) : (s.retrain p ask).pending = s.pending := by
  simp only [State.retrain, State.setPort_pending]

theorem State.enablePort_pending (s : State) (p : Nat) : (s.enablePort p).pending = s.pending := by
  unfold State.enablePort
  grind [State.setPort_pending, State.portEvent_pending]

theorem State.disablePort_pending (s : State) (p : Nat) : (s.disablePort p).pending = s.pending := by
  simp only [State.disablePort, State.dropPort_pending, State.setPort_pending]

theorem State.beginAuth_pending (s : State) (p : Nat) : (s.beginAuth p).pending = s.pending := by
  simp only [State.beginAuth, State.setPort_pending]

theorem State.writePortCtrl_pending (s : State) (p : Nat) (v : Word) : (s.writePortCtrl p v).pending = s.pending := by
  unfold State.writePortCtrl
  grind [State.setPort_pending, State.enablePort_pending, State.disablePort_pending, State.beginAuth_pending]

theorem execPortEnable_leavesQueue (port : Fin 8) (value : Word) (s : State) : LeavesQueue s (execPortEnable port value s) := by
  unfold execPortEnable
  grind [LeavesQueue.next_iff, State.writePortCtrl_pending]

theorem execPortDisable_leavesQueue (port : Fin 8) (value : Word) (s : State) : LeavesQueue s (execPortDisable port value s) := by
  unfold execPortDisable
  grind [LeavesQueue.next_iff, State.writePortCtrl_pending]

theorem execReauth_leavesQueue (port : Fin 8) (value : Word) (s : State) : LeavesQueue s (execReauth port value s) := by
  unfold execReauth
  grind [LeavesQueue.next_iff, State.writePortCtrl_pending]

theorem execLaserSourceInsert_leavesQueue (port : Fin 8) (s : State) : LeavesQueue s (execLaserSourceInsert port s) := by
  unfold execLaserSourceInsert
  grind [LeavesQueue.next_iff, State.setPort_pending]

theorem execLaserSourceAbsent_leavesQueue (port : Fin 8) (s : State) : LeavesQueue s (execLaserSourceAbsent port s) := by
  unfold execLaserSourceAbsent
  grind [LeavesQueue.next_iff, State.setPort_pending, State.portEvent_pending, State.dropPort_pending]

theorem execDetectRetry_leavesQueue (port : Fin 8) (s : State) : LeavesQueue s (execDetectRetry port s) := by
  unfold execDetectRetry
  grind [LeavesQueue.next_iff, State.setPort_pending, State.dropPort_pending]

theorem execLightDetected_leavesQueue (port : Fin 8) (lanes : BitVec 34) (s : State) : LeavesQueue s (execLightDetected port lanes s) := by
  unfold execLightDetected
  grind [LeavesQueue.next_iff, State.setPort_pending]

theorem State.degraded_pending (s : State) (p old new : Nat) : (s.degraded p old new).pending = s.pending := by
  unfold State.degraded
  grind [State.portEvent_pending]

theorem execTrainingComplete_leavesQueue (port : Fin 8) (good : BitVec 34) (s : State) : LeavesQueue s (execTrainingComplete port good s) := by
  unfold execTrainingComplete
  grind [LeavesQueue.next_iff, State.setPort_pending, State.faulty_pending, State.degraded_pending, State.beginAuth_pending]

theorem State.askMap_pending (s : State) (p : Nat) (mask : BitVec 34) : (s.askMap p mask).pending = s.pending := by
  simp only [State.askMap, State.setPort_pending]

theorem State.failLane_pending (s : State) (p lane : Nat) : (s.failLane p lane).pending = s.pending := by
  unfold State.failLane
  grind [State.setPort_pending, State.faulty_pending, State.retrain_pending, State.askMap_pending]

theorem execLaneLossOfLock_leavesQueue (port : Fin 8) (lane : Fin 34) (s : State) : LeavesQueue s (execLaneLossOfLock port lane s) := by
  unfold execLaneLossOfLock
  grind [LeavesQueue.next_iff, State.failLane_pending]

theorem execLaneBerWindow_leavesQueue (port : Fin 8) (lane : Fin 34) (bad : Bool) (s : State) :
    LeavesQueue s (execLaneBerWindow port lane bad s) := by
  unfold execLaneBerWindow
  grind [LeavesQueue.next_iff, State.failLane_pending, State.setPort_pending]

theorem execNoFrameTimeout_leavesQueue (port : Fin 8) (s : State) : LeavesQueue s (execNoFrameTimeout port s) := by
  unfold execNoFrameTimeout
  grind [LeavesQueue.next_iff, State.retrain_pending]

theorem State.renewKeys_pending (s : State) (p : Nat) (was : BitVec 16) : (s.renewKeys p was).pending = s.pending := by
  unfold State.renewKeys
  grind [State.beginAuth_pending, State.setPort_pending]

theorem execFlitSlotSend_leavesQueue (port : Fin 8) (s : State) : LeavesQueue s (execFlitSlotSend port s) := by
  unfold execFlitSlotSend
  grind [LeavesQueue.next_iff, State.renewKeys_pending, State.sendHeld_pending, State.setPort_pending]

theorem State.acceptFrame_pending (s : State) (p : Nat) (key : Option (List Byte)) (frame : Word) (slots : List RxSlot) :
    (s.acceptFrame p key frame slots).pending = s.pending := by
  unfold State.acceptFrame
  grind [State.setPort_pending, State.quarantine_pending]

theorem State.closeFrame_pending (s : State) (p : Nat) (slots : List RxSlot) (tag : Option (BitVec 128)) :
    (s.closeFrame p slots tag).pending = s.pending := by
  unfold State.closeFrame
  grind [State.setPort_pending, State.acceptFrame_pending, State.quarantine_pending]

theorem State.switchMap_pending (s : State) (p : Nat) (now : BitVec 4) : (s.switchMap p now).pending = s.pending := by
  unfold State.switchMap
  grind [State.setPort_pending, State.portEvent_pending]

theorem State.openMarker_pending (s : State) (p : Nat) (m : RxSlot) : (s.openMarker p m).pending = s.pending := by
  unfold State.openMarker
  grind [State.switchMap_pending, State.setPort_pending]

theorem execMarkerReceive_leavesQueue (port : Fin 8) (marker : RxSlot) (frame : RxFrame) (s : State) :
    LeavesQueue s (execMarkerReceive port marker frame s) := by
  unfold execMarkerReceive
  grind [LeavesQueue.next_iff, State.setPort_pending, State.closeFrame_pending, State.judgeNaks_pending, State.quarantine_pending,
    State.openMarker_pending]

theorem execIdleFlit_leavesQueue (port : Fin 8) (ack : BitVec 16) (nak : Bool) (credit1 : BitVec 8) (credit0 : BitVec 3) (s : State) :
    LeavesQueue s (execIdleFlit port ack nak credit1 credit0 s) := by
  unfold execIdleFlit
  grind [LeavesQueue.next_iff, State.judgeNaks_pending, State.setPort_pending]

theorem execMapRequest_leavesQueue (port : Fin 8) (version : BitVec 4) (mask : BitVec 34) (s : State) :
    LeavesQueue s (execMapRequest port version mask s) := by
  unfold execMapRequest
  grind [LeavesQueue.next_iff, State.setPort_pending]

theorem execRetrainRequest_leavesQueue (port : Fin 8) (s : State) : LeavesQueue s (execRetrainRequest port s) := by
  unfold execRetrainRequest
  grind [LeavesQueue.next_iff, State.retrain_pending, State.setPort_pending]

theorem execFaultyNotice_leavesQueue (port : Fin 8) (s : State) : LeavesQueue s (execFaultyNotice port s) := by
  unfold execFaultyNotice
  grind [LeavesQueue.next_iff, State.faulty_pending]

theorem execHello_leavesQueue (port : Fin 8) (h : Hello) (s : State) : LeavesQueue s (execHello port h s) := by
  unfold execHello
  grind [LeavesQueue.next_iff, State.beginAuth_pending, State.setPort_pending, State.quarantine_pending]

theorem execCerts_leavesQueue (port : Fin 8) (content : List Byte) (verdict : ChainVerdict) (s : State) :
    LeavesQueue s (execCerts port content verdict s) := by
  unfold execCerts
  grind [LeavesQueue.next_iff, State.quarantine_pending, State.setPort_pending]

theorem execKeyShare_leavesQueue (port : Fin 8) (share : PeerShare) (s : State) : LeavesQueue s (execKeyShare port share s) := by
  unfold execKeyShare
  grind [LeavesQueue.next_iff, State.quarantine_pending, State.setPort_pending]

theorem execFinished_leavesQueue (port : Fin 8) (sign : PeerSign) (s : State) : LeavesQueue s (execFinished port sign s) := by
  unfold execFinished
  grind [LeavesQueue.next_iff, State.quarantine_pending, State.setPort_pending]

theorem execAuthStepTimeout_leavesQueue (port : Fin 8) (s : State) : LeavesQueue s (execAuthStepTimeout port s) := by
  unfold execAuthStepTimeout
  grind [LeavesQueue.next_iff, State.retrain_pending, State.setPort_pending, State.dropPort_pending]

theorem execRetryWindowEnd_leavesQueue (port : Fin 8) (s : State) : LeavesQueue s (execRetryWindowEnd port s) := by
  unfold execRetryWindowEnd
  grind [LeavesQueue.next_iff, State.judgeNaks_pending, State.setPort_pending]

theorem execHoldoffExpiry_leavesQueue (port : Fin 8) (s : State) : LeavesQueue s (execHoldoffExpiry port s) := by
  unfold execHoldoffExpiry
  grind [LeavesQueue.next_iff, State.portEvent_pending, State.setPort_pending]

theorem execLinkCreditStarved_leavesQueue (port : Fin 8) (ctx : Fin 8) (s : State) : LeavesQueue s (execLinkCreditStarved port ctx s) := by
  unfold execLinkCreditStarved
  grind [LeavesQueue.next_iff, State.event_pending, State.setPort_pending]

theorem execCurfewTagUnknown_leavesQueue (entry : Nat) (s : State) : LeavesQueue s (execCurfewTagUnknown entry s) := by
  unfold execCurfewTagUnknown
  dsimp only
  split
  · exact .refl s
  · split
    · exact .refl s
    · exact .next (State.event_pending _ _ _ _ _ _ _)

/-! ### Boot and the sideband -/

theorem State.powerCycle_pending (s : State) : s.powerCycle.pending = s.pending := rfl

theorem execPowerOnReset_leavesQueue (straps : Straps) (slotA slotB recovery : Image) (s : State) :
    LeavesQueue s (execPowerOnReset straps slotA slotB recovery s) := by
  unfold execPowerOnReset
  grind [LeavesQueue.next_iff, State.powerCycle_pending]

theorem execStandbyPowerLoss_leavesQueue (s : State) : LeavesQueue s (execStandbyPowerLoss s) := by
  unfold execStandbyPowerLoss
  grind [LeavesQueue.next_iff, State.powerCycle_pending]

theorem execStartupComplete_leavesQueue (s : State) : LeavesQueue s (execStartupComplete s) := by
  unfold execStartupComplete
  grind [LeavesQueue.next_iff]

theorem execStartupWatchdog_leavesQueue (s : State) : LeavesQueue s (execStartupWatchdog s) := by
  unfold execStartupWatchdog
  grind [LeavesQueue.next_iff]

theorem execGo_leavesQueue (image : Image) (s : State) : LeavesQueue s (execGo image s) := by
  unfold execGo
  grind [LeavesQueue.next_iff]

theorem State.bootReport_pending (s : State) : s.bootReport.pending = s.pending := by
  unfold State.bootReport
  refine foldl_pending (fun t a => ?_) _ _
  grind [State.raise_pending]

theorem State.stackFailure_pending (s : State) (m : Nat) : (s.stackFailure m).pending = s.pending := by
  simp only [State.stackFailure, State.record_pending]

theorem State.loadHistory_pending (s : State) : s.loadHistory.pending = s.pending := by
  simp only [State.loadHistory]

theorem execBootDone_leavesQueue (trained : BitVec 8) (s : State) : LeavesQueue s (execBootDone trained s) := by
  unfold execBootDone
  dsimp only
  split <;> simp only [LeavesQueue.next_iff, foldl_pending, apply_ite State.pending, ite_self, implies_true, State.setStack_pending,
    State.stackFailure_pending, State.applyRow_pending, State.loadHistory_pending, State.enablePort_pending, State.bootReport_pending]

theorem State.authEvent_pending (s : State) (subject reason : Nat) : (s.authEvent subject reason).pending = s.pending := by
  simp only [State.authEvent, State.event_pending]

theorem State.settings_pending (s : State) (p : Package) (progress : WriteProgress) : (s.settings p progress).pending = s.pending := by
  unfold State.settings
  grind [State.authEvent_pending]

theorem State.update_pending (s : State) (i : Image) (progress : WriteProgress) : (s.update i progress).pending = s.pending := by
  unfold State.update
  grind [State.authEvent_pending]

theorem State.answer_pending (s : State) (kind : Nat) (l : List Byte) : (s.answer kind l).pending = s.pending := by
  simp only [State.answer]

theorem execPldmFirmwareUpdate_leavesQueue (image : Option Image) (package : Option Package) (progress : WriteProgress) (s : State) :
    LeavesQueue s (execPldmFirmwareUpdate image package progress s) := by
  unfold execPldmFirmwareUpdate
  grind [LeavesQueue.next_iff, State.settings_pending, State.update_pending]

theorem State.spdm_leavesQueue (s : State) (code : Nat) (content : List Byte) : LeavesQueue s (s.spdm code content) := by
  unfold State.spdm
  grind [LeavesQueue.next_iff, State.answer_pending]

theorem State.spdmUnspecified_leavesQueue (s : State) : LeavesQueue s s.spdmUnspecified := by
  unfold State.spdmUnspecified
  grind [LeavesQueue.next_iff, State.answer_pending]

theorem execGetVersion_leavesQueue (s : State) : LeavesQueue s (execGetVersion s) := by
  unfold execGetVersion
  grind [LeavesQueue.next_iff, State.spdm_leavesQueue]

theorem execGetCapabilities_leavesQueue (s : State) : LeavesQueue s (execGetCapabilities s) := by
  unfold execGetCapabilities
  grind [LeavesQueue.next_iff, State.spdm_leavesQueue]

theorem execNegotiateAlgorithms_leavesQueue (s : State) : LeavesQueue s (execNegotiateAlgorithms s) := by
  unfold execNegotiateAlgorithms
  grind [LeavesQueue.next_iff, State.spdm_leavesQueue]

theorem execGetDigests_leavesQueue (s : State) : LeavesQueue s (execGetDigests s) := by
  unfold execGetDigests
  grind [LeavesQueue.next_iff, State.spdm_leavesQueue]

theorem execGetCertificate_leavesQueue (offset length : Nat) (s : State) : LeavesQueue s (execGetCertificate offset length s) := by
  unfold execGetCertificate
  grind [LeavesQueue.next_iff, State.spdm_leavesQueue]

theorem execChallenge_leavesQueue (nonce : BitVec 256) (s : State) : LeavesQueue s (execChallenge nonce s) := by
  unfold execChallenge
  grind [LeavesQueue.next_iff, State.spdm_leavesQueue, State.spdmUnspecified_leavesQueue]

theorem execGetMeasurements_leavesQueue (index : Byte) (signed : Bool) (s : State) : LeavesQueue s (execGetMeasurements index signed s) := by
  unfold execGetMeasurements
  grind [LeavesQueue.next_iff, State.spdmUnspecified_leavesQueue, State.spdm_leavesQueue]

/-! ### Branches -/

theorem State.branch_leavesQueue (s : State) (w : Site) (t : Task) (target : Int) : LeavesQueue s (s.branch w t target) := by
  unfold State.branch
  grind [LeavesQueue.next_iff, State.retire_pending, State.haltTask_pending]

theorem execBr_leavesQueue (w : Site) (f : FB) (s : State) : LeavesQueue s (execBr w f s) := by
  unfold execBr
  grind [LeavesQueue.next_iff, State.issue_leavesQueue, State.invalid_pending, State.holdTask_pending, State.branch_leavesQueue]

theorem execJr_leavesQueue (w : Site) (f : FB) (s : State) : LeavesQueue s (execJr w f s) := by
  unfold execJr
  grind [LeavesQueue.next_iff, State.issue_leavesQueue, State.invalid_pending, State.holdTask_pending, State.eatTag_pending,
    State.operandBad_pending, State.branch_leavesQueue]

theorem execLoop_leavesQueue (w : Site) (f : FB) (s : State) : LeavesQueue s (execLoop w f s) := by
  unfold execLoop
  grind [LeavesQueue.next_iff, State.issue_leavesQueue, State.invalid_pending, State.holdTask_pending, State.eatTag_pending,
    State.retire_pending, State.branch_leavesQueue]

/-! ### Power and temperature -/

theorem State.choose_pending (s : State) (l : List Nat) : (s.choose l).2.pending = s.pending := by
  unfold State.choose
  grind

theorem State.request_pending (s : State) : s.request.pending = s.pending := by
  simp only [State.request, State.choose_pending]

theorem State.thermalEvent_pending (s : State) (code : BitVec 16) (arg0 arg1 : Nat) : (s.thermalEvent code arg0 arg1).pending = s.pending := by
  simp only [State.thermalEvent, State.event_pending]

theorem State.criticalEvent_pending (s : State) (sensor killed : Nat) : (s.criticalEvent sensor killed).pending = s.pending := by
  simp only [State.criticalEvent, State.thermalEvent_pending]

theorem State.take_pending (s : State) (r : Nat × BitVec 16) : (s.take r).pending = s.pending := by
  unfold State.take
  grind [State.setStack_pending]

theorem State.opticalCheck_pending (s : State) (p : Nat) : (s.opticalCheck p).pending = s.pending := by
  unfold State.opticalCheck
  grind [State.disablePort_pending, State.criticalEvent_pending, State.setPort_pending]

theorem execSensorRead_leavesQueue (readings : List (Nat × BitVec 16)) (s : State) : LeavesQueue s (execSensorRead readings s) := by
  simp only [execSensorRead, LeavesQueue.next_iff, foldl_pending, implies_true, State.take_pending, State.criticalEvent_pending,
    State.opticalCheck_pending, State.request_pending]

theorem State.killAll_pending (s : State) : s.killAll.pending = s.pending := by
  unfold State.killAll
  refine foldl_pending (fun t a => ?_) _ _
  grind [State.killContext_pending]

theorem execCriticalKill_leavesQueue (s : State) : LeavesQueue s (execCriticalKill s) := by
  unfold execCriticalKill
  grind [LeavesQueue.next_iff, State.choose_pending, State.killAll_pending, State.criticalEvent_pending]

theorem State.mainLost_pending (s : State) : s.mainLost.pending = s.pending := by
  simp only [State.mainLost]

theorem State.powerAlert_pending (s : State) (cause arg1 : Nat) (delivered : Bool) : (s.powerAlert cause arg1 delivered).pending = s.pending := by
  unfold State.powerAlert
  grind [State.thermalEvent_pending, State.record_pending]

theorem execRailUp_leavesQueue (rail : Nat) (s : State) : LeavesQueue s (execRailUp rail s) := by
  unfold execRailUp
  grind [LeavesQueue.next_iff]

theorem execRailFault_leavesQueue (rail : Nat) (s : State) : LeavesQueue s (execRailFault rail s) := by
  unfold execRailFault
  grind [LeavesQueue.next_iff, State.mainLost_pending, State.powerAlert_pending]

theorem execVinOutOfRange_leavesQueue (mV : BitVec 16) (s : State) : LeavesQueue s (execVinOutOfRange mV s) := by
  unfold execVinOutOfRange
  grind [LeavesQueue.next_iff, State.powerAlert_pending, State.mainLost_pending]

theorem execThermtrip_leavesQueue (sensor : Nat) (s : State) : LeavesQueue s (execThermtrip sensor s) := by
  unfold execThermtrip
  grind [LeavesQueue.next_iff, State.record_pending, State.mainLost_pending]

theorem execRootPllUnlock_leavesQueue (s : State) : LeavesQueue s (execRootPllUnlock s) := by
  unfold execRootPllUnlock
  grind [LeavesQueue.next_iff]

theorem execRootPllLock_leavesQueue (ok : Bool) (s : State) : LeavesQueue s (execRootPllLock ok s) := by
  unfold execRootPllLock
  grind [LeavesQueue.next_iff, State.killAll_pending, State.powerAlert_pending, State.mainLost_pending]

theorem execPowerWindow_leavesQueue (watts : BitVec 16) (s : State) : LeavesQueue s (execPowerWindow watts s) := by
  unfold execPowerWindow
  grind [LeavesQueue.next_iff, State.request_pending, State.powerAlert_pending]

theorem execPwrAlertNAssert_leavesQueue (s : State) : LeavesQueue s (execPwrAlertNAssert s) := by
  unfold execPwrAlertNAssert
  grind [LeavesQueue.next_iff, State.request_pending, State.powerAlert_pending]

theorem execPwrAlertHoldExpiry_leavesQueue (s : State) : LeavesQueue s (execPwrAlertHoldExpiry s) := by
  unfold execPwrAlertHoldExpiry
  grind [LeavesQueue.next_iff, State.request_pending]

theorem execThrottleStepApply_leavesQueue (s : State) : LeavesQueue s (execThrottleStepApply s) := by
  unfold execThrottleStepApply
  dsimp only
  split <;> simp only [LeavesQueue.next_iff, foldl_pending, apply_ite State.pending, ite_self, implies_true, State.setJob_pending,
    State.choose_pending, State.thermalEvent_pending]

theorem execMctpControl_leavesQueue (request : List Byte) (s : State) : LeavesQueue s (execMctpControl request s) := by
  unfold execMctpControl
  grind [LeavesQueue.next_iff, State.answer_pending]

theorem execPldmBaseDiscovery_leavesQueue (request : List Byte) (s : State) : LeavesQueue s (execPldmBaseDiscovery request s) := by
  unfold execPldmBaseDiscovery
  grind [LeavesQueue.next_iff, State.answer_pending]

theorem execPldmSensorRead_leavesQueue (sensor : Nat) (s : State) : LeavesQueue s (execPldmSensorRead sensor s) := by
  unfold execPldmSensorRead
  grind [LeavesQueue.next_iff, State.answer_pending]

theorem execPowerLimitEffecter_leavesQueue (watts : BitVec 16) (s : State) : LeavesQueue s (execPowerLimitEffecter watts s) := by
  unfold execPowerLimitEffecter
  grind [LeavesQueue.next_iff]

theorem execEntdaa_leavesQueue (address : BitVec 7) (s : State) : LeavesQueue s (execEntdaa address s) := by
  unfold execEntdaa
  grind [LeavesQueue.next_iff]

/-! ### The host interface -/

theorem State.forwardLost_pending (s : State) (n dropped : Nat) : (s.forwardLost n dropped).pending = s.pending := by
  unfold State.forwardLost
  grind [State.deliverDevice_pending]

theorem State.enableRing_pending (s : State) (n : Nat) (v : Word) : (s.enableRing n v).pending = s.pending := by
  simp only [State.enableRing, State.setRing_pending]

theorem State.disableRing_pending (s : State) (n : Nat) (v : Word) : (s.disableRing n v).pending = s.pending := by
  unfold State.disableRing
  grind [State.setRing_pending, State.forwardLost_pending]

theorem State.writeRingCfg_pending (s : State) (n : Nat) (value : Word) : (s.writeRingCfg n value).pending = s.pending := by
  unfold State.writeRingCfg
  grind [State.disableRing_pending, State.enableRing_pending, State.event_pending]

theorem State.recoveryRingCfg_pending (s : State) (n : Nat) (value : Word) : (s.recoveryRingCfg n value).pending = s.pending := by
  unfold State.recoveryRingCfg
  grind [State.event_pending]

theorem execRingEnable_leavesQueue (ring : Fin 64) (value : Word) (s : State) : LeavesQueue s (execRingEnable ring value s) := by
  unfold execRingEnable
  grind [LeavesQueue.next_iff, State.writeRingCfg_pending, State.recoveryRingCfg_pending]

theorem execRingDisable_leavesQueue (ring : Fin 64) (value : Word) (s : State) : LeavesQueue s (execRingDisable ring value s) := by
  unfold execRingDisable
  grind [LeavesQueue.next_iff, State.writeRingCfg_pending]

theorem State.badBell_pending (s : State) (n : Nat) (value : Word) : (s.badBell n value).pending = s.pending := by
  simp only [State.badBell, State.event_pending]

theorem State.ringBell_pending (s : State) (n : Nat) (value : Word) : (s.ringBell n value).pending = s.pending := by
  unfold State.ringBell
  grind [State.badBell_pending, State.setRing_pending]

theorem State.eventBell_pending (s : State) (n : Nat) (value : Word) : (s.eventBell n value).pending = s.pending := by
  unfold State.eventBell
  grind [State.badBell_pending, State.setRing_pending, State.putEvent_pending]

theorem execDoorbell_leavesQueue (ring : Fin 64) (value : Word) (s : State) : LeavesQueue s (execDoorbell ring value s) := by
  unfold execDoorbell
  grind [LeavesQueue.next_iff, State.ringBell_pending]

theorem execEventRingDoorbell_leavesQueue (ring : Fin 64) (value : Word) (s : State) : LeavesQueue s (execEventRingDoorbell ring value s) := by
  unfold execEventRingDoorbell
  grind [LeavesQueue.next_iff, State.eventBell_pending]

theorem execRingFetch_leavesQueue (ring : Fin 64) (entry : BitVec 512) (ep : Bool) (s : State) :
    LeavesQueue s (execRingFetch ring entry ep s) := by
  unfold execRingFetch
  grind [LeavesQueue.next_iff, State.setRing_pending, State.reject_pending]

theorem execHostReadFailed_leavesQueue (ring : Fin 64) (addr : Dword) (entryFetch : Bool) (s : State) :
    LeavesQueue s (execHostReadFailed ring addr entryFetch s) := by
  unfold execHostReadFailed
  grind [LeavesQueue.next_iff, State.event_pending, State.setRing_pending, State.readFailed_pending]

theorem execMsixMessage_leavesQueue (vector : Fin 64) (s : State) : LeavesQueue s (execMsixMessage vector s) := by
  unfold execMsixMessage
  grind [LeavesQueue.next_iff, State.emit_pending]

theorem execMsixVectorUnmask_leavesQueue (vector : Fin 64) (s : State) : LeavesQueue s (execMsixVectorUnmask vector s) := by
  unfold execMsixVectorUnmask
  grind [LeavesQueue.next_iff]

theorem State.killContexts_pending (s : State) : s.killContexts.pending = s.pending := by
  unfold State.killContexts
  refine foldl_pending (fun t a => ?_) _ _
  grind [State.killContext_pending, State.haltRings_pending]

theorem execFunctionLevelReset_leavesQueue (s : State) : LeavesQueue s (execFunctionLevelReset s) := by
  unfold execFunctionLevelReset
  grind [LeavesQueue.next_iff, State.killContexts_pending]

theorem execD3hotEntry_leavesQueue (s : State) : LeavesQueue s (execD3hotEntry s) := by
  unfold execD3hotEntry
  grind [LeavesQueue.next_iff, State.killContexts_pending]

theorem execPerstNAssert_leavesQueue (s : State) : LeavesQueue s (execPerstNAssert s) := by
  unfold execPerstNAssert
  grind [LeavesQueue.next_iff, State.killContexts_pending]

theorem execConfigRequestRetry_leavesQueue (s : State) : LeavesQueue s (execConfigRequestRetry s) := by
  unfold execConfigRequestRetry
  grind [LeavesQueue.next_iff]

theorem execPcieLinkTrained_leavesQueue (rate : BitVec 4) (width : BitVec 6) (s : State) : LeavesQueue s (execPcieLinkTrained rate width s) := by
  unfold execPcieLinkTrained
  grind [LeavesQueue.next_iff]

/-! ### The registers -/

theorem State.afterRead32_pending (s : State) (off : Nat) : (s.afterRead32 off).pending = s.pending := by
  unfold State.afterRead32
  grind

theorem State.read64_pending (s : State) (off : Nat) : (s.read64 off).2.pending = s.pending := by
  unfold State.read64
  grind [State.afterRead32_pending]

theorem State.badAccess_pending (s : State) (off width : Nat) (write : Bool) : (s.badAccess off width write).pending = s.pending := by
  simp only [State.badAccess, State.event_pending]

theorem State.hostRead_pending (s : State) (off width : Nat) : (s.hostRead off width).2.pending = s.pending := by
  unfold State.hostRead
  grind [State.badAccess_pending, State.read64_pending, State.afterRead32_pending]

theorem State.readReturns_pending (s : State) (off width : Nat) : (s.readReturns off width).pending = s.pending := by
  simp only [State.readReturns, State.hostRead_pending]

theorem execCounterLowRead_leavesQueue (off : Nat) (s : State) : LeavesQueue s (execCounterLowRead off s) := by
  unfold execCounterLowRead
  grind [LeavesQueue.next_iff, State.readReturns_pending]

theorem State.write32_pending (s : State) (off : Nat) (v : Word) : (s.write32 off v).pending = s.pending := by
  unfold State.write32
  grind [State.writeRingCfg_pending, State.writePortCtrl_pending, State.setPort_pending]

theorem State.write64_pending (s : State) (off : Nat) (v : Dword) : (s.write64 off v).pending = s.pending := by
  unfold State.write64
  grind [State.setRing_pending, State.writeInject_pending]

theorem State.writeHalf_pending (s : State) (off : Nat) (v : Word) : (s.writeHalf off v).pending = s.pending := by
  unfold State.writeHalf
  grind [State.write32_pending, State.write64_pending]

theorem State.writeWide_pending (s : State) (off : Nat) (v : Dword) : (s.writeWide off v).pending = s.pending := by
  unfold State.writeWide
  grind [State.write64_pending, State.writeHalf_pending]

theorem execRegisterAccessInvalid_leavesQueue (off : Nat) (width : Nat) (write : Bool) (s : State) :
    LeavesQueue s (execRegisterAccessInvalid off width write s) := by
  unfold execRegisterAccessInvalid
  grind [LeavesQueue.next_iff, State.badAccess_pending, State.readReturns_pending]

theorem State.writeBar0_pending (s : State) (off width : Nat) (value : Dword) : (s.writeBar0 off width value).pending = s.pending := by
  unfold State.writeBar0
  grind [State.recoveryRingCfg_pending, State.writeWide_pending, State.writeHalf_pending]

theorem execRegisterWrite_leavesQueue (off : Nat) (width : Nat) (value : Dword) (s : State) :
    LeavesQueue s (execRegisterWrite off width value s) := by
  simp only [execRegisterWrite, LeavesQueue.next_iff, apply_ite State.pending, State.badAccess_pending, State.writeBar0_pending,
    State.eventBell_pending, State.ringBell_pending, ite_self]

/-! ### The four commands that may stop -/

/-- A command that may stop the machine: an access to a line of memory, and the debug instruction of the test port (R210, R590). -/
def mayStop : Instr → Bool
  | .memoryRead _ _ | .memoryWrite _ _ _ | .patrolScrub _ _ | .managementDebug _ => true
  | _ => false

/-- What stops the machine: an access to a stack that serves none, and the debug instruction while debug is open (R210, R590). -/
def Stops (i : Instr) (s : State) : Prop :=
  (∃ pa, (s.served pa).isSome = true ∧ ((∃ u, i = .memoryRead (BitVec.ofNat 40 pa) u) ∨
    (∃ l b, i = .memoryWrite (BitVec.ofNat 40 pa) l b) ∨ ∃ u, i = .patrolScrub (BitVec.ofNat 40 pa) u)) ∨
  (s.boot.debugOpen = true ∧ ∃ op, i = .managementDebug op)

/-- An outcome that goes nowhere. -/
def Stopped (o : Out) : Prop := ∀ t, o ≠ .next t

theorem stopped_fault (f : Fault) : Stopped (.fault f) := fun _ h => by cases h

theorem stopped_refused (r : Refusal) : Stopped (.refused r) := fun _ h => by cases h

theorem execMemoryRead_queue (pa : BitVec 40) (u : List (Nat × Byte)) (s : State) :
    LeavesQueue s (execMemoryRead pa u s) ∨ (s.served pa.toNat).isSome = true ∧ Stopped (execMemoryRead pa u s) := by
  unfold execMemoryRead
  split
  · next f h => exact .inr ⟨by rw [h]; rfl, stopped_fault f⟩
  · refine .inl ?_
    split
    · exact .refl s
    · refine .next ?_
      rw [State.setStack_pending, State.readLine_pending, State.upset_pending]

theorem execMemoryWrite_queue (pa : BitVec 40) (data : List Byte) (poison : Bool) (s : State) :
    LeavesQueue s (execMemoryWrite pa data poison s) ∨
      (s.served pa.toNat).isSome = true ∧ Stopped (execMemoryWrite pa data poison s) := by
  unfold execMemoryWrite
  split
  · next f h => exact .inr ⟨by rw [h]; rfl, stopped_fault f⟩
  · refine .inl (.next ?_)
    split
    · rfl
    · exact s.writeLine_pending _ _ _

theorem execPatrolScrub_queue (pa : BitVec 40) (u : List (Nat × Byte)) (s : State) :
    LeavesQueue s (execPatrolScrub pa u s) ∨ (s.served pa.toNat).isSome = true ∧ Stopped (execPatrolScrub pa u s) := by
  unfold execPatrolScrub
  split
  · next f h => exact .inr ⟨by rw [h]; rfl, stopped_fault f⟩
  · refine .inl (.next ?_)
    rw [State.readLine_pending, State.upset_pending]

theorem execManagementDebug_queue (op : Word) (s : State) :
    LeavesQueue s (execManagementDebug op s) ∨ s.boot.debugOpen = true ∧ Stopped (execManagementDebug op s) := by
  unfold execManagementDebug
  split
  · next h => exact .inr ⟨h, stopped_refused _⟩
  · exact .inl (.next rfl)

/-! ### Every command -/

/-- The commands one by one: a register instruction by the law of its kind, one of the Courier by `courierCommand`, one of a single
assignment by its definition, the others by the lemma of their own. -/
theorem exec_leavesQueue {i : Instr} (goes : mayStop i = false) (s : State) : LeavesQueue s (exec i s) := by
  cases i with
  | nop _ _ => exact State.regOp_leavesQueue _ _ _ _
  | alu _ _ => exact State.regOp_leavesQueue _ _ _ _
  | addi _ _ => exact State.regOp_leavesQueue _ _ _ _
  | andi _ _ => exact State.regOp_leavesQueue _ _ _ _
  | ori _ _ => exact State.regOp_leavesQueue _ _ _ _
  | xori _ _ => exact State.regOp_leavesQueue _ _ _ _
  | shi _ _ => exact State.regOp_leavesQueue _ _ _ _
  | li _ _ => exact State.regOp_leavesQueue _ _ _ _
  | lil _ _ => exact State.regOp_leavesQueue _ _ _ _
  | cmp _ _ => exact State.regOp_leavesQueue _ _ _ _
  | cmpi _ _ => exact State.regOp_leavesQueue _ _ _ _
  | plog _ _ => exact State.regOp_leavesQueue _ _ _ _
  | pmov _ _ => exact State.regOp_leavesQueue _ _ _ _
  | aop _ _ => exact State.regOp_leavesQueue _ _ _ _
  | aaddi _ _ => exact State.regOp_leavesQueue _ _ _ _
  | ld w f => exact execLd_leavesQueue w f s
  | st w f => exact execSt_leavesQueue w f s
  | vld w f => exact execVld_leavesQueue w f s
  | vst w f => exact execVst_leavesQueue w f s
  | br w f => exact execBr_leavesQueue w f s
  | jr w f => exact execJr_leavesQueue w f s
  | loop w f => exact execLoop_leavesQueue w f s
  | vop _ _ => exact State.regOp_leavesQueue _ _ _ _
  | vcvt _ _ => exact State.regOp_leavesQueue _ _ _ _
  | vred _ _ => exact State.regOp_leavesQueue _ _ _ _
  | vxfer _ _ => exact State.regOp_leavesQueue _ _ _ _
  | acfg _ _ => exact State.regOp_leavesQueue _ _ _ _
  | arun w f => exact execArun_leavesQueue w f s
  | adrn w f => exact execAdrn_leavesQueue w f s
  | achk w f => exact execAchk_leavesQueue w f s
  | accopen w f => exact execAccopen_leavesQueue w f s
  | send w f => exact execSend_leavesQueue w f s
  | swait w f => exact execSwait_leavesQueue w f s
  | curf w f => exact execCurf_leavesQueue w f s
  | hend w f => exact execHend_leavesQueue w f s
  | twait w f => exact execTwait_leavesQueue w f s
  | tend w f => exact execTend_leavesQueue w f s
  | fence w f => exact execFence_leavesQueue w f s
  | tflag w f => exact execTflag_leavesQueue w f s
  | scratchpadLoadReturn w n => exact execScratchpadLoadReturn_leavesQueue w n s
  | arrayRunStart tile => exact execArrayRunStart_leavesQueue tile s
  | arrayBlockComplete tile flips => exact execArrayBlockComplete_leavesQueue tile flips s
  | repeatRunComplete tile flips => exact execRepeatRunComplete_leavesQueue tile flips s
  | spareRunComplete tile flips => exact execSpareRunComplete_leavesQueue tile flips s
  | arrayDrainLineWrite tile => exact execArrayDrainLineWrite_leavesQueue tile s
  | accRegionOpen w => exact execAccRegionOpen_leavesQueue w s
  | localArrivalComplete ctx => exact execLocalArrivalComplete_leavesQueue ctx s
  | curfewToken port tag number => exact execCurfewToken_leavesQueue port tag number s
  | curfewRelease ctx => exact execCurfewRelease_leavesQueue ctx s
  | curfewTimeout ctx port => exact execCurfewTimeout_leavesQueue ctx port s
  | requestDepart tile ch => exact execRequestDepart_leavesQueue tile ch s
  | requestArrive ctx msg dest => exact execRequestArrive_leavesQueue ctx msg dest s
  | grantArrive ctx msg dest => exact execGrantArrive_leavesQueue ctx msg dest s
  | payloadLineArrive ctx msg dest => exact execPayloadLineArrive_leavesQueue ctx msg dest s
  | deliveryAckArrive ctx msg dest => exact execDeliveryAckArrive_leavesQueue ctx msg dest s
  | overflowRoomEscape ctx msg dest => exact execOverflowRoomEscape_leavesQueue ctx msg dest s
  | freezeDecision ctx retry refresh => exact execFreezeDecision_leavesQueue ctx retry refresh s
  | caravanEnd ctx => exact execCaravanEnd_leavesQueue ctx s
  | ostlerDescriptorFetch src => exact execOstlerDescriptorFetch_leavesQueue src s
  | ostlerChunkSplit ostler => exact execOstlerChunkSplit_leavesQueue ostler s
  | ostlerChunkRun ostler => exact execOstlerChunkRun_leavesQueue ostler s
  | chunkSteal ostler => exact execChunkSteal_leavesQueue ostler s
  | ostlerDescriptorComplete desc => exact execOstlerDescriptorComplete_leavesQueue desc s
  | probeRequest ctx tensor => exact execProbeRequest_leavesQueue ctx tensor s
  | probeCombineComplete ctx tensor others => exact execProbeCombineComplete_leavesQueue ctx tensor others s
  | allGather _ => exact .next (s.courierCommand_pending _ _)
  | reduceScatter _ => exact .next (s.courierCommand_pending _ _)
  | allReduce _ => exact .next (s.courierCommand_pending _ _)
  | allToAll _ => exact .next (s.courierCommand_pending _ _)
  | permute _ => exact .next (s.courierCommand_pending _ _)
  | broadcast _ => exact .next (s.courierCommand_pending _ _)
  | queueOpen _ => exact .next (s.courierCommand_pending _ _)
  | queueClose _ => exact .next (s.courierCommand_pending _ _)
  | ctrlOpen port stream tag origin final offset count => exact execCtrlOpen_leavesQueue port stream tag origin final offset count s
  | ctrlCheck port tag crc => exact execCtrlCheck_leavesQueue port tag crc s
  | ctrlGrant port tag grant => exact execCtrlGrant_leavesQueue port tag grant s
  | ctrlCredit port tag credits => exact execCtrlCredit_leavesQueue port tag credits s
  | ctrlDone port tag done => exact execCtrlDone_leavesQueue port tag done s
  | ctrlAbort port tag => exact execCtrlAbort_leavesQueue port tag s
  | dataFlit port stream index payload poison nonfinite => exact execDataFlit_leavesQueue port stream index payload poison nonfinite s
  | courierCommandComplete ctx tag => exact execCourierCommandComplete_leavesQueue ctx tag s
  | courierStalled ctx what port => exact execCourierStalled_leavesQueue ctx what port s
  | jobLoad ring view => exact execJobLoad_leavesQueue ring view s
  | input ring view => exact execInput_leavesQueue ring view s
  | step ring => exact execStep_leavesQueue ring s
  | jobEnd ring => exact execJobEnd_leavesQueue ring s
  | kill ring => exact execKill_leavesQueue ring s
  | scrubComplete ctx => exact execScrubComplete_leavesQueue ctx s
  | handoffIssue ctx action => exact execHandoffIssue_leavesQueue ctx action s
  | passOneEntry engine => exact execPassOneEntry_leavesQueue engine s
  | updateEntrySteal engine => exact execUpdateEntrySteal_leavesQueue engine s
  | stepDecision ctx others => exact execStepDecision_leavesQueue ctx others s
  | amaxCombineComplete ctx tensor others => exact execAmaxCombineComplete_leavesQueue ctx tensor others s
  | passTwoEntry engine => exact execPassTwoEntry_leavesQueue engine s
  | ruleLoad ring view => exact execRuleLoad_leavesQueue ring view s
  | writeBack ring view => exact execWriteBack_leavesQueue ring view s
  | snapshot ring => exact execSnapshot_leavesQueue ring s
  | ship ring => exact execShip_leavesQueue ring s
  | layerRead ring => exact execLayerRead_leavesQueue ring s
  | restore ring view remote => exact execRestore_leavesQueue ring view remote s
  | snapshotCapture ctx => exact execSnapshotCapture_leavesQueue ctx s
  | snapshotFrameCopy ctx => exact execSnapshotFrameCopy_leavesQueue ctx s
  | snapshotCommit ctx => exact execSnapshotCommit_leavesQueue ctx s
  | mirrorPartReceive port ctx part => exact execMirrorPartReceive_leavesQueue port ctx part s
  | mirrorAck ctx port => exact execMirrorAck_leavesQueue ctx port s
  | mirrorServe port ctx step => exact execMirrorServe_leavesQueue port ctx step s
  | fieldTest ring => exact execFieldTest_leavesQueue ring s
  | logbookRead ring => exact execLogbookRead_leavesQueue ring s
  | logbookAppend => exact execLogbookAppend_leavesQueue s
  | memoryRead _ _ => cases goes
  | memoryWrite _ _ _ => cases goes
  | patrolScrub _ _ => cases goes
  | refresh stack bank => exact execRefresh_leavesQueue stack bank s
  | frameAssign ring => exact execFrameAssign_leavesQueue ring s
  | frameRelease ring => exact execFrameRelease_leavesQueue ring s
  | frameZero frame => exact execFrameZero_leavesQueue frame s
  | doorbell ring value => exact execDoorbell_leavesQueue ring value s
  | eventRingDoorbell ring value => exact execEventRingDoorbell_leavesQueue ring value s
  | ringEnable ring value => exact execRingEnable_leavesQueue ring value s
  | ringDisable ring value => exact execRingDisable_leavesQueue ring value s
  | ringFetch ring entry ep => exact execRingFetch_leavesQueue ring entry ep s
  | hostReadFailed ring addr entryFetch => exact execHostReadFailed_leavesQueue ring addr entryFetch s
  | msixMessage vector => exact execMsixMessage_leavesQueue vector s
  | functionLevelReset => exact execFunctionLevelReset_leavesQueue s
  | d3hotEntry => exact execD3hotEntry_leavesQueue s
  | perstNAssert => exact execPerstNAssert_leavesQueue s
  | perstNDeassert => exact .next rfl
  | busMasterEnable _ => exact .next rfl
  | configRequestRetry => exact execConfigRequestRetry_leavesQueue s
  | registerWrite off width value => exact execRegisterWrite_leavesQueue off width value s
  | registerAccessInvalid off width write => exact execRegisterAccessInvalid_leavesQueue off width write s
  | counterLowRead off => exact execCounterLowRead_leavesQueue off s
  | memInjectArm value => exact execMemInjectArm_leavesQueue value s
  | portEnable port value => exact execPortEnable_leavesQueue port value s
  | portDisable port value => exact execPortDisable_leavesQueue port value s
  | reauth port value => exact execReauth_leavesQueue port value s
  | go image => exact execGo_leavesQueue image s
  | laserSourceInsert port => exact execLaserSourceInsert_leavesQueue port s
  | laserSourceAbsent port => exact execLaserSourceAbsent_leavesQueue port s
  | detectRetry port => exact execDetectRetry_leavesQueue port s
  | lightDetected port lanes => exact execLightDetected_leavesQueue port lanes s
  | trainingComplete port good => exact execTrainingComplete_leavesQueue port good s
  | laneLossOfLock port lane => exact execLaneLossOfLock_leavesQueue port lane s
  | laneBerWindow port lane bad => exact execLaneBerWindow_leavesQueue port lane bad s
  | noFrameTimeout port => exact execNoFrameTimeout_leavesQueue port s
  | flitSlotSend port => exact execFlitSlotSend_leavesQueue port s
  | markerReceive port marker frame => exact execMarkerReceive_leavesQueue port marker frame s
  | idleFlit port ack nak credit1 credit0 => exact execIdleFlit_leavesQueue port ack nak credit1 credit0 s
  | mapRequest port version mask => exact execMapRequest_leavesQueue port version mask s
  | retrainRequest port => exact execRetrainRequest_leavesQueue port s
  | faultyNotice port => exact execFaultyNotice_leavesQueue port s
  | hello port h => exact execHello_leavesQueue port h s
  | certs port content verdict => exact execCerts_leavesQueue port content verdict s
  | keyShare port share => exact execKeyShare_leavesQueue port share s
  | finished port sign => exact execFinished_leavesQueue port sign s
  | authStepTimeout port => exact execAuthStepTimeout_leavesQueue port s
  | retryWindowEnd port => exact execRetryWindowEnd_leavesQueue port s
  | holdoffExpiry port => exact execHoldoffExpiry_leavesQueue port s
  | linkCreditStarved port ctx => exact execLinkCreditStarved_leavesQueue port ctx s
  | curfewTagUnknown entry => exact execCurfewTagUnknown_leavesQueue entry s
  | powerOnReset straps slotA slotB recovery => exact execPowerOnReset_leavesQueue straps slotA slotB recovery s
  | startupComplete => exact execStartupComplete_leavesQueue s
  | startupWatchdog => exact execStartupWatchdog_leavesQueue s
  | bootDone trained => exact execBootDone_leavesQueue trained s
  | vinGood => exact .next rfl
  | railUp rail => exact execRailUp_leavesQueue rail s
  | railFault rail => exact execRailFault_leavesQueue rail s
  | vinOutOfRange mV => exact execVinOutOfRange_leavesQueue mV s
  | rootPllUnlock => exact execRootPllUnlock_leavesQueue s
  | sensorRead readings => exact execSensorRead_leavesQueue readings s
  | criticalKill => exact execCriticalKill_leavesQueue s
  | thermtrip sensor => exact execThermtrip_leavesQueue sensor s
  | powerWindow watts => exact execPowerWindow_leavesQueue watts s
  | pwrAlertNAssert => exact execPwrAlertNAssert_leavesQueue s
  | pwrAlertHoldExpiry => exact execPwrAlertHoldExpiry_leavesQueue s
  | voltageAdjust _ _ => exact .next rfl
  | throttleStepApply => exact execThrottleStepApply_leavesQueue s
  | mctpControl request => exact execMctpControl_leavesQueue request s
  | pldmBaseDiscovery request => exact execPldmBaseDiscovery_leavesQueue request s
  | pldmSensorRead sensor => exact execPldmSensorRead_leavesQueue sensor s
  | powerLimitEffecter watts => exact execPowerLimitEffecter_leavesQueue watts s
  | pldmFirmwareUpdate image package progress => exact execPldmFirmwareUpdate_leavesQueue image package progress s
  | getVersion => exact execGetVersion_leavesQueue s
  | getCapabilities => exact execGetCapabilities_leavesQueue s
  | negotiateAlgorithms => exact execNegotiateAlgorithms_leavesQueue s
  | getDigests => exact execGetDigests_leavesQueue s
  | getCertificate offset length => exact execGetCertificate_leavesQueue offset length s
  | challenge nonce => exact execChallenge_leavesQueue nonce s
  | getMeasurements index signed => exact execGetMeasurements_leavesQueue index signed s
  | bypass => exact .next rfl
  | idcode => exact .next rfl
  | samplePreload _ => exact .next rfl
  | extest => exact .next rfl
  | managementDebug _ => cases goes
  | fieldTestComplete failures => exact execFieldTestComplete_leavesQueue failures s
  | rootPllLock ok => exact execRootPllLock_leavesQueue ok s
  | pcieLinkTrained rate width => exact execPcieLinkTrained_leavesQueue rate width s
  | msixVectorUnmask vector => exact execMsixVectorUnmask_leavesQueue vector s
  | entdaa address => exact execEntdaa_leavesQueue address s
  | pwrAlertNDeassert => exact .next rfl
  | standbyPowerLoss => exact execStandbyPowerLoss_leavesQueue s

theorem exec_leavesQueue_or_stops (i : Instr) (s : State) : LeavesQueue s (exec i s) ∨ Stops i s ∧ Stopped (exec i s) := by
  by_cases h : mayStop i = true
  · have own (pa : BitVec 40) : BitVec.ofNat 40 pa.toNat = pa := by simp
    cases i with
    | memoryRead pa u =>
      exact (execMemoryRead_queue pa u s).imp_right fun ⟨untrained, stop⟩ =>
        ⟨.inl ⟨pa.toNat, untrained, .inl ⟨u, by rw [own]⟩⟩, stop⟩
    | memoryWrite pa data poison =>
      exact (execMemoryWrite_queue pa data poison s).imp_right fun ⟨untrained, stop⟩ =>
        ⟨.inl ⟨pa.toNat, untrained, .inr (.inl ⟨data, poison, by rw [own]⟩)⟩, stop⟩
    | patrolScrub pa u =>
      exact (execPatrolScrub_queue pa u s).imp_right fun ⟨untrained, stop⟩ =>
        ⟨.inl ⟨pa.toNat, untrained, .inr (.inr ⟨u, by rw [own]⟩)⟩, stop⟩
    | managementDebug op =>
      exact (execManagementDebug_queue op s).imp_right fun ⟨opened, stop⟩ => ⟨.inr ⟨opened, op, rfl⟩, stop⟩
    | _ => cases h
  · exact .inl (exec_leavesQueue (Bool.eq_false_iff.2 h) s)

theorem LeavesQueue.goesOn {s : State} {o : Out} (h : LeavesQueue s o) : ∃ t, o = .next t := by
  obtain ⟨-⟩ := h
  exact ⟨_, rfl⟩

end Sys2Proof.Machine

namespace Sys2Proof
open Sys2Proof.Machine Sys2Proof.Claims

/-- Settles O57: a command leaves the queue as it stood, or is one of the four and stops, part by part of the model. -/
theorem stopsAndQueue : Obligations.StopsAndQueue := by
  refine ⟨fun i s => ?_, fun i s t run => ?_⟩
  · exact (exec_leavesQueue_or_stops i s).imp LeavesQueue.goesOn fun stopped => stopped.1
  · rcases exec_leavesQueue_or_stops i s with stands | ⟨-, stopped⟩
    · rw [run] at stands
      exact LeavesQueue.next_iff.1 stands
    · exact absurd run (stopped t)

end Sys2Proof
end

section
/-! The order of a descriptor's elements (R245, R247): a linear index is written in the radices of the five extents, and a transposing
descriptor exchanges its two lowest digits. -/

namespace Sys2Proof.Machine

/-! ### Numbers of two low digits -/

section
variable {a b q x y : Nat}

theorem digits_mod (hy : y < b) : (q * (a * b) + x * b + y) % b = y := by
  rw [← Nat.mul_assoc, ← Nat.add_mul, Nat.mul_add_mod_of_lt hy]

theorem digits_div (hy : y < b) : (q * (a * b) + x * b + y) / b = q * a + x := by
  rw [← Nat.mul_assoc, ← Nat.add_mul, Nat.mul_comm, Nat.mul_add_div (Nat.zero_lt_of_lt hy), Nat.div_eq_of_lt hy, Nat.add_zero]

theorem digits_lt (hx : x < a) (hy : y < b) : x * b + y < a * b := by
  calc x * b + y < x * b + b := by omega
    _ = (x + 1) * b := (Nat.succ_mul x b).symm
    _ ≤ a * b := Nat.mul_le_mul_right b hx

end

/-! ### The digits of a linear index -/

/-- The place value of dimension `k`: the product of the extents below it. -/
def ODesc.place (d : ODesc) (k : Nat) : Nat := (d.ext.take k).foldl (· * ·) 1

theorem ODesc.place_succ (d : ODesc) (k : Nat) : d.place (k + 1) = d.place k * d.e k := by
  rw [ODesc.place, List.take_add_one, List.foldl_append, ODesc.e, List.getD_eq_getElem?_getD]
  cases d.ext[k]? with
  | none => exact (Nat.mul_one _).symm
  | some n => rfl

theorem ODesc.comp_eq (d : ODesc) (n k : Nat) : d.comp n k = n / d.place k % d.e k := rfl

/-- A digit and the number above it make up the number from that digit on. -/
theorem ODesc.comp_add (d : ODesc) (n k : Nat) : d.comp n k + d.e k * (n / d.place (k + 1)) = n / d.place k := by
  rw [ODesc.comp_eq, ODesc.place_succ, ← Nat.div_div_eq_div_mul, Nat.mod_add_div]

theorem odesc_place_total (raw : BitVec 512) : (odesc raw).place 5 = (odesc raw).total := rfl

theorem odesc_e_pos (raw : BitVec 512) (k : Nat) : 0 < (odesc raw).e k := by
  rw [ODesc.e, List.getD_eq_getElem?_getD]
  simp only [odesc, List.getElem?_map]
  cases (List.range 5)[k]? with
  | none => exact Nat.one_pos
  | some i => exact Nat.succ_pos _

section
variable (raw : BitVec 512) (n : Nat)

theorem odesc_comp_lt (k : Nat) : (odesc raw).comp n k < (odesc raw).e k := Nat.mod_lt _ (odesc_e_pos raw k)

/-- The index is the number above the two lowest digits, times their count, and the two digits. -/
theorem odesc_low_digits : let d := odesc raw
    n / (d.e 0 * d.e 1) * (d.e 1 * d.e 0) + d.comp n 1 * d.e 0 + d.comp n 0 = n := by
  intro d
  have lowest : d.comp n 0 + d.e 0 * (n / d.place 1) = n / 1 := d.comp_add n 0
  have next : d.comp n 1 + d.e 1 * (n / d.place 2) = n / d.place 1 := d.comp_add n 1
  have two : d.place 2 = d.e 0 * d.e 1 := by rw [d.place_succ, d.place_succ]; exact congrArg (· * _) (Nat.one_mul _)
  rw [two] at next
  rw [← next, Nat.div_one] at lowest
  conv_rhs => rw [← lowest]
  ring

variable {n}

/-- With nothing above the fifth digit the five make up the index. -/
theorem odesc_digits (h : n < (odesc raw).total) : let d := odesc raw
    n = d.comp n 0 + d.e 0 * (d.comp n 1 + d.e 1 * (d.comp n 2 + d.e 2 * (d.comp n 3 + d.e 3 * d.comp n 4))) := by
  intro d
  have above : n / d.place 5 = 0 := Nat.div_eq_of_lt h
  have top : d.comp n 4 = n / d.place 4 := by rw [← d.comp_add n 4, above, Nat.mul_zero, Nat.add_zero]
  rw [top, d.comp_add, d.comp_add, d.comp_add, d.comp_add]
  exact (Nat.div_one n).symm

end

/-! ### The packed position (R247) -/

theorem ODesc.posOf_straight {d : ODesc} (h : d.transposes = false) (n : Nat) : d.posOf n = n := by
  simp [ODesc.posOf, h]

theorem ODesc.linOf_straight {d : ODesc} (h : d.transposes = false) (p : Nat) : d.linOf p = p := by
  simp [ODesc.linOf, h]

theorem ODesc.posOf_transposed {d : ODesc} (h : d.transposes = true) (n : Nat) :
    d.posOf n = n / (d.e 0 * d.e 1) * (d.e 0 * d.e 1) + d.comp n 0 * d.e 1 + d.comp n 1 := by
  simp [ODesc.posOf, h]

theorem ODesc.linOf_transposed {d : ODesc} (h : d.transposes = true) (p : Nat) :
    d.linOf p = p / (d.e 0 * d.e 1) * (d.e 0 * d.e 1) + p % d.e 1 * d.e 0 + p / d.e 1 % d.e 0 := by
  simp [ODesc.linOf, h]

section
variable {raw : BitVec 512} {n : Nat}

/-- The two low digits, exchanged, are a number below their count. -/
theorem odesc_exchanged_lt (raw : BitVec 512) (n : Nat) :
    (odesc raw).comp n 0 * (odesc raw).e 1 + (odesc raw).comp n 1 < (odesc raw).e 0 * (odesc raw).e 1 :=
  digits_lt (odesc_comp_lt raw n 0) (odesc_comp_lt raw n 1)

theorem odesc_posOf_mod (h : (odesc raw).transposes = true) : let d := odesc raw
    d.posOf n % (d.e 0 * d.e 1) = d.comp n 0 * d.e 1 + d.comp n 1 := by
  intro d
  rw [ODesc.posOf_transposed h, Nat.add_assoc, Nat.mul_add_mod_of_lt (odesc_exchanged_lt raw n)]

theorem odesc_posOf_div (h : (odesc raw).transposes = true) : let d := odesc raw
    d.posOf n / (d.e 0 * d.e 1) = n / (d.e 0 * d.e 1) := by
  intro d
  have below := odesc_exchanged_lt raw n
  rw [ODesc.posOf_transposed h, Nat.add_assoc, Nat.mul_comm (n / _), Nat.mul_add_div (Nat.zero_lt_of_lt below),
    Nat.div_eq_of_lt below, Nat.add_zero]

/-- An index keeps its place among the panels of the two low dimensions, so a position stays below the total. -/
theorem odesc_posOf_lt (h : n < (odesc raw).total) : (odesc raw).posOf n < (odesc raw).total := by
  cases ht : (odesc raw).transposes with
  | false => rwa [ODesc.posOf_straight ht]
  | true =>
    have panels : (odesc raw).total =
        (odesc raw).e 0 * (odesc raw).e 1 * ((odesc raw).e 2 * (odesc raw).e 3 * (odesc raw).e 4) := by
      rw [← odesc_place_total]
      simp only [ODesc.place_succ, show (odesc raw).place 0 = 1 from rfl]
      ring
    rw [panels] at h ⊢
    rw [Nat.mul_comm, ← Nat.div_lt_iff_lt_mul (Nat.zero_lt_of_lt (odesc_exchanged_lt raw n)), odesc_posOf_div ht]
    exact Nat.div_lt_of_lt_mul h

theorem odesc_linOf_posOf (raw : BitVec 512) (n : Nat) : (odesc raw).linOf ((odesc raw).posOf n) = n := by
  cases ht : (odesc raw).transposes with
  | false => rw [ODesc.posOf_straight ht, ODesc.linOf_straight ht]
  | true =>
    have low := odesc_comp_lt raw n 0
    have next := odesc_comp_lt raw n 1
    rw [ODesc.linOf_transposed ht, odesc_posOf_div ht, ODesc.posOf_transposed ht, digits_mod next, digits_div next,
      Nat.mul_add_mod_of_lt low]
    conv_rhs => rw [← odesc_low_digits raw n]
    ring

end

theorem descriptorOrder : Sys2Proof.Claims.DescriptorOrder := fun raw _ h =>
  ⟨fun k _ => odesc_comp_lt raw _ k, odesc_digits raw h, odesc_posOf_lt h, odesc_linOf_posOf raw _,
    fun ht => ODesc.posOf_straight ht _, odesc_posOf_mod⟩

end Sys2Proof.Machine
end

section
/-! The fetch of a descriptor (R50, R242, R251, R255, R264, R266): what its checks and its scale-table entry make of it, and what each
answer leaves of the state. -/

namespace Sys2Proof.Machine
open Sys2Proof.Claims

/-! ### A descriptor that its source offers -/

/-- A descriptor that a source offers: the slot of its entry, its context, the action that issued it and its bits. -/
structure DescOffer where
  src : Source
  index : BitVec 16
  ctx : Nat
  action : Option Nat
  raw : BitVec 512

/-- The steal group that a source is bound to; none for what an engine issues (R242, R266). -/
def State.stealGroup (s : State) (src : Source) : Option Nat :=
  match src with
  | .ring r => some (s.ring r.val).group
  | .engine _ => none

/-- What the checks make of an offered descriptor. -/
def State.verdict (s : State) (f : DescOffer) : Checked := (odesc f.raw).check (s.job f.ctx).cfg (s.stealGroup f.src)

/-- The Ostler that an offered descriptor is dealt to. -/
def State.dealt (s : State) (f : DescOffer) : Nat := s.dealTo (odesc f.raw) ((s.stealGroup f.src).getD 0)

/-- The state with an offered descriptor taken from its source. -/
def State.descTaken (s : State) (f : DescOffer) : State := { s.takeDescriptor f.src f.index with fresh := s.fresh + 1 }

/-- Taking a descriptor changes its source and the counter of free values alone. -/
theorem State.descTaken_eq (s : State) (f : DescOffer) :
    ∃ host engineDescs, s.descTaken f = { s with host := host, engineDescs := engineDescs, fresh := s.fresh + 1 } := by
  obtain ⟨src, _, _, _, _⟩ := f
  cases src with
  | ring r => exact ⟨_, _, rfl⟩
  | engine c => exact ⟨_, _, rfl⟩

/-- The state with an offered descriptor taken, and its entry read where it has one. -/
def State.descDemanded (s : State) (f : DescOffer) : State :=
  let u := s.descTaken f
  let d := odesc f.raw
  if d.fp8Dst || d.fp8Src then u.vdemand f.ctx (u.scaleVA f.ctx d.tensor) 128 else u

/-- What a fetch makes of an entry that was fetched poisoned, or whose context holds no job. -/
def State.descUnread (s : State) (f : DescOffer) : Out :=
  match f.src with
  | .ring r => .next ((s.event 0x000E kHost f.ctx 0 (s.srcRef f.src f.index) 0xFFFFFFFF).complete r.val f.index 2 0 0 0)
  | .engine _ => .next s

/-! ### Its scale-table entry (R251) -/

theorem ReadsAlike.scaleVA {c : Nat} {s t : State} (h : ReadsAlike c s t) (tensor : Nat) : t.scaleVA c tensor = s.scaleVA c tensor := by
  obtain ⟨-, -, -, cfg⟩ := h
  rw [State.scaleVA, cfg, State.scaleVA]

theorem ReadsAlike.scaleRead {c : Nat} {s t : State} (h : ReadsAlike c s t) (tensor : Nat) :
    t.scaleRead c tensor = s.scaleRead c tensor := by
  rw [State.scaleRead, h.scaleVA, h.vuse, State.scaleRead]

theorem ReadsAlike.tensorEntry {c : Nat} {s t : State} (h : ReadsAlike c s t) (d : ODesc) : t.tensorEntry c d = s.tensorEntry c d := by
  have read := h.scaleRead d.tensor
  obtain ⟨-, -, -, cfg⟩ := h
  rw [State.tensorEntry, cfg, read, State.tensorEntry]

theorem ReadsAlike.extentMax {c : Nat} {s t : State} (h : ReadsAlike c s t) (e : ScaleEntry) : t.extentMax c e = s.extentMax c e := by
  rw [State.extentMax, h.vuse, State.extentMax]

theorem ReadsAlike.pages {c : Nat} {s t : State} (h : ReadsAlike c s t) (va n : Nat) (write : Bool) :
    t.pages c va n write = s.pages c va n write := h.translateRange va n write _ _

theorem State.descTaken_readsAlike {s : State} (h : s.mem.errors = []) (f : DescOffer) (c : Nat) : ReadsAlike c s (s.descTaken f) := by
  obtain ⟨_, _, taken⟩ := s.descTaken_eq f
  rw [taken]
  exact ⟨h, rfl, rfl, rfl⟩

theorem State.descTaken_clean {s : State} (h : s.mem.errors = []) (f : DescOffer) : (s.descTaken f).mem.errors = [] := by
  obtain ⟨_, _, taken⟩ := s.descTaken_eq f
  rwa [taken]

theorem State.tensorEntry_plain {d : ODesc} (h : d.fp8Dst = false ∧ d.fp8Src = false) (s : State) (c : Nat) :
    s.tensorEntry c d = .ok (some none) := by
  obtain ⟨dst, src⟩ := h
  simp [State.tensorEntry, dst, src]

/-- An entry found for a descriptor is the one that its tensor's address holds. -/
theorem State.scaleRead_of_tensorEntry {s : State} {c : Nat} {d : ODesc} {e : ScaleEntry}
    (h : s.tensorEntry c d = .ok (some (some e))) : s.scaleRead c d.tensor = .ok e := by
  unfold State.tensorEntry at h
  split at h
  · cases h
  · split at h
    · cases h
    · split at h
      · cases h
      · next read =>
        rw [read]
        grind

/-- An entry is read from memory alone, and without a storage upset its read changes nothing; a plain descriptor reads none. -/
theorem State.descDemanded_eq {s : State} {f : DescOffer}
    (h : s.mem.errors = [] ∨ (odesc f.raw).fp8Dst = false ∧ (odesc f.raw).fp8Src = false) :
    s.descDemanded f = s.descTaken f ∧ (s.descTaken f).tensorEntry f.ctx (odesc f.raw) = s.tensorEntry f.ctx (odesc f.raw) := by
  rcases h with clean | plain
  · have alike := State.descTaken_readsAlike clean f f.ctx
    refine ⟨?_, alike.tensorEntry _⟩
    rw [State.descDemanded, State.vdemand_clean (State.descTaken_clean clean f)]
    exact ite_self _
  · refine ⟨?_, by rw [State.tensorEntry_plain plain, State.tensorEntry_plain plain]⟩
    rw [State.descDemanded, plain.1, plain.2]
    rfl

/-! ### What a fetch answers -/

/-- The state after a descriptor whose event is told ended with a status and its job is to stop (R264). -/
def State.descRefused (told : State) (f : DescOffer) (status : Byte) : State :=
  (told.finishDesc f.src f.index f.ctx f.action status 0 0 0).stopAtCurfew f.ctx

/-- A descriptor as it is queued for an Ostler, with nothing of it split. -/
def State.newDesc (s : State) (f : DescOffer) (o : Nat) (bounced : Bool) : Desc :=
  { id := s.nextDesc, src := f.src, index := f.index, ctx := ⟨f.ctx % 8, Nat.mod_lt _ (by decide)⟩, raw := f.raw, action := f.action
    ostler := o, bounced := bounced, next := 0, chunksLeft := 0, ended := none, poisonMoved := false, fills := 0, dropped := 0
    bits := 0, granted := 0, lines := [], ctrl := none }

/-- The state with a descriptor queued for an Ostler; `bytes` of its spans are bounced (R258). -/
def State.descQueued (s : State) (f : DescOffer) (o ref bytes : Nat) : State :=
  let t := if bytes = 0 then s else s.event 0x0008 kOstler f.ctx o ref bytes
  { t with descs := t.descs ++ [t.newDesc f o (bytes != 0)], nextDesc := t.nextDesc + 1 }

/-- The bytes that a verdict has bounced. -/
def Checked.bytesBounced : Checked → Nat
  | .bounced n => n
  | _ => 0

/-- The probe that a conversion into an unseeded entry begins, unless the entry is being probed (R50, R251). -/
def State.probedFor (s : State) (c : Nat) (d : ODesc) : Option ScaleEntry → State × Option Stop
  | some e => if d.fp8Dst && !e.seeded && !e.isProbing then s.probe c d.tensor e else (s, none)
  | none => (s, none)

/-- What a fetch answers for a descriptor taken from its source, by its verdict and its scale-table entry (R264, R266). -/
def State.descJudged (u : State) (f : DescOffer) (o ref : Nat) (v : Checked) (entry : Except Stop (Option (Option ScaleEntry))) : Out :=
  match v with
  | .invalid => .next ((u.event 0x0006 kOstler f.ctx o ref 0).descRefused f 2)
  | .overlap n => .next ((u.event 0x0007 kOstler f.ctx o ref n).descRefused f 2)
  | _ =>
    match entry with
    | .error e => .next ((u.stopEvent f.ctx kOstler o ref e).descRefused f e.status)
    | .ok none => .next ((u.event 0x0006 kOstler f.ctx o ref 0).descRefused f 2)
    | .ok (some en) =>
      match u.probedFor f.ctx (odesc f.raw) en with
      | (w, some e) => .next ((w.stopEvent f.ctx kOstler o ref e).descRefused f e.status)
      | (w, none) => .next (w.descQueued f o ref v.bytesBounced)

theorem Job.present_of_running {j : Job} (h : j.running = true) : j.present = true := by
  unfold Job.running at h
  unfold Job.present
  split at h <;> simp_all

section
variable {s : State} {f : DescOffer} {ep : Bool} (hnext : s.nextDescriptor f.src = some (f.index, f.ctx, f.action, f.raw, ep))
include hnext

/-- What a source that offers a descriptor leads to: it is rejected unread, it waits, or it is judged. -/
theorem exec_fetch_offered : exec (.ostlerDescriptorFetch f.src) s =
    if ep = true ∨ (!(s.job f.ctx).present) = true then s.descUnread f
    else if (!(s.job f.ctx).running) = true ∨ s.addsBefore f.src f.raw = true then .next s
    else
      (s.descDemanded f).descJudged f (s.dealt f) (s.srcRef f.src f.index) (s.verdict f)
        ((s.descDemanded f).tensorEntry f.ctx (odesc f.raw)) := by
  change execOstlerDescriptorFetch f.src s = _
  unfold execOstlerDescriptorFetch
  split
  · next none => cases hnext.symm.trans none
  · next some =>
    cases hnext.symm.trans some
    rfl

theorem exec_fetch_unread (h : ep = true ∨ (s.job f.ctx).present = false) :
    exec (.ostlerDescriptorFetch f.src) s = s.descUnread f := by
  rw [exec_fetch_offered hnext, if_pos (by simpa using h)]

theorem exec_fetch_waits (hep : ep = false) (hpresent : (s.job f.ctx).present = true)
    (h : (s.job f.ctx).running = false ∨ s.addsBefore f.src f.raw = true) : exec (.ostlerDescriptorFetch f.src) s = .next s := by
  rw [exec_fetch_offered hnext, if_neg (by simp [hep, hpresent]), if_pos (by simpa using h)]

theorem exec_fetch_judged (hep : ep = false) (hrun : (s.job f.ctx).running = true) (hadds : s.addsBefore f.src f.raw = false)
    (hread : s.mem.errors = [] ∨ (odesc f.raw).fp8Dst = false ∧ (odesc f.raw).fp8Src = false) :
    exec (.ostlerDescriptorFetch f.src) s =
      (s.descTaken f).descJudged f (s.dealt f) (s.srcRef f.src f.index) (s.verdict f) (s.tensorEntry f.ctx (odesc f.raw)) := by
  obtain ⟨demanded, entry⟩ := State.descDemanded_eq hread
  rw [exec_fetch_offered hnext, if_neg (by simp [hep, Job.present_of_running hrun]), if_neg (by simp [hrun, hadds]), demanded, entry]

end

theorem exec_fetch_none {s : State} {src : Source} (h : s.nextDescriptor src = none) :
    exec (.ostlerDescriptorFetch src) s = .next s := by
  change execOstlerDescriptorFetch src s = _
  unfold execOstlerDescriptorFetch
  split
  · rfl
  · next some => cases h.symm.trans some

/-! ### A descriptor that is rejected (R220, R264) -/

theorem State.stopEvent_hostOnly (s : State) (c : Nat) (kind : BitVec 4) (unit ref : Nat) (why : Stop) :
    HostOnly s (s.stopEvent c kind unit ref why) := by
  cases why with
  | page code va => exact s.event_hostOnly _ _ _ _ _ _
  | poison addr => exact s.event_hostOnly _ _ _ _ _ _

theorem State.descJudged_refused {u : State} {f : DescOffer} {o ref : Nat} {v : Checked} {entry : Except Stop (Option (Option ScaleEntry))}
    (h : v = .invalid ∨ (∃ n, v = .overlap n) ∨ entry = .ok none ∨ ∃ e, entry = .error e) :
    ∃ told status, HostOnly u told ∧ u.descJudged f o ref v entry = .next (told.descRefused f status) := by
  cases v with
  | invalid => exact ⟨_, _, u.event_hostOnly .., rfl⟩
  | overlap n => exact ⟨_, _, u.event_hostOnly .., rfl⟩
  | good | bounced n =>
    obtain rfl | ⟨e, rfl⟩ := (h.resolve_left nofun).resolve_left nofun
    · exact ⟨_, _, u.event_hostOnly .., rfl⟩
    · exact ⟨_, _, u.stopEvent_hostOnly .., rfl⟩

/-- A rejected descriptor moves nothing and its job is told to stop. -/
theorem State.descRefused_keeps {u told : State} (h : HostOnly u told) (f : DescOffer) (status : Byte) :
    let t := told.descRefused f status
    t.mem = u.mem ∧ t.tiles = u.tiles ∧ ToldToStop f.ctx u t ∧ ((u.job f.ctx).phase = .compute → t.descs = u.descs) := by
  intro t
  obtain ⟨work, descs, phase⟩ := told.finishDesc_keeps f.src f.index f.ctx f.action status 0 0 0
  have computes (hp : (u.job f.ctx).phase = .compute) := State.stopAtCurfew_compute (phase.trans ((congrArg Job.phase (h.job _)).trans hp))
  obtain ⟨-, -, tiles, -, mem, -⟩ := (h.work.trans work).trans (State.stopAtCurfew_work _ f.ctx)
  refine ⟨mem, tiles, fun hp => ?_, fun hp => ?_⟩
  · rw [show t = _ from computes hp, State.job_setJob_same]
    exact ⟨rfl, phase.trans ((congrArg Job.phase (h.job _)).trans hp)⟩
  · rw [show t = _ from computes hp, State.setJob_descs, descs, h.descs]

/-- Taking a descriptor from its source changes nothing that its rejection keeps. -/
theorem State.descTaken_refused {s told : State} {f : DescOffer} (h : HostOnly (s.descTaken f) told) (status : Byte) :
    let t := told.descRefused f status
    t.mem = s.mem ∧ t.tiles = s.tiles ∧ ToldToStop f.ctx s t ∧ ((s.job f.ctx).phase = .compute → t.descs = s.descs) := by
  obtain ⟨_, _, taken⟩ := s.descTaken_eq f
  rw [taken] at h
  exact State.descRefused_keeps h f status

/-! ### A descriptor that is queued (R49, R50, R258, R266) -/

theorem State.descJudged_queued {u w : State} {f : DescOffer} {o ref : Nat} {v : Checked} {en : Option ScaleEntry}
    (hv : v = .good ∨ ∃ n, v = .bounced n) (hprobe : u.probedFor f.ctx (odesc f.raw) en = (w, none)) :
    u.descJudged f o ref v (.ok (some en)) = .next (w.descQueued f o ref v.bytesBounced) := by
  obtain rfl | ⟨n, rfl⟩ := hv <;> simp only [State.descJudged, hprobe]

/-- Queuing a descriptor adds it behind the others; the event of a bounce is the host interface's. -/
theorem State.descQueued_eq (w : State) (f : DescOffer) (o ref bytes : Nat) :
    ∃ host, w.descQueued f o ref bytes =
      { w with host := host, descs := w.descs ++ [w.newDesc f o (bytes != 0)], nextDesc := w.nextDesc + 1 } := by
  have told : HostOnly w (if bytes = 0 then w else w.event 0x0008 kOstler f.ctx o ref bytes) := by
    split
    · exact .refl w
    · exact w.event_hostOnly ..
  obtain ⟨host, told⟩ := told
  rw [State.descQueued, told]
  exact ⟨host, rfl⟩

theorem State.descQueued_keeps (w : State) (f : DescOffer) (o ref bytes : Nat) :
    let t := w.descQueued f o ref bytes
    t.descs = w.descs ++ [w.newDesc f o (bytes != 0)] ∧ t.jobs = w.jobs ∧ t.tiles = w.tiles ∧ t.ports = w.ports := by
  obtain ⟨_, queued⟩ := w.descQueued_eq f o ref bytes
  rw [queued]
  exact ⟨rfl, rfl, rfl, rfl⟩

theorem Checked.bytesBounced_ne_zero (v : Checked) : (v.bytesBounced != 0) = true ↔ ∃ n, n ≠ 0 ∧ v = .bounced n := by
  cases v <;> simp [Checked.bytesBounced]

theorem State.probedFor_known {d : ODesc} {en : Option ScaleEntry} (u : State) (c : Nat)
    (h : ∀ e, en = some e → d.fp8Dst = true → e.seeded = true ∨ e.isProbing = true) : u.probedFor c d en = (u, none) := by
  cases en with
  | none => rfl
  | some e =>
    refine if_neg fun unseeded => ?_
    obtain ⟨⟨dst, seeded⟩, probing⟩ : (d.fp8Dst = true ∧ e.seeded = false) ∧ e.isProbing = false := by simpa using unseeded
    simpa [seeded, probing] using h e rfl dst

theorem State.probe_eq_begun {u : State} {c tensor : Nat} {e : ScaleEntry} {m : Word} {pa : Nat} (hclean : u.mem.errors = [])
    (hslots : e.hist.length = 16) (hmax : u.extentMax c e = .ok m) (hpages : (u.pages c (u.scaleVA c tensor) 80 true).1 = .ok pa) :
    u.probe c tensor e = (u.probeBegun c tensor e m, none) := by
  have written : (u.scaleWrite c tensor { e with ctl := putField e.ctl 26 1 1 }).2 = none :=
    State.vwrite_fine false (ScaleEntry.bytes_length hslots) hpages
  rw [State.probe, State.vdemand_clean hclean, hmax]
  dsimp only
  split
  · next failed => rw [failed] at written; cases written
  · next fine => rw [State.probeBegun, fine]

theorem State.probeBegun_descs (u : State) (c tensor : Nat) (e : ScaleEntry) (m : Word) : (u.probeBegun c tensor e m).descs = u.descs := by
  obtain ⟨_, _, _, _, hwrite⟩ :=
    u.vwrite_memoryOnly c (u.scaleVA c tensor) ({ e with ctl := putField e.ctl 26 1 1 } : ScaleEntry).bytes false
  rw [State.probeBegun, State.scaleWrite, hwrite]
  rfl

/-- Beginning a probe for a descriptor taken from its source adds no descriptor and reaches no tile and no port. -/
theorem State.descTaken_probeBegun (s : State) (f : DescOffer) (tensor : Nat) (e : ScaleEntry) (m : Word) :
    let w := (s.descTaken f).probeBegun f.ctx tensor e m
    w.descs = s.descs ∧ (w.job f.ctx).probing.find tensor = some m ∧ w.tiles = s.tiles ∧ w.ports = s.ports := by
  obtain ⟨probing, tiles, ports, -⟩ := (s.descTaken f).probeBegun_keeps f.ctx tensor e m
  have descs := (s.descTaken f).probeBegun_descs f.ctx tensor e m
  obtain ⟨_, _, taken⟩ := s.descTaken_eq f
  exact ⟨descs.trans (by rw [taken]), probing, tiles.trans (by rw [taken]), ports.trans (by rw [taken])⟩

/-- An unseeded entry that no one probes is probed for its conversion. -/
theorem State.descTaken_probed {s : State} {f : DescOffer} {e : ScaleEntry} {m : Word} {pa : Nat} (hclean : s.mem.errors = [])
    (hentry : s.tensorEntry f.ctx (odesc f.raw) = .ok (some (some e))) (hdst : (odesc f.raw).fp8Dst = true) (hseed : e.seeded = false)
    (hprobe : e.isProbing = false) (hmax : s.extentMax f.ctx e = .ok m)
    (hpages : (s.pages f.ctx (s.scaleVA f.ctx (odesc f.raw).tensor) 80 true).1 = .ok pa) :
    (s.descTaken f).probedFor f.ctx (odesc f.raw) (some e) =
      ((s.descTaken f).probeBegun f.ctx (odesc f.raw).tensor e m, none) := by
  have alike := State.descTaken_readsAlike hclean f f.ctx
  refine (if_pos (by simp [hdst, hseed, hprobe])).trans (State.probe_eq_begun (pa := pa) (State.descTaken_clean hclean f)
    (State.scaleRead_hist (State.scaleRead_of_tensorEntry hentry)) ?_ ?_)
  · rw [alike.extentMax, hmax]
  · rw [alike.scaleVA, alike.pages, hpages]

/-! ### The fetch -/

theorem exec_fetch_queued {s w : State} {f : DescOffer} {en : Option ScaleEntry}
    (hjudged : exec (.ostlerDescriptorFetch f.src) s =
      (s.descTaken f).descJudged f (s.dealt f) (s.srcRef f.src f.index) (s.verdict f) (s.tensorEntry f.ctx (odesc f.raw)))
    (hv : s.verdict f = .good ∨ ∃ n, s.verdict f = .bounced n) (hentry : s.tensorEntry f.ctx (odesc f.raw) = .ok (some en))
    (hprobe : (s.descTaken f).probedFor f.ctx (odesc f.raw) en = (w, none)) :
    exec (.ostlerDescriptorFetch f.src) s =
      .next (w.descQueued f (s.dealt f) (s.srcRef f.src f.index) (s.verdict f).bytesBounced) := by
  rw [hjudged, hentry, State.descJudged_queued hv hprobe]

theorem descriptorsAreChecked : DescriptorsAreChecked := by
  intro s src index c action raw hc d i group chk plain
  let f : DescOffer := ⟨src, index, c, action, raw⟩
  refine ⟨fun hnext hrun hadds hread => ?judged, ?unread, fun ep hnext hep hpresent => exec_fetch_waits (f := f) hnext hep hpresent,
    exec_fetch_none⟩
  case unread =>
    rintro r ep rfl hnext h
    obtain ⟨_, told⟩ := (s.event_hostOnly 0x000E kHost c 0 (s.srcRef (.ring r) index) 0xFFFFFFFF).trans
      (State.complete_hostOnly _ r.val index 2 0 0 0)
    exact ⟨_, exec_fetch_unread (f := f) hnext h, by rw [told]⟩
  case judged =>
    have judged := exec_fetch_judged (f := f) hnext rfl hrun hadds hread
    refine ⟨fun en hchk hentry hprobe => ?queued, fun e m pa hchk hentry hdst hseed hprobing hmax hpages => ?probed, fun h => ?refused⟩
    case queued =>
      have queued := exec_fetch_queued judged hchk hentry ((s.descTaken f).probedFor_known c hprobe)
      obtain ⟨_, _, taken⟩ := s.descTaken_eq f
      obtain ⟨_, eq⟩ := (s.descTaken f).descQueued_eq f (s.dealt f) (s.srcRef src index) (s.verdict f).bytesBounced
      exact ⟨_, (s.descTaken f).newDesc f (s.dealt f) ((s.verdict f).bytesBounced != 0), queued, by rw [eq, taken], by rw [eq, taken],
        rfl, rfl, rfl, Nat.mod_eq_of_lt hc, rfl, rfl, rfl, rfl, rfl, (s.verdict f).bytesBounced_ne_zero⟩
    case probed =>
      have clean : s.mem.errors = [] := hread.resolve_right fun plain => by simp [d, plain.1] at hdst
      have queued := exec_fetch_queued judged (.inl hchk) hentry (State.descTaken_probed clean hentry hdst hseed hprobing hmax hpages)
      obtain ⟨descs, probing, tiles, ports⟩ := s.descTaken_probeBegun f d.tensor e m
      generalize (s.descTaken f).probeBegun f.ctx (odesc f.raw).tensor e m = w at *
      obtain ⟨added, jobs, tiles', ports'⟩ := w.descQueued_keeps f (s.dealt f) (s.srcRef src index) (s.verdict f).bytesBounced
      refine ⟨_, w.newDesc f (s.dealt f) ((s.verdict f).bytesBounced != 0), queued, by rw [added, descs], rfl, rfl, Nat.mod_eq_of_lt hc,
        rfl, ?_, tiles'.trans tiles, ports'.trans ports⟩
      rw [State.job, jobs]
      exact probing
    case refused =>
      obtain ⟨_, status, told, refused⟩ := State.descJudged_refused (u := s.descTaken f) (f := f) (o := s.dealt f)
        (ref := s.srcRef src index) h
      exact ⟨_, judged.trans refused, State.descTaken_refused told status⟩

end Sys2Proof.Machine

namespace Sys2Proof
open Sys2Proof.Machine

/-- Settles O23: the order by the digits of an index, and a fetch by the verdict of the checks and the entry that it reads. -/
theorem descriptorsStart : Obligations.DescriptorsStart := ⟨descriptorOrder, descriptorsAreChecked⟩

end Sys2Proof
end

section
/-! The chunks of a descriptor and the queues that hold them (R267 to R269, R275): what a split adds to its Ostler's queue, and what an
idle Ostler takes from the longest queue of its group. -/

namespace Sys2Proof.Machine

/-! ### Splitting (R267) -/

theorem ODesc.chunkLen_pos (d : ODesc) (code : Nat) : 0 < d.chunkLen code :=
  Nat.mul_pos (by decide) (Nat.lt_of_lt_of_le Nat.one_pos (Nat.le_max_left ..))

section
variable (id total len : Nat)

theorem chunksFrom_length_le (room lo : Nat) : (chunksFrom id total len room lo).length ≤ room := by
  induction room generalizing lo with
  | zero => exact Nat.le_refl 0
  | succ room ih =>
    rw [chunksFrom]
    split
    · exact Nat.zero_le _
    · exact Nat.succ_le_succ (ih _)

variable {len} (hlen : 0 < len)
include hlen

/-- Every chunk is a run of positions of the descriptor, none before the first. -/
theorem chunksFrom_within {room lo : Nat} {k : Chunk} (h : k ∈ chunksFrom id total len room lo) :
    k.desc = id ∧ lo ≤ k.lo ∧ 0 < k.count ∧ k.lo + k.count ≤ total := by
  induction room generalizing lo with
  | zero => cases h
  | succ room ih =>
    rw [chunksFrom] at h
    split at h
    · cases h
    · next begun =>
      rcases List.mem_cons.1 h with rfl | later
      · refine ⟨rfl, Nat.le_refl lo, ?_, ?_⟩ <;> dsimp only <;> omega
      · obtain ⟨name, above, rest⟩ := ih later
        exact ⟨name, by omega, rest⟩

/-- With room for a chunk and positions left, a split covers some. -/
theorem chunksFrom_sum_pos {room lo : Nat} (hroom : 0 < room) (hlo : lo < total) :
    0 < ((chunksFrom id total len room lo).map (·.count)).sum := by
  cases room with
  | zero => cases hroom
  | succ room =>
    rw [chunksFrom, if_neg (Nat.not_le_of_lt hlo), List.map_cons, List.sum_cons]
    dsimp only
    omega

end

/-- The OST_GROUP_CTRL under which a descriptor of Ostler `o` is split: the one its splitting began with (R275). -/
def State.splitCtrl (s : State) (o : Nat) (q : Desc) : Word := q.ctrl.getD (s.groups.get 0x80000001 (o / 5))

/-- Elements of a chunk of a descriptor: all of them where it runs whole (R267, R269). -/
def State.splitLen (s : State) (o : Nat) (q : Desc) : Nat :=
  if (odesc q.raw).unsplit q.bounced then (odesc q.raw).total else (odesc q.raw).chunkLen (bitsOf (s.splitCtrl o q).toNat 1 0)

/-- The chunks that a split of a descriptor adds to the queue of Ostler `o`. -/
def State.newChunks (s : State) (o : Nat) (q : Desc) : List Chunk :=
  chunksFrom q.id (odesc q.raw).total (s.splitLen o q) (64 - (s.ostler o).queue.length) q.next

/-- A descriptor with chunks of it added to a queue. -/
def Desc.splitBy (q : Desc) (ks : List Chunk) (ctl : Word) : Desc :=
  { q with next := q.next + (ks.map (·.count)).sum, chunksLeft := q.chunksLeft + ks.length, ctrl := some ctl }

theorem State.splitLen_pos {s : State} {o : Nat} {q : Desc} (h : q.next < (odesc q.raw).total) : 0 < s.splitLen o q := by
  unfold State.splitLen
  split
  · exact Nat.zero_lt_of_lt h
  · exact ODesc.chunkLen_pos _ _

theorem exec_ostlerChunkSplit {s : State} {o : Fin 40} {q : Desc}
    (h : s.descs.find? (fun q => decide (q.ostler = o.val) && decide (q.next < (odesc q.raw).total)) = some q) :
    exec (.ostlerChunkSplit o) s =
      .next ((s.setOstler o.val { s.ostler o.val with queue := (s.ostler o.val).queue ++ s.newChunks o.val q }).mapDesc q.id
        fun e => e.splitBy (s.newChunks o.val q) (s.splitCtrl o.val q)) := by
  change execOstlerChunkSplit o s = _
  rw [execOstlerChunkSplit, h]
  rfl

/-! ### Stealing (R268) -/

/-- The Ostlers of the group of Ostler `o` (R266). -/
def groupMates (o : Nat) : List Nat := (List.range 5).map (5 * (o / 5) + ·)

/-- The Ostler whose queue a list of Ostlers ends with as the longest, from `best` on. -/
def State.longestQueue (s : State) (best : Nat) (l : List Nat) : Nat :=
  l.foldl (fun best v => if (s.ostler best).queue.length < (s.ostler v).queue.length then v else best) best

theorem mem_groupMates {o v : Nat} : v ∈ groupMates o ↔ v / 5 = o / 5 := by
  simp only [groupMates, List.mem_map, List.mem_range]
  constructor
  · rintro ⟨i, hi, rfl⟩
    omega
  · intro h
    exact ⟨v % 5, by omega, by omega⟩

theorem group_lt {o v : Nat} (ho : o < 40) (h : v / 5 = o / 5) : v < 40 := by omega

theorem State.longestQueue_mem (s : State) (best : Nat) (l : List Nat) : s.longestQueue best l ∈ best :: l := by
  induction l generalizing best with
  | nil => exact List.mem_singleton.2 rfl
  | cons v vs ih =>
    rcases List.mem_cons.1 (ih (if (s.ostler best).queue.length < (s.ostler v).queue.length then v else best)) with first | later
    · rw [State.longestQueue, List.foldl_cons, ← State.longestQueue, first]
      split <;> simp
    · exact List.mem_cons_of_mem _ (List.mem_cons_of_mem _ later)

theorem State.longestQueue_le (s : State) {best x : Nat} {l : List Nat} (h : x ∈ best :: l) :
    (s.ostler x).queue.length ≤ (s.ostler (s.longestQueue best l)).queue.length := by
  induction l generalizing best x with
  | nil => rw [List.mem_singleton.1 h]; exact Nat.le_refl _
  | cons v vs ih =>
    rw [State.longestQueue, List.foldl_cons, ← State.longestQueue]
    have first := ih (best := if (s.ostler best).queue.length < (s.ostler v).queue.length then v else best) List.mem_cons_self
    rcases List.mem_cons.1 h with rfl | h
    · refine Nat.le_trans ?_ first
      split <;> omega
    · rcases List.mem_cons.1 h with rfl | h
      · refine Nat.le_trans ?_ first
        split <;> omega
      · exact ih (List.mem_cons_of_mem _ h)

/-- The Ostler of the group whose queue holds the most chunks, the lowest number on a tie. -/
def State.victim (s : State) (o : Nat) : Nat := s.longestQueue (5 * (o / 5)) (groupMates o)

theorem State.victim_group (s : State) (o : Nat) : s.victim o / 5 = o / 5 := by
  rcases List.mem_cons.1 (s.longestQueue_mem (5 * (o / 5)) (groupMates o)) with first | mate
  · rw [State.victim, first]
    omega
  · exact mem_groupMates.1 mate

theorem State.victim_longest (s : State) {o x : Nat} (h : x / 5 = o / 5) :
    (s.ostler x).queue.length ≤ (s.ostler (s.victim o)).queue.length :=
  s.longestQueue_le (List.mem_cons_of_mem _ (mem_groupMates.2 h))

/-- The state after Ostler `o` took the chunk `k` from the tail of the queue of `v`. -/
def State.stolen (s : State) (o v : Nat) (k : Chunk) : State :=
  (s.setOstler v { s.ostler v with queue := ((s.ostler v).queue.reverse.erase k).reverse }).setOstler o
    { s.ostler o with queue := [k], stolen := (s.ostler o).stolen + 1 }

theorem exec_chunkSteal_busy {s : State} {o : Fin 40} (h : (s.ostler o.val).queue ≠ [] ∨ (s.ostler o.val).current.isSome = true) :
    exec (.chunkSteal o) s = .next s := if_pos h

section
variable {s : State} {o : Fin 40} (hqueue : (s.ostler o.val).queue = []) (hcurrent : (s.ostler o.val).current = none)
include hqueue hcurrent

theorem exec_chunkSteal_idle : exec (.chunkSteal o) s =
    match (s.ostler (s.victim o.val)).queue.reverse.find? s.takeable with
    | none => .next s
    | some k => .next (s.stolen o.val (s.victim o.val) k) := by
  change execChunkSteal o s = _
  rw [execChunkSteal, if_neg (by simp [hqueue, hcurrent])]
  rfl

end

/-- The last chunk of a queue that may be taken, with what stands before and behind it. -/
theorem find?_reverse_eq_some {α : Type} [BEq α] [LawfulBEq α] {p : α → Bool} {l : List α} {k : α}
    (h : l.reverse.find? p = some k) :
    ∃ front back, l = front ++ k :: back ∧ p k = true ∧ (∀ x ∈ back, p x = false) ∧ (l.reverse.erase k).reverse = front ++ back := by
  obtain ⟨taken, as, bs, split, passed⟩ := List.find?_eq_some_iff_append.1 h
  have absent : k ∉ as := fun hk => by simpa [taken] using passed k hk
  refine ⟨bs.reverse, as.reverse, ?_, taken, fun x hx => by simpa using passed x (List.mem_reverse.1 hx), ?_⟩
  · rw [← List.reverse_reverse l, split]
    simp
  · rw [split, List.erase_append_right _ absent, List.erase_cons_head, List.reverse_append]

theorem State.takeable_eq_false {s : State} {k : Chunk} {q : Desc} (hq : s.desc k.desc = some q)
    (h : (q.ctrl.getD 0).getLsbD 31 = false ∨ (odesc q.raw).unsplit q.bounced = true) : s.takeable k = false := by
  rw [State.takeable, hq]
  dsimp only
  rcases h with off | whole
  · rw [off, Bool.and_false]
  · simp [whole]

end Sys2Proof.Machine

namespace Sys2Proof
open Sys2Proof.Machine

/-- Settles O24: the chunks of a split from the walk over the positions that are left, and the one that is stolen from the place of the
last that may be taken in the longest queue. -/
theorem chunksAreDealt : Obligations.ChunksAreDealt := by
  unfold Obligations.ChunksAreDealt
  refine ⟨?split, ?steal, ?none, fun s k q => State.takeable_eq_false⟩
  case split =>
    intro s o q hfirst hdesc hroom
    obtain ⟨-, unsplit⟩ : q.ostler = o.val ∧ q.next < (odesc q.raw).total := by simpa using List.find?_some hfirst
    have len := State.splitLen_pos (s := s) (o := o.val) unsplit
    have few : (s.newChunks o.val q).length ≤ 64 - (s.ostler o.val).queue.length := chunksFrom_length_le ..
    refine ⟨_, s.newChunks o.val q, q.splitBy (s.newChunks o.val q) (s.splitCtrl o.val q), exec_ostlerChunkSplit hfirst, rfl,
      State.ostler_setOstler_same .., by omega, fun v hv => State.ostler_setOstler_other s _ hv,
      fun k hk => chunksFrom_within q.id _ len hk, State.desc_mapDesc (fun _ => rfl) hdesc, rfl, rfl, rfl, fun room => ?_⟩
    exact Nat.lt_add_of_pos_right (chunksFrom_sum_pos q.id _ len (Nat.sub_pos_of_lt room) unsplit)
  case steal =>
    rintro s o idle hcurrent ⟨v, -, mate, filled⟩ offered
    have longest := fun x => s.victim_longest (o := o.val) (x := x)
    have group := s.victim_group o.val
    have held : (s.ostler (s.victim o.val)).queue ≠ [] :=
      List.ne_nil_of_length_pos (Nat.lt_of_lt_of_le (List.length_pos_of_ne_nil filled) (longest v mate))
    have other : s.victim o.val ≠ o.val := fun same => held (by rw [same, idle])
    obtain ⟨c, hc, free⟩ := offered _ (group_lt o.isLt group) group held
    obtain ⟨k, found⟩ := Option.isSome_iff_exists.1 (List.find?_isSome.2 ⟨c, List.mem_reverse.2 hc, free⟩)
    obtain ⟨front, back, queue, takeable, behind, rest⟩ := find?_reverse_eq_some found
    refine ⟨s.stolen o.val (s.victim o.val) k, s.victim o.val, k, front, back, by rw [exec_chunkSteal_idle idle hcurrent, found], rfl,
      group, fun x _ => longest x, queue, takeable, behind, ?_, ?_, ?_, fun x hv ho => ?_⟩
    · rw [State.stolen, State.ostler_setOstler_other _ _ other, State.ostler_setOstler_same]
      exact rest
    · rw [State.stolen, State.ostler_setOstler_same]
    · rw [State.stolen, State.ostler_setOstler_same]
    · rw [State.stolen, State.ostler_setOstler_other _ _ ho, State.ostler_setOstler_other _ _ hv]
  case none =>
    intro s o h
    by_cases busy : (s.ostler o.val).queue ≠ [] ∨ (s.ostler o.val).current.isSome = true
    · exact exec_chunkSteal_busy busy
    · obtain ⟨idle, hcurrent⟩ := not_or.1 busy
      have must := (or_assoc.2 h).resolve_left busy
      have group := s.victim_group o.val
      rw [exec_chunkSteal_idle (not_not.1 idle) (by simpa using hcurrent), List.find?_eq_none.2]
      intro k hk
      simp [must _ (group_lt o.isLt group) group k (List.mem_reverse.1 hk)]

end Sys2Proof
end

section
/-! What a micro-engine's work on an entry leaves (R220, R328 to R340): pass one reads and writes job memory alone, and pass two changes
beside it the layer's record and the count of fallbacks. -/

namespace Sys2Proof.Machine
open Sys2Proof.Claims

theorem MemoryOnly.of_eq {α : Type} {s s1 : State} {p : State × α} {r : α} (h : MemoryOnly s p.1) (hp : p = (s1, r)) :
    MemoryOnly s s1 := by
  rw [hp] at h
  exact h

/-- An engine's failed access touches no tile and no memory. -/
theorem State.engineStop_work (s : State) (c : Nat) (kind : BitVec 4) (unit ref : Nat) (why : Stop) :
    WorkOnly s (s.engineStop c kind unit ref why) := (s.stopEvent_hostOnly c kind unit ref why).work.trans (State.stopAtCurfew_work _ c)

theorem State.engineStop_told (s : State) (c : Nat) (kind : BitVec 4) (unit ref : Nat) (why : Stop) :
    ToldToStop c s (s.engineStop c kind unit ref why) := by
  intro hp
  have computes : ((s.stopEvent c kind unit ref why).job c).phase = .compute :=
    (congrArg Job.phase ((s.stopEvent_hostOnly c kind unit ref why).job c)).trans hp
  rw [State.engineStop, State.stopAtCurfew_compute computes, State.job_setJob_same]
  exact ⟨rfl, computes⟩

/-- A failed access of the Update Engine stops its job, and leaves memory and the tiles. -/
theorem State.updStop_keeps (s : State) (c e : Nat) (why : Stop) :
    ToldToStop c s (s.updStop c e why) ∧ (s.updStop c e why).mem = s.mem ∧ (s.updStop c e why).tiles = s.tiles := by
  obtain ⟨-, -, tiles, -, mem, -⟩ := s.engineStop_work c kUpdate e (s.job c).stepRef why
  exact ⟨s.engineStop_told c kUpdate e _ why, mem, tiles⟩

/-! ### Reading the arrays of a layer (R324, R332, R333) -/

/-- A read of job memory: the controllers' corrections at most, and none where no symbol is in error. -/
def Reads (s t : State) : Prop := MemoryOnly s t ∧ (s.mem.errors = [] → t = s)

theorem Reads.refl (s : State) : Reads s s := ⟨MemoryOnly.refl s, fun _ => rfl⟩

theorem Reads.trans {s t u : State} (h : Reads s t) (k : Reads t u) : Reads s u := by
  refine ⟨h.1.trans k.1, fun clean => ?_⟩
  have same := h.2 clean
  exact (k.2 (same ▸ clean)).trans same

theorem Reads.of_eq {α : Type} {s s1 : State} {p : State × α} {r : α} (h : Reads s p.1) (hp : p = (s1, r)) : Reads s s1 := by
  rw [hp] at h
  exact h

theorem State.readArrays_reads (s : State) (c : Nat) (l : List (Nat × Nat)) : Reads s (s.readArrays c l).1 :=
  ⟨s.readArrays_memoryOnly c l, fun clean => State.readArrays_clean clean c l⟩

theorem State.layerElems_reads (s : State) (c : Nat) (l : LF) (first n : Nat) : Reads s (s.layerElems c l first n).1 := by
  have read := s.readArrays_reads c (l.arrays first n)
  unfold State.layerElems
  split
  · next h => exact read.of_eq h
  · next h => exact read.of_eq h

theorem State.spanElems_reads (s : State) (c : Nat) (l : LF) (xs : List (Nat × Nat × Nat)) : Reads s (s.spanElems c l xs).1 := by
  induction xs generalizing s with
  | nil => exact Reads.refl s
  | cons x xs ih =>
    have read := s.layerElems_reads c l x.1 x.2.1
    unfold State.spanElems
    split
    · next h => exact read.of_eq h
    · next s1 _ h =>
      have rest := ih s1
      split
      · next h' => exact (read.of_eq h).trans (rest.of_eq h')
      · next h' => exact (read.of_eq h).trans (rest.of_eq h')

theorem State.spanGrads_reads (s : State) (c : Nat) (l : LF) (xs : List (Nat × Nat × Nat)) : Reads s (s.spanGrads c l xs).1 := by
  have read := s.readArrays_reads c (xs.map fun x => (l.g + l.gs * x.1, l.gs * x.2.1))
  unfold State.spanGrads
  split
  · next h => exact read.of_eq h
  · next h => exact read.of_eq h

theorem State.spanCounts_reads (s : State) (c : Nat) (l : LF) (xs : List (Nat × Nat × Nat)) : Reads s (s.spanCounts c l xs).1 := by
  have read := s.readArrays_reads c (xs.map fun x => (l.rowstep + 4 * x.2.2, 4))
  unfold State.spanCounts
  split
  · exact Reads.refl s
  · split
    · next h => exact read.of_eq h
    · next h => exact read.of_eq h

theorem State.layerSums_reads (s : State) (c : Nat) (l : LF) (listed : List Nat) : Reads s (s.layerSums c l listed).1 := by
  have grads := s.spanGrads_reads c l (l.spans listed)
  unfold State.layerSums
  dsimp only
  split
  · next h => exact grads.of_eq h
  · next s1 _ h =>
    have first := grads.of_eq h
    split
    · exact first
    · have elems := s1.spanElems_reads c l (l.spans listed)
      split
      · next h => exact first.trans (elems.of_eq h)
      · next s2 _ h =>
        have second := first.trans (elems.of_eq h)
        have counts := s2.spanCounts_reads c l (l.spans listed)
        split
        · next h => exact second.trans (counts.of_eq h)
        · next h => exact second.trans (counts.of_eq h)

/-! ### Pass one (R328, R332, R335) -/

theorem State.buildList_memoryOnly (s : State) (c : Nat) (l : LF) : MemoryOnly s (s.buildList c l).1 := by
  have read := s.readArrays_memoryOnly c [(l.bitmap, l.bitmapBytes)]
  unfold State.buildList
  split
  · next h => exact read.of_eq h
  · next s1 bs h =>
    have wrote := s1.vwrite_memoryOnly c l.list ((touchedRows l.rows (bs.getD 0 [])).flatMap fun r => toBytes 4 r) false
    dsimp only
    split
    · next h' => exact (read.of_eq h).trans (wrote.of_eq h')
    · next h' => exact (read.of_eq h).trans (wrote.of_eq h')

/-- What pass one of an entry leaves: it reads and writes job memory; it writes none where the entry is neither SPARSE nor factored,
and a frozen entry has no sums. -/
theorem State.passOneWork_keeps (s : State) (c : Nat) (l : LF) :
    MemoryOnly s (s.passOneWork c l).1 ∧ (l.sparse = false → l.factored = false → Reads s (s.passOneWork c l).1) ∧
      ∀ n sums, l.freeze = true → (s.passOneWork c l).2 = .ok (n, sums) → sums.g = 0 ∧ sums.w = 0 ∧ sums.d = 0 := by
  have listed : MemoryOnly s (if l.sparse then s.buildList c l else (s, .ok [])).1 ∧
      (l.sparse = false → (if l.sparse then s.buildList c l else (s, .ok [])).1 = s) := by
    split
    · next h => exact ⟨s.buildList_memoryOnly c l, fun h' => by rw [h'] at h; cases h⟩
    · exact ⟨MemoryOnly.refl s, fun _ => rfl⟩
  unfold State.passOneWork
  dsimp only
  split
  · next h =>
    rw [h] at listed
    obtain ⟨first, same⟩ := listed
    exact ⟨first, fun dense _ => same dense ▸ Reads.refl s, nofun⟩
  · next s1 rows h =>
    rw [h] at listed
    obtain ⟨first, same⟩ := listed
    have reads (dense : l.sparse = false) : Reads s s1 := same dense ▸ Reads.refl s
    split
    · next frozen =>
      refine ⟨first, fun dense _ => reads dense, fun n sums _ hs => ?_⟩
      cases hs
      exact ⟨rfl, rfl, rfl⟩
    · next frozen =>
      have summed := s1.layerSums_reads c l rows
      split
      · next h => exact ⟨first.trans (summed.of_eq h).1, fun dense _ => (reads dense).trans (summed.of_eq h), nofun⟩
      · next s2 sums h =>
        have second := first.trans (summed.of_eq h).1
        split
        · exact ⟨second, fun dense _ => (reads dense).trans (summed.of_eq h), fun _ _ h' => absurd h' frozen⟩
        · next factored =>
          have means := (s2.spanGrads_reads c l (l.spans [])).1
          have plain {P : Prop} (h : l.factored = false) : P := by simp [h] at factored
          split
          · next h => exact ⟨second.trans (means.of_eq h), fun _ => plain, nofun⟩
          · next s3 gs h =>
            have wrote := s3.vwrite_memoryOnly c l.scratch
              (((l.means (gs.map (·.2))).1 ++ (l.means (gs.map (·.2))).2).flatMap fun w => toBytes 4 w.toNat) false
            split
            · next h' => exact ⟨(second.trans (means.of_eq h)).trans (wrote.of_eq h'), fun _ => plain, nofun⟩
            · next h' =>
              exact ⟨(second.trans (means.of_eq h)).trans (wrote.of_eq h'), fun _ => plain, fun _ _ h' => absurd h' frozen⟩

/-! ### Pass two (R329 to R340) -/

/-- Work on a layer of a job: the tiles, the ports and the micro-engines stay, and every other job. -/
def Updating (c : Nat) (s t : State) : Prop :=
  t.tiles = s.tiles ∧ t.ports = s.ports ∧ t.engines = s.engines ∧ ∀ d, d ≠ c → t.job d = s.job d

theorem Updating.refl (c : Nat) (s : State) : Updating c s s := ⟨rfl, rfl, rfl, fun _ _ => rfl⟩

theorem Updating.trans {c : Nat} {s t u : State} (h : Updating c s t) (k : Updating c t u) : Updating c s u := by
  obtain ⟨tiles, ports, engines, others⟩ := h
  obtain ⟨tiles', ports', engines', others'⟩ := k
  exact ⟨tiles'.trans tiles, ports'.trans ports, engines'.trans engines, fun d hd => (others' d hd).trans (others d hd)⟩

theorem Updating.of_eq {α : Type} {c : Nat} {s s1 : State} {p : State × α} {r : α} (h : Updating c s p.1) (hp : p = (s1, r)) :
    Updating c s s1 := by
  rw [hp] at h
  exact h

theorem MemoryOnly.updating {s t : State} (c : Nat) (h : MemoryOnly s t) : Updating c s t := by
  obtain ⟨_, _, _, _, rfl⟩ := h
  exact Updating.refl c s

theorem State.mapLayer_updating (s : State) (c i : Nat) (f : Layer → Layer) : Updating c s (s.mapLayer c i f) :=
  ⟨rfl, rfl, rfl, fun _ hd => State.job_setJob_other _ _ hd⟩

theorem State.leftEvent_memoryOnly (s : State) (c e : Nat) (l : LF) (n : Nat) : MemoryOnly s (s.leftEvent c e l n) :=
  .ite (MemoryOnly.refl s) (s.event_memoryOnly _ _ _ _ _ _)

theorem State.fellBack_updating (s : State) (c e : Nat) (l : LF) (b : Nat × StageOut) : Updating c s (s.fellBack c e l b) := by
  unfold State.fellBack
  extract_lets r s1 j
  have counted : Updating c s (s1.setJob c { j with fellBackLayers := j.fellBackLayers + 1 }) :=
    ⟨rfl, rfl, rfl, fun _ hd => State.job_setJob_other _ _ hd⟩
  exact counted.trans ((State.event_memoryOnly _ _ _ _ _ _ _).updating c)

theorem State.writeArrays_memoryOnly (s : State) (c : Nat) (l : List (Nat × List Byte)) : MemoryOnly s (s.writeArrays c l).1 := by
  induction l generalizing s with
  | nil => exact MemoryOnly.refl s
  | cons x l ih =>
    obtain ⟨va, bytes⟩ := x
    have wrote := s.vwrite_memoryOnly c va bytes false
    unfold State.writeArrays
    split
    · next h => exact wrote.of_eq h
    · next h => exact (wrote.of_eq h).trans (ih _)

theorem State.clearSparse_memoryOnly (s : State) (c : Nat) (x : Layer) : MemoryOnly s (s.clearSparse c x).1 := by
  have read := s.readArrays_memoryOnly c [((layerFields x.raw).list, 4 * x.listed)]
  unfold State.clearSparse
  dsimp only
  split
  · next h => exact read.of_eq h
  · next h => exact (read.of_eq h).trans (State.writeArrays_memoryOnly _ _ _)

theorem State.factored_reads (s : State) (c : Nat) (l : LF) (k : Coef) : Reads s (s.factored c l k).1 := by
  have read := s.readArrays_reads c [(l.s2, l.ss * l.rows), (l.kBase, l.ss * l.cols), (l.scratch, 4 * (l.rows + l.cols))]
  unfold State.factored
  split
  · exact Reads.refl s
  · split
    · next h => exact read.of_eq h
    · next h => exact read.of_eq h

theorem State.applySparse_memoryOnly (s : State) (c e : Nat) (x : Layer) : MemoryOnly s (s.applySparse c e x).1 := by
  have read := s.readArrays_memoryOnly c [((layerFields x.raw).list, 4 * x.listed)]
  unfold State.applySparse
  dsimp only
  split
  · next h => exact read.of_eq h
  · next s0 ls h =>
    have first := read.of_eq h
    have elems := (s0.spanElems_reads c (layerFields x.raw) ((layerFields x.raw).spans (rawElems 4 (ls.getD 0 [])))).1
    split
    · next h => exact first.trans (elems.of_eq h)
    · next s1 _ h =>
      have second := first.trans (elems.of_eq h)
      have counts := (s1.spanCounts_reads c (layerFields x.raw) ((layerFields x.raw).spans (rawElems 4 (ls.getD 0 [])))).1
      split
      · next h => exact second.trans (counts.of_eq h)
      · next s2 _ h =>
        have third := second.trans (counts.of_eq h)
        have wrote := s2.writeArrays_memoryOnly c
        split
        · next h => exact third.trans ((wrote _).of_eq h)
        · next h =>
          exact ((third.trans ((wrote _).of_eq h)).trans (State.leftEvent_memoryOnly _ _ _ _ _)).trans
            (State.clearSparse_memoryOnly _ _ _)

theorem State.applyDense_updating (s : State) (c e : Nat) (x : Layer) : Updating c s (s.applyDense c e x).1 := by
  have elems := (s.layerElems_reads c (layerFields x.raw) 0 (layerFields x.raw).n).1
  unfold State.applyDense
  extract_lets l j0 eta cs k
  split
  · next h => exact (elems.of_eq h).updating c
  · next s1 es h =>
    have first := elems.of_eq h
    have stats := (s1.factored_reads c l k).1
    split
    · next h => exact (first.trans (stats.of_eq h)).updating c
    · next s2 fac h =>
      have second := first.trans (stats.of_eq h)
      have wrote := s2.writeArrays_memoryOnly c
      dsimp only
      split
      · next h => exact (second.trans ((wrote _).of_eq h)).updating c
      · next s3 h =>
        have third := fun n => ((second.trans ((wrote _).of_eq h)).trans (s3.leftEvent_memoryOnly c e l n)).updating c
        split
        · exact ((third _).trans (State.mapLayer_updating _ _ _ _)).trans (State.fellBack_updating _ _ _ _ _)
        · exact third _

/-- What pass two of an entry leaves; for a frozen dense entry and one that the host runs it does nothing (R335, R340). -/
theorem State.passTwoWork_keeps (s : State) (c e : Nat) (x : Layer) : let l := layerFields x.raw
    Updating c s (s.passTwoWork c e x).1 ∧
      (l.freeze = true ∧ l.sparse = false ∨ l.freeze = false ∧ l.host = true → (s.passTwoWork c e x).1 = s) := by
  intro l
  unfold State.passTwoWork
  dsimp only
  split
  · next frozen =>
    split
    · next sparse =>
      refine ⟨(s.clearSparse_memoryOnly c x).updating c, fun h => ?_⟩
      rcases h with ⟨-, h⟩ | ⟨h, -⟩
      · exact absurd (h.symm.trans sparse) Bool.false_ne_true
      · exact absurd (h.symm.trans frozen) Bool.false_ne_true
    · exact ⟨Updating.refl c s, fun _ => rfl⟩
  · next moves =>
    split
    · exact ⟨Updating.refl c s, fun _ => rfl⟩
    · next own =>
      have idle {P : Prop} (h : l.freeze = true ∧ l.sparse = false ∨ l.freeze = false ∧ l.host = true) : P := by
        rcases h with ⟨h, -⟩ | ⟨-, h⟩
        · exact absurd h moves
        · exact absurd h own
      have applied : Updating c s (if l.sparse then s.applySparse c e x else s.applyDense c e x).1 := by
        split
        · exact (s.applySparse_memoryOnly c e x).updating c
        · exact s.applyDense_updating c e x
      split
      · next h => exact ⟨applied.of_eq h, idle⟩
      · next s1 h => exact ⟨(applied.of_eq h).trans ((s1.vwrite_memoryOnly _ _ _ _).updating c), idle⟩

end Sys2Proof.Machine
end

section
/-! The passes of the Update Engine and the work that its micro-engines share out (R293, R328, R329, R335, R340, R341, R483). -/

namespace Sys2Proof.Machine
open Sys2Proof.Claims

/-! ### A bucket's command (R293) -/

/-- A command that is read well is queued for its action. -/
theorem State.queueCommand_queues {s u : State} {c : Nat} {ctx : Fin 8} {a : Action} (h : s.queueCommand c ctx a = (u, none)) :
    ∃ r raw, MemoryOnly s r ∧ u = { r with engineCmds := r.engineCmds ++ [(ctx, some a.id, raw)] } := by
  have read := s.readArrays_memoryOnly c [(a.cmdVA, 64)]
  unfold State.queueCommand at h
  split at h
  · cases h
  · next r _ hr =>
    cases h
    exact ⟨r, _, read.of_eq hr, rfl⟩

/-- The action's command is issued, and no longer due. -/
def State.commandIssued (s : State) (c id : Nat) : State :=
  s.setJob c { s.job c with actions := (s.job c).actions.map fun x =>
    if x.id = id then { x with cmdDue := false, cmdOpen := true } else x }

section
variable {s : State} {ctx : Fin 8} {id : Nat} {a : Action}
  (hfind : ((s.job ctx.val).actions.find? fun a => a.id == id && a.kind == 2 && a.cmdDue) = some a)
include hfind

theorem exec_handoffIssue_early (h : a.descsLeft ≠ 0) : exec (.handoffIssue ctx id) s = .next s := by
  change execHandoffIssue ctx id s = _
  rw [execHandoffIssue]
  dsimp only
  rw [hfind]
  dsimp only
  rw [if_pos (.inl h)]

theorem exec_handoffIssue_queued {u : State} (h : a.descsLeft = 0) (hrun : (s.job ctx.val).running = true)
    (hqueue : s.queueCommand ctx.val ctx a = (u, none)) : exec (.handoffIssue ctx id) s = .next (u.commandIssued ctx.val id) := by
  change execHandoffIssue ctx id s = _
  rw [execHandoffIssue]
  dsimp only
  rw [hfind]
  dsimp only
  rw [if_neg (by simp [h, hrun]), hqueue]
  rfl

end

/-! ### Pass one -/

theorem State.beginDue_none {s : State} (h : ∀ c, c < 8 → s.passOneDue c = false) : s.beginDue = s :=
  List.foldlRecOn _ _ (motive := (· = s)) rfl fun t ht c hc => by
    rw [ht, h c (List.mem_range.1 hc)]
    rfl

/-- A layer's record after pass one. -/
def Layer.onePass (y : Layer) (n : Nat) (sums : Sums) : Layer :=
  { y with onePassed := true, listed := n, sumG := sums.g, sumW := sums.w, sumD := sums.d }

theorem exec_passOneEntry (engine : Fin 16) (s : State) : exec (.passOneEntry engine) s = execPassOneEntry engine s := rfl

section
variable {s0 s : State} (hs : s0.beginDue = s) {engine : Fin 16}
include hs

theorem exec_passOneEntry_empty (h : s.headLayer engine.val = none) : exec (.passOneEntry engine) s0 = .next s := by
  rw [exec_passOneEntry]
  unfold execPassOneEntry
  simp only [hs, h]

variable {c : Nat} {x : Layer} (hhead : s.headLayer engine.val = some (c, x))
include hhead

theorem exec_passOneEntry_waits (h : x.onePassed = true ∨ s.gradientReady c x.index = false) :
    exec (.passOneEntry engine) s0 = .next s := by
  have waits : (x.onePassed || !s.gradientReady c x.index) = true := by simpa using h
  rw [exec_passOneEntry]
  unfold execPassOneEntry
  simp only [hs, hhead, waits, if_true]

variable (hone : x.onePassed = false) (hready : s.gradientReady c x.index = true) {u : State}
include hone hready

theorem exec_passOneEntry_done {n : Nat} {sums : Sums}
    (hwork : (s.takeHead engine.val 1).passOneWork c (layerFields x.raw) = (u, .ok (n, sums))) :
    exec (.passOneEntry engine) s0 = .next (u.mapLayer c x.index (·.onePass n sums)) := by
  rw [exec_passOneEntry]
  unfold execPassOneEntry
  simp only [hs, hhead, hone, hready, Bool.not_true, Bool.or_self, Bool.false_eq_true, if_false, hwork, Layer.onePass]

theorem exec_passOneEntry_fails {why : Stop}
    (hwork : (s.takeHead engine.val 1).passOneWork c (layerFields x.raw) = (u, .error why)) :
    exec (.passOneEntry engine) s0 = .next (u.updStop c engine.val why) := by
  rw [exec_passOneEntry]
  unfold execPassOneEntry
  simp only [hs, hhead, hone, hready, Bool.not_true, Bool.or_self, Bool.false_eq_true, if_false, hwork]

end

/-- The micro-engine that takes the head of its queue works on it, and the rest of its queue waits. -/
theorem State.takeHead_engine (s : State) (e : Nat) (pass : BitVec 2) :
    (s.takeHead e pass).engine e = ⟨true, pass, (s.engine e).queue.tail⟩ := State.engine_setEngine_same _ _ _

/-- What a done pass one leaves: its job's layers with the entry's record, and job memory as its reads and writes leave it. -/
theorem State.onePassed_keeps {s u : State} {e c n : Nat} {x : Layer} {sums : Sums}
    (hwork : (s.takeHead e 1).passOneWork c (layerFields x.raw) = (u, .ok (n, sums))) :
    let l := layerFields x.raw
    let t := u.mapLayer c x.index (·.onePass n sums)
    t.job c = { s.job c with layers := (s.job c).layers.map fun y => if y.index = x.index then y.onePass n sums else y } ∧
      (∀ d, d ≠ c → t.job d = s.job d) ∧ t.tiles = s.tiles ∧ t.ports = s.ports ∧ (t.engine e).queue = (s.engine e).queue.tail ∧
      (t.engine e).pass = 1 ∧ (l.freeze = true → sums.g = 0 ∧ sums.w = 0 ∧ sums.d = 0) ∧
      (l.sparse = false → l.factored = false → s.mem.errors = [] → t.mem = s.mem) := by
  intro l t
  obtain ⟨memory, reads, frozen⟩ := (s.takeHead e 1).passOneWork_keeps c l
  rw [hwork] at memory reads frozen
  have same : (l.sparse = false → l.factored = false → s.mem.errors = [] → t.mem = s.mem) := fun dense plain clean =>
    (congrArg State.mem ((reads dense plain).2 clean) :)
  obtain ⟨_, _, _, _, rfl⟩ := memory
  have engine_ := s.takeHead_engine e 1
  exact ⟨State.job_setJob_same _ _ _, fun d hd => State.job_setJob_other _ _ hd, rfl, rfl, congrArg MicroEngine.queue engine_,
    congrArg MicroEngine.pass engine_, fun h => frozen n sums h rfl, same⟩

/-! ### Pass two -/

section
variable {s : State} {engine : Fin 16} {c : Nat} {x : Layer} (hhead : s.headLayer engine.val = some (c, x))
include hhead

theorem exec_passTwoEntry_waits (h : x.twoPassed = true ∨ (s.job c).decision ≠ .applied) :
    exec (.passTwoEntry engine) s = .next s := by
  change execPassTwoEntry engine s = _
  rw [execPassTwoEntry, hhead]
  dsimp only
  rw [if_pos (by simpa using h)]

variable (htwo : x.twoPassed = false) (happlied : (s.job c).decision = .applied) {u : State}
include htwo happlied

theorem exec_passTwoEntry_done (hwork : (s.takeHead engine.val 2).passTwoWork c engine.val x = (u, none)) :
    exec (.passTwoEntry engine) s = .next (u.mapLayer c x.index fun y => { y with twoPassed := true }) := by
  change execPassTwoEntry engine s = _
  rw [execPassTwoEntry, hhead]
  dsimp only
  rw [if_neg (by simp [htwo, happlied]), hwork]

theorem exec_passTwoEntry_fails {why : Stop} (hwork : (s.takeHead engine.val 2).passTwoWork c engine.val x = (u, some why)) :
    exec (.passTwoEntry engine) s = .next (u.updStop c engine.val why) := by
  change execPassTwoEntry engine s = _
  rw [execPassTwoEntry, hhead]
  dsimp only
  rw [if_neg (by simp [htwo, happlied]), hwork]

end

/-! ### Stealing (R341) -/

/-- The search for the largest value of a measure finds a largest one. -/
theorem foldl_largest (f : Nat → Nat) (l : List Nat) (best : Nat) :
    let v := l.foldl (fun best v => if f best < f v then v else best) best
    v ∈ best :: l ∧ ∀ x ∈ best :: l, f x ≤ f v := by
  induction l generalizing best with
  | nil => simp
  | cons y l ih =>
    obtain ⟨found, above⟩ := ih (if f best < f y then y else best)
    rw [List.forall_mem_cons] at above
    obtain ⟨first, rest⟩ := above
    rw [List.foldl_cons]
    refine ⟨?_, List.forall_mem_cons.2 ⟨Nat.le_trans ?_ first, List.forall_mem_cons.2 ⟨Nat.le_trans ?_ first, rest⟩⟩⟩
    · rcases List.mem_cons.1 found with h | h
      · rw [h]
        split <;> simp
      · exact List.mem_cons_of_mem _ (List.mem_cons_of_mem _ h)
    · split <;> omega
    · split <;> omega

/-- The micro-engine whose queue holds the most entries, the lowest number on a tie. -/
def State.fullest (s : State) : Nat :=
  (List.range 16).foldl (fun best v => if (s.engine best).queue.length < (s.engine v).queue.length then v else best) 0

theorem State.fullest_spec (s : State) :
    s.fullest < 16 ∧ ∀ x, x < 16 → (s.engine x).queue.length ≤ (s.engine s.fullest).queue.length := by
  obtain ⟨found, above⟩ := foldl_largest (fun v => (s.engine v).queue.length) (List.range 16) 0
  refine ⟨?_, fun x hx => above x (List.mem_cons_of_mem _ (List.mem_range.2 hx))⟩
  rcases List.mem_cons.1 found with h | h
  · have first : s.fullest = 0 := h
    omega
  · exact List.mem_range.1 h

/-- The state after micro-engine `e` took the entry `k` from the tail of the queue of `v`. -/
def State.entryStolen (s : State) (e v : Nat) (k : Nat × Nat) : State :=
  (s.setEngine v { s.engine v with queue := (s.engine v).queue.dropLast }).setEngine e { s.engine e with queue := [k] }

theorem exec_updateEntrySteal_keeps {s : State} {engine : Fin 16}
    (h : (s.engine engine.val).queue ≠ [] ∨ (s.engine engine.val).busy = true ∨ s.updCtrl.getLsbD 31 = false) :
    exec (.updateEntrySteal engine) s = .next s := if_pos (by simpa using h)

theorem exec_updateEntrySteal_steals {s : State} {engine : Fin 16} {k : Nat × Nat} (hqueue : (s.engine engine.val).queue = [])
    (hidle : (s.engine engine.val).busy = false) (hon : s.updCtrl.getLsbD 31 = true)
    (hlast : (s.engine s.fullest).queue.getLast? = some k) :
    exec (.updateEntrySteal engine) s = .next (s.entryStolen engine.val s.fullest k) := by
  change execUpdateEntrySteal engine s = _
  rw [execUpdateEntrySteal]
  dsimp only
  rw [if_neg (by simp [hqueue, hidle, hon])]
  unfold State.fullest at hlast
  rw [hlast]
  rfl

/-- An entry taken from the tail of another queue leaves the rest of it, and every other queue. -/
theorem State.entryStolen_keeps {s : State} {e v : Nat} {k : Nat × Nat} (hne : v ≠ e)
    (hlast : (s.engine v).queue.getLast? = some k) :
    let t := s.entryStolen e v k
    { t with engines := s.engines } = s ∧ (s.engine v).queue = (t.engine v).queue ++ [k] ∧ (t.engine e).queue = [k] ∧
      ∀ x, x ≠ v → x ≠ e → t.engine x = s.engine x := by
  refine ⟨rfl, ?_, ?_, fun x hv he => ?_⟩
  · rw [State.entryStolen, State.engine_setEngine_other _ _ hne, State.engine_setEngine_same]
    exact (List.dropLast_append_getLast? k hlast).symm
  · rw [State.entryStolen, State.engine_setEngine_same]
  · rw [State.entryStolen, State.engine_setEngine_other _ _ he, State.engine_setEngine_other _ _ hv]

end Sys2Proof.Machine

namespace Sys2Proof
open Sys2Proof.Machine Sys2Proof.Claims

/-- Settles O35: each pass by what its work on job memory leaves and the record that it then marks, a bucket's command by the read that
queues it, and the theft by the place of the longest queue. -/
theorem passesRun : Obligations.PassesRun := by
  unfold Obligations.PassesRun
  refine ⟨?handoff, fun s => State.beginDue_none, ?one, ?two, ?steal⟩
  case handoff =>
    intro s ctx id a hfind hrun
    refine ⟨fun u hdescs hqueue => ?_, exec_handoffIssue_early hfind⟩
    have hid : a.id = id := by
      have found := List.find?_some hfind
      simp only [Bool.and_eq_true, beq_iff_eq] at found
      exact found.1.1
    obtain ⟨_, raw, ⟨_, _, _, _, rfl⟩, rfl⟩ := State.queueCommand_queues hqueue
    exact ⟨_, raw, exec_handoffIssue_queued hfind hdescs hrun hqueue, rfl, hid ▸ rfl, fun d hd => State.job_setJob_other _ _ hd,
      State.job_setJob_same _ _ _⟩
  case one =>
    intro s0 engine
    generalize hs : s0.beginDue = s
    refine ⟨exec_passOneEntry_empty hs, ?_⟩
    intro c x hhead l
    refine ⟨fun u n sums hone hready hwork => ?_, fun u why hone hready hwork => ?_, exec_passOneEntry_waits hs hhead⟩
    · exact ⟨_, exec_passOneEntry_done hs hhead hone hready hwork, rfl, State.onePassed_keeps hwork⟩
    · exact ⟨_, exec_passOneEntry_fails hs hhead hone hready hwork, u.updStop_keeps c engine.val why⟩
  case two =>
    intro s engine c x hhead l
    refine ⟨fun u htwo happlied hwork => ?_, fun u why htwo happlied hwork => ?_, exec_passTwoEntry_waits hhead⟩
    · obtain ⟨⟨tiles, ports, engines, others⟩, idle⟩ := (s.takeHead engine.val 2).passTwoWork_keeps c engine.val x
      rw [hwork] at tiles ports engines others idle
      have engine_ : u.engine engine.val = ⟨true, 2, (s.engine engine.val).queue.tail⟩ :=
        (congrArg (fun l : Tbl MicroEngine => l.get MicroEngine.reset engine.val) engines).trans (s.takeHead_engine engine.val 2)
      exact ⟨_, exec_passTwoEntry_done hhead htwo happlied hwork, rfl, State.job_setJob_same _ _ _,
        fun d hd => (State.job_setJob_other _ _ hd).trans (others d hd), tiles, ports, congrArg MicroEngine.queue engine_,
        congrArg MicroEngine.pass engine_, fun h => (congrArg State.mem (idle h) :)⟩
    · exact ⟨_, exec_passTwoEntry_fails hhead htwo happlied hwork, u.updStop_keeps c engine.val why⟩
  case steal =>
    intro s engine
    refine ⟨fun hqueue hidle hon ⟨v, hv, filled⟩ => ?_, exec_updateEntrySteal_keeps⟩
    obtain ⟨bound, longest⟩ := s.fullest_spec
    have held : (s.engine s.fullest).queue ≠ [] :=
      List.ne_nil_of_length_pos (Nat.lt_of_lt_of_le (List.length_pos_of_ne_nil filled) (longest v hv))
    have other : s.fullest ≠ engine.val := fun same => held (by rw [same, hqueue])
    have hlast := List.getLast?_eq_some_getLast held
    obtain ⟨frame, tail, taken, rest⟩ := State.entryStolen_keeps other hlast
    exact ⟨_, s.fullest, _, exec_updateEntrySteal_steals hqueue hidle hon hlast, frame, bound, longest, tail, taken, rest⟩

end Sys2Proof
end

section
/-! The decision over a step (R296 to R301, R306, R340): the flags of every module decide, whatever the order of the contributions; a
skipped step discards what it had, and an applied one has every tensor to push. -/

namespace Sys2Proof.Machine
open Sys2Proof.Claims

/-! ### The contributions that are combined (R69, R71) -/

/-- Contributions of distinct modules all stand in the list in the order in which they came. -/
theorem foldl_distinct (l acc : List Contribution) (h : ((acc ++ l).map (·.index)).Nodup) :
    l.foldl (fun l o => if l.any (fun x => x.index == o.index) then l else l ++ [o]) acc = acc ++ l := by
  induction l generalizing acc with
  | nil => rw [List.foldl_nil, List.append_nil]
  | cons o l ih =>
    have fresh : acc.any (fun x => x.index == o.index) = false := by
      rw [List.map_append, List.nodup_append] at h
      obtain ⟨-, -, apart⟩ := h
      rw [List.any_eq_false]
      intro x hx same
      exact apart x.index (List.mem_map_of_mem hx) o.index (List.mem_map_of_mem List.mem_cons_self) (beq_iff_eq.mp same)
    rw [List.foldl_cons, fresh, if_neg Bool.false_ne_true, ih (acc ++ [o]) (by rwa [List.append_assoc]), List.append_assoc]
    rfl

/-- Whatever the order, the module's own contribution and every other module's are combined. -/
theorem mem_inOrder {n : Nat} {own : Contribution} {theirs : List Contribution} (det : Bool) (hown : own.index < n)
    (distinct : (theirs.map (·.index)).Nodup) (others : ∀ o ∈ theirs, o.index < n ∧ o.index ≠ own.index) (o : Contribution) :
    o ∈ inOrder det n own theirs ↔ o = own ∨ o ∈ theirs := by
  cases det with
  | true =>
    show o ∈ (List.range n).filterMap _ ↔ _
    rw [List.mem_filterMap]
    constructor
    · rintro ⟨i, -, hi⟩
      split at hi
      · exact .inl (Option.some.inj hi).symm
      · exact .inr (List.mem_of_find?_eq_some hi)
    · rintro (rfl | ho)
      · exact ⟨o.index, List.mem_range.mpr hown, if_pos rfl⟩
      · obtain ⟨small, apart⟩ := others o ho
        refine ⟨o.index, List.mem_range.mpr small, ?_⟩
        rw [if_neg apart]
        cases hfind : theirs.find? fun x => x.index == o.index with
        | none => simpa using List.find?_eq_none.mp hfind o ho
        | some x =>
          have same : x.index = o.index := beq_iff_eq.mp (List.find?_some (p := fun x : Contribution => x.index == o.index) hfind)
          rw [List.inj_on_of_nodup_map distinct (List.mem_of_find?_eq_some hfind) ho same]
  | false =>
    show o ∈ (theirs.foldl _ []).insertIdx _ own ↔ _
    rw [foldl_distinct theirs [] distinct, List.nil_append]
    exact List.mem_insertIdx (Nat.le_of_lt_succ (Nat.mod_lt _ (Nat.succ_pos _)))

/-! ### When a step is decided (R301, R306) -/

/-- Whether a job's own part lets the step be decided. -/
def Job.decides (j : Job) : Bool :=
  j.phase == .curfew && j.isFinal && !j.evaluation && !j.held && j.decision == .pending && j.passOneBegun &&
    j.layers.all (·.onePassed) && (j.actions.all fun a => a.finished || (a.kind != 2 && bitsOf a.raw.toNat 195 183 == 0))

theorem Job.decides_of {j : Job} (hphase : j.phase = .curfew) (hfinal : j.isFinal = true) (heval : j.evaluation = false)
    (hheld : j.held = false) (hdecision : j.decision = .pending) (hbegun : j.passOneBegun = true)
    (hlayers : ∀ x ∈ j.layers, x.onePassed = true) (hactions : ∀ a ∈ j.actions, a.finished = true) : j.decides = true := by
  have layers : j.layers.all (·.onePassed) = true := List.all_eq_true.mpr hlayers
  have actions : (j.actions.all fun a => a.finished || (a.kind != 2 && bitsOf a.raw.toNat 195 183 == 0)) = true :=
    List.all_eq_true.mpr fun a ha => by rw [hactions a ha, Bool.true_or]
  rw [Job.decides, hphase, hfinal, heval, hheld, hdecision, hbegun, layers, actions]
  rfl

theorem Job.not_decides {j : Job} (h : j.phase ≠ .curfew ∨ j.isFinal = false ∨ j.evaluation = true ∨ j.passOneBegun = false ∨
    j.decision ≠ .pending ∨ ∃ x ∈ j.layers, x.onePassed = false) : j.decides = false := by
  rw [← Bool.not_eq_true]
  intro decides
  simp only [Job.decides, Bool.and_eq_true, beq_iff_eq, Bool.not_eq_true', List.all_eq_true] at decides
  obtain ⟨⟨⟨⟨⟨⟨⟨phase, final⟩, evaluation⟩, -⟩, decision⟩, begun⟩, layers⟩, -⟩ := decides
  rcases h with h | h | h | h | h | ⟨x, hx, h⟩
  · exact h phase
  · rw [h] at final; cases final
  · rw [h] at evaluation; cases evaluation
  · rw [h] at begun; cases begun
  · exact h decision
  · rw [layers x hx] at h; cases h

/-- The modules whose contributions a decision wants: every one of the job's but this one. -/
def State.wanted (s : State) (c : Nat) : List Nat :=
  (List.range (s.job c).cfg.modules).filter (· ≠ (s.group c [0, 1, 2, 3]).me)

theorem State.mem_wanted {s : State} {c i : Nat} :
    i ∈ s.wanted c ↔ i < (s.job c).cfg.modules ∧ i ≠ (s.group c [0, 1, 2, 3]).me := by
  rw [State.wanted, List.mem_filter, List.mem_range, decide_eq_true_iff]

/-- What this module contributes to the decision over a step. -/
def State.ownPart (s : State) (c : Nat) (k : StepCmd) : Contribution :=
  ⟨(s.group c [0, 1, 2, 3]).me, (s.stepFlags c).1, (s.stepFlags c).2, s.snapshotDue c k.number && (s.porter c).defers,
    (s.job c).ownNorm⟩

/-- The contributions of all modules, as they are combined. -/
def State.parts (s : State) (c : Nat) (k : StepCmd) (others : List Contribution) : List Contribution :=
  inOrder (s.job c).cfg.det (s.job c).cfg.modules (s.ownPart c k) (others.filter fun o => decide (o.index ∈ s.wanted c))

/-- Some module's NONFINITE flag is set: this one's, or one of the others'. -/
theorem State.parts_nonfinite {s : State} {c : Nat} {k : StepCmd} {others : List Contribution}
    (hme : (s.group c [0, 1, 2, 3]).me < (s.job c).cfg.modules) (distinct : (others.map (·.index)).Nodup) :
    (s.parts c k others).any (·.nonfinite) = true ↔ (s.stepFlags c).1 = true ∨
      ∃ o ∈ others, o.index < (s.job c).cfg.modules ∧ o.index ≠ (s.group c [0, 1, 2, 3]).me ∧ o.nonfinite = true := by
  have nodup : ((others.filter fun o => decide (o.index ∈ s.wanted c)).map (·.index)).Nodup :=
    distinct.sublist (List.filter_sublist.map _)
  have theirs (o : Contribution) : o ∈ (others.filter fun o => decide (o.index ∈ s.wanted c)) ↔
      o ∈ others ∧ o.index < (s.job c).cfg.modules ∧ o.index ≠ (s.group c [0, 1, 2, 3]).me := by
    rw [List.mem_filter, decide_eq_true_iff, State.mem_wanted]
  have combined := mem_inOrder (own := s.ownPart c k) (s.job c).cfg.det hme nodup fun o ho => ((theirs o).mp ho).2
  rw [List.any_eq_true]
  constructor
  · rintro ⟨o, ho, flag⟩
    rcases (combined o).mp ho with rfl | ho
    · exact .inl flag
    · obtain ⟨came, small, apart⟩ := (theirs o).mp ho
      exact .inr ⟨o, came, small, apart, flag⟩
  · rintro (flag | ⟨o, came, small, apart, flag⟩)
    · exact ⟨_, (combined _).mpr (.inl rfl), flag⟩
    · exact ⟨o, (combined o).mpr (.inr ((theirs o).mpr ⟨came, small, apart⟩)), flag⟩

/-! ### The flags read and cleared, and the norm vector written (R296, R323, R340) -/

/-- The flags read and cleared, and what the combination gives kept. -/
def State.weighed (s : State) (c : Nat) (parts : List Contribution) : State :=
  let norm := combineNorm (parts.map (·.norm))
  let j := (s.clearFlags c).job c
  (s.clearFlags c).setJob c { j with
    norm := norm, g := norm.get 0 0, kappa := j.recordKappa (norm.get 0 0), local_ := (s.stepFlags c).1
    combinedPoison := parts.any (·.poison), deferNow := parts.any (·.defer) }

/-- The norm vector written where the STEP names it. -/
def State.normed (s : State) (c : Nat) (k : StepCmd) (parts : List Contribution) : State :=
  (s.weighed c parts).writeNorm c k.normVA.toNat (combineNorm (parts.map (·.norm)))

/-- The state in which the step is applied or skipped. -/
def State.settled (s : State) (c : Nat) (k : StepCmd) (parts : List Contribution) : State :=
  (s.normed c k parts).decideSnapshot c k.number (parts.any (·.defer))

theorem State.clearFlags_eq (s : State) (c : Nat) : ∃ tiles, s.clearFlags c =
    { s.setJob c { s.job c with nonfinite := false, poisonFlag := false } with tiles := tiles } := by
  refine List.foldlRecOn (s.job c).cfg.tiles _ (motive := fun t : State => ∃ tiles, t =
    { s.setJob c { s.job c with nonfinite := false, poisonFlag := false } with tiles := tiles }) ⟨_, rfl⟩ fun t ht u _ => ?_
  obtain ⟨_, rfl⟩ := ht
  exact ⟨_, rfl⟩

/-- What the weighing of the contributions leaves. -/
structure Weighed (c : Nat) (s t : State) : Prop where
  decided : (t.job c).pushesLeft = (s.job c).pushesLeft ∧ (t.job c).local_ = (s.stepFlags c).1
  cleared : (t.job c).nonfinite = false ∧ (t.job c).poisonFlag = false
  cfg : (t.job c).cfg = (s.job c).cfg
  phase : (t.job c).phase = (s.job c).phase
  others : ∀ d, d ≠ c → t.job d = s.job d
  tiles : (∀ u ∈ (s.job c).cfg.tiles, (t.tile u).nonfinite = false) ∧ ∀ u, PadSame u s t
  engines : t.engines = s.engines

theorem MemoryOnly.weighed {c : Nat} {s t u : State} (h : Weighed c s t) (k : MemoryOnly t u) : Weighed c s u := by
  obtain ⟨_, _, _, _, rfl⟩ := k
  obtain ⟨decided, cleared, cfg, phase, others, tiles, engines⟩ := h
  exact ⟨decided, cleared, cfg, phase, others, tiles, engines⟩

theorem State.weighed_keeps (s : State) (c : Nat) (parts : List Contribution) : Weighed c s (s.weighed c parts) := by
  have job : (s.weighed c parts).job c = _ := State.job_setJob_same _ _ _
  have tile (u : Nat) : (s.weighed c parts).tile u = if u ∈ (s.job c).cfg.tiles then (s.tile u).flagCleared else s.tile u :=
    State.foldl_setTile (g := Tile.flagCleared) (fun _ => rfl) (s.job c).cfg.tiles
      (s.setJob c { s.job c with nonfinite := false, poisonFlag := false }) u
  have other (d : Nat) (hd : d ≠ c) : (s.weighed c parts).job d = s.job d := by
    obtain ⟨_, flags⟩ := s.clearFlags_eq c
    refine (State.job_setJob_other _ _ hd).trans ?_
    rw [flags]
    exact State.job_setJob_other _ _ hd
  rw [State.clearFlags_job] at job
  refine ⟨?_, ?_, ?_, ?_, other, ⟨fun u hu => ?_, fun u => ?_⟩, ?_⟩
  · rw [job]; exact ⟨rfl, rfl⟩
  · rw [job]; exact ⟨rfl, rfl⟩
  · rw [job]
  · rw [job]
  · rw [tile, if_pos hu]; rfl
  · rw [PadSame, tile]
    split <;> exact ⟨rfl, rfl⟩
  · obtain ⟨_, flags⟩ := s.clearFlags_eq c
    show (s.clearFlags c).engines = _
    rw [flags]
    rfl

theorem State.weighed_readsAlike {s : State} (clean : s.mem.errors = []) (c : Nat) (parts : List Contribution) :
    ReadsAlike c s (s.weighed c parts) := by
  obtain ⟨_, flags⟩ := s.clearFlags_eq c
  refine ⟨clean, ?_, ?_, (s.weighed_keeps c parts).cfg⟩
  · show (s.clearFlags c).mem = _
    rw [flags]
    rfl
  · show (s.clearFlags c).health = _
    rw [flags]
    rfl

theorem normBytes_length (v : Tbl Word) : (normBytes v).length = 32772 := by
  simp only [normBytes, List.length_flatMap, toBytes_length, List.map_const', List.sum_replicate, List.length_range, smul_eq_mul,
    Nat.reduceMul]

/-- Where its pages can be written, the norm vector is written. -/
theorem State.writeNorm_memoryOnly {s : State} {c va pa : Nat} (v : Tbl Word) (h : (s.pages c va 32772 true).1 = .ok pa) :
    MemoryOnly s (s.writeNorm c va v) := by
  have wrote := s.vwrite_memoryOnly c va (normBytes v) false
  have fine := State.vwrite_fine false (normBytes_length v) h
  unfold State.writeNorm
  split
  · next hw => exact wrote.of_eq hw
  · next hw => rw [hw] at fine; cases fine

theorem State.decideSnapshot_memoryOnly (s : State) (c : Nat) (number : Word) (defer : Bool) :
    MemoryOnly s (s.decideSnapshot c number defer) := by
  unfold State.decideSnapshot
  split
  · exact MemoryOnly.refl s
  · dsimp only
    split
    · exact (State.setPorter_memoryOnly _ _ _).trans (State.event_memoryOnly _ _ _ _ _ _ _)
    · exact State.setPorter_memoryOnly _ _ _

theorem State.normed_keeps {s : State} {c pa : Nat} {k : StepCmd} (parts : List Contribution) (clean : s.mem.errors = [])
    (hpages : (s.pages c k.normVA.toNat 32772 true).1 = .ok pa) : Weighed c s (s.normed c k parts) := by
  have pages := (State.weighed_readsAlike clean c parts).pages k.normVA.toNat 32772 true
  exact (State.writeNorm_memoryOnly _ ((congrArg Prod.fst pages).trans hpages)).weighed (s.weighed_keeps c parts)

/-! ### A step that is skipped (R47, R288, R298, R334) -/

/-- Every entry in a micro-engine's queue was there before. -/
def QueuesShrink (s t : State) : Prop := ∀ i, ∀ q ∈ (t.engine i).queue, q ∈ (s.engine i).queue

theorem QueuesShrink.of_engines {s t : State} (h : t.engines = s.engines) : QueuesShrink s t := by
  intro i q hq
  rwa [State.engine, h] at hq

theorem State.abandon_queues (s : State) (c : Nat) : QueuesShrink s (s.abandon c) := by
  intro i q hq
  have rings (t : State) : (abandonSteps (abandonRings t c (List.range 64)) c (List.range 64)).engines = t.engines := by
    obtain ⟨_, same⟩ := (abandonRings_hostOnly t c (List.range 64)).trans (abandonSteps_hostOnly _ c (List.range 64))
    rw [same]
  have engines : (s.abandon c).engines = s.engines.mapAll fun e => { e with queue := e.queue.filter (fun q => q.1 ≠ c) } := by
    unfold State.abandon
    exact rings _
  rw [State.engine, engines, Tbl.get_mapAll MicroEngine.reset (fun e => { e with queue := e.queue.filter (fun q => q.1 ≠ c) }) rfl]
    at hq
  exact List.mem_of_mem_filter hq

theorem State.stopAtCurfew_queues (s : State) (c : Nat) : QueuesShrink s (s.stopAtCurfew c) := by
  have now : QueuesShrink s (s.stopNow c) := s.abandon_queues c
  unfold State.stopAtCurfew
  dsimp only
  split
  · exact now
  · exact now
  · exact .of_engines rfl
  · exact .of_engines rfl
  · exact .of_engines rfl

/-- What a skipped step does to a job and its tiles: it may stop the job, and clears what slots counted. -/
structure Discards (c : Nat) (s t : State) : Prop where
  others : ∀ d, d ≠ c → t.job d = s.job d
  own : (t.job c).unstopped = (s.job c).unstopped
  tiles : ∀ u, PadSame u s t ∧ (t.tile u).nonfinite = (s.tile u).nonfinite
  queues : QueuesShrink s t

theorem Discards.trans {c : Nat} {s t u : State} (h : Discards c s t) (k : Discards c t u) : Discards c s u where
  others d hd := (k.others d hd).trans (h.others d hd)
  own := k.own.trans h.own
  tiles v := ⟨⟨(k.tiles v).1.1.trans (h.tiles v).1.1, (k.tiles v).1.2.trans (h.tiles v).1.2⟩, (k.tiles v).2.trans (h.tiles v).2⟩
  queues i q hq := h.queues i q (k.queues i q hq)

theorem StopsOnly.discards {c : Nat} {s t : State} (h : StopsOnly c s t) (queues : QueuesShrink s t) : Discards c s t where
  others _ hd := h.others hd
  own := h.2.2.2
  tiles u := by rw [PadSame, h.tile u]; exact ⟨⟨rfl, rfl⟩, rfl⟩
  queues := queues

theorem MemoryOnly.discards {s t : State} (c : Nat) (h : MemoryOnly s t) : Discards c s t :=
  (h.stopsOnly c).discards (by obtain ⟨_, _, _, _, rfl⟩ := h; exact .of_engines rfl)

theorem Discards.refl (c : Nat) (s : State) : Discards c s s := (MemoryOnly.refl s).discards c

theorem Discards.foldl {α : Type} {c : Nat} {f : State → α → State} (h : ∀ s a, Discards c s (f s a)) (l : List α) (s : State) :
    Discards c s (l.foldl f s) :=
  List.foldlRecOn l f (motive := Discards c s) (Discards.refl c s) fun t ht a _ => ht.trans (h t a)

theorem State.engineStop_discards (s : State) (c : Nat) (kind : BitVec 4) (unit ref : Nat) (why : Stop) :
    Discards c s (s.engineStop c kind unit ref why) :=
  ((s.stopEvent_hostOnly c kind unit ref why).memoryOnly.discards c).trans
    ((State.stopAtCurfew_stopsOnly _ c).discards (State.stopAtCurfew_queues _ c))

theorem State.scaleStep_discards (s : State) (c tensor : Nat) (f : ScaleEntry → ScaleEntry) :
    Discards c s (s.scaleStep c tensor f) := by
  have access := s.scaleUpdate_memoryOnly c tensor f
  unfold State.scaleStep
  split
  · next h => exact (access.of_eq h).discards c
  · next s1 e h =>
    have stopped := s1.engineStop_discards c kStep 0 (Config.engineRef s1.fresh c).toNat e
    exact ((access.of_eq h).discards c).trans ⟨stopped.others, stopped.own, stopped.tiles, stopped.queues⟩

theorem State.clearSlots_discards (s : State) (c tensor : Nat) : Discards c s (s.clearSlots c tensor) := by
  refine Discards.foldl (f := fun t v => t.setTile v ((t.tile v).cleared tensor))
    (fun t u => ⟨fun _ _ => rfl, rfl, fun v => ?_, .of_engines rfl⟩) (s.job c).cfg.tiles s
  rw [PadSame, State.tile_setTile]
  split
  · next h => rw [h]; exact ⟨⟨rfl, rfl⟩, rfl⟩
  · exact ⟨⟨rfl, rfl⟩, rfl⟩

theorem State.skipScales_discards (s : State) (c : Nat) : Discards c s (s.skipScales c) :=
  Discards.foldl (fun t n => ((t.scaleStep_discards c n _).trans (State.clearSlots_discards _ c n)).trans
    (State.scaleStep_discards _ c n _)) _ s

theorem State.skipRows_discards (s : State) (c : Nat) : Discards c s (s.skipRows c) := by
  refine Discards.foldl (fun t x => ?_) (s.job c).layers s
  split
  · have cleared := t.clearSparse_memoryOnly c x
    split
    · next h => exact (cleared.of_eq h).discards c
    · next h => exact ((cleared.of_eq h).discards c).trans (State.engineStop_discards _ _ _ _ _ _)
  · exact Discards.refl c t

/-- The state after a skipped step. -/
def State.stepSkipped (s : State) (c : Nat) (number : Word) (own : Bool) : State :=
  (((s.setJob c { s.job c with decision := .skipped }).skipRows c).skipScales c).event 0x0501 kStep c 0 number.toNat
    (if own then 1 else 0)

/-- The state after an applied step. -/
def State.stepApplied (s : State) (c : Nat) : State :=
  let j := s.job c
  let held := (j.layers.filter fun x => (layerFields x.raw).host && !(layerFields x.raw).freeze).map (·.index)
  let pushes := (List.range j.cfg.scaleEntries.toNat).map fun i => BitVec.ofNat 16 i
  (s.setJob c { j with decision := .applied, pushesLeft := pushes, hostHold := held }).dealLayers c

theorem State.stepSkipped_discards (s : State) (c : Nat) (number : Word) (own : Bool) :
    Discards c (s.setJob c { s.job c with decision := .skipped }) (s.stepSkipped c number own) :=
  ((State.skipRows_discards _ c).trans (State.skipScales_discards _ c)).trans
    ((State.event_memoryOnly _ _ _ _ _ _ _).discards c)

/-! ### The decision -/

theorem exec_stepDecision {s : State} {ctx : Fin 8} {k : StepCmd} (others : List Contribution)
    (hstep : (s.job ctx.val).step = some k) (hadds : NoAdds s ctx.val) : exec (.stepDecision ctx others) s =
      if !(s.job ctx.val).decides || !((s.wanted ctx.val).all fun i => others.any fun o => o.index == i) then .next s
      else if !(s.job ctx.val).running then .next s
      else if !((s.normed ctx.val k (s.parts ctx.val k others)).job ctx.val).running then
        .next (s.normed ctx.val k (s.parts ctx.val k others))
      else if (s.parts ctx.val k others).any (·.nonfinite) then
        .next ((s.settled ctx.val k (s.parts ctx.val k others)).stepSkipped ctx.val k.number (s.stepFlags ctx.val).1)
      else .next ((s.settled ctx.val k (s.parts ctx.val k others)).stepApplied ctx.val) := by
  show execStepDecision ctx others s = _
  unfold execStepDecision
  dsimp only
  rw [hstep]
  dsimp only
  rw [State.openRegions_noAdds hadds]
  unfold State.settled State.normed State.weighed State.parts State.ownPart Job.decides State.wanted State.stepSkipped State.stepApplied
  dsimp only

theorem State.settled_keeps {s : State} {c pa : Nat} {k : StepCmd} (parts : List Contribution) (clean : s.mem.errors = [])
    (hpages : (s.pages c k.normVA.toNat 32772 true).1 = .ok pa) : Weighed c s (s.settled c k parts) :=
  (State.decideSnapshot_memoryOnly _ _ _ _).weighed (State.normed_keeps parts clean hpages)

/-- With everything there that it needs, the decision is made over the flags of all modules. -/
theorem exec_stepDecision_decides {s : State} {ctx : Fin 8} {k : StepCmd} {others : List Contribution} {pa : Nat}
    (hstep : (s.job ctx.val).step = some k) (hadds : NoAdds s ctx.val) (hdecides : (s.job ctx.val).decides = true)
    (hphase : (s.job ctx.val).phase = .curfew) (hcame : ∀ i ∈ s.wanted ctx.val, ∃ o ∈ others, o.index = i) (clean : s.mem.errors = [])
    (hpages : (s.pages ctx.val k.normVA.toNat 32772 true).1 = .ok pa) : exec (.stepDecision ctx others) s = .next
      (if (s.parts ctx.val k others).any (·.nonfinite) then
        (s.settled ctx.val k (s.parts ctx.val k others)).stepSkipped ctx.val k.number (s.stepFlags ctx.val).1
      else (s.settled ctx.val k (s.parts ctx.val k others)).stepApplied ctx.val) := by
  have came : ((s.wanted ctx.val).all fun i => others.any fun o => o.index == i) = true := by
    simpa [List.all_eq_true, List.any_eq_true] using hcame
  have runs {j : Job} (h : j.phase = .curfew) : j.running = true := by rw [Job.running, h]
  have normed := (State.normed_keeps (s.parts ctx.val k others) clean hpages).phase
  rw [exec_stepDecision others hstep hadds, hdecides, came, runs hphase, runs (normed.trans hphase)]
  simp only [Bool.not_true, Bool.or_self, Bool.false_eq_true, if_false]
  split <;> rfl

/-- Where something is missing, no decision is made. -/
theorem exec_stepDecision_waits {s : State} {ctx : Fin 8} (others : List Contribution) (h : (s.job ctx.val).decides = false) :
    exec (.stepDecision ctx others) s = .next s := by
  show execStepDecision ctx others s = _
  rw [Job.decides] at h
  unfold execStepDecision
  dsimp only
  split
  · rfl
  · rw [h]
    rfl

/-- What a decision leaves, whichever it is: this module's flags cleared, the scratchpads and the other jobs as they were. -/
def Decided (c : Nat) (s t : State) : Prop :=
  (t.job c).nonfinite = false ∧ (t.job c).poisonFlag = false ∧ (t.job c).local_ = (s.stepFlags c).1 ∧
    (∀ u ∈ (s.job c).cfg.tiles, (t.tile u).nonfinite = false) ∧ (∀ u, PadSame u s t) ∧ ∀ d, d ≠ c → t.job d = s.job d

/-- A skipped step pushes nothing and deals no layer. -/
theorem Weighed.stepSkipped {s t : State} {c : Nat} (h : Weighed c s t) (number : Word) (own : Bool) :
    ((t.stepSkipped c number own).job c).decision = .skipped ∧
      ((t.stepSkipped c number own).job c).pushesLeft = (s.job c).pushesLeft ∧ QueuesShrink s (t.stepSkipped c number own) ∧
      Decided c s (t.stepSkipped c number own) := by
  obtain ⟨⟨pushes, local_⟩, ⟨nonfinite, poison⟩, -, -, others, ⟨flags, pads⟩, engines⟩ := h
  have drops := t.stepSkipped_discards c number own
  have record := drops.own
  rw [State.job_setJob_same] at record
  refine ⟨congrArg Job.decision record, (congrArg Job.pushesLeft record).trans pushes, fun i q hq => ?_,
    (congrArg Job.nonfinite record).trans nonfinite, (congrArg Job.poisonFlag record).trans poison,
    (congrArg Job.local_ record).trans local_, fun u hu => (drops.tiles u).2.trans (flags u hu), fun u => ?_, fun d hd => ?_⟩
  · have before : q ∈ (t.engine i).queue := drops.queues i q hq
    rwa [State.engine, engines] at before
  · obtain ⟨⟨pad, poison⟩, -⟩ := drops.tiles u
    exact ⟨pad.trans (pads u).1, poison.trans (pads u).2⟩
  · exact (drops.others d hd).trans ((State.job_setJob_other _ _ hd).trans (others d hd))

/-- An applied step has every tensor of the scale table to push. -/
theorem Weighed.stepApplied {s t : State} {c : Nat} (h : Weighed c s t) :
    ((t.stepApplied c).job c).decision = .applied ∧
      ((t.stepApplied c).job c).pushesLeft = ((List.range (s.job c).cfg.scaleEntries.toNat).map fun i => BitVec.ofNat 16 i) ∧
      Decided c s (t.stepApplied c) := by
  obtain ⟨⟨-, local_⟩, ⟨nonfinite, poison⟩, cfg, -, others, ⟨flags, pads⟩, -⟩ := h
  rw [← cfg]
  unfold State.stepApplied
  extract_lets j held pushes
  obtain ⟨_, dealt⟩ := (t.setJob c { j with decision := .applied, pushesLeft := pushes, hostHold := held }).dealLayers_engines c
  have own := t.job_setJob_same c { j with decision := .applied, pushesLeft := pushes, hostHold := held }
  rw [dealt]
  exact ⟨congrArg Job.decision own, congrArg Job.pushesLeft own, (congrArg Job.nonfinite own).trans nonfinite,
    (congrArg Job.poisonFlag own).trans poison, (congrArg Job.local_ own).trans local_, flags, pads,
    fun d hd => (State.job_setJob_other _ _ hd).trans (others d hd)⟩

end Sys2Proof.Machine

namespace Sys2Proof
open Sys2Proof.Machine Sys2Proof.Claims

/-- Settles O36: the combined contributions are this module's and every other one's, whatever their order, so that any NONFINITE flag skips
the step and none applies it. -/
theorem stepsAreDecided : Obligations.StepsAreDecided := by
  intro s ctx others k c j me hstep
  refine ⟨fun pa hphase hfinal heval hheld hdecision hbegun hlayers hactions hadds clean hpages hme distinct hcame => ?_, fun h =>
    exec_stepDecision_waits others (Job.not_decides h)⟩
  have decides := Job.decides_of hphase hfinal heval hheld hdecision hbegun hlayers hactions
  have came (i : Nat) (hi : i ∈ s.wanted c) : ∃ o ∈ others, o.index = i :=
    hcame i (State.mem_wanted.mp hi).1 (State.mem_wanted.mp hi).2
  have flagged := State.parts_nonfinite (k := k) hme distinct
  have keeps := State.settled_keeps (s.parts c k others) clean hpages
  refine ⟨_, exec_stepDecision_decides hstep hadds decides hphase came clean hpages, ?_⟩
  cases hany : (s.parts c k others).any (·.nonfinite) with
  | true =>
    obtain ⟨skipped, pushes, queues, decided⟩ := keeps.stepSkipped k.number (s.stepFlags c).1
    rw [if_pos rfl]
    refine ⟨fun _ => ⟨skipped, pushes, queues⟩, fun ⟨mine, theirs⟩ => ?_, decided⟩
    rcases flagged.mp hany with h | ⟨o, ho, small, apart, h⟩
    · cases mine.symm.trans h
    · cases (theirs o ho small apart).symm.trans h
  | false =>
    obtain ⟨applied, pushes, decided⟩ := keeps.stepApplied
    rw [if_neg Bool.false_ne_true]
    exact ⟨fun h => absurd (hany.symm.trans (flagged.mpr h)) Bool.false_ne_true, fun _ => ⟨applied, pushes⟩, decided⟩

end Sys2Proof
end

section
/-! The Porter's snapshots and the mirrors it holds (R303, R518 to R520, R525): each step of a snapshot changes its Porter, and the capture
and the copies that fail stop the job. -/

namespace Sys2Proof.Machine
open Sys2Proof.Claims

/-! ### Reads change no Porter (R212 to R214) -/

/-- A read leaves every Porter. -/
def PortersStay (s t : State) : Prop := t.porters = s.porters

theorem PortersStay.refl (s : State) : PortersStay s s := rfl

theorem PortersStay.trans {s t u : State} (h : PortersStay s t) (k : PortersStay t u) : PortersStay s u := Eq.trans k h

theorem PortersStay.ite {s t u : State} {p : Prop} [Decidable p] (h : PortersStay s t) (k : PortersStay s u) :
    PortersStay s (if p then t else u) := by
  split
  · exact h
  · exact k

theorem PortersStay.foldl {α : Type} {f : State → α → State} (h : ∀ s a, PortersStay s (f s a)) (l : List α) (s : State) :
    PortersStay s (l.foldl f s) :=
  List.foldlRecOn l f (motive := PortersStay s) (PortersStay.refl s) fun t ht a _ => ht.trans (h t a)

theorem State.countCorrected_porters (s : State) (pa : Nat) : PortersStay s (s.countCorrected pa) := by
  obtain ⟨_, _, _, counted, -, -⟩ := s.countCorrected_eq pa
  rw [counted]
  rfl

theorem State.countUncorrectable_porters (s : State) (line : Nat) : PortersStay s (s.countUncorrectable line) := by
  obtain ⟨_, counted⟩ := s.countUncorrectable_eq line
  rw [counted]
  rfl

theorem State.applyInjection_porters (s : State) (line : Nat) : PortersStay s (s.applyInjection line) := by
  obtain ⟨_, _, _, taken, -⟩ := s.applyInjection_eq line
  rw [taken]
  rfl

theorem State.readLine_porters (s : State) (line : Nat) : PortersStay s (s.readLine line).1 := by
  unfold State.readLine
  extract_lets errs mark poisoned d0 d1 bad keep data written left s1 s2 sK mK s3 s4
  split
  · exact PortersStay.refl s
  · have first : PortersStay s s1 := .ite (s.countCorrected_porters _) (PortersStay.refl s)
    have second : PortersStay s s2 := first.trans (.ite (s1.countCorrected_porters _) (PortersStay.refl s1))
    have kept : PortersStay s sK := second.trans (.ite (PortersStay.refl s2) (PortersStay.refl s2))
    have written : PortersStay s s4 := PortersStay.trans (t := s3) kept (.ite (s3.applyInjection_porters _) (PortersStay.refl s3))
    exact written.trans (.ite (s4.countUncorrectable_porters _) (PortersStay.refl s4))

theorem State.demand_porters (s : State) (pa n : Nat) : PortersStay s (s.demand pa n) :=
  PortersStay.foldl (f := fun (t : State) (e : Nat × List (Nat × Byte)) => (t.readLine e.1).1) (fun t e => t.readLine_porters e.1) _ s

theorem State.demandFrom_porters (s : State) (c va table level n : Nat) : PortersStay s (s.demandFrom c va table level n) := by
  induction n generalizing s table level with
  | zero => exact PortersStay.refl s
  | succ n ih =>
    have read := s.demand_porters (table + 8 * vaIndex va level) 8
    exact .ite (read.trans (ih _ _ _)) read

theorem State.demandWalks_porters (s : State) (c va n k : Nat) : PortersStay s (s.demandWalks c va n k) := by
  induction k generalizing s va n with
  | zero => exact PortersStay.refl s
  | succ k ih => exact .ite (PortersStay.refl s) ((s.demandFrom_porters _ _ _ _ _).trans (ih _ _ _))

theorem State.vdemand_porters (s : State) (c va n : Nat) : PortersStay s (s.vdemand c va n) :=
  .ite (PortersStay.refl s) ((s.demandWalks_porters _ _ _ _).trans
    (PortersStay.foldl (f := fun (t : State) (p : Nat × Nat) => t.demand p.1 p.2) (fun t p => t.demand_porters p.1 p.2) _ _))

/-! ### A stopped job's Porter (R428, R603) -/

/-- Abandoning a job's work ends its snapshot; the slots and the recovery point stand. -/
theorem State.abandon_porter (s : State) (c : Nat) : ∃ out, (s.abandon c).porter c = { s.porter c with
    capturing := false, copying := false, mirroring := false, ready := false, due := false, framesLeft := [], acksLeft := []
    extra := [], out := out } := by
  have rings (t : State) : (abandonSteps (abandonRings t c (List.range 64)) c (List.range 64)).porters = t.porters := by
    obtain ⟨_, same⟩ := (abandonRings_hostOnly t c (List.range 64)).trans (abandonSteps_hostOnly _ c (List.range 64))
    rw [same]
  unfold State.abandon
  exact ⟨_, (congrArg (Tbl.get Porter.reset · c) (rings _)).trans (State.porter_setPorter_same _ _ _)⟩

/-- A stop leaves the recovery point, and a Porter that copies nothing copies nothing still. -/
theorem State.stopAtCurfew_porter (s : State) (c : Nat) : ((s.stopAtCurfew c).porter c).recoveryStep = (s.porter c).recoveryStep ∧
    ((s.porter c).copying = false → ((s.stopAtCurfew c).porter c).copying = false) ∧
    ((s.porter c).framesLeft = [] → ((s.stopAtCurfew c).porter c).framesLeft = []) := by
  obtain ⟨_, left⟩ := s.abandon_porter c
  have now : (s.stopNow c).porter c = (s.abandon c).porter c := rfl
  rw [left] at now
  unfold State.stopAtCurfew
  dsimp only
  split
  · rw [now]; exact ⟨rfl, fun _ => rfl, fun _ => rfl⟩
  · rw [now]; exact ⟨rfl, fun _ => rfl, fun _ => rfl⟩
  · exact ⟨rfl, id, id⟩
  · exact ⟨rfl, id, id⟩
  · exact ⟨rfl, id, id⟩

theorem HostOnly.porter {s t : State} (h : HostOnly s t) (c : Nat) : t.porter c = s.porter c := by
  obtain ⟨_, rfl⟩ := h
  rfl

/-! ### SNAPSHOT (R520) -/

section
variable {s : State} {ring : Fin 64} {e : Entry} (he : s.entryOf ring.val 0x30 = some e) (hcmd : JobCmd s ring e 4)
include he hcmd

theorem exec_snapshot_noted (h : (s.job (headerCtx e.raw)).phase ≠ .stopped) : exec (.snapshot ring) s =
    .next ((s.startEntry ring.val e.index).setPorter (headerCtx e.raw) { s.porter (headerCtx e.raw) with
      extra := (s.porter (headerCtx e.raw)).extra ++ [(ring, e.index, BitVec.ofNat 32 (bodyAt e.raw 0 4))] }) := by
  show execSnapshot ring s = _
  unfold execSnapshot
  rw [he]
  dsimp only
  rw [hcmd]
  dsimp only
  rw [if_neg h]

theorem exec_snapshot_stopped (h : (s.job (headerCtx e.raw)).phase = .stopped) : exec (.snapshot ring) s =
    .next (s.complete ring.val e.index 5 0 0 0) := by
  show execSnapshot ring s = _
  unfold execSnapshot
  rw [he]
  dsimp only
  rw [hcmd]
  dsimp only
  rw [if_pos h]

end

/-! ### SNAPSHOT_CAPTURE (R516, R518) -/

/-- Sending parts adds to what the Porter has sent, and changes nothing else. -/
theorem State.sendParts_porter (s : State) (c : Nat) (parts : List Part) : ∃ out,
    s.sendParts c parts = s.setPorter c { s.porter c with out := out } := ⟨_, rfl⟩

theorem Porter.other_target (p : Porter) : 1 - p.target ≠ p.target := by
  have small : p.target = 0 ∨ p.target = 1 := by
    rw [Porter.target]
    split
    · split
      · exact .inl rfl
      · exact .inr rfl
    · exact .inl rfl
  omega

/-- A Porter whose capture has been made: the slot holds what the step's end leaves, and the dirty frames are left to copy. -/
def State.capturedPorter (s : State) (c : Nat) (fs : List (Nat × Nat)) (marked : List MByte) : Porter :=
  let p := s.porter c
  let j := s.job c
  let snap : Snap :=
    { valid := false, step := p.dueStep, curfew := j.curfew, tag := j.cfg.tag, coord := s.selfCoord.extractLsb' 0 20
      engine := j.engineRec, scale := marked.map (·.val), scalePoison := poisonLines marked
      tiles := if j.cfg.tileState then s.tileRecs c else []
      blocks := (p.slots.get Snap.empty p.target).blocks.filter fun b => decide (b.va ∈ fs.map fun f => BitVec.ofNat 48 f.1) }
  { p with
    slots := p.slots.set p.target snap, capturing := false, due := false, copying := true
    framesLeft := fs.filter fun f => decide ((f.2, p.target) ∈ s.mem.dirty)
    slotFrames := p.slotFrames.set p.target (s.slotSpan c p.target) }

section
variable {s : State} {ctx : Fin 8}

theorem exec_snapshotCapture_waits (h : (s.porter ctx.val).capturing = false ∨ s.captureReady ctx.val = false) :
    exec (.snapshotCapture ctx) s = .next s := by
  show execSnapshotCapture ctx s = _
  unfold execSnapshotCapture
  dsimp only
  rw [if_pos]
  rcases h with h | h
  · rw [h]; rfl
  · rw [h, Bool.not_false, Bool.or_true]

variable (hcap : (s.porter ctx.val).capturing = true) (hready : s.captureReady ctx.val = true)
include hcap hready

/-- A capture with no symbol in error sends parts and changes its Porter. -/
theorem exec_snapshotCapture {rs fs : List (Nat × Nat)} {marked : List MByte} (hranges : s.ranges ctx.val = .ok rs)
    (hframes : s.rangeFrames ctx.val (frameVAs rs) = .ok fs)
    (htake : (s.vtake ctx.val (s.job ctx.val).cfg.scaleBase.toNat (128 * (s.job ctx.val).cfg.scaleEntries.toNat)).2 = .ok marked)
    (clean : s.mem.errors = []) : ∃ parts, exec (.snapshotCapture ctx) s =
      .next ((s.setPorter ctx.val (s.capturedPorter ctx.val fs marked)).sendParts ctx.val parts) := by
  have quiet : s.demandRanges ctx.val (.ok fs) = s := by rw [State.demandRanges, if_pos clean]
  change ∃ parts, execSnapshotCapture ctx s = _
  unfold execSnapshotCapture
  simp only [hcap, hready, hranges, hframes, htake, quiet, State.vdemand_clean clean]
  exact ⟨_, rfl⟩

theorem exec_snapshotCapture_fails {e : Stop} (hranges : s.ranges ctx.val = .error e) : exec (.snapshotCapture ctx) s =
    .next ((s.demandRanges ctx.val (.error e)).engineStop ctx.val kPorter 0 (s.job ctx.val).stepRef e) := by
  show execSnapshotCapture ctx s = _
  unfold execSnapshotCapture
  simp only [hcap, hready, hranges]
  rfl

/-- A capture that fails ends the snapshot and stops the job, which is in its Curfew. -/
theorem snapshotCapture_fails {e : Stop} (hranges : s.ranges ctx.val = .error e) (hclosing : (s.job ctx.val).closing = []) :
    ∃ t, exec (.snapshotCapture ctx) s = .next t ∧ (t.job ctx.val).phase = .stopped ∧ (t.porter ctx.val).capturing = false ∧
      (t.porter ctx.val).slots = (s.porter ctx.val).slots ∧
      (t.porter ctx.val).recoveryStep = (s.porter ctx.val).recoveryStep := by
  have phase : (s.job ctx.val).phase = .curfew := by
    simp only [State.captureReady, Bool.and_eq_true, beq_iff_eq] at hready
    exact hready.1.1.1.1.1.1.1.1
  have read : MemoryOnly s (s.demandRanges ctx.val (.error e)) := .ite (MemoryOnly.refl s) (s.vdemand_memoryOnly _ _ _)
  have stay : PortersStay s (s.demandRanges ctx.val (.error e)) := .ite (PortersStay.refl s) (s.vdemand_porters _ _ _)
  have told := (s.demandRanges ctx.val (.error e)).stopEvent_hostOnly ctx.val kPorter 0 (s.job ctx.val).stepRef e
  have hexec := exec_snapshotCapture_fails hcap hready hranges
  unfold State.engineStop at hexec
  generalize (s.demandRanges ctx.val (.error e)).stopEvent ctx.val kPorter 0 (s.job ctx.val).stepRef e = u at hexec told
  have job : u.job ctx.val = s.job ctx.val := by
    rw [told.job]
    obtain ⟨_, _, _, _, same⟩ := read
    rw [same]
    rfl
  have porter : u.porter ctx.val = s.porter ctx.val :=
    (told.porter _).trans (congrArg (Tbl.get Porter.reset · ctx.val) stay)
  rw [State.stopAtCurfew_curfew (by rw [job, phase])] at hexec
  obtain ⟨stopped, -⟩ := State.stopNow_stopped (s := u) (c := ctx.val) (by rw [job, hclosing])
  obtain ⟨_, left⟩ := u.abandon_porter ctx.val
  have left : (u.stopNow ctx.val).porter ctx.val = _ := left
  rw [porter] at left
  exact ⟨_, hexec, stopped, by rw [left], by rw [left], by rw [left]⟩

end

/-! ### SNAPSHOT_FRAME_COPY (R518) -/

section
variable {s : State} {ctx : Fin 8} {f : Nat × Nat} {fs : List (Nat × Nat)} (hleft : (s.porter ctx.val).framesLeft = f :: fs)
  (hcopy : (s.porter ctx.val).copying = true)
include hleft hcopy

theorem exec_snapshotFrameCopy {pa : Nat} (hpa : s.translate ctx.val f.1 false = .ok pa) (clean : s.mem.errors = []) : ∃ parts,
    exec (.snapshotFrameCopy ctx) s = .next
      (({ s with mem := { s.mem with dirty := s.mem.dirty.filter fun d => d ≠ (pa / 65536, (s.porter ctx.val).target) } }.setPorter
        ctx.val ((s.porter ctx.val).copyFrame (s.frameImage f.1 (pa / 65536)) f.2)).sendParts ctx.val parts) := by
  have quiet : (s.demandWalks ctx.val f.1 1 1).demand (65536 * (pa / 65536)) 65536 = s := by
    have walked : s.demandWalks ctx.val f.1 1 1 = s := if_pos (.inl clean)
    rw [walked, State.demand_clean clean]
  change ∃ parts, execSnapshotFrameCopy ctx s = _
  unfold execSnapshotFrameCopy
  simp only [hleft, hcopy, hpa, quiet]
  exact ⟨_, rfl⟩

theorem exec_snapshotFrameCopy_fails {code : BitVec 16} (hpa : s.translate ctx.val f.1 false = .fail code) :
    exec (.snapshotFrameCopy ctx) s = .next ((s.setPorter ctx.val { s.porter ctx.val with copying := false, framesLeft := [] }).engineStop
      ctx.val kPorter 0 (s.job ctx.val).stepRef (.page code f.1)) := by
  show execSnapshotFrameCopy ctx s = _
  unfold execSnapshotFrameCopy
  simp only [hleft, hcopy, hpa]
  rfl

end

/-! ### SNAPSHOT_COMMIT and MIRROR_ACK (R518 to R520) -/

/-- A completed snapshot moves the recovery point, and beside the Porter changes the host interface alone. -/
theorem State.snapshotDone_keeps (s : State) (c : Nat) : (∃ extra, (s.snapshotDone c).porter c =
    { s.porter c with mirroring := false, recoveryStep := (s.porter c).dueStep, extra := extra }) ∧
    ∃ porters host, s.snapshotDone c = { s with porters := porters, host := host } := by
  unfold State.snapshotDone
  extract_lets p mine left s1
  have told : HostOnly s1 (mine.foldl (fun s x => s.complete x.1.val x.2.1 0 0 0 0) s1) :=
    List.foldlRecOn mine _ (motive := HostOnly s1) (HostOnly.refl s1) fun t ht x _ => ht.trans (t.complete_hostOnly _ _ _ _ _ _)
  refine ⟨⟨left, ?_⟩, ?_⟩
  · rw [told.porter]
    exact State.porter_setPorter_same _ _ _
  · obtain ⟨host, same⟩ := told
    exact ⟨_, host, same⟩

/-- The Porter whose slot has become valid and the newest, with its holders still to acknowledge. -/
def Porter.committed (p : Porter) (out : List (Nat × PorterMsg)) (holders : List Nat) : Porter :=
  { p with
    slots := p.slots.set p.target { p.slots.get Snap.empty p.target with valid := true }, copying := false, newestValid := true
    newestSlot := p.target == 1, mirroring := !holders.isEmpty, acksLeft := holders, out := out }

theorem exec_snapshotCommit {s : State} {ctx : Fin 8} (hcopy : (s.porter ctx.val).copying = true)
    (hleft : (s.porter ctx.val).framesLeft = []) : ∃ porters out, exec (.snapshotCommit ctx) s = .next
      (let t := { s with porters := porters }.setPorter ctx.val ((s.porter ctx.val).committed out (s.mirrorPorts ctx.val))
      if (s.mirrorPorts ctx.val).isEmpty then t.snapshotDone ctx.val else t) := by
  have goes : ¬(!(s.porter ctx.val).copying || !(s.porter ctx.val).framesLeft.isEmpty) = true := by
    rw [hcopy, hleft]
    decide
  have sent := (s.setPorter ctx.val (s.porter ctx.val)).sendParts_porter ctx.val
    [(s.porter ctx.val).part (.header true) 0 [] []]
  rw [State.porter_setPorter_same] at sent
  obtain ⟨out, sent⟩ := sent
  refine ⟨((s.setPorter ctx.val (s.porter ctx.val)).setPorter ctx.val { s.porter ctx.val with out := out }).porters, out, ?_⟩
  show execSnapshotCommit ctx s = _
  unfold execSnapshotCommit
  dsimp only
  rw [if_neg goes, sent, State.porter_setPorter_same]
  rfl

theorem exec_mirrorAck {s : State} {ctx port : Fin 8} (hmirror : (s.porter ctx.val).mirroring = true)
    (hport : port.val ∈ (s.porter ctx.val).acksLeft) : exec (.mirrorAck ctx port) s = .next
      (let left := (s.porter ctx.val).acksLeft.filter (· ≠ port.val)
      let t := s.setPorter ctx.val { s.porter ctx.val with acksLeft := left }
      if left.isEmpty then t.snapshotDone ctx.val else t) := by
  show execMirrorAck ctx port s = _
  unfold execMirrorAck
  simp only [hmirror, hport]
  rfl

/-! ### The steps of a snapshot -/

section
variable {s : State} {ctx : Fin 8}

/-- A capture puts the step, the scale table and the records into the slot that is not the newest. -/
theorem snapshotCapture_captures {rs fs : List (Nat × Nat)} {marked : List MByte} (hcap : (s.porter ctx.val).capturing = true)
    (hready : s.captureReady ctx.val = true) (hranges : s.ranges ctx.val = .ok rs)
    (hframes : s.rangeFrames ctx.val (frameVAs rs) = .ok fs)
    (htake : (s.vtake ctx.val (s.job ctx.val).cfg.scaleBase.toNat (128 * (s.job ctx.val).cfg.scaleEntries.toNat)).2 = .ok marked)
    (clean : s.mem.errors = []) : ∃ out, exec (.snapshotCapture ctx) s = .next ((s.setPorter ctx.val
      (s.capturedPorter ctx.val fs marked)).setPorter ctx.val { s.capturedPorter ctx.val fs marked with out := out }) := by
  obtain ⟨parts, hexec⟩ := exec_snapshotCapture hcap hready hranges hframes htake clean
  obtain ⟨out, sent⟩ := (s.setPorter ctx.val (s.capturedPorter ctx.val fs marked)).sendParts_porter ctx.val parts
  rw [State.porter_setPorter_same] at sent
  exact ⟨out, hexec.trans (congrArg _ sent)⟩

/-- A frame's copy clears its dirty bit of the slot. -/
theorem snapshotFrameCopy_copies {f : Nat × Nat} {fs : List (Nat × Nat)} {pa : Nat} (hleft : (s.porter ctx.val).framesLeft = f :: fs)
    (hcopy : (s.porter ctx.val).copying = true) (hpa : s.translate ctx.val f.1 false = .ok pa) (clean : s.mem.errors = []) :
    let p := s.porter ctx.val
    let u : State := { s with mem := { s.mem with dirty := s.mem.dirty.filter fun d => d ≠ (pa / 65536, p.target) } }
    let copied := p.copyFrame (s.frameImage f.1 (pa / 65536)) f.2
    ∃ out, exec (.snapshotFrameCopy ctx) s = .next ((u.setPorter ctx.val copied).setPorter ctx.val { copied with out := out }) := by
  intro p u copied
  obtain ⟨parts, hexec⟩ := exec_snapshotFrameCopy hleft hcopy hpa clean
  obtain ⟨out, sent⟩ := (u.setPorter ctx.val copied).sendParts_porter ctx.val parts
  rw [State.porter_setPorter_same] at sent
  exact ⟨out, hexec.trans (congrArg _ sent)⟩

/-- A copy whose frame the context no longer has ends, and the job is told to stop. -/
theorem snapshotFrameCopy_fails {f : Nat × Nat} {fs : List (Nat × Nat)} {code : BitVec 16}
    (hleft : (s.porter ctx.val).framesLeft = f :: fs) (hcopy : (s.porter ctx.val).copying = true)
    (hpa : s.translate ctx.val f.1 false = .fail code) :
    ∃ t, exec (.snapshotFrameCopy ctx) s = .next t ∧ (t.porter ctx.val).copying = false ∧ (t.porter ctx.val).framesLeft = [] ∧
      (t.porter ctx.val).recoveryStep = (s.porter ctx.val).recoveryStep ∧ ToldToStop ctx.val s t ∧ t.mem = s.mem := by
  have hexec := exec_snapshotFrameCopy_fails hleft hcopy hpa
  have own := s.porter_setPorter_same ctx.val { s.porter ctx.val with copying := false, framesLeft := [] }
  have told : ToldToStop ctx.val s _ := State.engineStop_told
    (s.setPorter ctx.val { s.porter ctx.val with copying := false, framesLeft := [] }) ctx.val kPorter 0 (s.job ctx.val).stepRef
    (.page code f.1)
  obtain ⟨-, -, -, -, mem, -⟩ := State.engineStop_work
    (s.setPorter ctx.val { s.porter ctx.val with copying := false, framesLeft := [] }) ctx.val kPorter 0 (s.job ctx.val).stepRef
    (.page code f.1)
  obtain ⟨point, copying, left⟩ := State.stopAtCurfew_porter
    ((s.setPorter ctx.val { s.porter ctx.val with copying := false, framesLeft := [] }).stopEvent ctx.val
      kPorter 0 (s.job ctx.val).stepRef (.page code f.1)) ctx.val
  rw [(State.stopEvent_hostOnly _ _ _ _ _ _).porter, own] at point copying left
  exact ⟨_, hexec, copying rfl, left rfl, point, told, mem⟩

/-- The commit makes the slot valid and the newest; with no holder to acknowledge, the recovery point moves. -/
theorem snapshotCommit_commits (hcopy : (s.porter ctx.val).copying = true) (hleft : (s.porter ctx.val).framesLeft = []) :
    let p := s.porter ctx.val
    ∃ t, exec (.snapshotCommit ctx) s = .next t ∧ (t.porter ctx.val).copying = false ∧ (t.porter ctx.val).newestValid = true ∧
      (t.porter ctx.val).newestSlot = (p.target == 1) ∧ ((t.porter ctx.val).slots.get Snap.empty p.target).valid = true ∧
      (t.porter ctx.val).recoveryStep = (if s.mirrorPorts ctx.val = [] then p.dueStep else p.recoveryStep) ∧
      (t.porter ctx.val).mirroring = !(s.mirrorPorts ctx.val).isEmpty ∧ t.mem = s.mem ∧ t.jobs = s.jobs ∧ t.tiles = s.tiles := by
  intro p
  obtain ⟨porters, out, hexec⟩ := exec_snapshotCommit hcopy hleft
  have slot := Tbl.get_set_same Snap.empty p.slots p.target { p.slots.get Snap.empty p.target with valid := true }
  refine ⟨_, hexec, ?_⟩
  dsimp only
  cases holders : s.mirrorPorts ctx.val with
  | nil =>
    obtain ⟨⟨_, done⟩, _, _, rest⟩ := State.snapshotDone_keeps
      ({ s with porters := porters }.setPorter ctx.val ((s.porter ctx.val).committed out [])) ctx.val
    rw [List.isEmpty_nil, if_pos rfl, done, State.porter_setPorter_same, rest]
    exact ⟨rfl, rfl, rfl, congrArg Snap.valid slot, rfl, rfl, rfl, rfl, rfl⟩
  | cons q qs =>
    rw [List.isEmpty_cons, if_neg Bool.false_ne_true, State.porter_setPorter_same]
    exact ⟨rfl, rfl, rfl, congrArg Snap.valid slot, rfl, rfl, rfl, rfl, rfl⟩

/-- With the last holder's acknowledgement the recovery point moves. -/
theorem mirrorAck_counts {port : Fin 8} (hmirror : (s.porter ctx.val).mirroring = true)
    (hport : port.val ∈ (s.porter ctx.val).acksLeft) :
    let p := s.porter ctx.val
    ∃ t, exec (.mirrorAck ctx port) s = .next t ∧ (t.porter ctx.val).acksLeft = p.acksLeft.filter (· ≠ port.val) ∧
      (t.porter ctx.val).recoveryStep = (if p.acksLeft.filter (· ≠ port.val) = [] then p.dueStep else p.recoveryStep) ∧
      t.mem = s.mem ∧ t.jobs = s.jobs ∧ t.tiles = s.tiles ∧ t.ports = s.ports := by
  refine ⟨_, exec_mirrorAck hmirror hport, ?_⟩
  dsimp only
  cases left : (s.porter ctx.val).acksLeft.filter (· ≠ port.val) with
  | nil =>
    obtain ⟨⟨_, done⟩, _, _, rest⟩ := State.snapshotDone_keeps
      (s.setPorter ctx.val { s.porter ctx.val with acksLeft := [] }) ctx.val
    rw [List.isEmpty_nil, if_pos rfl, done, State.porter_setPorter_same, rest]
    exact ⟨rfl, rfl, rfl, rfl, rfl, rfl⟩
  | cons q qs =>
    rw [List.isEmpty_cons, if_neg Bool.false_ne_true, State.porter_setPorter_same]
    exact ⟨rfl, rfl, rfl, rfl, rfl, rfl⟩

end

theorem snapshotsProceed : SnapshotsProceed := by
  refine ⟨fun s ring e he hcmd => ⟨fun h => ?_, fun h => ?_⟩, fun s ctx => ⟨?_, ?_, exec_snapshotCapture_waits, ?_, ?_, ?_, ?_⟩⟩
  · exact ⟨_, exec_snapshot_noted he hcmd h, rfl, State.porter_setPorter_same _ _ _, fun d hd => State.porter_setPorter_other _ _ hd⟩
  · exact ⟨_, exec_snapshot_stopped he hcmd h, _, _, _, rfl⟩
  · intro rs fs marked hcap hready hranges hframes htake clean
    obtain ⟨out, hexec⟩ := snapshotCapture_captures hcap hready hranges hframes htake clean
    have slot := Tbl.get_set_same Snap.empty (s.porter ctx.val).slots (s.porter ctx.val).target
    refine ⟨_, hexec, rfl, ?_⟩
    rw [State.porter_setPorter_same]
    refine ⟨rfl, rfl, rfl, rfl, congrArg Snap.step (slot _), congrArg Snap.scale (slot _), congrArg Snap.scalePoison (slot _),
      congrArg Snap.engine (slot _), congrArg Snap.tiles (slot _), congrArg Snap.valid (slot _),
      Tbl.get_set_other _ _ _ (Porter.other_target _), fun d hd => ?_⟩
    rw [State.porter_setPorter_other _ _ hd, State.porter_setPorter_other _ _ hd]
  · exact fun e hcap hready hranges hclosing => snapshotCapture_fails hcap hready hranges hclosing
  · intro f fs pa hleft hcopy hpa clean
    obtain ⟨out, hexec⟩ := snapshotFrameCopy_copies hleft hcopy hpa clean
    have slot := Tbl.get_set_same Snap.empty (s.porter ctx.val).slots (s.porter ctx.val).target
    refine ⟨_, hexec, rfl, rfl, rfl, ?_⟩
    rw [State.porter_setPorter_same]
    refine ⟨(congrArg Snap.blocks (slot _)).symm ▸ List.mem_append_right _ (List.mem_singleton.mpr rfl), ?_, rfl, fun d hd => ?_⟩
    · show (s.porter ctx.val).framesLeft.filter _ = _
      rw [hleft, List.filter_cons_of_neg (by simp)]
    · rw [State.porter_setPorter_other _ _ hd, State.porter_setPorter_other _ _ hd]
      rfl
  · exact fun f fs code hleft hcopy hpa => snapshotFrameCopy_fails hleft hcopy hpa
  · exact fun hcopy hleft => snapshotCommit_commits hcopy hleft
  · exact fun port hmirror hport => mirrorAck_counts hmirror hport

/-! ### MIRROR_PART_RECEIVE and MIRROR_SERVE (R519, R525) -/

/-- A part that comes from a D neighbour for the job goes into that neighbour's copy. -/
theorem exec_mirrorPartReceive {s : State} {port ctx : Fin 8} {part : Part} (hport : port.val ≤ 1)
    (hcarries : (s.port port.val).carries = true) (hpresent : (s.job ctx.val).present = true)
    (htag : (s.job ctx.val).cfg.tag = part.tag) : ∃ frames acks, exec (.mirrorPartReceive port ctx part) s =
      (let k := 2 * port.val + (if part.slot then 1 else 0)
      .next (s.setPorter ctx.val { s.porter ctx.val with
        mirrorFrames := frames
        mirrors := (s.porter ctx.val).mirrors.set k (((s.porter ctx.val).mirrors.get Snap.empty k).take part)
        out := (s.porter ctx.val).out ++ acks })) ∧
      (part.kind = .header true → acks = [(port.val, .ack part.step)]) ∧ ((∀ v, part.kind ≠ .header v) → acks = []) := by
  have takes : ¬(decide (1 < port.val) || !(s.port port.val).carries || !(s.job ctx.val).present ||
      (s.job ctx.val).cfg.tag != part.tag) = true := by
    simp [hcarries, hpresent, htag, Nat.not_lt.mpr hport]
  refine ⟨_, _, (if_neg takes : execMirrorPartReceive port ctx part s = _), fun h => ?_, fun h => ?_⟩
  · rw [h]
  · split
    · next hk => exact absurd hk (h true)
    · rfl

section
variable {s : State} {port ctx : Fin 8} {step : Word} (hport : port.val ≤ 1) (hcarries : (s.port port.val).carries = true)
include hport hcarries

theorem exec_mirrorServe_held {i : Nat} {t : Snap} (hpick : pickSnap (s.porter ctx.val).mirrors (2 * port.val) step = some (i, t)) :
    exec (.mirrorServe port ctx step) s = .next (s.setPorter ctx.val { s.porter ctx.val with
      out := (s.porter ctx.val).out ++ (t.parts (i == 1)).map fun x => (port.val, PorterMsg.part x) }) := by
  show execMirrorServe port ctx step s = _
  unfold execMirrorServe
  dsimp only
  rw [if_neg (by simp [hcarries, Nat.not_lt.mpr hport]), hpick]

theorem exec_mirrorServe_absent (hpick : pickSnap (s.porter ctx.val).mirrors (2 * port.val) step = none) :
    exec (.mirrorServe port ctx step) s = .next s := by
  show execMirrorServe port ctx step s = _
  unfold execMirrorServe
  dsimp only
  rw [if_neg (by simp [hcarries, Nat.not_lt.mpr hport]), hpick]

end

theorem mirrorsHoldAndServe : MirrorsHoldAndServe := by
  intro s port ctx c p hport hcarries
  refine ⟨fun part hpresent htag => ?_, fun step i snap hpick => ?_, fun step hpick => ?_⟩
  · obtain ⟨frames, acks, hexec, committed, other⟩ := exec_mirrorPartReceive hport hcarries hpresent htag
    refine ⟨_, hexec, rfl, ?_⟩
    rw [State.porter_setPorter_same]
    exact ⟨Tbl.get_set_same _ _ _ _, fun n hn => Tbl.get_set_other _ _ _ hn, rfl, rfl, fun h => by rw [committed h],
      fun h => by rw [other h, List.append_nil], fun d hd => State.porter_setPorter_other _ _ hd⟩
  · exact ⟨_, exec_mirrorServe_held hport hcarries hpick, rfl, State.porter_setPorter_same _ _ _, fun d hd => State.porter_setPorter_other _ _ hd⟩
  · exact exec_mirrorServe_absent hport hcarries hpick

end Sys2Proof.Machine

namespace Sys2Proof
open Sys2Proof.Machine Sys2Proof.Claims

/-- Settles O38: each instruction's equation shows the Porter after it, and a stop leaves the slots and the recovery point. -/
theorem snapshotsAndMirrors : Obligations.SnapshotsAndMirrors := ⟨snapshotsProceed, mirrorsHoldAndServe⟩

end Sys2Proof
end

section
/-! What a write of job memory depends on (R212 to R238, R518): the memory, the health records, the Porters and the page tables' roots; the
Courier, the ports, the rest of the jobs and the host interface change nothing of it. -/

namespace Sys2Proof.Machine
open Sys2Proof.Claims

/-- The second state differs from the first in the Courier, the ports, the host interface and the jobs but for their contexts' records. -/
def Beside (u t : State) : Prop :=
  (∃ courier ports jobs host, t = { u with courier := courier, ports := ports, jobs := jobs, host := host }) ∧
    ∀ d, (t.job d).cfg = (u.job d).cfg

theorem Beside.refl (s : State) : Beside s s := ⟨⟨_, _, _, _, rfl⟩, fun _ => rfl⟩

theorem Beside.trans {s t u : State} (h : Beside s t) (k : Beside t u) : Beside s u := by
  obtain ⟨⟨_, _, _, _, rfl⟩, cfg⟩ := h
  obtain ⟨⟨_, _, _, _, rfl⟩, cfg'⟩ := k
  exact ⟨⟨_, _, _, _, rfl⟩, fun d => (cfg' d).trans (cfg d)⟩

theorem Beside.hostOnly {u t u' t' : State} (h : Beside u t) (ku : HostOnly u u') (kt : HostOnly t t') : Beside u' t' := by
  obtain ⟨⟨_, _, _, _, rfl⟩, cfg⟩ := h
  obtain ⟨_, rfl⟩ := ku
  obtain ⟨_, rfl⟩ := kt
  exact ⟨⟨_, _, _, _, rfl⟩, cfg⟩

theorem Beside.ite {p q : Prop} [Decidable p] [Decidable q] {u u' t t' : State} (hpq : p ↔ q) (h : Beside u t) (k : Beside u' t') :
    Beside (if p then u else u') (if q then t else t') := by
  by_cases hp : p
  · rwa [if_pos hp, if_pos (hpq.mp hp)]
  · rwa [if_neg hp, if_neg fun hq => hp (hpq.mpr hq)]

theorem Beside.foldl {α : Type} {f : State → α → State} (hf : ∀ u t a, Beside u t → Beside (f u a) (f t a)) (l : List α) {u t : State}
    (h : Beside u t) : Beside (l.foldl f u) (l.foldl f t) := by
  induction l generalizing u t with
  | nil => exact h
  | cons a l ih => exact ih (hf u t a h)

theorem Beside.mem {u t : State} (h : Beside u t) : t.mem = u.mem := by
  obtain ⟨⟨_, _, _, _, rfl⟩, -⟩ := h
  rfl

/-! ### Reads -/

section
variable {u t : State} (h : Beside u t)
include h

theorem Beside.setStack (m : Nat) (x : Stack) : Beside (u.setStack m x) (t.setStack m x) := by
  obtain ⟨⟨_, _, _, _, rfl⟩, cfg⟩ := h
  exact ⟨⟨_, _, _, _, rfl⟩, cfg⟩

theorem Beside.setPorter (c : Nat) (x : Porter) : Beside (u.setPorter c x) (t.setPorter c x) := by
  obtain ⟨⟨_, _, _, _, rfl⟩, cfg⟩ := h
  exact ⟨⟨_, _, _, _, rfl⟩, cfg⟩

theorem Beside.setMem (m : Memory) : Beside { u with mem := m } { t with mem := m } := by
  obtain ⟨⟨_, _, _, _, rfl⟩, cfg⟩ := h
  exact ⟨⟨_, _, _, _, rfl⟩, cfg⟩

theorem Beside.mapMem (f : Memory → Memory) : Beside { u with mem := f u.mem } { t with mem := f t.mem } := by
  rw [h.mem]
  exact h.setMem _

theorem Beside.bankOver (m b : Nat) : Beside (u.bankOver m b) (t.bankOver m b) := by
  obtain ⟨⟨_, _, _, _, rfl⟩, cfg⟩ := h
  exact ⟨⟨_, _, _, _, rfl⟩, cfg⟩

theorem Beside.storeLine (line : Nat) (l : List Byte) : Beside (u.storeLine line l) (t.storeLine line l) := by
  obtain ⟨⟨_, _, _, _, rfl⟩, cfg⟩ := h
  exact ⟨⟨_, _, _, _, rfl⟩, cfg⟩

theorem Beside.event (code : BitVec 16) (kind : BitVec 4) (ctx src a b : Nat) :
    Beside (u.event code kind ctx src a b) (t.event code kind ctx src a b) :=
  h.hostOnly (u.event_hostOnly _ _ _ _ _ _) (t.event_hostOnly _ _ _ _ _ _)

theorem Beside.owns (c frame : Nat) : t.owns c frame = u.owns c frame := by
  obtain ⟨⟨_, _, _, _, rfl⟩, -⟩ := h
  rfl

theorem Beside.tick : t.tick = u.tick := by
  obtain ⟨⟨_, _, _, _, rfl⟩, -⟩ := h
  rfl

theorem Beside.stack (m : Nat) : t.stack m = u.stack m := by
  rw [State.stack, h.mem, State.stack]

theorem Beside.countCorrected (pa : Nat) : Beside (u.countCorrected pa) (t.countCorrected pa) := by
  unfold State.countCorrected
  dsimp only
  rw [h.tick, h.stack]
  exact .ite Iff.rfl (((h.setStack _ _).event _ _ _ _ _ _).bankOver _ _) (h.setStack _ _)

theorem Beside.countUncorrectable (line : Nat) : Beside (u.countUncorrectable line) (t.countUncorrectable line) := by
  have owner : t.ownerField (line / 1024) = u.ownerField (line / 1024) := by
    obtain ⟨⟨_, _, _, _, rfl⟩, -⟩ := h
    rfl
  unfold State.countUncorrectable
  dsimp only
  rw [owner, h.stack]
  exact (h.setStack _ _).event _ _ _ _ _ _

theorem Beside.applyInjection (line : Nat) : Beside (u.applyInjection line) (t.applyInjection line) := by
  unfold State.applyInjection
  rw [h.mem]
  exact .ite Iff.rfl (.ite Iff.rfl (h.setMem _) (.ite Iff.rfl (h.setMem _) (h.setMem _))) h

theorem Beside.lineData (line : Nat) : t.lineData line = u.lineData line := by
  obtain ⟨⟨_, _, _, _, rfl⟩, -⟩ := h
  rfl

theorem Beside.linePoison (line : Nat) : t.linePoison line = u.linePoison line := by
  rw [State.linePoison, h.mem, State.linePoison]

theorem Beside.readLine (line : Nat) : Beside (u.readLine line).1 (t.readLine line).1 := by
  unfold State.readLine
  rw [h.mem, h.lineData, h.linePoison]
  extract_lets errs mark poisoned d0 d1 bad keep data written left t1 t2 tK tmK t3 t4 u1 u2 uK umK u3 u4
  by_cases clean : errs = []
  · rwa [if_pos clean, if_pos clean]
  · rw [if_neg clean, if_neg clean]
    have first : Beside t1 u1 := .ite Iff.rfl (h.countCorrected _) h
    have second : Beside t2 u2 := .ite Iff.rfl (first.countCorrected _) first
    have kept : Beside tK uK := .ite Iff.rfl second (second.storeLine _ _)
    have marked : Beside t3 u3 := kept.mapMem fun m => { m with
      errors := if left = 0 then m.errors.drop line else m.errors.set line [(72, left)]
      poison := setMember m.poison line (poisoned || bad) }
    have taken : Beside t4 u4 := .ite Iff.rfl (marked.applyInjection _) marked
    exact .ite Iff.rfl (taken.countUncorrectable _) taken

theorem Beside.demand (pa n : Nat) : Beside (u.demand pa n) (t.demand pa n) := by
  unfold State.demand
  rw [h.mem]
  exact Beside.foldl (f := fun (s : State) (e : Nat × List (Nat × Byte)) => (s.readLine e.1).1) (fun _ _ e hs => hs.readLine e.1) _ h

theorem Beside.seen (pa n : Nat) : Beside (u.seen pa n) (t.seen pa n) := by
  unfold State.seen
  rw [h.mem]
  exact .ite Iff.rfl h (h.demand pa n)

theorem Beside.rangePoison (pa n : Nat) : t.rangePoison pa n = u.rangePoison pa n := by
  rw [State.rangePoison, (h.seen pa n).mem, State.rangePoison]

theorem Beside.bytes (pa n : Nat) : t.bytes pa n = u.bytes pa n := by
  rw [State.bytes, (h.seen pa n).mem, State.bytes]

/-! ### Translation (R229 to R232) -/

theorem Beside.walkFrom (c va : Nat) (write : Bool) (table level n : Nat) :
    t.walkFrom c va write table level n = u.walkFrom c va write table level n := by
  induction n generalizing table level with
  | zero => rfl
  | succ n ih => simp only [State.walkFrom, h.rangePoison, h.bytes, h.owns, ih]

theorem Beside.translate (c : Nat) (va : Int) (write : Bool) : t.translate c va write = u.translate c va write := by
  simp only [State.translate, h.2 c, h.owns, h.walkFrom]

theorem Beside.translateRange (c va n : Nat) (write : Bool) (k : Nat) (acc : List (Nat × Nat)) :
    t.translateRange c va n write k acc = u.translateRange c va n write k acc := by
  induction k generalizing va n acc with
  | zero => rfl
  | succ k ih => simp only [State.translateRange, h.translate, ih]

theorem Beside.pages (c va n : Nat) (write : Bool) : t.pages c va n write = u.pages c va n write := h.translateRange c va n write _ _

end

theorem Beside.demandFrom {u t : State} (h : Beside u t) (c va table level n : Nat) :
    Beside (u.demandFrom c va table level n) (t.demandFrom c va table level n) := by
  induction n generalizing u t table level with
  | zero => exact h
  | succ n ih =>
    have read := h.demand (table + 8 * vaIndex va level) 8
    unfold State.demandFrom
    dsimp only
    rw [read.bytes, read.rangePoison, read.owns]
    exact .ite Iff.rfl (ih read _ _) read

theorem Beside.demandWalks {u t : State} (h : Beside u t) (c va n k : Nat) : Beside (u.demandWalks c va n k) (t.demandWalks c va n k) := by
  induction k generalizing u t va n with
  | zero => exact h
  | succ k ih =>
    unfold State.demandWalks
    dsimp only
    rw [h.mem, h.2 c, h.owns]
    exact .ite Iff.rfl h (ih (h.demandFrom _ _ _ _ _) _ _)

/-! ### Writes (R216, R217, R518) -/

theorem Beside.porter {u t : State} (h : Beside u t) (c : Nat) : t.porter c = u.porter c := by
  obtain ⟨⟨_, _, _, _, rfl⟩, -⟩ := h
  rfl

theorem Beside.copyBefore {u t : State} (h : Beside u t) (frame : Nat) : Beside (u.copyBefore frame) (t.copyBefore frame) := by
  refine Beside.foldl (fun u t c h => ?_) _ h
  dsimp only
  rw [h.porter, h.owns]
  split
  · have read := h.demand (frame * 65536) 65536
    rw [State.frameImage, State.frameImage, read.mem]
    exact .ite Iff.rfl (read.setPorter _ _) h
  · exact h

theorem Beside.markDirty {u t : State} (h : Beside u t) (frame : Nat) : Beside (u.markDirty frame) (t.markDirty frame) := by
  unfold State.markDirty
  rw [h.mem]
  exact .ite Iff.rfl h (h.setMem _)

theorem Beside.putLine {u t : State} (h : Beside u t) (line : Nat) (whole : Bool) (merge : List Byte → List Byte) (poison : Bool) :
    Beside (u.putLine line whole merge poison) (t.putLine line whole merge poison) := by
  have dirty := (h.copyBefore (line / 1024)).markDirty (line / 1024)
  have read : Beside (if whole then _ else _) (if whole then _ else _) := .ite (Iff.refl (whole = true)) dirty (dirty.readLine line)
  unfold State.putLine
  dsimp only
  rw [read.lineData, read.linePoison, read.mem]
  exact (read.setMem _).applyInjection line

theorem Beside.commitMem {u t : State} (h : Beside u t) (l : List ByteWrite) : Beside (u.commitMem l) (t.commitMem l) :=
  Beside.foldl (f := fun (s : State) (e : Nat × List ByteWrite) =>
    s.putLine e.1 (wholeLine e.2) (fun old => mergeBytes old e.2) (e.2.any (·.poison))) (fun _ _ _ hs => hs.putLine _ _ _ _) _ h

/-- A write of job memory goes the same way, and ends the same way. -/
theorem Beside.vput {u t : State} (h : Beside u t) (c va : Nat) (l : List MByte) :
    Beside (u.vput c va l).1 (t.vput c va l).1 ∧ (t.vput c va l).2 = (u.vput c va l).2 := by
  have walked := h.demandWalks c va l.length (l.length / 65536 + 2)
  unfold State.vput
  dsimp only
  rw [h.pages]
  split
  · exact ⟨walked.commitMem _, rfl⟩
  · exact ⟨walked.commitMem _, rfl⟩
  · exact ⟨walked.commitMem _, rfl⟩

end Sys2Proof.Machine
end

section
/-! What the Courier's work on a received flit leaves (R360, R363, R404): the tiles, what the ports have received and its counts of it, and
every flit that a port is still to send. -/

namespace Sys2Proof.Machine
open Sys2Proof.Claims

/-- From the first state to the second the tiles stay and nothing is received; a port is to send what it was to send, and more at most. -/
def SendsOn (s t : State) : Prop :=
  t.tiles = s.tiles ∧ t.courier.rx = s.courier.rx ∧
    ∀ q, (t.port q).rx = (s.port q).rx ∧ ∀ x ∈ (s.port q).class1, x ∈ (t.port q).class1

theorem SendsOn.of_same {s t : State} (tiles : t.tiles = s.tiles) (rx : t.courier.rx = s.courier.rx) (ports : t.ports = s.ports) :
    SendsOn s t := by
  refine ⟨tiles, rx, fun q => ?_⟩
  rw [State.port, ports]
  exact ⟨rfl, fun _ => id⟩

theorem SendsOn.refl (s : State) : SendsOn s s := .of_same rfl rfl rfl

theorem SendsOn.trans {s t u : State} (h : SendsOn s t) (k : SendsOn t u) : SendsOn s u := by
  obtain ⟨tiles, rx, ports⟩ := h
  obtain ⟨tiles', rx', ports'⟩ := k
  exact ⟨tiles'.trans tiles, rx'.trans rx, fun q => ⟨(ports' q).1.trans (ports q).1, fun x hx => (ports' q).2 x ((ports q).2 x hx)⟩⟩

theorem SendsOn.ite {s t u : State} {p : Prop} [Decidable p] (h : SendsOn s t) (k : SendsOn s u) : SendsOn s (if p then t else u) := by
  split
  · exact h
  · exact k

theorem SendsOn.foldl {α : Type} {f : State → α → State} (h : ∀ s a, SendsOn s (f s a)) (l : List α) (s : State) :
    SendsOn s (l.foldl f s) :=
  List.foldlRecOn l f (motive := SendsOn s) (SendsOn.refl s) fun t ht a _ => ht.trans (h t a)

theorem MemoryOnly.sendsOn {s t : State} (h : MemoryOnly s t) : SendsOn s t := by
  obtain ⟨_, _, _, _, rfl⟩ := h
  exact SendsOn.refl s

theorem MemoryOnly.sendsOn_of_eq {α : Type} {s s1 : State} {p : State × α} {r : α} (h : MemoryOnly s p.1) (hp : p = (s1, r)) :
    SendsOn s s1 := (h.of_eq hp).sendsOn

/-! ### Flits and segments (R363, R405) -/

theorem State.flitOut_sendsOn (s : State) (p : Nat) (class1 : Bool) (f : TxFlit) : SendsOn s (s.flitOut p class1 f) := by
  refine ⟨rfl, rfl, fun q => ?_⟩
  rw [State.flitOut, State.port_setPort]
  split
  · next hq =>
    subst hq
    split
    · exact ⟨rfl, fun x hx => List.mem_append_left _ hx⟩
    · exact ⟨rfl, fun _ => id⟩
  · exact ⟨rfl, fun _ => id⟩

theorem State.flitOut_mem_class1 (s : State) (p : Nat) (f : TxFlit) : f ∈ ((s.flitOut p true f).port p).class1 := by
  rw [State.flitOut, State.port_setPort_same]
  exact List.mem_append_right _ (List.mem_singleton.mpr rfl)

theorem State.openStream_sendsOn (s : State) (p n : Nat) (tag : BitVec 16) (origin final offset count : Nat) :
    SendsOn s (s.openStream p n tag origin final offset count) := s.flitOut_sendsOn p false _

theorem State.emitSegment_sendsOn (s : State) (h : HeldSegment) (n : Nat) : SendsOn s (s.emitSegment h n) :=
  (s.openStream_sendsOn h.port n h.tag h.origin h.final h.offset _).trans
    (SendsOn.foldl (f := fun (s : State) f => s.flitOut h.port true f) (fun t f => t.flitOut_sendsOn h.port true f) _ _)

theorem State.sendSegment_sendsOn (s : State) (h : HeldSegment) : SendsOn s (s.sendSegment h) := by
  unfold State.sendSegment
  split
  · exact s.emitSegment_sendsOn h _
  · exact .of_same rfl rfl rfl

theorem State.sendTo_sendsOn (s : State) (g : Group) (tag : BitVec 16) (seg target pos off es : Nat) (l : List MByte) :
    SendsOn s (s.sendTo g tag seg target pos off es l) := by
  refine SendsOn.foldl (fun t x => ?_) _ s
  split
  · exact t.sendSegment_sendsOn _
  · exact SendsOn.refl t

theorem State.sendAll_sendsOn (s : State) (g : Group) (tag : BitVec 16) (seg pos off es : Nat) (l : List MByte) :
    SendsOn s (s.sendAll g tag seg pos off es l) := by
  refine SendsOn.foldl (fun t x => ?_) _ s
  exact SendsOn.foldl (f := fun (t : State) (d : Nat × Nat) => t.sendSegment ⟨d.1, tag, g.me, d.2, x.2.1, es, x.2.2⟩)
    (fun u d => u.sendSegment_sendsOn _) _ t

theorem State.ctrlTo_sendsOn (s : State) (g : Group) (target kind : Nat) (payload : List Byte) :
    SendsOn s (s.ctrlTo g target kind payload) := by
  unfold State.ctrlTo
  split
  · exact s.flitOut_sendsOn _ _ _
  · exact SendsOn.refl s

/-! ### Commands and their bytes (R396, R419) -/

theorem State.mapCmd_sendsOn (s : State) (c : Nat) (tag : BitVec 16) (f : CCmd → CCmd) : SendsOn s (s.mapCmd c tag f) :=
  .of_same rfl rfl rfl

theorem State.noteJob_sendsOn (s : State) (c : Nat) (b : Bool) : SendsOn s (s.noteJob c b) := .ite (.of_same rfl rfl rfl) (SendsOn.refl s)

theorem State.noteBucket_sendsOn (s : State) (c : Nat) (action : Option Nat) (b : Bool) : SendsOn s (s.noteBucket c action b) :=
  .ite (.of_same rfl rfl rfl) (SendsOn.refl s)

theorem State.commitMem_memoryOnly (s : State) (l : List ByteWrite) : MemoryOnly s (s.commitMem l) :=
  MemoryOnly.foldl (f := fun (s : State) (e : Nat × List ByteWrite) =>
    s.putLine e.1 (wholeLine e.2) (fun old => mergeBytes old e.2) (e.2.any (·.poison))) (fun t _ => t.putLine_memoryOnly _ _ _ _) _ s

theorem State.vput_memoryOnly (s : State) (c va : Nat) (l : List MByte) : MemoryOnly s (s.vput c va l).1 := by
  have walked := s.demandWalks_memoryOnly c va l.length (l.length / 65536 + 2)
  unfold State.vput
  dsimp only
  split
  · exact walked.trans (State.commitMem_memoryOnly _ _)
  · exact walked.trans (State.commitMem_memoryOnly _ _)
  · exact walked.trans (State.commitMem_memoryOnly _ _)

theorem State.vtake_memoryOnly (s : State) (c va n : Nat) : MemoryOnly s (s.vtake c va n).1 := by
  rw [State.vtake_fst]
  exact s.vdemand_memoryOnly c va n

/-- Clearing the poison of lines written whole changes which lines are poisoned alone. -/
theorem State.cleanLines_poison (s : State) (c va n : Nat) (clean : List (Nat × Nat)) : ∃ poison,
    s.cleanLines c va n clean = { s with mem := { s.mem with poison := poison } } := by
  unfold State.cleanLines
  split
  · exact ⟨_, rfl⟩
  · refine List.foldlRecOn _ _ (motive := fun t : State => ∃ poison, t = { s with mem := { s.mem with poison := poison } }) ⟨_, rfl⟩
      fun t ht l _ => ?_
    obtain ⟨_, rfl⟩ := ht
    split
    · exact ⟨_, rfl⟩
    · exact ⟨_, rfl⟩

theorem State.cleanLines_sendsOn (s : State) (c va n : Nat) (clean : List (Nat × Nat)) : SendsOn s (s.cleanLines c va n clean) := by
  obtain ⟨_, cleaned⟩ := s.cleanLines_poison c va n clean
  rw [cleaned]
  exact .of_same rfl rfl rfl

theorem State.cmdFail_sendsOn (s : State) (k : CCmd) (e : Stop) : SendsOn s (s.cmdFail k e) :=
  (s.stopEvent_hostOnly k.ctx.val kCourier 0 (s.srcRef k.src k.index) e).memoryOnly.sendsOn.trans (.of_same rfl rfl rfl)

theorem State.cmdPut_sendsOn (s : State) (k : CCmd) (va : Nat) (l : List MByte) (counts : Bool) :
    SendsOn s (s.cmdPut k va l counts) := by
  have noted := s.noteJob_sendsOn k.ctx.val (l.any (·.nonfinite))
  have put := (s.noteJob k.ctx.val (l.any (·.nonfinite))).vput_memoryOnly k.ctx.val va l
  unfold State.cmdPut
  dsimp only
  split
  · next h =>
    exact ((noted.trans (put.sendsOn_of_eq h)).trans (State.noteBucket_sendsOn _ _ _ _)).trans (State.cmdFail_sendsOn _ _ _)
  · next h =>
    exact (((noted.trans (put.sendsOn_of_eq h)).trans (State.cleanLines_sendsOn _ _ _ _ _)).trans
      (State.noteBucket_sendsOn _ _ _ _)).trans (State.mapCmd_sendsOn _ _ _ _)

theorem State.onCmd_sendsOn (s : State) (c : Nat) (tag : BitVec 16) {f : CCmd → State → State} (h : ∀ k, SendsOn s (f k s)) :
    SendsOn s (s.onCmd c tag f) := by
  unfold State.onCmd
  split
  · exact .ite (h _) (SendsOn.refl s)
  · exact SendsOn.refl s

theorem State.cmdRead_sendsOn (s : State) (k : CCmd) (va n : Nat) {f : List MByte → State → State} (h : ∀ l t, SendsOn t (f l t)) :
    SendsOn s (s.cmdRead k va n f) := by
  have read := s.vtake_memoryOnly k.ctx.val va n
  unfold State.cmdRead
  split
  · next ht => exact (read.sendsOn_of_eq ht).trans (State.cmdFail_sendsOn _ _ _)
  · next ht => exact ((read.sendsOn_of_eq ht).trans (.ite (State.mapCmd_sendsOn _ _ _ _) (SendsOn.refl _))).trans (h _ _)

/-! ### Folding (R400, R401) -/

theorem State.grantNext_sendsOn (s : State) (c : Nat) (tag : BitVec 16) : SendsOn s (s.grantNext c tag) :=
  s.onCmd_sendsOn c tag fun k => .ite (SendsOn.refl s) ((State.mapCmd_sendsOn _ _ _ _).trans
    (SendsOn.foldl (f := fun (t : State) i => t.ctrlTo (k.group s) i 2 (grantPayload tag (k.group s).me i _))
      (fun t _ => t.ctrlTo_sendsOn _ _ _ _) _ _))

theorem State.grantAll_sendsOn (s : State) : SendsOn s s.grantAll :=
  SendsOn.foldl (f := fun (t : State) (x : Nat × BitVec 16) => t.grantNext x.1 x.2) (fun t x => t.grantNext_sendsOn x.1 x.2) _ s

theorem State.cmdFold_sendsOn (s : State) (k : CCmd) : SendsOn s (s.cmdFold k) :=
  .ite (SendsOn.refl s) (((s.cmdPut_sendsOn _ _ _ _).trans (State.onCmd_sendsOn _ _ _ fun _ =>
    .ite ((State.sendAll_sendsOn _ _ _ _ _ _ _ _).trans (State.mapCmd_sendsOn _ _ _ _)) (SendsOn.refl _))).trans (State.grantAll_sendsOn _))

theorem State.foldOut_sendsOn (s : State) (k : CCmd) (n : Nat) : SendsOn s (s.foldOut k n) := by
  induction n generalizing s k with
  | zero => exact SendsOn.refl s
  | succ n ih =>
    have first := s.cmdFold_sendsOn k
    unfold State.foldOut
    dsimp only
    split
    · exact .ite (first.trans (ih _ _)) first
    · exact first

/-! ### The rounds of a PERMUTE (R413) -/

theorem State.roundSend_sendsOn (s : State) (k : CCmd) (r : List Move) : SendsOn s (s.roundSend k r) := by
  refine SendsOn.foldl (fun t i => t.onCmd_sendsOn _ _ fun q => ?_) _ s
  split
  · exact SendsOn.refl t
  · exact .ite (SendsOn.refl t) (t.cmdRead_sendsOn _ _ _ fun l u => .ite (u.cmdPut_sendsOn _ _ _ _)
      ((u.sendTo_sendsOn _ _ _ _ _ _ _ _).trans (State.mapCmd_sendsOn _ _ _ _)))

theorem State.roundCopy_sendsOn (s : State) (k : CCmd) (r : List Move) : SendsOn s (s.roundCopy k r) := by
  refine SendsOn.foldl (fun t i => t.onCmd_sendsOn _ _ fun q => ?_) _ s
  split
  · exact SendsOn.refl t
  · exact .ite (SendsOn.refl t) (t.cmdRead_sendsOn _ _ _ fun l u => u.cmdPut_sendsOn _ _ _ _)

theorem State.permuteOn_sendsOn (s : State) (c : Nat) (tag : BitVec 16) (n : Nat) : SendsOn s (s.permuteOn c tag n) := by
  induction n generalizing s with
  | zero => exact SendsOn.refl s
  | succ n ih =>
    refine s.onCmd_sendsOn c tag fun k => ?_
    dsimp only
    split
    · exact SendsOn.refl s
    · refine .ite (SendsOn.refl s) ?_
      have told (g : Nat → TxFlit) (f : CCmd → CCmd) : SendsOn s (if k.ownDone then s
          else ((s.checkPorts c k.f).foldl (fun (s : State) p => s.flitOut p false (g p)) s).mapCmd c tag f) :=
        .ite (SendsOn.refl s) ((SendsOn.foldl (f := fun (s : State) p => s.flitOut p false (g p))
          (fun t p => t.flitOut_sendsOn _ _ _) _ s).trans (State.mapCmd_sendsOn _ _ _ _))
      refine .ite ?_ (told _ _)
      refine SendsOn.trans ?_ (ih _)
      split
      · refine SendsOn.trans ?_ (State.onCmd_sendsOn _ _ _ fun q => State.roundSend_sendsOn _ _ _)
        exact ((told _ _).trans (State.onCmd_sendsOn _ _ _ fun q => State.roundCopy_sendsOn _ _ _)).trans (State.mapCmd_sendsOn _ _ _ _)
      · exact ((told _ _).trans (State.onCmd_sendsOn _ _ _ fun q => State.roundCopy_sendsOn _ _ _)).trans (State.mapCmd_sendsOn _ _ _ _)

/-! ### A flit's bytes (R396, R401, R413) -/

theorem State.acceptBytes_sendsOn (s : State) (k : CCmd) (st : Stream) (l : List MByte) : SendsOn s (s.acceptBytes k st l) := by
  unfold State.acceptBytes
  extract_lets f c g pos
  refine .ite (s.cmdPut_sendsOn _ _ _ _) (.ite (SendsOn.refl s) ?_)
  split
  · exact ((s.noteJob_sendsOn _ _).trans (State.mapCmd_sendsOn _ _ _ _)).trans (State.foldOut_sendsOn _ _ _)
  · exact ((s.noteJob_sendsOn _ _).trans (State.mapCmd_sendsOn _ _ _ _)).trans (State.foldOut_sendsOn _ _ _)
  · exact s.cmdPut_sendsOn _ _ _ _
  · exact (s.cmdPut_sendsOn _ _ _ _).trans (State.permuteOn_sendsOn _ _ _ _)
  · exact SendsOn.refl s

end Sys2Proof.Machine
end

section
/-! A received DATA flit (R305, R360, R364, R400 to R404, R415): it is counted, passed on by the streams of its segment, and goes to what
its TAG names. -/

namespace Sys2Proof.Machine
open Sys2Proof.Claims

/-! ### The flit taken and passed on (R360, R362, R404) -/

/-- A flit passed on by the streams of its segment; `fl` is the flit under a stream number. -/
def State.passFlit (s : State) (relays : List (Nat × Nat)) (fl : Nat → TxFlit) (n : Nat) : State :=
  relays.foldl (fun s d =>
    let s2 := s.flitOut d.1 true (fl d.2)
    { s2 with courier := { s2.courier with tx := addCount s2.courier.tx d.1 n } }) s

/-- The state once a DATA flit of stream `key` has been taken from its port and passed on. -/
def State.dataTaken (s : State) (p key : Nat) (st : Stream) (last : Bool) (t : TxFlit) (fl : Nat → TxFlit) : State :=
  let co := s.courier
  State.passFlit { s.setPort p ((s.port p).takeFlit t) with courier := { co with
    rx := addCount co.rx p t.payload.length
    through := if st.relays = [] then co.through else addCount co.through p t.payload.length
    streams := if last then co.streams.drop key else co.streams.set key { st with nextIndex := st.nextIndex + 1 } } }
    st.relays fl t.payload.length

theorem State.passFlit_sendsOn (s : State) (relays : List (Nat × Nat)) (fl : Nat → TxFlit) (n : Nat) :
    SendsOn s (s.passFlit relays fl n) := by
  refine SendsOn.foldl (fun t d => ?_) relays s
  exact (t.flitOut_sendsOn d.1 true (fl d.2)).trans (.of_same rfl rfl rfl)

/-- Every stream that the flit is relayed by has it to send. -/
theorem State.passFlit_class1 (s : State) (fl : Nat → TxFlit) (n : Nat) {relays : List (Nat × Nat)} {d : Nat × Nat} (hd : d ∈ relays) :
    fl d.2 ∈ ((s.passFlit relays fl n).port d.1).class1 := by
  induction relays generalizing s with
  | nil => cases hd
  | cons e es ih =>
    rcases List.mem_cons.mp hd with rfl | later
    · obtain ⟨-, -, ports⟩ := State.passFlit_sendsOn { s.flitOut d.1 true (fl d.2) with courier :=
        { (s.flitOut d.1 true (fl d.2)).courier with tx := addCount (s.flitOut d.1 true (fl d.2)).courier.tx d.1 n } } es fl n
      exact (ports d.1).2 _ (s.flitOut_mem_class1 d.1 (fl d.2))
    · exact ih _ later

/-- Passing a flit on changes the Courier's counts and the ports alone. -/
theorem State.passFlit_eq (s : State) (relays : List (Nat × Nat)) (fl : Nat → TxFlit) (n : Nat) : ∃ courier ports,
    s.passFlit relays fl n = { s with courier := courier, ports := ports } ∧ courier.cmds = s.courier.cmds := by
  refine List.foldlRecOn relays _ (motive := fun t : State => ∃ courier ports, t = { s with courier := courier, ports := ports } ∧
    courier.cmds = s.courier.cmds) ⟨_, _, rfl, rfl⟩ fun t ht d _ => ?_
  obtain ⟨_, _, rfl, cmds⟩ := ht
  exact ⟨_, _, rfl, cmds⟩

theorem State.dataTaken_eq (s : State) (p key : Nat) (st : Stream) (last : Bool) (t : TxFlit) (fl : Nat → TxFlit) :
    ∃ courier ports, s.dataTaken p key st last t fl = { s with courier := courier, ports := ports } ∧
      courier.cmds = s.courier.cmds := by
  unfold State.dataTaken
  extract_lets co
  generalize hu : ({ s.setPort p ((s.port p).takeFlit t) with courier := _ } : State) = u
  obtain ⟨courier, ports, passed, cmds⟩ := u.passFlit_eq st.relays fl t.payload.length
  subst hu
  exact ⟨courier, ports, passed, cmds⟩

/-- The flit is counted, gone from the receive buffer, and on every stream that its segment is relayed by. -/
theorem State.dataTaken_keeps (s : State) (p key : Nat) (st : Stream) (last : Bool) (t : TxFlit) (fl : Nat → TxFlit) :
    (s.dataTaken p key st last t fl).courier.rx.get 0 p = s.courier.rx.get 0 p + BitVec.ofNat 64 t.payload.length ∧
      ((s.dataTaken p key st last t fl).port p).rx = ((s.port p).takeFlit t).rx ∧
      ∀ d ∈ st.relays, fl d.2 ∈ ((s.dataTaken p key st last t fl).port d.1).class1 := by
  unfold State.dataTaken
  extract_lets co
  obtain ⟨-, rx, ports⟩ := State.passFlit_sendsOn { s.setPort p ((s.port p).takeFlit t) with courier := { co with
    rx := addCount co.rx p t.payload.length
    through := if st.relays = [] then co.through else addCount co.through p t.payload.length
    streams := if last then co.streams.drop key else co.streams.set key { st with nextIndex := st.nextIndex + 1 } } }
    st.relays fl t.payload.length
  refine ⟨?_, (ports p).1.trans ?_, fun d hd => State.passFlit_class1 _ _ _ hd⟩
  · rw [rx]
    exact Tbl.get_set_same _ _ _ _
  · exact congrArg Port.rx (State.port_setPort_same _ _ _)

/-- What a write of job memory depends on stands. -/
theorem State.dataTaken_beside (s : State) (p key : Nat) (st : Stream) (last : Bool) (t : TxFlit) (fl : Nat → TxFlit) :
    Beside s (s.dataTaken p key st last t fl) := by
  obtain ⟨_, _, taken, -⟩ := s.dataTaken_eq p key st last t fl
  rw [taken]
  exact ⟨⟨_, _, _, _, rfl⟩, fun _ => rfl⟩

/-! ### What a flit goes to -/

section
variable {s : State} {p : Fin 8} {n : BitVec 6} {st : Stream} (index : BitVec 22) (payload : List Byte) (poison : BitVec 15) (nf : Bool)

/-- The flit of the payload under a stream number. -/
def dataFlit (index : BitVec 22) (payload : List Byte) (poison : BitVec 15) (nf : Bool) (n : Nat) : TxFlit :=
  ⟨1, BitVec.ofNat 28 (n * 2 ^ 22 + index.toNat), payload, poison, nf⟩

theorem exec_dataFlit_refused (hst : s.courier.streams.find (64 * p.val + n.toNat) = some st)
    (h : st.nextIndex ≠ index.toNat ∨ (s.port p.val).carries = false ∨
      (s.port p.val).hasFlit (dataFlit index payload poison nf n.toNat) = false ∨
      (s.routeOf st.tag = none ∧ s.queueOf st.tag false = none ∧ Config.shipment st.tag = none)) :
    exec (.dataFlit p n index payload poison nf) s = .next s := by
  show execDataFlit p n index payload poison nf s = _
  unfold execDataFlit
  dsimp only
  rw [hst]
  dsimp only
  split
  · rfl
  · next claimed =>
    rw [State.fromPort, if_neg]
    intro accepted
    rw [Bool.and_eq_true] at accepted
    obtain ⟨carries, has⟩ := accepted
    rcases h with h | h | h | ⟨route, queue, ship⟩
    · exact claimed (.inl h)
    · exact Bool.false_ne_true (h.symm.trans carries)
    · exact Bool.false_ne_true (h.symm.trans has)
    · exact claimed (.inr ⟨by rw [route]; rfl, by rw [queue]; rfl, by rw [ship]; rfl⟩)

variable (hst : s.courier.streams.find (64 * p.val + n.toNat) = some st)
  (hacc : Accepts s p.val (dataFlit index payload poison nf n.toNat)) (hidx : st.nextIndex = index.toNat)
include hst hacc hidx

theorem exec_dataFlit_command {k : CCmd} (hroute : s.routeOf st.tag = some k) : ∃ last,
    let u := s.dataTaken p.val (64 * p.val + n.toNat) st last (dataFlit index payload poison nf n.toNat) (dataFlit index payload poison nf)
    exec (.dataFlit p n index payload poison nf) s = .next
      (if k.status.isSome || (s.cmdOf st.tag).isNone then u else u.acceptBytes k st (markedFlit payload poison nf)) := by
  obtain ⟨carries, has⟩ := hacc
  refine ⟨decide (st.count * k.f.es ≤ 240 * st.nextIndex + payload.length), ?_⟩
  show execDataFlit p n index payload poison nf s = _
  unfold execDataFlit
  dsimp only
  rw [hst]
  dsimp only
  rw [hroute]
  dsimp only
  rw [if_neg (by simp [hidx]), State.fromPort, if_pos (by rw [carries]; exact has)]
  rfl

theorem exec_dataFlit_queue {c key : Nat} {q : PipeQueue} (hroute : s.routeOf st.tag = none)
    (hqueue : s.queueOf st.tag false = some (c, key, q)) :
    let last := decide (st.count * (widthOf q.elem / 8) ≤ 240 * st.nextIndex + payload.length)
    exec (.dataFlit p n index payload poison nf) s = .next ((s.dataTaken p.val (64 * p.val + n.toNat) st last
      (dataFlit index payload poison nf n.toNat) (dataFlit index payload poison nf)).acceptEntry c key q st
        (markedFlit payload poison nf) last) := by
  obtain ⟨carries, has⟩ := hacc
  show execDataFlit p n index payload poison nf s = _
  unfold execDataFlit
  dsimp only
  rw [hst]
  dsimp only
  rw [hroute, hqueue]
  dsimp only
  rw [if_neg (by simp [hidx]), State.fromPort, if_pos (by rw [carries]; exact has)]
  rfl

theorem exec_dataFlit_shipment {c va : Nat} (hroute : s.routeOf st.tag = none) (hqueue : s.queueOf st.tag false = none)
    (hship : Config.shipment st.tag = some (c, va)) : ∃ last,
    exec (.dataFlit p n index payload poison nf) s = .next ((s.dataTaken p.val (64 * p.val + n.toNat) st last
      (dataFlit index payload poison nf n.toNat) (dataFlit index payload poison nf)).landShipment st.tag st
        (markedFlit payload poison nf)) := by
  obtain ⟨carries, has⟩ := hacc
  refine ⟨decide (st.count * 1 ≤ 240 * st.nextIndex + payload.length), ?_⟩
  show execDataFlit p n index payload poison nf s = _
  unfold execDataFlit
  dsimp only
  rw [hst]
  dsimp only
  rw [hroute, hqueue]
  dsimp only
  rw [if_neg (by simp [hidx, hship]), State.fromPort, if_pos (by rw [carries]; exact has)]
  rfl

end

/-! ### A contribution that is held for the fold (R400, R401) -/

theorem Beside.group {u t : State} (h : Beside u t) (c : Nat) (axes : List Nat) : t.group c axes = u.group c axes := by
  have cfg := h.2 c
  have position : t.position c = u.position c := by
    obtain ⟨⟨_, _, _, _, rfl⟩, -⟩ := h
    funext axis
    simp only [State.position, cfg]
  simp only [State.group, position, cfg]

theorem State.noteJob_beside (s : State) (c : Nat) (b : Bool) : Beside s (s.noteJob c b) := by
  unfold State.noteJob
  split
  · refine ⟨⟨_, _, _, _, rfl⟩, fun d => ?_⟩
    by_cases hd : d = c
    · rw [hd, State.job_setJob_same]
    · rw [State.job_setJob_other _ _ hd]
  · exact Beside.refl s

/-- A command with a flit of its contribution held. -/
def CCmd.holding (k : CCmd) (tick : Nat) (st : Stream) (l : List MByte) : CCmd :=
  { k with
    pieces := k.pieces ++ [⟨st.origin, st.offset * k.f.es + 240 * st.nextIndex, l⟩]
    since := tick, nonfinite := k.nonfinite || l.any (·.nonfinite) }

/-- A flit of one contributor brings nothing of another. -/
theorem CCmd.holding_upTo (k : CCmd) (tick : Nat) (st : Stream) (l : List MByte) {x : Nat} (hx : x ≠ st.origin) :
    (k.holding tick st l).upTo x = k.upTo x := by
  have none_ : [(⟨st.origin, st.offset * k.f.es + 240 * st.nextIndex, l⟩ : Piece)].filter (fun p => p.sender = x) = [] :=
    List.filter_cons_of_neg (by simpa using hx.symm)
  simp only [CCmd.upTo, CCmd.holding, List.filter_append, none_, List.append_nil]

theorem State.cmdOf_setCmd {s : State} {tag : BitVec 16} {k k1 : CCmd} (h : s.cmdOf tag = some k) (hctx : k1.ctx = k.ctx)
    (htag : k1.tag = k.tag) : (s.setCmd k1).cmdOf tag = some k1 := by
  have tags : ((fun x : CCmd => x.tag == tag) ∘ fun x => if x.ctx.val = k1.ctx.val ∧ x.tag = k1.tag then k1 else x) =
      fun x => x.tag == tag := by
    funext x
    dsimp only [Function.comp_apply]
    split
    · next hx => rw [hx.2]
    · rfl
  show (s.courier.cmds.map _).find? _ = _
  rw [List.find?_map, tags, show s.courier.cmds.find? (fun x => x.tag == tag) = some k from h, Option.map_some, hctx, htag,
    if_pos ⟨rfl, rfl⟩]

/-- Among the commands a command that has been set stands alone under its context and TAG. -/
theorem State.setCmd_unique {s : State} {k q : CCmd} (hq : q ∈ (s.setCmd k).courier.cmds) (hctx : q.ctx = k.ctx) (htag : q.tag = k.tag) :
    q = k := by
  obtain ⟨x, -, rfl⟩ := List.mem_map.mp hq
  split at hctx
  · next h => rw [if_pos h]
  · next h =>
    rw [if_neg h] at htag
    exact absurd ⟨congrArg Fin.val hctx, htag⟩ h

/-- Nothing is folded while the command has not started, or a contribution to its chunk has not come. -/
theorem State.foldOut_short {s : State} {k : CCmd} (n : Nat) (h : k.started = false ∨
    ∃ x, x < (k.group (s.setCmd k)).size ∧ k.upTo x < k.grantedTo) : (s.setCmd k).foldOut k n = s.setCmd k := by
  have waits : (s.setCmd k).cmdFold k = s.setCmd k := by
    refine if_pos ?_
    rcases h with h | ⟨x, small, short⟩
    · exact .inl (by rw [h]; rfl)
    · exact .inr (.inr (List.any_eq_true.mpr ⟨x, List.mem_range.mpr small, decide_eq_true short⟩))
  cases n with
  | zero => rfl
  | succ n =>
    unfold State.foldOut
    dsimp only
    rw [waits]
    split
    · next q hq =>
      have same := List.find?_some hq
      rw [Bool.and_eq_true, beq_iff_eq, beq_iff_eq] at same
      rw [State.setCmd_unique (List.mem_of_find?_eq_some hq) same.1 same.2, if_neg]
      simp
    · rfl

theorem State.acceptBytes_held {s : State} {k : CCmd} {st : Stream} {l : List MByte} (hop : k.f.op = 1 ∨ k.f.op = 2)
    (hrelay : k.relayed (k.group s) st.final st.offset = false) (hfinal : st.final = (k.group s).me)
    (hshort : k.started = false ∨ ∃ x, x < (k.group s).size ∧ x ≠ st.origin ∧ k.upTo x < k.grantedTo) :
    s.acceptBytes k st l = (s.noteJob k.ctx.val (l.any (·.nonfinite))).setCmd (k.holding s.tick st l) := by
  have waits := State.foldOut_short (s := s.noteJob k.ctx.val (l.any (·.nonfinite))) (k := k.holding s.tick st l)
    ((k.holding s.tick st l).owes (k.group s) / 4 + 1) (hshort.imp id fun ⟨x, small, other, short⟩ => ?_)
  · have group : (k.holding s.tick st l).group ((s.noteJob k.ctx.val (l.any (·.nonfinite))).setCmd (k.holding s.tick st l)) = k.group s :=
      (s.noteJob_beside k.ctx.val (l.any (·.nonfinite))).group k.ctx.val k.f.named
    refine ⟨x, ?_, ?_⟩
    · rw [group]
      exact small
    · rw [k.holding_upTo _ _ _ other]
      exact short
  · unfold State.acceptBytes
    dsimp only
    rw [hrelay, if_neg Bool.false_ne_true, if_neg (not_not_intro hfinal)]
    rcases hop with hop | hop
    · rw [hop]
      exact waits
    · rw [hop]
      exact waits

/-! ### Bytes that are written at once (R396, R404) -/

theorem markedFlit_length (payload : List Byte) (poison : BitVec 15) (nf : Bool) : (markedFlit payload poison nf).length = payload.length :=
  List.length_mapIdx

/-- A write that ends well is counted, and changes beside the bytes which lines are poisoned alone. -/
theorem State.cmdPut_counts {s s1 : State} {k : CCmd} {va : Nat} {l : List MByte}
    (h : (s.noteJob k.ctx.val (l.any (·.nonfinite))).vput k.ctx.val va l = (s1, none)) :
    ∃ (w : State) (k' : CCmd), s.cmdPut k va l true = w.setCmd k' ∧
      w.mem.data = s1.mem.data ∧ w.courier = s1.courier ∧ k'.ctx = k.ctx ∧ k'.tag = k.tag ∧ k'.got = k.got + l.length := by
  have put : ∃ (w : State) (k' : CCmd), s.cmdPut k va l true = w.setCmd k' ∧ (∃ b, w = (s1.cleanLines k.ctx.val va l.length
      (cleanAfter k.clean va l)).noteBucket k.ctx.val k.action b) ∧ k'.ctx = k.ctx ∧ k'.tag = k.tag ∧ k'.got = k.got + l.length := by
    unfold State.cmdPut
    dsimp only
    rw [h]
    exact ⟨_, _, rfl, ⟨_, rfl⟩, rfl, rfl, rfl⟩
  obtain ⟨w, k', hput, ⟨b, rfl⟩, ctx, tag, got⟩ := put
  obtain ⟨_, cleaned⟩ := s1.cleanLines_poison k.ctx.val va l.length (cleanAfter k.clean va l)
  refine ⟨_, k', hput, ?_, ?_, ctx, tag, got⟩
  · unfold State.noteBucket
    rw [cleaned]
    split <;> rfl
  · unfold State.noteBucket
    rw [cleaned]
    split <;> rfl

theorem State.acceptBytes_relayed {s : State} {k : CCmd} (hop : k.f.op = 0 ∨ k.f.op = 5) (st : Stream) (l : List MByte) :
    s.acceptBytes k st l = s.cmdPut k (k.f.dst + st.offset * k.f.es + 240 * st.nextIndex) l true := by
  refine if_pos ?_
  rcases hop with hop | hop
  · rw [CCmd.relayed, hop]
    rfl
  · rw [CCmd.relayed, hop]
    rfl

/-! ### A queue's entries and a shipment (R305, R403, R415) -/

/-- A receiving queue with more bytes come. -/
def PipeQueue.received (q : PipeQueue) (landed : Nat) (ends parts : List (Nat × Nat)) : PipeQueue :=
  { q with landed := landed, ends := ends, partial_ := parts }

theorem State.acceptEntry_written {s s1 : State} {c key : Nat} {q : PipeQueue} {st : Stream} {l : List MByte} (last : Bool)
    (h : (s.noteJob c (l.any (·.nonfinite))).vput c (q.base + (st.offset * (widthOf q.elem / 8) + 240 * st.nextIndex)) l = (s1, none)) :
    ∃ landed ends parts, s.acceptEntry c key q st l last = s1.setQueue c key (q.received landed ends parts) := by
  unfold State.acceptEntry
  dsimp only
  rw [h]
  dsimp only
  split
  · exact ⟨_, _, _, rfl⟩
  · exact ⟨_, _, _, rfl⟩

/-- An entry whose bytes come in one flit lands with it. -/
theorem State.acceptEntry_lands {s s1 : State} {c key : Nat} {q : PipeQueue} {st : Stream} {l : List MByte} (hfirst : st.nextIndex = 0)
    (hlines : 0 < q.entryLines) (hslot : st.offset * (widthOf q.elem / 8) % (64 * q.entryLines) = 0)
    (hlen : l.length = 64 * q.entryLines) (hnone : q.partial_ = []) (hends : q.ends = [])
    (h : (s.noteJob c (l.any (·.nonfinite))).vput c (q.base + (st.offset * (widthOf q.elem / 8) + 240 * st.nextIndex)) l = (s1, none)) :
    ∃ ends parts, s.acceptEntry c key q st l true = s1.setQueue c key (q.received (q.landed + 1) ends parts) := by
  have size : 0 < 64 * q.entryLines := by omega
  have slot : 64 * q.entryLines * (st.offset * (widthOf q.elem / 8) / (64 * q.entryLines)) = st.offset * (widthOf q.elem / 8) :=
    Nat.mul_div_cancel' (Nat.dvd_of_mod_eq_zero hslot)
  unfold State.acceptEntry
  dsimp only
  rw [h]
  dsimp only
  rw [hfirst, hnone, hends, hlen, Nat.mul_zero, Nat.add_zero, Nat.max_eq_right size]
  generalize st.offset * (widthOf q.elem / 8) / (64 * q.entryLines) = n at slot
  rw [← slot]
  have whole : (true && (decide (64 * q.entryLines * n + 64 * q.entryLines = 64 * q.entryLines * (n + 1)) ||
      decide (st.count * (widthOf q.elem / 8) < s.segmentBytes))) = true := by simp [Nat.mul_succ]
  rw [if_pos whole]
  have lands : [(n, 64 * q.entryLines * n + 64 * q.entryLines)].find? (fun e =>
      covered ([] ++ [(64 * q.entryLines * n, 64 * q.entryLines)]) e.2
        (([] ++ [(64 * q.entryLines * n, 64 * q.entryLines)] : List (Nat × Nat)).length + 1) (64 * q.entryLines * e.1)) =
      some (n, 64 * q.entryLines * n + 64 * q.entryLines) := List.find?_cons_of_pos (by simp [covered, size])
  rw [lands]
  exact ⟨_, _, rfl⟩

theorem State.setQueue_find (s : State) (c key : Nat) (q : PipeQueue) : ((s.setQueue c key q).job c).queues.find key = some q := by
  rw [State.setQueue, State.job_setJob_same]
  exact Tbl.find_set_same _ _ _

/-- A write begun beside the statement's, with the job's flag noted, ends as that one does. -/
theorem Beside.noted_vput {u t w : State} (h : Beside u t) {c va : Nat} {l : List MByte} (b : Bool) (hput : u.vput c va l = (w, none)) :
    ∃ x, (t.noteJob c b).vput c va l = (x, none) ∧ Beside w x ∧ MemoryOnly (t.noteJob c b) x := by
  obtain ⟨goes, ends⟩ := (h.trans (t.noteJob_beside c b)).vput c va l
  have only := (t.noteJob c b).vput_memoryOnly c va l
  rw [hput] at goes ends
  exact ⟨_, Prod.ext rfl ends, goes, only⟩

/-! ### What becomes of a flit that is taken -/

section
variable {s : State} {p : Fin 8} {n : BitVec 6} {st : Stream} {index : BitVec 22} {payload : List Byte} {poison : BitVec 15} {nf : Bool}
  (hst : s.courier.streams.find (64 * p.val + n.toNat) = some st)
  (hacc : Accepts s p.val (dataFlit index payload poison nf n.toNat)) (hidx : st.nextIndex = index.toNat)
include hst hacc hidx

theorem dataFlit_counted {k : CCmd} (hcmd : s.cmdOf st.tag = some k) : ∃ t, exec (.dataFlit p n index payload poison nf) s = .next t ∧
    t.courier.rx.get 0 p.val = s.courier.rx.get 0 p.val + BitVec.ofNat 64 payload.length ∧
    (t.port p.val).rx = ((s.port p.val).takeFlit (dataFlit index payload poison nf n.toNat)).rx ∧
    ∀ d ∈ st.relays, dataFlit index payload poison nf d.2 ∈ (t.port d.1).class1 := by
  obtain ⟨last, hexec⟩ := exec_dataFlit_command index payload poison nf hst hacc hidx (k := k) (by rw [State.routeOf, hcmd])
  obtain ⟨rx, received, sent⟩ := s.dataTaken_keeps p.val (64 * p.val + n.toNat) st last (dataFlit index payload poison nf n.toNat)
    (dataFlit index payload poison nf)
  dsimp only at hexec
  generalize s.dataTaken p.val (64 * p.val + n.toNat) st last (dataFlit index payload poison nf n.toNat)
    (dataFlit index payload poison nf) = u at hexec rx received sent
  have goes : SendsOn u (if k.status.isSome || (s.cmdOf st.tag).isNone then u
      else u.acceptBytes k st (markedFlit payload poison nf)) := .ite (SendsOn.refl u) (u.acceptBytes_sendsOn _ _ _)
  obtain ⟨-, counts, ports⟩ := goes
  exact ⟨_, hexec, by rw [counts, rx]; rfl, (ports p.val).1.trans received, fun d hd => (ports d.1).2 _ (sent d hd)⟩

/-- A flit of a command in progress goes to it from a state that differs in the Courier and the ports alone. -/
theorem exec_dataFlit_accepts {k : CCmd} (hcmd : s.cmdOf st.tag = some k) (hopen : k.status = none) : ∃ courier ports,
    courier.cmds = s.courier.cmds ∧ exec (.dataFlit p n index payload poison nf) s = .next
      (State.acceptBytes { s with courier := courier, ports := ports } k st (markedFlit payload poison nf)) := by
  obtain ⟨last, hexec⟩ := exec_dataFlit_command index payload poison nf hst hacc hidx (k := k) (by rw [State.routeOf, hcmd])
  obtain ⟨courier, ports, taken, cmds⟩ := s.dataTaken_eq p.val (64 * p.val + n.toNat) st last (dataFlit index payload poison nf n.toNat)
    (dataFlit index payload poison nf)
  refine ⟨courier, ports, cmds, ?_⟩
  rw [hexec, taken, hcmd, hopen]
  rfl

theorem dataFlit_held {k : CCmd} (hcmd : s.cmdOf st.tag = some k) (hopen : k.status = none) (hop : k.f.op = 1 ∨ k.f.op = 2)
    (hrelay : k.relayed (k.group s) st.final st.offset = false) (hfinal : st.final = (k.group s).me)
    (hshort : k.started = false ∨ ∃ x, x < (k.group s).size ∧ x ≠ st.origin ∧ k.upTo x < k.grantedTo) :
    ∃ t, exec (.dataFlit p n index payload poison nf) s = .next t ∧ t.mem = s.mem ∧ t.tiles = s.tiles ∧
      t.cmdOf st.tag = some (k.holding s.tick st (markedFlit payload poison nf)) := by
  obtain ⟨courier, ports, cmds, hexec⟩ := exec_dataFlit_accepts hst hacc hidx hcmd hopen
  have same : Beside s { s with courier := courier, ports := ports } := ⟨⟨_, _, _, _, rfl⟩, fun _ => rfl⟩
  have group : k.group { s with courier := courier, ports := ports } = k.group s := same.group _ _
  rw [State.acceptBytes_held hop (by rwa [group]) (by rwa [group]) (by rwa [group])] at hexec
  refine ⟨_, hexec, ?_, ?_, State.cmdOf_setCmd (k := k) ?_ rfl rfl⟩
  · unfold State.noteJob
    split <;> rfl
  · unfold State.noteJob
    split <;> rfl
  · unfold State.noteJob State.cmdOf
    split
    · exact (congrArg (List.find? fun k : CCmd => k.tag == st.tag) cmds).trans hcmd
    · exact (congrArg (List.find? fun k : CCmd => k.tag == st.tag) cmds).trans hcmd

theorem dataFlit_written {k : CCmd} {s1 : State} (hcmd : s.cmdOf st.tag = some k) (hopen : k.status = none)
    (hop : k.f.op = 0 ∨ k.f.op = 5) (hput : s.vput k.ctx.val (k.f.dst + st.offset * k.f.es + 240 * st.nextIndex)
      (markedFlit payload poison nf) = (s1, none)) :
    ∃ t k', exec (.dataFlit p n index payload poison nf) s = .next t ∧ t.mem.data = s1.mem.data ∧ t.tiles = s.tiles ∧
      t.cmdOf st.tag = some k' ∧ k'.got = k.got + payload.length := by
  obtain ⟨courier, ports, cmds, hexec⟩ := exec_dataFlit_accepts hst hacc hidx hcmd hopen
  have same : Beside s { s with courier := courier, ports := ports } := ⟨⟨_, _, _, _, rfl⟩, fun _ => rfl⟩
  obtain ⟨x, hx, goes, only⟩ := same.noted_vput ((markedFlit payload poison nf).any (·.nonfinite)) hput
  obtain ⟨w, k', written, data, kept, ctx, tag, got⟩ := State.cmdPut_counts hx
  have tiles := State.acceptBytes_sendsOn { s with courier := courier, ports := ports } k st (markedFlit payload poison nf)
  obtain ⟨tiles, -, -⟩ := tiles
  have relayed := State.acceptBytes_relayed (s := { s with courier := courier, ports := ports }) hop st (markedFlit payload poison nf)
  rw [relayed.trans written] at hexec tiles
  refine ⟨_, k', hexec, ?_, tiles, State.cmdOf_setCmd (k := k) ?_ ctx tag, by rw [got, markedFlit_length]⟩
  · show w.mem.data = _
    rw [data, goes.mem]
  · have found : w.courier.cmds = s.courier.cmds := by
      rw [kept]
      obtain ⟨_, _, _, _, rfl⟩ := only
      unfold State.noteJob
      split <;> exact cmds
    exact (congrArg (List.find? fun k : CCmd => k.tag == st.tag) found).trans hcmd

theorem dataFlit_entry {c key : Nat} {q : PipeQueue} {s1 : State} (hroute : s.routeOf st.tag = none)
    (hqueue : s.queueOf st.tag false = some (c, key, q))
    (hput : s.vput c (q.base + (st.offset * (widthOf q.elem / 8) + 240 * st.nextIndex)) (markedFlit payload poison nf) = (s1, none)) :
    ∃ t q', exec (.dataFlit p n index payload poison nf) s = .next t ∧ t.mem = s1.mem ∧ t.tiles = s.tiles ∧
      (t.job c).queues.find key = some q' ∧ q'.credits = q.credits ∧ q'.released = q.released ∧
      (st.nextIndex = 0 → 0 < q.entryLines → st.offset * (widthOf q.elem / 8) % (64 * q.entryLines) = 0 →
        payload.length = 64 * q.entryLines → st.count * (widthOf q.elem / 8) = 64 * q.entryLines → q.partial_ = [] →
        q.ends = [] → q'.landed = q.landed + 1) := by
  have hexec := exec_dataFlit_queue index payload poison nf hst hacc hidx hroute hqueue
  dsimp only at hexec
  have same := s.dataTaken_beside p.val (64 * p.val + n.toNat) st
    (decide (st.count * (widthOf q.elem / 8) ≤ 240 * st.nextIndex + payload.length)) (dataFlit index payload poison nf n.toNat)
    (dataFlit index payload poison nf)
  generalize s.dataTaken p.val (64 * p.val + n.toNat) st
    (decide (st.count * (widthOf q.elem / 8) ≤ 240 * st.nextIndex + payload.length)) (dataFlit index payload poison nf n.toNat)
    (dataFlit index payload poison nf) = u at hexec same
  obtain ⟨x, hx, goes, only⟩ := same.noted_vput ((markedFlit payload poison nf).any (·.nonfinite)) hput
  have tiles : x.tiles = s.tiles := by
    have noted := (same.trans (u.noteJob_beside c ((markedFlit payload poison nf).any (·.nonfinite)))).1
    obtain ⟨_, _, _, _, noted⟩ := noted
    obtain ⟨_, _, _, _, rfl⟩ := only
    rw [noted]
  obtain ⟨landed, ends, parts, received⟩ := State.acceptEntry_written (key := key)
    (decide (st.count * (widthOf q.elem / 8) ≤ 240 * st.nextIndex + payload.length)) hx
  refine ⟨_, q.received landed ends parts, hexec.trans (congrArg _ received), goes.mem, tiles, State.setQueue_find _ _ _ _, rfl, rfl,
    fun hfirst hlines hslot hlen hcount hnone hends => ?_⟩
  have last : decide (st.count * (widthOf q.elem / 8) ≤ 240 * st.nextIndex + payload.length) = true := by
    rw [hcount, hlen]
    exact decide_eq_true (Nat.le_add_left _ _)
  obtain ⟨ends', parts', lands⟩ := State.acceptEntry_lands (key := key) hfirst hlines hslot
    ((markedFlit_length payload poison nf).trans hlen) hnone hends hx
  rw [last, lands] at received
  have one := State.setQueue_find x c key (q.received landed ends parts)
  rw [← received, State.setQueue_find] at one
  exact (congrArg PipeQueue.landed (Option.some.inj one)).symm

theorem dataFlit_shipped {c va : Nat} {s1 : State} (hroute : s.routeOf st.tag = none) (hqueue : s.queueOf st.tag false = none)
    (hship : Config.shipment st.tag = some (c, va))
    (hput : s.vput c (va + st.offset + 240 * st.nextIndex) (markedFlit payload poison nf) = (s1, none)) :
    ∃ t, exec (.dataFlit p n index payload poison nf) s = .next t ∧ t.mem = s1.mem ∧ t.tiles = s.tiles ∧ t.jobs = s.jobs := by
  obtain ⟨last, hexec⟩ := exec_dataFlit_shipment index payload poison nf hst hacc hidx hroute hqueue hship
  obtain ⟨courier, ports, taken, -⟩ := s.dataTaken_eq p.val (64 * p.val + n.toNat) st last (dataFlit index payload poison nf n.toNat)
    (dataFlit index payload poison nf)
  have same : Beside s { s with courier := courier, ports := ports } := ⟨⟨_, _, _, _, rfl⟩, fun _ => rfl⟩
  obtain ⟨x, hx, goes, only⟩ := same.noted_vput false hput
  have lands : State.landShipment { s with courier := courier, ports := ports } st.tag st (markedFlit payload poison nf) = x := by
    unfold State.landShipment
    rw [hship]
    dsimp only
    rw [show State.vput { s with courier := courier, ports := ports } c (va + st.offset + 240 * st.nextIndex)
      (markedFlit payload poison nf) = (x, none) from hx]
  rw [taken, lands] at hexec
  refine ⟨x, hexec, goes.mem, ?_⟩
  obtain ⟨_, _, _, _, rfl⟩ := only
  exact ⟨rfl, rfl⟩

end

end Sys2Proof.Machine

namespace Sys2Proof
open Sys2Proof.Machine Sys2Proof.Claims

/-- Settles O31: a taken flit changes the Courier and the ports alone before it goes to its command, queue or shipment, so that its
bytes are written as from the state before. -/
theorem flitsAreHeldForTheFold : Obligations.FlitsAreHeldForTheFold := by
  intro s p n index payload poison nf st hst i l fl
  refine ⟨fun hacc hidx => ⟨fun k hcmd => ⟨dataFlit_counted hst hacc hidx hcmd, ?_, ?_⟩, ?_, ?_⟩,
    exec_dataFlit_refused index payload poison nf hst⟩
  · exact fun hopen hop hrelay hfinal hshort => dataFlit_held hst hacc hidx hcmd hopen hop hrelay hfinal hshort
  · exact fun s1 hopen hop hput => dataFlit_written hst hacc hidx hcmd hopen hop hput
  · exact fun c key q s1 hroute hqueue hput => dataFlit_entry hst hacc hidx hroute hqueue hput
  · exact fun c va s1 hroute hqueue hship hput => dataFlit_shipped hst hacc hidx hroute hqueue hship hput

end Sys2Proof
end
